-- ==== Sys2Proof/Word.lean ====
section
/-! DEFINITION. The word and byte types of the register port and of the DRAM, and the sparse table in one canonical form that
State uses for whatever is numbered (registers fields, memory cells, ports, channels, surfaces, lines). -/

namespace Sys2Proof

/-- A 32-bit register word (R443). -/
abbrev Word := BitVec 32
/-- One byte. -/
abbrev Byte := BitVec 8

/-- A sparse table: (key, value) pairs with strictly rising keys; a key that is not listed holds the default the reader names. -/
abbrev Tab (α : Type) := List (Nat × α)

/-- The value listed at key `k`, if one is listed. -/
def Tab.find {α : Type} : Tab α → Nat → Option α
  | [], _ => none
  | (a, v) :: t, k => if k = a then some v else Tab.find t k

/-- The value at key `k`, the default `d` where none is listed. -/
def Tab.get {α : Type} (d : α) (t : Tab α) (k : Nat) : α := (Tab.find t k).getD d

/-- List `v` at key `k`, in rising order, replacing what stood there. -/
def Tab.insert {α : Type} (k : Nat) (v : α) : Tab α → Tab α
  | [] => [(k, v)]
  | (a, u) :: t =>
    if k < a then (k, v) :: (a, u) :: t
    else if k = a then (k, v) :: t
    else (a, u) :: Tab.insert k v t

/-- Unlist key `k`. -/
def Tab.erase {α : Type} (k : Nat) : Tab α → Tab α
  | [] => []
  | (a, u) :: t => if k = a then t else (a, u) :: Tab.erase k t

/-- Make key `k` hold `v`; a value equal to the default is not listed. -/
def Tab.put {α : Type} [DecidableEq α] (d : α) (k : Nat) (v : α) (t : Tab α) : Tab α :=
  if v = d then Tab.erase k t else Tab.insert k v t

/-- Every listed key is above `k`. -/
def Tab.above {α : Type} (k : Nat) (t : Tab α) : Bool := t.all fun e => decide (k < e.1)

/-- The canonical form: keys strictly rise. -/
def Tab.rising {α : Type} : Tab α → Bool
  | [] => true
  | (a, _) :: t => Tab.above a t && Tab.rising t

/-- Bits [lsb + width - 1 : lsb] of a word, as a number. -/
def bits (w : Nat) (lsb width : Nat) : Nat := w / 2 ^ lsb % 2 ^ width

/-- Bit `n` of a number. -/
def bit (w n : Nat) : Bool := w / 2 ^ n % 2 == 1

/-- The number of a Bool. -/
def b2n (b : Bool) : Nat := if b then 1 else 0

/-- Rounded-up quotient. -/
def cdiv (a b : Nat) : Nat := (a + b - 1) / b

/-- Saturating sum of an unsigned counter of `width` bits (R450). -/
def satAdd (width a n : Nat) : Nat := min (a + n) (2 ^ width - 1)

/-- Two's complement of `width` bits, read as an integer. -/
def sext (width v : Nat) : Int :=
  if v % 2 ^ width < 2 ^ (width - 1) then (v % 2 ^ width : Nat) else ((v % 2 ^ width : Nat) : Int) - (2 ^ width : Nat)

/-- An integer as `width` bits of two's complement. -/
def toTwos (width : Nat) (i : Int) : Nat := (i % ((2 ^ width : Nat) : Int)).toNat

end Sys2Proof
end

