-- ==== Sys2Proof/Config.lean ====
section
/-! DEFINITION. What one delivered part fixes and the spec leaves open: the four builds, and the free values, constants with no
body, so that no proof can see what they are. -/

namespace Sys2Proof

/-- The four builds of the design (R1). -/
inductive Build where
  | zm9608
  | zm9616
  | zm9624
  | zm9632
deriving DecidableEq, Repr

/-- Channels of a build, C of R2. -/
def Build.channels : Build → Nat
  | .zm9608 => 8
  | .zm9616 => 16
  | .zm9624 => 24
  | .zm9632 => 32

/-- Port groups of a build, G of R2. -/
def Build.groups : Build → Nat
  | .zm9608 => 2
  | .zm9616 => 4
  | .zm9624 => 6
  | .zm9632 => 8

/-- GLB_ID.PART and the BUILD_ID an image names (R69, R459). -/
def Build.part : Build → Nat
  | .zm9608 => 0x9608
  | .zm9616 => 0x9616
  | .zm9624 => 0x9624
  | .zm9632 => 0x9632

/-- Builds whose event moderation counts or coalesces by time (R1, R419). -/
def Build.coalesces : Build → Bool
  | .zm9608 => true
  | .zm9616 => true
  | .zm9624 => false
  | .zm9632 => false

namespace Config

/-- FREE VALUE. The byte that DRAM holds where nothing has written since the channel's contents last became undefined: the first
argument counts those occasions, the second is the storage key (R344, R362; log entry 3). -/
opaque dramByte : Nat → Nat → Byte

/-- FREE VALUE. The drift, in delay steps, that the standard's relation gives for an oscillator count against its baseline
(R352 names the relation and does not state it; log entry 4). -/
opaque oscSteps : Nat → Nat → Int

/-- FREE VALUE. Byte `k` of a training state as the engine lays out the trained values listed (R350, R458 give the layout to the engine alone; log
entry 5). -/
opaque trainedByte : List Int → Nat → Byte

/-- FREE VALUE. The trained values that the bytes of a training state written by firmware hold in the engine's layout (R351, R458; log entry 5). -/
opaque trainedVals : List Byte → List Int

/-- FREE VALUE. Byte `k` of a saved copy that is not valid, for the occasion numbered by the first argument (R351, R370; log entry 5). -/
opaque copyByte : Nat → Nat → Byte

/-- FREE VALUE. Byte `k` of an atom as a read burst with an uncorrectable link error delivers it, for the occasion numbered by the first argument (R358,
R366; log entry 158). -/
opaque linkByte : Nat → Nat → Byte

/-- FREE VALUE. Byte `o` of the engine reserve as the engine writes a surface's descriptor and extent maps there, for the generation that the first
argument names (R174 gives their sizes and no layout; log entry 104). -/
opaque rsvByte : Nat → Nat → Byte

/-- FREE VALUE. The run time of the oscillators that SETPOINT writes, in CK cycles (R341, R352; log entry 159). -/
opaque oscRunCk : Nat

/-- FREE VALUE. The aonclk cycles that have passed since the clocks stopped, where a wake edge comes by a command that does not count them
(R411; log entry 157). -/
opaque duskCycles : Nat → Nat

end Config
end Sys2Proof
end

