-- ==== Sys2Proof/Syntax.lean ====
section
/-! DEFINITION. The commands of the block: one constructor per row of spec/opcode_table.json. A row that is a register write carries
the data word of the write (the bit that names the row counts as 1) and the processor target that made it (R446). An operand named `c` is
the cclk count at which the happening takes place, `t` a tclk count, `ck` a CK count. What only the surroundings can decide (a wire's
level, what a die answers, whether a training passes) is an operand. -/

namespace Sys2Proof

/-- The fields of a request beat (R112 to R114), both signal sets together. -/
structure Req where
  tag : Nat := 0
  flow : Nat := 0
  colour : Nat := 0
  priv : Nat := 0
  wait : Bool := false
  handle : Nat := 0
  plane : Nat := 0
  x : Nat := 0
  y : Nat := 0
  w : Nat := 0
  h : Nat := 0
  addr : Nat := 0
  len : Nat := 0
deriving DecidableEq, Repr

/-- What a die answers to the mode register read that the controller issues in this step: the MR4 rate code (R331) or the two
oscillator counts (R352). -/
structure MrrData where
  rate : Nat := 2
  oscI : Nat := 0
  oscO : Nat := 0
deriving DecidableEq, Repr

/-- What IDENTIFY reads from one rank (R345). -/
structure DieId where
  mr5 : Nat := 0
  mr6 : Nat := 0
  mr8 : Nat := 0
  rate : Nat := 2
  rfmReq : Bool := false
  raaimt : Nat := 0
  raammt : Nat := 0
deriving DecidableEq, Repr

/-- What a long training finds (R355, R357): the read windows of DQ[15:0] and DMI[1:0] and then their write windows, each as its first delay and its
width in steps; the read Vref of bytes 0 and 1 and their write Vref; and the two oscillator counts. Other maintenance operations find nothing. -/
structure LongRes where
  wins : List (Nat × Nat) := []
  codes : List Nat := []
  oscI : Nat := 0
  oscO : Nat := 0
deriving DecidableEq, Repr

/-- How a Dawn step ends (R342). `trained` gives what a training step found: the passing window of each trained bit, as its first delay and its width in
steps, rank 0 first (CBT: CA[6:0] and CS of each rank; READ_TRAIN and WRITE_TRAIN: DQ[15:0] and DMI[1:0] of each rank), and the other settings (CBT:
the CA Vref of each rank; WCK_LEVEL: the WCK phases of bytes 0 and 1 of each rank; READ_TRAIN and WRITE_TRAIN: the Vref of bytes 0 and 1 of each
rank). -/
inductive DawnOut where
  | pass
  | trained (wins : List (Nat × Nat)) (codes : List Nat)
  | identified (r0 r1 : DieId)
  | measured (i0 o0 i1 o1 : Nat)
  | failed (rank cause bit : Nat)
deriving DecidableEq, Repr

/-- The commands (spec/opcode_table.json). -/
inductive Instr where
  /-- TICK_EDGE (R37): A rising edge on zt_tick_i is measured against the state's acceptance threshold and either accepted as a real tick or ignored
  as a runt. -/
  | tickEdge (t width : Nat)
  /-- FLYWHEEL_TICK (R488): The flywheel delay expires with no tick accepted, and a flywheel tick is generated. -/
  | flywheelTick (t : Nat)
  /-- TICK_CYCLE (R63): An accepted tick's strobe reaches cclk, and the engine performs every boundary action of the tick cycle in order. -/
  | tickCycle (c : Nat)
  /-- GATE_ENTRY_EXPIRY (R52): A gate list entry's duration elapses, and the next entry's mask takes over, or the closing entry is held. -/
  | gateEntryExpiry (d c : Nat)
  /-- BUDGET_WINDOW_START (R289): A budget window of the epoch begins at its programmed cycle. -/
  | budgetWindowStart (win c : Nat)
  /-- TICK_RELOCK_WRITE (R461): A write of TICK_CTL.RELOCK resets the intervals and puts the tick unit in ACQUIRE without ending the epoch. -/
  | tickRelockWrite (t : Nat) (w : Word) (tgt : Nat)
  /-- GATE_ARM (R59): Setting ARM compares GATE_ACT_EPOCH with the epoch in progress and arms the shadow list. -/
  | gateArm (d : Nat) (w : Word) (tgt : Nat)
  /-- GATE_DISARM (R58): Clearing ARM disarms the shadow list. -/
  | gateDisarm (d : Nat) (w : Word) (tgt : Nat)
  /-- REGISTER_WRITE (R12): A write to a register with no row of its own applies each field under its Takes effect class, or is refused with CFG_BUSY. -/
  | registerWrite (a : Nat) (w : Word) (tgt : Nat)
  /-- BUSY_REARM (R451): GLB_CTL.BUSY_REARM clears the capture of the first refused write. -/
  | busyRearm (w : Word) (tgt : Nat)
  /-- IMG_START (R92): A write of IMG_CTL.START moves the loader from IDLE to RECEIVING. -/
  | imgStart (w : Word) (tgt : Nat)
  /-- IMG_ABORT (R93): A write of IMG_CTL.ABORT discards the image in progress and returns the loader to IDLE. -/
  | imgAbort (w : Word) (tgt : Nat)
  /-- IMG_FIFO_WORD (R91): A write to IMG_FIFO hands the loader the next image word. -/
  | imgFifoWord (w : Word) (tgt : Nat)
  /-- IMG_STREAM_WORD (R91): A word transfers on the streaming image input. -/
  | imgStreamWord (w : Word) (last : Bool)
  /-- IMG_CHECK_DONE (R92): CHECKING completes the CRC and the cross-record rules, and moves to AUTH_WAIT, ADMITTING or IDLE. -/
  | imgCheckDone
  /-- IMG_AUTH_VERDICT (R71): A verdict strobe on img_auth_valid_i accepts or refuses an image waiting in AUTH_WAIT. -/
  | imgAuthVerdict (ok : Bool) (crc : Word)
  /-- IMG_ADMIT_DONE (R101): Admission completes, and either fails with ADMIT_FAIL or stages a partial image or applies a full image. -/
  | imgAdmitDone (c t : Nat)
  /-- CHANNEL_IMAGE_QUIESCED (R105): A channel under a partial image has entered self-refresh, takes the new values and starts its Dawn. -/
  | channelImageQuiesced
  /-- GROUP_QUIESCE_DONE (R107): A group under a partial image has drained, and its slice is flushed and the new values are applied and the freeze
  lifted. -/
  | groupQuiesceDone (c : Nat)
  /-- QUIESCE_TIMEOUT (R107): The group quiesce limit expires, and the load fails with nothing applied. -/
  | quiesceTimeout (c : Nat)
  /-- READ (R121): A READ request beat is taken, translated, looked up and answered with the block or the bytes. -/
  | read (p : Nat) (r : Req) (c : Nat)
  /-- WRITE (R116): A WRITE request beat is taken and opens a write transfer. -/
  | write (p : Nat) (r : Req) (c : Nat)
  /-- PREFETCH (R265): A PREFETCH hint brings the named block's lines into the side buffer. -/
  | prefetch (p : Nat) (r : Req) (c : Nat)
  /-- ZERO (R267): A ZERO request sets the block or range to the fill value or to zero. -/
  | zero (p : Nat) (r : Req) (c : Nat)
  /-- PRELOAD (R268): A PRELOAD request fills and locks every line the block covers, all or none. -/
  | preload (p : Nat) (r : Req) (c : Nat)
  /-- UNLOCK (R269): An UNLOCK request clears the lock of every line the block covers. -/
  | unlock (p : Nat) (r : Req) (c : Nat)
  /-- HOLD (R123): A HOLD request adds the port as a holder of the surface. -/
  | hold (p : Nat) (r : Req) (c : Nat)
  /-- DROP (R192): A DROP request removes the port's hold and frees the surface if it was the last holder. -/
  | drop (p : Nat) (r : Req) (c : Nat)
  /-- CREATE (R122): A CREATE request places and allocates a new surface, or answers NO_SPACE or waits in order. -/
  | create (p : Nat) (r : Req) (d : Option (BitVec 512)) (c : Nat)
  /-- WRITE_DATA_BEAT (R116): A write data beat is taken, and the last one closes the write transfer. -/
  | writeDataBeat (p : Nat) (data : BitVec 512) (mask : BitVec 64) (last : Bool) (c : Nat)
  /-- RESPONSE_BEAT (R120): The master takes a response beat, and the last beat frees the tag. -/
  | responseBeat (p c : Nat)
  /-- ATTACH_REQUEST (R137): The master raises sp_attach_i at a present, detached port. -/
  | attachRequest (p : Nat)
  /-- PORT_ATTACH (R137): The engine frees the port's tags and raises sp_attached_o. -/
  | portAttach (p : Nat)
  /-- DETACH_REQUEST (R138): The master lowers sp_attach_i, and the port stops taking requests and drains. -/
  | detachRequest (p : Nat)
  /-- PORT_FORCE_DETACH (R139): PORT_CTL.DETACH forces a detach, discarding queued transfers and responses. -/
  | portForceDetach (p : Nat) (w : Word) (tgt : Nat)
  /-- CANCEL_WAIT (R122): PORT_CTL.CANCEL_WAIT ends the port's space waits with ABORTED. -/
  | cancelWait (p : Nat) (w : Word) (tgt : Nat)
  /-- VIOL_REARM (R145): PORT_CTL.VIOL_REARM clears the port's violation capture. -/
  | violRearm (p : Nat) (w : Word) (tgt : Nat)
  /-- SPACE_WAIT_TIMEOUT (R122): A waiting CREATE reaches WAIT_LIMIT and is answered NO_SPACE. -/
  | spaceWaitTimeout (p tag : Nat)
  /-- CREATE_RETRY (R191): The head of a pool's CREATE queue is tried again after space or channels change. -/
  | createRetry (pool : Nat)
  /-- LINK_GRANT (R151): The arbiter grants the link to the next port by class, credit and rotation. -/
  | linkGrant (g : Nat)
  /-- LINK_BEAT (R149): A beat of the owner crosses the link and is charged against its credit counter. -/
  | linkBeat (g c : Nat)
  /-- LINK_REVOKE (R155): A class-0 port revokes the grant of a non-C0 owner, whose queued transfers are answered RESTART. -/
  | linkRevoke (g : Nat)
  /-- LINK_BITE (R159): The link watchdog count reaches its limit and revokes the grant or forces a detach. -/
  | linkBite (g : Nat)
  /-- CREDIT_REFILL (R153): The group's refill timer expires and refills every port's credit counter. -/
  | creditRefill (g : Nat)
  /-- LINK_FREEZE (R162): Setting GRP_CTL.FREEZE stops grants, revokes and request intake at the group. -/
  | linkFreeze (g : Nat) (w : Word) (tgt : Nat)
  /-- LINK_UNFREEZE (R162): Clearing GRP_CTL.FREEZE lets link decisions resume. -/
  | linkUnfreeze (g : Nat) (w : Word) (tgt : Nat)
  /-- LINK_DRAINED (R164): A frozen group has no grant and no unanswered request, and DRAINED rises. -/
  | linkDrained (g : Nat)
  /-- FILL_UNIT_ARRIVE (R245): A fetched unit arrives in a FILLING line, serving waiting requests and clearing FILLING at the end. -/
  | fillUnitArrive (g k : Nat)
  /-- CELL_CHECK (R225): A decoder finishes a cell, and the cell passes its check or fails it. -/
  | cellCheck (g k : Nat)
  /-- CIR_RETRY_RESULT (R226): The retry of a failing cell completes and passes, or the cell is returned as POISON. -/
  | cirRetryResult (g k : Nat) (linkFail : Bool)
  /-- CELL_ENCODE_DONE (R220): An encoder completes a cell, and its payload and header writes are queued. -/
  | cellEncodeDone (g k : Nat)
  /-- SNOOP_SHARE (R255): A SHARE message takes the snoop bus, and other slices write back and clear OWN. -/
  | snoopShare
  /-- SNOOP_CLAIM (R255): A CLAIM message takes the snoop bus, and other slices write back and drop or empty the line. -/
  | snoopClaim
  /-- SNOOP_ACKS_DONE (R255): Every acknowledgement has arrived, and the sender issues its fill or applies its write. -/
  | snoopAcksDone (k : Nat)
  /-- EVICT_WRITEBACK_UNIT (R258): The eviction buffer hands the next DIRTY unit of a line to the encoders or the crossbar. -/
  | evictWritebackUnit (g : Nat)
  /-- HALO_INVALIDATE (R270): HALO_INV_CTL.GO starts a range invalidate in FLUSH or DISCARD mode. -/
  | haloInvalidate (g : Nat) (w : Word) (tgt : Nat)
  /-- HALO_INV_DONE (R270): A range invalidate finishes in every slice it covers. -/
  | haloInvDone (g : Nat)
  /-- HALO_REARM (R274): HALO_CTL.REARM clears the Halo first-error capture. -/
  | haloRearm (g : Nat) (w : Word) (tgt : Nat)
  /-- CIR_REARM (R238): CIR_CTL.REARM clears the Cirrus first-failure capture. -/
  | cirRearm (w : Word) (tgt : Nat)
  /-- SUBREQUEST_ASSIGN (R287): The traffic unit colours, budgets and assigns the service class of a sub-request. -/
  | subrequestAssign (k c : Nat)
  /-- FLOW_CONTEXT_FILL (R281): A flow context read from the flow table arrives in the context cache. -/
  | flowContextFill (f lost : Nat)
  /-- URGENCY_UPDATE (R293): A flow's urgency is recomputed from the age of its oldest pending request. -/
  | urgencyUpdate (f c : Nat)
  /-- FLOW_SWEEP (R282): The periodic sweep brings a defined flow's buckets and window up to date. -/
  | flowSweep (f c : Nat)
  /-- CAPACITY_TEST_DONE (R302): A run-time capacity test completes, and its outcome waits for the next tick. -/
  | capacityTestDone
  /-- ENTRY_PASS (R296): A channel front end passes a class queue entry to the controller by precedence, gate, guard and shaper. -/
  | entryPass (ch c : Nat)
  /-- DRAM_COMMAND_ISSUE (R318): The channel controller issues the first legal command of the groups in order. -/
  | dramCommandIssue (ch ck : Nat) (mr : MrrData)
  /-- READ_DATA_RETURN (R366): Read data returns to the front end and is checked, corrected or reported as lost. -/
  | readDataReturn (ch : Nat) (link : List Nat)
  /-- REFRESH_ACCRUAL (R326): A rank's refresh debt rises by 1 at its accrual interval. -/
  | refreshAccrual (ch r ck : Nat)
  /-- MR4_READ_DUE (R331): A rank's periodic MR4 read falls due. -/
  | mr4ReadDue (ch r : Nat)
  /-- OSC_DUE (R352): The 1 ms oscillator run of each rank falls due. -/
  | oscDue (ch : Nat)
  /-- EYE_SWEEP_DONE (R353): The eye monitor completes a sweep of a bit and may make a read correction pending. -/
  | eyeSweepDone (ch r b left right : Nat)
  /-- ZQ_DUE (R355): ZQ calibration of a rank falls due after ZQ_PERIOD. -/
  | zqDue (ch r : Nat)
  /-- LONG_TRAINING_DUE (R355): A periodic long training of a rank falls due after LONG_PERIOD. -/
  | longTrainingDue (ch r : Nat)
  /-- MAINTENANCE_DONE (R56): A maintenance operation completes and applies its results. -/
  | maintenanceDone (ch : Nat) (r : LongRes)
  /-- MAINT_STARVED (R354): A maintenance operation has been due for MAINT_WAIT_MAX ms without starting. -/
  | maintStarved (ch : Nat)
  /-- POWER_DOWN_ENTRY (R333): A rank idle for PD_IDLE cycles enters power-down. -/
  | powerDownEntry (ch r ck : Nat)
  /-- CHANNEL_HOLD (R334): Setting CH_CTL.HOLD stops the front end passing entries to the controller. -/
  | channelHold (ch : Nat) (w : Word) (tgt : Nat)
  /-- CH_QUIESCED (R334): A held channel has drained and precharged, and QUIESCED holds. -/
  | chQuiesced (ch : Nat)
  /-- DAWN_STEP_DONE (R342): A Dawn step ends, and passes, is repeated or fails the sequence. -/
  | dawnStepDone (ch us : Nat) (out : DawnOut)
  /-- PHY_COLD (R344): PHY_CTL.COLD starts a cold Dawn on a quiesced channel. -/
  | phyCold (ch : Nat) (w : Word) (tgt : Nat)
  /-- PHY_WARM (R344): PHY_CTL.WARM starts a warm Dawn on a quiesced channel. -/
  | phyWarm (ch : Nat) (w : Word) (tgt : Nat)
  /-- PHY_LONG (R355): PHY_CTL.LONG requests a long training of every rank. -/
  | phyLong (ch : Nat) (w : Word) (tgt : Nat)
  /-- PHY_REARM (R359): PHY_CTL.REARM clears the PHY failure capture. -/
  | phyRearm (ch : Nat) (w : Word) (tgt : Nat)
  /-- AUTO_EVAC_START (R348): An out-of-service channel that holds data starts an evacuation once no other move runs. -/
  | autoEvacStart (ch : Nat)
  /-- CONTENT_LOSS_MARK (R490): A unit of a channel that a cold Dawn destroyed is written as lost. -/
  | contentLossMark (ch u : Nat)
  /-- TILE_PREP_WRITE (R179): A background preparation write of a new surface's tile completes. -/
  | tilePrepWrite (idx tile : Nat)
  /-- EXTENTS_RETURN (R192): A freed surface's extents return to their pool, and its index enters the free list. -/
  | extentsReturn (idx : Nat)
  /-- FORCE_FREE (R194): SM_FORCE.GO frees the named surface whatever its holders. -/
  | forceFree (w : Word) (tgt : Nat)
  /-- EVAC_START (R197): SM_EVAC_CTL.START starts emptying a channel unit by unit. -/
  | evacStart (w : Word) (tgt : Nat)
  /-- EVAC_CANCEL (R204): SM_EVAC_CTL.CANCEL ends the move after the unit in progress. -/
  | evacCancel (w : Word) (tgt : Nat)
  /-- MIGRATE_START (R197): SM_MIGRATE_CTL.START starts moving one lane to a named channel. -/
  | migrateStart (w : Word) (tgt : Nat)
  /-- PIECE_COPY_DONE (R198): A 4 KiB piece of a chunk in copy has been written to the destination. -/
  | pieceCopyDone
  /-- CHUNK_COPIED (R200): A chunk's last piece and mirrored writes complete, and the chunk is redirected. -/
  | chunkCopied
  /-- MOVE_RESUME (R203): A held move resumes when space or a destination channel becomes available. -/
  | moveResume
  /-- REPLACE_ROUND (R207): Background re-placement takes its next task or waits one epoch. -/
  | replaceRound
  /-- INIT_UNIT_WRITE (R369): A 64 KiB unit of the reserve or a GUARDED region is written with zero data and check bytes. -/
  | initUnitWrite (r u : Nat)
  /-- SCRUB_STEP (R371): The patrol scrub reads one GUARDED block pair and handles its findings. -/
  | scrubStep (ch : Nat)
  /-- SCRUB_PERIOD_EXPIRY (R373): The scrub period elapses, starting the next pass or raising SCRUB_LATE. -/
  | scrubPeriodExpiry
  /-- DETECTION_HANDLE (R384): The head detection of the handling queue is written back, tabulated and logged in the ring. -/
  | detectionHandle
  /-- REMAP_INSTALL (R376): A block's installation read completes, and its spare word becomes valid. -/
  | remapInstall (ch : Nat)
  /-- REMAP_CMD_INSTALL (R375): FE_REMAP_CMD with OP install installs the named block. -/
  | remapCmdInstall (ch : Nat) (w : Word) (tgt : Nat)
  /-- REMAP_CMD_REMOVE (R376): FE_REMAP_CMD with OP remove writes the spare word back and clears the entry. -/
  | remapCmdRemove (ch : Nat) (w : Word) (tgt : Nat)
  /-- FE_REARM (R383): FE_CTL.REARM clears the front end's first-error capture. -/
  | feRearm (ch : Nat) (w : Word) (tgt : Nat)
  /-- INT_REARM (R383): INT_CTL.REARM clears the engine's first-detection capture. -/
  | intRearm (w : Word) (tgt : Nat)
  /-- RING_CONS_WRITE (R386): A write of INT_RING_CONS advances the error ring's consumer index. -/
  | ringConsWrite (w : Word) (tgt : Nat)
  /-- PPR_ADD (R378): INT_PPR_ADD.GO adds a candidate row for repair. -/
  | pprAdd (w : Word) (tgt : Nat)
  /-- PPR_ARM (R379): Writing ARM arms a repair of the named channel. -/
  | pprArm (w : Word) (tgt : Nat)
  /-- PPR_GO (R379): INT_PPR_CTL.GO starts repair of the pending candidate rows. -/
  | pprGo (w : Word) (tgt : Nat)
  /-- PPR_ROW_DONE (R380): Hard repair of one candidate row ends, repaired or failed. -/
  | pprRowDone (ok : Bool)
  /-- CHECKER_MODE (R381): A write of INT_CHECKER changes a GUARDED region's checker mode after a flush. -/
  | checkerMode (w : Word) (tgt : Nat)
  /-- CHECKER_FLUSH_DONE (R381): The flush of the region's lines completes, and the checker mode takes effect. -/
  | checkerFlushDone
  /-- DUSK_REQUEST (R397): PWR_CTL.DUSK requests Dusk and arms the wake latches. -/
  | duskRequest (w : Word) (tgt : Nat)
  /-- DUSK_CLOCK_STOP (R399): Dusk preparation completes, and every clock but aonclk stops. -/
  | duskClockStop
  /-- WAKE_LATCH (R401): An enabled wake source sets its latch, starting a wake or aborting entry. -/
  | wakeLatch (srcs n : Nat)
  /-- DUSK_TIMER_EXPIRY (R401): The always-on timer reaches PWR_TIMER.LOAD in Dusk. -/
  | duskTimerExpiry
  /-- PWR_WAKE (R402): Rails and clocks are back and channels retrained, and the engine reaches Run. -/
  | pwrWake (recordOk : Bool) (t : Nat)
  /-- TEMP_ALERT (R401): A rising edge of cfg_temp_alert_i in Run makes an MR4 read due on every rank. -/
  | tempAlert
  /-- CH_SELF_REFRESH_REQ (R394): A write of CH_PWR.REQ places a quiesced channel in self-refresh or deep sleep, or returns it. -/
  | chSelfRefreshReq (ch : Nat) (w : Word) (tgt : Nat)
  /-- CH_RETIRE (R395): CH_PWR.RETIRE retires an empty, quiesced channel. -/
  | chRetire (ch : Nat) (w : Word) (tgt : Nat)
  /-- CH_REINSTATE (R396): CH_PWR.REINSTATE starts a cold Dawn of a Retired channel. -/
  | chReinstate (ch : Nat) (w : Word) (tgt : Nat)
  /-- SOFT_RESET (R410): PWR_CTL.SOFT_RESET resets the domains that cfg_rst_n_i resets. -/
  | softReset (w : Word) (tgt : Nat)
  /-- POWER_ON_RESET (R408): cfg_por_n_i asserts and resets every domain and the retention. -/
  | powerOnReset
  /-- CORE_RESET (R408): cfg_rst_n_i asserts and resets every domain except aonclk. -/
  | coreReset
  /-- DOMAIN_RESET_RELEASE (R409): A domain leaves reset 16 cycles after its causes end. -/
  | domainResetRelease (dom : Nat)
  /-- RAIL_ABSENT (R406): A supply rail falls below its absent level. -/
  | railAbsent (rail : Nat)
  /-- RAIL_GOOD (R404): A rail has stayed at its good level for 100 µs. -/
  | railGood (rail : Nat)
  /-- EVT_ACK (R422): A write of EVT_ACK clears pending and posted sources of a group. -/
  | evtAck (w : Word) (tgt : Nat)
  /-- EVT_DISABLE (R423): A write of EVT_CTL.DISABLE stops or resumes event posting. -/
  | evtDisable (w : Word) (tgt : Nat)
  /-- GROUP_POST (R420): A due source group posts to its target and raises its interrupt line. -/
  | groupPost (g : Nat)
  /-- HOLDOFF_EXPIRY (R419): A group's hold-off timer reaches 0. -/
  | holdoffExpiry (g : Nat)
  /-- COALESCE_TIME_EXPIRY (R419): TIME units pass since a group's first counted raise. -/
  | coalesceTimeExpiry (g : Nat)
  /-- COUNTER_SNAP (R432): PF_GRP_CTL.SNAP takes a snapshot of a counter group. -/
  | counterSnap (g : Nat) (w : Word) (tgt : Nat)
  /-- COUNTER_CLEAR (R433): PF_GRP_CTL.CLEAR sets a group's counters to 0. -/
  | counterClear (g : Nat) (w : Word) (tgt : Nat)
  /-- CONTRAIL_FLUSH (R439): CTR_CTL.FLUSH sets CONS to PROD. -/
  | contrailFlush (w : Word) (tgt : Nat)
  /-- CONTRAIL_CONS_WRITE (R439): A write of CTR_CONS advances the Contrail consumer index. -/
  | contrailConsWrite (w : Word) (tgt : Nat)
  /-- MBX_GO (R454): MBX_CTL.GO runs again the operation that MBX_SEL names. -/
  | mbxGo (m : Nat) (w : Word) (tgt : Nat)
  /-- EPOCH_READ (R456): A mailbox read of the EPOCH object. -/
  | epochRead (m ix tgt : Nat)
  /-- EPOCH_SEED_READ (R456): A mailbox read of the pending EPOCH_SEED. -/
  | epochSeedRead (m ix tgt : Nat)
  /-- EPOCH_SEED_WRITE (R46): A mailbox write of EPOCH_SEED pending for the next tick. -/
  | epochSeedWrite (m ix tgt : Nat)
  /-- TICK_INTERVALS_READ (R456): A mailbox read of I_m, I_c and the recent intervals. -/
  | tickIntervalsRead (m ix tgt : Nat)
  /-- CYCLE_READ (R456): A mailbox read of the cclk count and last tick timestamp. -/
  | cycleRead (m ix tgt : Nat)
  /-- FLOW_CONFIG_READ (R456): A mailbox read of a flow's configuration bytes. -/
  | flowConfigRead (m ix tgt : Nat)
  /-- FLOW_CONFIG_WRITE (R283): A mailbox write of a flow context, tested for capacity when it affects guarantees. -/
  | flowConfigWrite (m ix tgt : Nat)
  /-- FLOW_STATE_READ (R456): A mailbox read of a flow's state bytes. -/
  | flowStateRead (m ix tgt : Nat)
  /-- FLOW_STATE_WRITE (R283): A mailbox write of FLOW_STATE ends VALID without effect. -/
  | flowStateWrite (m ix tgt : Nat)
  /-- TRAINING_STATE_READ (R351): A mailbox read of one part of a channel's saved training state. -/
  | trainingStateRead (m ix tgt : Nat) (lost : Bool)
  /-- TRAINING_STATE_WRITE (R458): A mailbox write stages a training state part and commits it at part 15. -/
  | trainingStateWrite (m ix tgt : Nat)
  /-- ERROR_RING_READ (R456): A mailbox read of an error ring entry. -/
  | errorRingRead (m ix tgt : Nat) (lost : Bool)
  /-- PERF_COUNTER_READ (R440): A mailbox read of a counter's live 48-bit value. -/
  | perfCounterRead (m ix tgt : Nat)
  /-- PERF_COUNTER_WRITE (R433): A mailbox write that sets a counter of a disabled group. -/
  | perfCounterWrite (m ix tgt : Nat)
  /-- PERF_SNAPSHOT_READ (R440): A mailbox read of four snapshot counters. -/
  | perfSnapshotRead (m ix tgt : Nat)
  /-- CONTRAIL_RECORD_READ (R440): A mailbox read of a Contrail record slot. -/
  | contrailRecordRead (m ix tgt : Nat)
  /-- MBX_DONE (R454): A mailbox operation ends, loading data or setting ERR, and raises MBX_DONE. -/
  | mbxDone (m : Nat)
  /-- SQUALL_KEY (R463): A write of TEST_KEY advances, completes or ends the unlock sequence, or locks Squall. -/
  | squallKey (w : Word) (tgt : Nat) (c : Nat)
  /-- SQUALL_SEED (R466): A write of SQ_SEED loads every Squall generator. -/
  | squallSeed (w : Word) (tgt : Nat)
  /-- SQUALL_REVOKE (R467): The Squall revoke period elapses and takes the grant of each selected link. -/
  | squallRevoke
  /-- GUARDED_INJECT (R468): SQ_GINJ_CTL.GO arms a data and check byte flip for the next GUARDED write. -/
  | guardedInject (w : Word) (tgt : Nat)
  /-- SEALED_INJECT (R468): SQ_SINJ_CTL.GO arms a CRC flip for the next PRED or RAW header. -/
  | sealedInject (w : Word) (tgt : Nat)
  /-- HALO_INJECT (R468): SQ_HINJ.GO flips a tag parity or data bits of a Halo entry at once. -/
  | haloInject (w : Word) (tgt : Nat)
  /-- LINK_INJECT (R468): A non-zero SQ_LINJ.COUNT arms link errors on the next read bursts of a channel. -/
  | linkInject (w : Word) (tgt : Nat)
  /-- REGISTER_READ (R16): A register read returns the fields in force and clears every RC event bit and counter it returns. -/
  | registerRead (a tgt : Nat)
  /-- REQ_DETACHED (R144): sp_req_valid_i rises at a port whose sp_attached_o is 0, and the beat is never taken but is counted as a violation. -/
  | reqDetached (p : Nat)
  /-- OP_UNKNOWN (R121): A request beat with a reserved opcode, or one not allowed for the port's kind, is taken and answered PROTOCOL. -/
  | opUnknown (p op : Nat) (r : Req) (c : Nat)
  /-- CH_HOLD_CLEAR (R334): Clearing CH_CTL.HOLD lets the front end pass entries to the controller again, unless a partial image or repair keeps the
  channel quiesced. -/
  | chHoldClear (ch : Nat) (w : Word) (tgt : Nat)
  /-- PPR_DISARM (R379): Clearing INT_PPR_CTL.ARM ends the armed repair, and the channel no longer counts as evacuated for placement. -/
  | pprDisarm (w : Word) (tgt : Nat)
deriving DecidableEq, Repr

end Sys2Proof
end

