-- ==== Sys2Proof/WellFormed.lean ====
section
/-! DEFINITION. Which commands are well formed: every operand lies in the range that the spec gives its field or its unit's number (R2, R112 to
R114, R442, R453). -/

namespace Sys2Proof

/-- Whether the fields of a request beat fit the widths of the port signals (R113, R114). -/
def Req.wf (r : Req) : Bool :=
  decide (r.tag < 1024 ∧ r.flow < 2 ^ 20 ∧ r.colour < 4 ∧ r.priv < 4 ∧ r.handle < 2 ^ 24 ∧ r.plane < 4 ∧ r.x < 2 ^ 16 ∧ r.y < 2 ^ 16 ∧
    r.w < 128 ∧ r.h < 64 ∧ r.addr < 2 ^ 40 ∧ r.len < 64)

/-- Whether a command is well formed. -/
def Instr.wf (i : Instr) : Bool :=
  match i with
  | .tickEdge _ _ => true
  | .flywheelTick _ => true
  | .tickCycle _ => true
  | .gateEntryExpiry d _ => decide (d < 8)
  | .budgetWindowStart win _ => decide (win < 16)
  | .tickRelockWrite _ _ tgt => decide (tgt < 8)
  | .gateArm d _ tgt => decide (d < 8) && decide (tgt < 8)
  | .gateDisarm d _ tgt => decide (d < 8) && decide (tgt < 8)
  | .registerWrite a _ tgt => decide (a < 2 ^ 21) && decide (tgt < 8)
  | .busyRearm _ tgt => decide (tgt < 8)
  | .imgStart _ tgt => decide (tgt < 8)
  | .imgAbort _ tgt => decide (tgt < 8)
  | .imgFifoWord _ tgt => decide (tgt < 8)
  | .imgStreamWord _ _ => true
  | .imgCheckDone => true
  | .imgAuthVerdict _ _ => true
  | .imgAdmitDone _ _ => true
  | .channelImageQuiesced => true
  | .groupQuiesceDone _ => true
  | .quiesceTimeout _ => true
  | .read p r _ => decide (p < 64) && r.wf
  | .write p r _ => decide (p < 64) && r.wf
  | .prefetch p r _ => decide (p < 64) && r.wf
  | .zero p r _ => decide (p < 64) && r.wf
  | .preload p r _ => decide (p < 64) && r.wf
  | .unlock p r _ => decide (p < 64) && r.wf
  | .hold p r _ => decide (p < 64) && r.wf
  | .drop p r _ => decide (p < 64) && r.wf
  | .create p r _ _ => decide (p < 64) && r.wf
  | .writeDataBeat p _ _ _ _ => decide (p < 64)
  | .responseBeat p _ => decide (p < 64)
  | .attachRequest p => decide (p < 64)
  | .portAttach p => decide (p < 64)
  | .detachRequest p => decide (p < 64)
  | .portForceDetach p _ tgt => decide (p < 64) && decide (tgt < 8)
  | .cancelWait p _ tgt => decide (p < 64) && decide (tgt < 8)
  | .violRearm p _ tgt => decide (p < 64) && decide (tgt < 8)
  | .spaceWaitTimeout p tag => decide (p < 64) && decide (tag < 1024)
  | .createRetry pool => decide (pool < 8)
  | .linkGrant g => decide (g < 8)
  | .linkBeat g _ => decide (g < 8)
  | .linkRevoke g => decide (g < 8)
  | .linkBite g => decide (g < 8)
  | .creditRefill g => decide (g < 8)
  | .linkFreeze g _ tgt => decide (g < 8) && decide (tgt < 8)
  | .linkUnfreeze g _ tgt => decide (g < 8) && decide (tgt < 8)
  | .linkDrained g => decide (g < 8)
  | .fillUnitArrive g _ => decide (g < 8)
  | .cellCheck g _ => decide (g < 8)
  | .cirRetryResult g _ _ => decide (g < 8)
  | .cellEncodeDone g _ => decide (g < 8)
  | .snoopShare => true
  | .snoopClaim => true
  | .snoopAcksDone _ => true
  | .evictWritebackUnit g => decide (g < 8)
  | .haloInvalidate g _ tgt => decide (g < 8) && decide (tgt < 8)
  | .haloInvDone g => decide (g < 8)
  | .haloRearm g _ tgt => decide (g < 8) && decide (tgt < 8)
  | .cirRearm _ tgt => decide (tgt < 8)
  | .subrequestAssign _ _ => true
  | .flowContextFill f lost => decide (f < 2 ^ 20) && decide (lost < 4)
  | .urgencyUpdate f _ => decide (f < 2 ^ 20)
  | .flowSweep f _ => decide (f < 2 ^ 20)
  | .capacityTestDone => true
  | .entryPass ch _ => decide (ch < 32)
  | .dramCommandIssue ch _ _ => decide (ch < 32)
  | .readDataReturn ch link => decide (ch < 32) && link.all fun l => decide (l < 3)
  | .refreshAccrual ch r _ => decide (ch < 32) && decide (r < 2)
  | .mr4ReadDue ch r => decide (ch < 32) && decide (r < 2)
  | .oscDue ch => decide (ch < 32)
  | .eyeSweepDone ch r b left right => decide (ch < 32) && decide (r < 2) && decide (b < 18) && decide (left < 256) && decide (right < 256)
  | .zqDue ch r => decide (ch < 32) && decide (r < 2)
  | .longTrainingDue ch r => decide (ch < 32) && decide (r < 2)
  | .maintenanceDone ch _ => decide (ch < 32)
  | .maintStarved ch => decide (ch < 32)
  | .powerDownEntry ch r _ => decide (ch < 32) && decide (r < 2)
  | .channelHold ch _ tgt => decide (ch < 32) && decide (tgt < 8)
  | .chQuiesced ch => decide (ch < 32)
  | .dawnStepDone ch _ _ => decide (ch < 32)
  | .phyCold ch _ tgt => decide (ch < 32) && decide (tgt < 8)
  | .phyWarm ch _ tgt => decide (ch < 32) && decide (tgt < 8)
  | .phyLong ch _ tgt => decide (ch < 32) && decide (tgt < 8)
  | .phyRearm ch _ tgt => decide (ch < 32) && decide (tgt < 8)
  | .autoEvacStart ch => decide (ch < 32)
  | .contentLossMark ch _ => decide (ch < 32)
  | .tilePrepWrite idx _ => decide (idx < 65536)
  | .extentsReturn idx => decide (idx < 65536)
  | .forceFree _ tgt => decide (tgt < 8)
  | .evacStart _ tgt => decide (tgt < 8)
  | .evacCancel _ tgt => decide (tgt < 8)
  | .migrateStart _ tgt => decide (tgt < 8)
  | .pieceCopyDone => true
  | .chunkCopied => true
  | .moveResume => true
  | .replaceRound => true
  | .initUnitWrite r _ => decide (r < 65)
  | .scrubStep ch => decide (ch < 32)
  | .scrubPeriodExpiry => true
  | .detectionHandle => true
  | .remapInstall ch => decide (ch < 32)
  | .remapCmdInstall ch _ tgt => decide (ch < 32) && decide (tgt < 8)
  | .remapCmdRemove ch _ tgt => decide (ch < 32) && decide (tgt < 8)
  | .feRearm ch _ tgt => decide (ch < 32) && decide (tgt < 8)
  | .intRearm _ tgt => decide (tgt < 8)
  | .ringConsWrite _ tgt => decide (tgt < 8)
  | .pprAdd _ tgt => decide (tgt < 8)
  | .pprArm _ tgt => decide (tgt < 8)
  | .pprGo _ tgt => decide (tgt < 8)
  | .pprRowDone _ => true
  | .checkerMode _ tgt => decide (tgt < 8)
  | .checkerFlushDone => true
  | .duskRequest _ tgt => decide (tgt < 8)
  | .duskClockStop => true
  | .wakeLatch srcs _ => decide (srcs < 32)
  | .duskTimerExpiry => true
  | .pwrWake _ _ => true
  | .tempAlert => true
  | .chSelfRefreshReq ch _ tgt => decide (ch < 32) && decide (tgt < 8)
  | .chRetire ch _ tgt => decide (ch < 32) && decide (tgt < 8)
  | .chReinstate ch _ tgt => decide (ch < 32) && decide (tgt < 8)
  | .softReset _ tgt => decide (tgt < 8)
  | .powerOnReset => true
  | .coreReset => true
  | .domainResetRelease dom => decide (dom < 12)
  | .railAbsent rail => decide (rail < 5)
  | .railGood rail => decide (rail < 5)
  | .evtAck _ tgt => decide (tgt < 8)
  | .evtDisable _ tgt => decide (tgt < 8)
  | .groupPost g => decide (g < 32)
  | .holdoffExpiry g => decide (g < 32)
  | .coalesceTimeExpiry g => decide (g < 32)
  | .counterSnap g _ tgt => decide (g < 32) && decide (tgt < 8)
  | .counterClear g _ tgt => decide (g < 32) && decide (tgt < 8)
  | .contrailFlush _ tgt => decide (tgt < 8)
  | .contrailConsWrite _ tgt => decide (tgt < 8)
  | .mbxGo m _ tgt => decide (m < 8) && decide (tgt < 8)
  | .epochRead m ix tgt => decide (m < 8) && decide (ix < 2 ^ 20) && decide (tgt < 8)
  | .epochSeedRead m ix tgt => decide (m < 8) && decide (ix < 2 ^ 20) && decide (tgt < 8)
  | .epochSeedWrite m ix tgt => decide (m < 8) && decide (ix < 2 ^ 20) && decide (tgt < 8)
  | .tickIntervalsRead m ix tgt => decide (m < 8) && decide (ix < 2 ^ 20) && decide (tgt < 8)
  | .cycleRead m ix tgt => decide (m < 8) && decide (ix < 2 ^ 20) && decide (tgt < 8)
  | .flowConfigRead m ix tgt => decide (m < 8) && decide (ix < 2 ^ 20) && decide (tgt < 8)
  | .flowConfigWrite m ix tgt => decide (m < 8) && decide (ix < 2 ^ 20) && decide (tgt < 8)
  | .flowStateRead m ix tgt => decide (m < 8) && decide (ix < 2 ^ 20) && decide (tgt < 8)
  | .flowStateWrite m ix tgt => decide (m < 8) && decide (ix < 2 ^ 20) && decide (tgt < 8)
  | .trainingStateRead m ix tgt _ => decide (m < 8) && decide (ix < 2 ^ 20) && decide (tgt < 8)
  | .trainingStateWrite m ix tgt => decide (m < 8) && decide (ix < 2 ^ 20) && decide (tgt < 8)
  | .errorRingRead m ix tgt _ => decide (m < 8) && decide (ix < 2 ^ 20) && decide (tgt < 8)
  | .perfCounterRead m ix tgt => decide (m < 8) && decide (ix < 2 ^ 20) && decide (tgt < 8)
  | .perfCounterWrite m ix tgt => decide (m < 8) && decide (ix < 2 ^ 20) && decide (tgt < 8)
  | .perfSnapshotRead m ix tgt => decide (m < 8) && decide (ix < 2 ^ 20) && decide (tgt < 8)
  | .contrailRecordRead m ix tgt => decide (m < 8) && decide (ix < 2 ^ 20) && decide (tgt < 8)
  | .mbxDone m => decide (m < 8)
  | .squallKey _ tgt _ => decide (tgt < 8)
  | .squallSeed _ tgt => decide (tgt < 8)
  | .squallRevoke => true
  | .guardedInject _ tgt => decide (tgt < 8)
  | .sealedInject _ tgt => decide (tgt < 8)
  | .haloInject _ tgt => decide (tgt < 8)
  | .linkInject _ tgt => decide (tgt < 8)
  | .registerRead a tgt => decide (a < 2 ^ 21) && decide (tgt < 8)
  | .reqDetached p => decide (p < 64)
  | .opUnknown p op r _ => decide (p < 64) && decide (op < 16) && r.wf
  | .chHoldClear ch _ tgt => decide (ch < 32) && decide (tgt < 8)
  | .pprDisarm _ tgt => decide (tgt < 8)

end Sys2Proof
end

