-- ==== Sys2Proof/Machine/State.lean ====
section
/-! DEFINITION. The state of the block as plain data, the outcomes that are not a next state, and the state after reset.
Register fields live in `regs` (one value per field, keyed by field and unit number); what the units themselves work on lives in
structures of its own and is shown in the registers by Machine/Views.lean. -/

namespace Sys2Proof.Machine
open Sys2Proof

/-- No step of this block stops with a fault: the spec answers every protocol violation, refusal and error with a state of its own
(log entry 1). There is no constructor, so no one raises one: safe. -/
inductive Fault where
deriving DecidableEq, Repr

/-- Why a command has no meaning. -/
inductive Refusal where
  /-- Raised by Dispatch.lean for a command that has no meaning yet; safe. -/
  | notModelled (mnemonic : String)
deriving DecidableEq, Repr

/-! ### Tick unit and gate lists -/

/-- An accepted tick on its way from tclk to cclk (R29, R30). `avg`: the interval it ends is averaged (R36). -/
structure Strobe where
  avg : Bool
deriving DecidableEq, Repr

/-- The tick unit (R36 to R47, R488). -/
structure TickUnit where
  st : Nat := 0
  ref : Nat := 0
  first : Bool := false
  lastReal : Bool := false
  last : Nat := 0
  im : Nat := 0
  ic : Nat := 0
  imList : List Nat := []
  icList : List Nat := []
  interval : Nat := 0
  inTol : Nat := 0
  runts : Nat := 0
  flys : Nat := 0
  epochOut : Option Nat := none
  strobes : List Strobe := []
  lastC : Nat := 0
  epoch : Nat := 0
  seed : Option Nat := none
deriving DecidableEq, Repr

/-- One entry of a gate list (R50). -/
structure GateEntry where
  dur : Nat := 0
  mask : Nat := 0
deriving DecidableEq, Repr

/-- A gate list: entries in use and the stored entries (R50, R51). -/
structure GateList where
  len : Nat := 1
  ents : Tab GateEntry := [(0, ⟨1, 0x1FFFF⟩)]
deriving DecidableEq, Repr

/-- The gate list sequencer of one schedule domain (R52 to R62). -/
structure Gate where
  active : GateList := {}
  shadow : GateList := {}
  armed : Bool := false
  act : Nat := 0
  late : Bool := false
  swapEpoch : Nat := 0
  lateEpoch : Nat := 0
  running : Bool := false
  entry : Nat := 0
  start : Nat := 0
  entStart : Nat := 0
  extended : Bool := false
deriving DecidableEq, Repr

/-! ### Images -/

/-- CHANNEL (R78). `off` is the record's image offset in every record. -/
structure ChanRec where
  ch : Nat := 0
  ck : Nat := 0
  ranks : Nat := 0
  density : Nat := 0
  domain : Nat := 0
  options : Nat := 0
  mr5 : Nat := 0
  mr6 : Nat := 0
  mr8 : Nat := 0
  off : Nat := 0
deriving DecidableEq, Repr

/-- DRAM_TIMING (R79). -/
structure TimRec where
  ch : Nat := 0
  params : List (Nat × Nat) := []
  off : Nat := 0
deriving DecidableEq, Repr

/-- TICK (R76). -/
structure TickRec where
  tclk : Nat := 0
  cclk : Nat := 0
  tclkKhz : Nat := 0
  cclkKhz : Nat := 0
  off : Nat := 0
deriving DecidableEq, Repr

/-- ISET (R80). -/
structure IsetRec where
  set : Nat := 0
  domain : Nat := 0
  lanes : List Nat := []
  off : Nat := 0
deriving DecidableEq, Repr

/-- REGION (R81). -/
structure RegionRec where
  region : Nat := 0
  set : Nat := 0
  prot : Nat := 0
  cache : Nat := 0
  base : Nat := 0
  size : Nat := 0
  priv : Nat := 0
  off : Nat := 0
deriving DecidableEq, Repr

/-- POOL (R82). -/
structure PoolRec where
  pool : Nat := 0
  mask : Nat := 0
  extents : Nat := 0
  low : Nat := 0
  lower : Nat := 0
  critical : Nat := 0
  off : Nat := 0
deriving DecidableEq, Repr

/-- GROUP (R83). -/
structure GroupRec where
  g : Nat := 0
  style : Nat := 0
  gclass : Nat := 0
  watchdog : Nat := 0
  refill : Nat := 0
  weights : List Nat := []
  off : Nat := 0
deriving DecidableEq, Repr

/-- PORT (R84). -/
structure PortRec where
  g : Nat := 0
  port : Nat := 0
  kind : Nat := 0
  privMax : Nat := 0
  flow : Nat := 0
  wait : Nat := 0
  off : Nat := 0
deriving DecidableEq, Repr

/-- CLASS (R85). -/
structure ClassRec where
  cls : Nat := 0
  guard : Nat := 0
  idle : Nat := 0
  send : Nat := 0
  limit : Nat := 0
  quantum : Nat := 0
  off : Nat := 0
deriving DecidableEq, Repr

/-- FLOW (R86). -/
structure FlowRec where
  first : Nat := 0
  count : Nat := 0
  cls : Nat := 0
  rank : Nat := 0
  policy : Nat := 0
  target : Nat := 0
  guarantee : Nat := 0
  latency : Nat := 0
  cir : Nat := 0
  pir : Nat := 0
  cbs : Nat := 0
  pbs : Nat := 0
  budget : Nat := 0
  off : Nat := 0
deriving DecidableEq, Repr

/-- GATE_LIST (R87). -/
structure GateRec where
  d : Nat := 0
  len : Nat := 0
  ents : List GateEntry := []
  off : Nat := 0
deriving DecidableEq, Repr

/-- CACHE (R88). -/
structure CacheRec where
  g : Nat := 0
  depth : Nat := 4
  wp : Nat := 0
  lockMax : Nat := 56
  motion : Nat := 1
  off : Nat := 0
deriving DecidableEq, Repr

/-- EVENT_ROUTE (R89). -/
structure RouteRec where
  sg : Nat := 0
  target : Nat := 0
  mode : Nat := 0
  count : Nat := 0
  time : Nat := 0
  off : Nat := 0
deriving DecidableEq, Repr

/-- What the records of an image say (R73); also the configuration in force. -/
structure Image where
  scope : Nat := 0xFF
  tag : Nat := 0
  crc : Nat := 0
  tick : Option TickRec := none
  chans : List ChanRec := []
  tims : List TimRec := []
  isets : List IsetRec := []
  regions : List RegionRec := []
  pools : List PoolRec := []
  groups : List GroupRec := []
  ports : List PortRec := []
  classes : List ClassRec := []
  flows : List FlowRec := []
  gates : List GateRec := []
  caches : List CacheRec := []
  routes : List RouteRec := []
  permit : Option Nat := none
  skipped : Nat := 0
deriving DecidableEq, Repr

/-- What a failing load reports (R97). -/
structure ImgErr where
  code : Nat
  off : Nat := 0
  recType : Nat := 0
  field : Nat := 0
  window : Nat := 0
  channel : Nat := 0
  domain : Nat := 0
deriving DecidableEq, Repr

/-- A failing channel and window, 0xFF for a class with no open time and 0xFE for a target with no channel in service (R102). -/
structure CapFail where
  ch : Nat := 0
  dom : Nat := 0
  win : Nat := 0
deriving DecidableEq, Repr

/-- What admission finds, over the values that stand when ADMITTING begins (R98, R100): the failure, and the channel and window that ADM_LAST
names. -/
structure Adm where
  fail : Option CapFail := none
  at_ : CapFail := {}
deriving DecidableEq, Repr

/-- The image loader (R91 to R109). `words` holds the words received, newest first; `keep` the Tick-class values that were pending at the tick
of a partial image, which stay in force over the image's (R103). -/
structure Loader where
  st : Nat := 0
  tgt : Nat := 0
  words : List Word := []
  lastBad : Bool := false
  hdrErr : Option ImgErr := none
  img : Option Image := none
  held : Option ImgErr := none
  since : Nat := 0
  limit : Nat := 0
  applied : Bool := false
  keep : Tab Nat := []
  adm : Adm := {}
deriving DecidableEq, Repr

/-! ### Ports and links -/

/-- A write data beat as taken (R112, R117, R118). -/
structure Beat where
  data : BitVec 512
  mask : BitVec 64
deriving DecidableEq, Repr

/-- A transfer that a port has taken (R115, R116). `cls` is its arbitration class, once the flow's context has been read (R150). -/
structure Xfer where
  id : Nat := 0
  op : Nat
  req : Req
  need : Nat := 0
  beats : List Beat := []
  closed : Bool := true
  proto : Bool := false
  crossed : Nat := 0
  t0 : Nat := 0
  epoch : Nat := 0
  cls : Option Nat := none
  ctag : Option Nat := none
deriving DecidableEq, Repr

/-- The attributes of the request behind an occurrence, for the filters of R429; `lin` holds a linear request's first and last
byte address. -/
structure ReqAttr where
  priv : Nat := 0
  port : Nat := 0
  flow : Nat := 0
  lin : Option (Nat × Nat) := none
deriving DecidableEq, Repr

/-- One beat of a response. -/
structure RBeat where
  data : BitVec 1024
  poison : Bool := false
deriving DecidableEq, Repr

/-- A response waiting at, or being taken from, a port (R120). -/
structure Resp where
  tag : Nat
  code : Nat
  beats : List RBeat
  sent : Nat := 0
  rq : ReqAttr := {}
  readyAt : Nat := 0
  t0 : Nat := 0
  rrb : Nat := 0
  ctag : Option Nat := none
deriving DecidableEq, Repr

/-- The response beat last taken by the master, as the port outputs showed it (R112). -/
structure RspOut where
  tag : Nat := 0
  code : Nat := 0
  data : BitVec 1024 := 0
  first : Bool := false
  last : Bool := false
  poison : Bool := false
deriving DecidableEq, Repr

/-- A Nustra port (R110 to R146). `present` says that it has a PORT record; `forced` that its last detach was forced (R139). `takeAt` is the first cclk
cycle in which it can take another beat; `lreqFrom` and `lreqTo` are the cycles in which its LREQ last rose and fell (R148, R154); `lastCls` is the arbitration class of the
transfer whose last beat crossed last, which it is until cycle `clsTo` (R150). -/
structure Port where
  present : Bool := false
  pin : Bool := false
  sawLow : Bool := true
  attached : Bool := false
  detaching : Bool := false
  forced : Bool := false
  takeAt : Nat := 0
  lreqFrom : Nat := 0
  lreqTo : Nat := 0
  lastCls : Option Nat := none
  clsTo : Nat := 0
  queue : List Xfer := []
  discard : Option Xfer := none
  tags : List Nat := []
  rsps : List Resp := []
  out : RspOut := {}
  rrb : Nat := 0
  gen : Nat := 1
deriving DecidableEq, Repr

/-- A port group's link (R148 to R165) and the range invalidate of its slice (R270). `beatAt` is the first cycle in which a beat may cross, `beatOf`
the port whose beat crossed in the cycle before it and its credit before that beat; `freeAt` the first cycle in which a decision may be made.
`wake` says that a port has taken a beat in the cycle in progress, at whose end the link moves; `stuck` is the link watchdog's count (R158).
`refillAt` is the cycle in which the refill window began, `creditOld` the counters as they stood before (R153, R154). `drained` says that
the rise of DRAINED has been reported (R164). `lastRet` is the channel whose data the slice last took (R167). -/
structure Group where
  owner : Option Nat := none
  lastOwner : Nat := 7
  credit : Tab Int := []
  frozenImg : Bool := false
  drained : Bool := false
  holds : List Nat := []
  grantAt : Nat := 0
  beatAt : Nat := 0
  beatOf : Option (Nat × Int) := none
  freeAt : Nat := 0
  wake : Bool := false
  stuck : Nat := 0
  refillAt : Nat := 0
  creditOld : Tab Int := []
  invBusy : Bool := false
  invSlices : List Nat := []
  lastLin : Tab Nat := []
  lastRet : Nat := 31
deriving DecidableEq, Repr

/-! ### Halo slices -/

/-- What a Halo line holds (R240). -/
structure LTag where
  lin : Bool := false
  idx : Nat := 0
  gen : Nat := 0
  plane : Nat := 0
  tx : Nat := 0
  ty : Nat := 0
  line : Nat := 0
deriving DecidableEq, Repr

/-- A unit of a line: state 0 INVALID, 1 VALID, 2 UNWRITTEN, 3 POISONED (R241). `merge` holds written samples or bytes that wait for the unit's fetch
(R249); `fetch` numbers the copies of it that are on their way, the first of which it takes; `pf` says that only a prefetch fetches it (R266); `bad`
names the uncorrectable atoms of a POISONED raw cell (R130); `errs` holds injected array errors: the 64-bit word of the line and the bits flipped in it
(R468). -/
structure HUnit where
  st : Nat := 0
  dirty : Bool := false
  data : List Nat := []
  fetch : List Nat := []
  pf : Bool := false
  bad : List Nat := []
  merge : List (Nat × Nat) := []
  errs : Tab Nat := []
deriving DecidableEq, Repr

/-- A line of the array (entries 0 to 63), the side buffer (64 to 71) or the eviction buffer (72 to 75); `evb` 0 CLEAN, 1 PENDING,
2 WRITING (R258). `inval` says that an invalidate or a CLAIM takes the line once its fill, or its write-back in the eviction buffer, has ended (R260,
R272); `gone` that a range invalidate has taken it, which lookups miss and which leaves once its writes have entered their front ends (R270);
`sharing` that a SHARE waits for written values that wait for their units (R255). `ent` is its place in the order in which lines entered the eviction
buffer (R258). -/
structure Line where
  valid : Bool := false
  tag : LTag := {}
  locked : Bool := false
  empty : Bool := false
  own : Bool := false
  filling : Bool := false
  evb : Nat := 0
  age : Nat := 0
  units : Tab HUnit := []
  flow : Nat := 0
  pol : Nat := 0
  prot : Nat := 0
  tagErr : Bool := false
  inval : Bool := false
  gone : Bool := false
  sharing : Bool := false
  sole : Bool := false
  ent : Nat := 0
deriving DecidableEq, Repr

/-- Data of one unit gathered for a request: its state, contents, whether it was corrected, and the samples or bytes of it that carry the poison mark
(R130). -/
structure Got where
  tag : LTag
  unit : Nat
  st : Nat
  data : List Nat
  corr : Bool := false
  mark : List Nat := []
deriving DecidableEq, Repr

/-- A request that has crossed its link and is not yet answered. `need` names the units it waits for, `later` the lines whose lookup waits, for a place or for
an invalidate's writes (R261, R270), `nolock` those of a PRELOAD that an UNLOCK has unlocked meanwhile; `parts` counts the write
parts and claims outstanding; `code` is the highest-ranked part result so far (R129); bits 0 and 1 of `held` say that a
sub-request of it has waited for a tile's preparation and for initialisation (R179, R369). -/
structure Wait where
  id : Nat
  port : Nat
  pgen : Nat := 0
  xf : Xfer
  need : List (LTag × Nat) := []
  got : List Got := []
  parts : Nat := 0
  code : Nat := 0
  surf : Option Nat := none
  lines : List LTag := []
  issued : Bool := false
  later : List LTag := []
  nolock : List LTag := []
  rrb : Nat := 0
  held : Nat := 0
  rq : ReqAttr := {}
deriving DecidableEq, Repr

/-- Why a sub-request was made. -/
inductive SubKind where
  | fill        -- units of a line being filled
  | stream      -- a read without allocation
  | pfill       -- units of a side buffer line
  | hdr         -- a Cirrus header atom
  | wr          -- write data of a request
  | wb          -- a write-back
  | hdrWr       -- a header write
  | merge       -- a read of a cell that a merge needs
deriving DecidableEq, Repr

/-- A sub-request (R19 to R23, R284, R315). Until it is assigned, `addr` is an offset within its unit and the written bytes lie at offsets from there;
assignment finds its place (R200). `hdr` is the header a payload read decodes by. `cells` and `ccells` are the data and check bytes it writes, by
storage key; `units` are the cells that a header read serves; a sub-request with no charge and no named class runs in the class of its request (R286).
`raw` is a checker mode access or an engine read that is not decoded. `rq` describes the port request it serves (R429); `since` is the cclk count at
which its slice sent it; `held` says that it has waited for a piece in copy (R199). `half` is 1 or 2 for the first and second part of a cell that
crosses from one chunk of a move into another (R198), else 0. `stale` counts how often its cell has been rewritten since it took the header (R226); `own` is
the port request that issued it, also one that has been answered (R293); `copy` numbers the copies of a line's units that it fetches (R266). -/
structure SubReq where
  id : Nat
  wait : Option Nat := none
  g : Nat := 0
  port : Nat := 0
  flow : Nat := 0
  colour : Nat := 0
  tag : LTag := {}
  unit : Nat := 0
  kind : SubKind
  write : Bool := false
  ch : Nat := 0
  addr : Nat := 0
  atoms : Nat := 0
  bsw : Nat := 0
  guarded : Bool := false
  caddr : Nat := 0
  cells : List (Nat × Byte) := []
  ccells : List (Nat × Byte) := []
  charge : Nat := 0
  named : Option Nat := none
  t0 : Nat := 0
  units : List Nat := []
  raw : Bool := false
  scrub : Bool := false
  hdr : Nat := 0
  sctag : Option Nat := none
  rq : Option ReqAttr := none
  since : Nat := 0
  held : Bool := false
  half : Nat := 0
  stale : Nat := 0
  own : Option Nat := none
  copy : Nat := 0
deriving DecidableEq, Repr

/-- A controller entry: up to 16 atoms of one 512 B block (R315), `n` of them from atom `off` of the sub-request and channel address `a`. `cols` are
the columns still to move; `base` is what the count of its bank's column commands was when it began to wait for another row (R321). `seq` names the queue
entry it is part of; `reissue` is 1 or 2 where an injected link error has the reissue of a burst come back clean or fail (R468). -/
structure CEnt where
  seq : Nat
  write : Bool
  check : Bool
  rank : Nat
  bank : Nat
  row : Nat
  cols : List Nat
  off : Nat := 0
  a : Nat := 0
  n : Nat := 0
  base : Nat := 0
  level : Nat
  cls : Nat
  urg : Nat
  yellow : Bool
  t0 : Nat
  hit : Bool := false
  header : Bool := false
  ctag : Option Nat := none
  reissue : Nat := 0
deriving DecidableEq, Repr

/-- A sub-request in a class queue of a channel front end (R287, R295). `seq` is the order of entry to the front end (R317); `left` lists the
controller entries still to pass, each by its first atom and its number of atoms (R315); `data` and `cdata` are what a read finds there. `sent` lists
the read bursts issued for it that have not come back, each as the entry it was of that burst alone, `again` says that they are reissues, and `bad` and
`cbad` list the atoms whose burst, or whose companion's, has failed twice (R358); `wrote` lists the bytes of it that have been written since a read of
GUARDED data found them (R367). -/
structure QEnt where
  sub : SubReq
  cls : Nat
  yellow : Bool := false
  urg : Nat := 0
  seq : Nat
  charge : Nat := 0
  left : List (Nat × Nat) := []
  data : List (Option Byte) := []
  cdata : List (Option Byte) := []
  spilled : Bool := false
  lost : Bool := false
  sent : List CEnt := []
  again : Bool := false
  bad : List Nat := []
  cbad : List Nat := []
  wrote : List Nat := []
deriving DecidableEq, Repr

/-- A cell on its way through a decoder (R222, R237): its payload bytes, whether a burst of it failed on the link or its channel is out of
service, and the class of its sub-request. -/
structure DecJob where
  sub : SubReq
  header : Nat
  payload : List Nat
  fail : Bool := false
  lost : Bool := false
  cls : Nat := 15
deriving DecidableEq, Repr

/-- A part of a cell's read that has come back from its channel and waits for the other part (R198): its atoms and whether the burst failed. -/
structure Half where
  q : QEnt
  atoms : List (Nat × List Byte)
  fail : Bool := false
deriving DecidableEq, Repr

/-- A unit that has reached the slice (R245). -/
structure Arrival where
  sub : SubReq
  st : Nat
  data : List Nat
  corr : Bool := false
  bad : List Nat := []
deriving DecidableEq, Repr

/-- A cell write presented to an encoder, or a part write of a raw cell (R227 to R231, R250, R251): the written samples and the poison
mark. `phase` is 0 while it waits for the cell, 1 while the cell's old samples are read, 2 when it can be encoded over `old`, 3 when
the old cell is lost. -/
structure EncJob where
  wait : Option Nat
  tag : LTag
  cell : Nat
  samples : List (Nat × Nat)
  poison : Bool := false
  phase : Nat := 0
  old : List Nat := []
  bad : List Nat := []
  flow : Nat := 0
  colour : Nat := 0
  port : Nat := 0
  t0 : Nat := 0
  rq : Option ReqAttr := none
deriving DecidableEq, Repr

/-- The action that waits for a snoop message's acknowledgements (R255). -/
inductive SnoopDo where
  | fill (units : List Nat) (sub : SubReq)
  | write (wait : Nat)
deriving DecidableEq, Repr

/-- A snoop bus message: waiting for the bus, or on the bus and waiting for acknowledgements (`sent`); `bus` orders the messages sent. `more` holds
what demands ask of a prefetched line before its SHARE is acknowledged (R255, R266). -/
structure Snoop where
  g : Nat
  claim : Bool
  tag : LTag
  act : SnoopDo
  more : List (List Nat × SubReq) := []
  sent : Bool := false
  found : Bool := false
  bus : Nat := 0
deriving DecidableEq, Repr

/-! ### Flows -/

/-- A flow context (R279). -/
structure Flow where
  cls : Nat := 15
  rank : Nat := 0
  policy : Nat := 0
  target : Nat := 0
  defined : Bool := false
  suspended : Bool := false
  demoted : Bool := false
  urgency : Nat := 0
  guarantee : Nat := 0
  latency : Nat := 0
  cir : Nat := 0
  pir : Nat := 0
  cbs : Nat := 0
  pbs : Nat := 0
  budget : Nat := 0
  tc : Nat := 0
  tp : Nat := 0
  tLast : Nat := 0
  fracC : Nat := 0
  fracP : Nat := 0
  winId : Nat := 0
  winUsed : Nat := 0
  oldest : Nat := 0
  pending : Nat := 0
deriving DecidableEq, Repr

/-- The traffic unit's own state (R280 to R305). `live` lists the pending requests of R293: number, flow and the cclk count at which the port
took the beat. `fcache` lists the cached contexts, last used first; `fpass` those that arrived while every way of their set was pinned, for one
sub-request to use. `testFrom` is the cclk cycle in which the last run-time test started, `testAt` the one in which the last completed; `hold` counts the
ticks since an input of the test changed (R302, R304). -/
structure Traffic where
  flows : Tab Flow := []
  flowPend : Tab Flow := []
  carry : Tab Nat := []
  fcache : List Nat := []
  fwait : List Nat := []
  fpass : List Nat := []
  window : Nat := 0
  susp : List Nat := []
  testing : Bool := false
  testDone : Bool := false
  testFails : Bool := false
  testFrom : Nat := 0
  testAt : Nat := 0
  hold : Nat := 0
  icWas : Nat := 0
  pins : List Nat := []
  live : Tab (Nat × Nat) := []
deriving DecidableEq, Repr

/-! ### Channels -/

/-- One bank of a rank: its open row, the first CK cycle in which an ACT, a PRE, a column command or a refresh of the bank is legal
under R324, the CK cycle of its last column command, the column commands its open row has taken (R321), and its rolling
activation count (R330). -/
structure Bank where
  row : Option Nat := none
  actOk : Nat := 0
  preOk : Nat := 0
  colOk : Nat := 0
  refOk : Nat := 0
  refUntil : Nat := 0
  lastCol : Nat := 0
  hits : Nat := 0
  raa : Nat := 0
deriving DecidableEq, Repr

/-- One rank of a channel (R326 to R333, R352 to R355). `ready`, `actOk`, `refOk` are the first CK cycles in which any command, an ACT
or a refresh of the rank is legal; `mr4`, `osc` are 0 not due, 1 due, 2 overdue; `wrPend`, `rdOsc` and `rdPend` are the pending drift corrections,
`wrDone` and `rdDone` the corrections applied since the baseline, `swept` how many oscillator runs ago an eye
sweep still counts as one of the last 10 ms. `oscStep` is 1 while the oscillators run, 2 and 3 when the first and the second count is to be read, the
next command of it no sooner than CK cycle `oscAt` (R352); `driftAt` is the first CK cycle of the two data slots that a drift correction holds (R355);
`longAt` is the cclk cycle in which a long training last failed (R357). -/
structure Rank where
  debt : Int := 0
  rot : Nat := 0
  acts : List Nat := []
  ready : Nat := 0
  actOk : Nat := 0
  refOk : Nat := 0
  refUntil : Nat := 0
  pd : Bool := false
  pdAt : Nat := 0
  needWck : Bool := false
  wckOk : Nat := 0
  idleFrom : Nat := 0
  rate : Nat := 2
  mr4 : Nat := 0
  osc : Nat := 0
  zq : Bool := false
  long : Bool := false
  rfmReq : Bool := false
  raaimt : Nat := 0
  raammt : Nat := 0
  wrPend : Int := 0
  rdOsc : Int := 0
  rdPend : Tab Int := []
  wrDone : Int := 0
  rdDone : Int := 0
  swept : Nat := 0
  oscStep : Nat := 0
  oscAt : Nat := 0
  driftAt : Option Nat := none
  longAt : Option Nat := none
deriving DecidableEq, Repr

/-- The state of a channel's pads (R338, R339, R403, R405): at work; held with RESET_n low, CS, CA and CK low, WCK stopped low, DQ and DMI undriven
and the PHY's termination off; held in retention, which is the same but with RESET_n high; or unpowered, driving nothing. -/
inductive Pads where
  | live
  | low
  | retained
  | unpowered
deriving DecidableEq, Repr

/-- A remap entry with its spare word, the stored bits of its 64-bit words that have gone wrong (word to number, 1 or 2; R374), and the rank, bank and
row that its block lay in when it was installed. -/
structure Remap where
  block : Nat := 0
  manual : Bool := false
  valid : Bool := false
  word : List Byte := []
  errs : Tab Nat := []
  row : Nat × Nat × Nat := (0, 0, 0)
deriving DecidableEq, Repr

/-- A candidate row for repair (R378); state 0 empty, 1 pending, 2 repaired, 3 failed. -/
structure Cand where
  rank : Nat := 0
  bank : Nat := 0
  row : Nat := 0
  st : Nat := 0
deriving DecidableEq, Repr

/-- The retained training state of a channel (R350): its tag, the 512 B of R458, and the trained values that they hold. -/
structure Retained where
  valid : Bool := false
  ck : Nat := 0
  ranks : Nat := 0
  density : Nat := 0
  mr5 : Nat := 0
  mr6 : Nat := 0
  mr8 : Nat := 0
  bytes : List Byte := []
  vals : List Int := []
deriving DecidableEq, Repr

/-- A channel: front end, controller and PHY. `mStep` counts the commands that the maintenance operation in progress has issued, the next one
no sooner than CK cycle `mNext`. `srReq` says that CH_PWR.REQ asks for self-refresh or deep sleep, `warm` that a warm Dawn waits for the channel's
self-refresh and which target asked for it (R343). `inLast` is the initiator last served at the crossbar input for each group class
(R166). `svc` is PHY_STATUS.STATE (R359); `pwr` the channel state of R391 while in service; `out` says that the channel went out of service and has not
come back (R348), `autoEvac` that no evacuation has started for that. `drv` holds the drive and termination settings of PHY_DRV in use (R340); `trained`
the trained settings in force that no register shows, by rank (k + 16 × rank: 0 to 6 CA delays, 7 CS delay, 8 CA Vref, 9 and 10 WCK phases, 11 and 12
read Vref, 13 and 14 write Vref), and `widths` the windows' widths (bit + 64 × rank, write windows from 32 on; R341, R357). `copyVals` are the values that
the saved copy holds (R351); `mFrom` is the CK cycle in which the maintenance operation in progress started; `mrrAt` lists the data slots that MR4
reads will fill (R335). `installing` lists the blocks whose installation runs, `removing` those whose removal waits for room (R376). -/
structure Chan where
  svc : Nat := 0
  pwr : Nat := 0
  retired : Bool := false
  seq : Nat := 0
  step : Nat := 0
  tries : Nat := 0
  us : Nat := 0
  seqTgt : Option Nat := none
  fullImg : Bool := false
  reinst : Bool := false
  wasCold : Bool := false
  imgStop : Bool := false
  imgHold : Bool := false
  pprHold : Bool := false
  quiesced : Bool := false
  srReq : Bool := false
  warm : Option Nat := none
  autoEvac : Bool := false
  out : Bool := false
  drv : List Nat := []
  trained : Tab Nat := []
  widths : Tab Nat := []
  retainedSt : Retained := {}
  copy : List Byte := []
  copyVals : List Int := []
  staging : Tab Byte := []
  cq : List QEnt := []
  ctl : List CEnt := []
  fly : List QEnt := []
  done : List QEnt := []
  dir : Bool := false
  bursts : Nat := 0
  drain : Bool := false
  seqNext : Nat := 0
  cmdAt : Nat := 0
  colOkAny : Nat := 0
  colOkBg : Tab Nat := []
  rdOkAny : Nat := 0
  rdOkBg : Tab Nat := []
  wrOk : Nat := 0
  dataEnd : Nat := 0
  dataRank : Option Nat := none
  slotNext : Nat := 0
  chclkAt : Nat := 0
  maint : Option (Nat × Nat) := none
  mStep : Nat := 0
  mNext : Nat := 0
  mFrom : Nat := 0
  mrrAt : List Nat := []
  banks : Tab Bank := []
  ranks : Tab Rank := []
  credit : Tab Int := []
  sendLeft : Tab Nat := []
  deficit : Tab Nat := []
  drr : Nat := 14
  drrOpen : Bool := false
  bytesCur : Tab Nat := []
  bytesLast : Tab (List Nat) := []
  lecc : Nat := 0
  leccDone : Bool := false
  remap : Tab Remap := []
  recent : List (Nat × Nat) := []
  installing : List Nat := []
  removing : List Nat := []
  cands : Tab Cand := []
  scrubAt : Nat := 0
  scrubDone : Bool := false
  lossTodo : List Nat := []
  memGen : Nat := 0
  inLast : Tab Nat := []
deriving DecidableEq, Repr

/-! ### Surfaces, extents and moves -/

/-- The storage of one stripe position: its channel and its extents, with the companions of a GUARDED surface (R183). -/
structure Pos where
  ch : Nat := 0
  exts : List Nat := []
  comps : List Nat := []
deriving DecidableEq, Repr

/-- A surface descriptor (R175) with what creation and use add to it. `prep` counts the leading tiles prepared, `prepOut` lists
those prepared out of order (R179); `freed` marks a surface whose extents have not yet returned (R192). -/
structure Surf where
  gen : Nat := 1
  live : Bool := false
  freed : Bool := false
  width : Nat := 0
  height : Nat := 0
  format : Nat := 0
  depth : Nat := 0
  shape : Nat := 0
  prot : Nat := 0
  pool : Nat := 0
  priv : Nat := 0
  init : Bool := false
  policy : Nat := 0
  fill : List Nat := []
  holders : List Nat := []
  bsw : Nat := 0
  pos : List Pos := []
  prep : Nat := 0
  prepOut : List Nat := []
deriving DecidableEq, Repr

/-- A lane's segment of a region: the extents it lies in, the companions of a GUARDED region, and the byte offsets of the segment and of its
companion within them (R195). -/
structure Seg where
  exts : List Nat := []
  comps : List Nat := []
  off : Nat := 0
  coff : Nat := 0
deriving DecidableEq, Repr

/-- A waiting CREATE (R191). -/
structure CreateWait where
  port : Nat
  xf : Xfer
  wid : Nat
deriving DecidableEq, Repr

/-- The unit that a move has in progress: a lane of a set (8 for the reserve set) or a stripe position of a surface (R197). -/
inductive MoveUnit where
  | lane (set lane : Nat)
  | pos (idx pos : Nat)
deriving DecidableEq, Repr

/-- A move: kind 1 evacuation, 2 lane migration, 3 re-placement. `chunk` counts the chunks COPIED so far, `piece` the pieces of the
chunk in copy (R197 to R206). `pools` names the destination extents that came from pools, each with its pool; `stopped` says that R188 stopped
the move, and not a lack of space; `dest` is DEST of a migration. -/
structure Move where
  kind : Nat := 0
  ch : Nat := 0
  unit : Option MoveUnit := none
  dst : Nat := 0
  dstMain : List Nat := []
  dstComp : List Nat := []
  chunk : Nat := 0
  piece : Nat := 0
  pools : List (Nat × Nat) := []
  held : Bool := false
  stopped : Bool := false
  cancel : Bool := false
  lost : Bool := false
  retire : Bool := false
  set : Nat := 0
  lane : Nat := 0
  dest : Nat := 0
deriving DecidableEq, Repr

/-- What reaches the surface manager: a CREATE, HOLD or DROP of port `p`, whose generation was `gen` as it crossed; the holds that a detached port
`p` drops; a write of SM_FORCE (R192 to R194). -/
inductive SmAct where
  | req (p gen : Nat) (x : Xfer)
  | release (p : Nat)
  | force (w : Nat)
deriving DecidableEq, Repr

/-- An arrival at the surface manager that it has not yet applied: its cycle and its slice, 8 for SM_FORCE (R193). -/
structure SmItem where
  at_ : Nat
  slice : Nat
  act : SmAct
deriving DecidableEq, Repr

/-- The surface manager (R172 to R210). `due` lists the pools whose first waiting CREATE is to be tried again (R191); `inbox` the arrivals it has yet to
apply, one per cclk cycle (R193); `allocTo` is the first cycle in which the allocator is free (R190). `parked` is a re-placement that has given way to
another move, `start` a move that waits for one to give way (R207); `dcache` lists the cached surface descriptors, last used first (R31). -/
structure SurfMgr where
  surfs : Tab Surf := []
  freeNext : Nat := 0
  freed : List Nat := []
  poolFree : Tab (List Nat) := []
  poolIn : Tab Nat := []
  spare : Tab (List Nat) := []
  segs : Tab Seg := []
  lanes : Tab Nat := []
  waits : List CreateWait := []
  due : List Nat := []
  inbox : List SmItem := []
  allocTo : Nat := 0
  move : Move := {}
  parked : Move := {}
  start : Move := {}
  dcache : List Nat := []
  evacCh : Option Nat := none
  partEvac : List Nat := []
  roundWait : Bool := false
deriving DecidableEq, Repr

/-- One Cirrus header atom of the header cache: its tag and eight headers (R235), the stored bits of its four 64-bit words that have gone wrong
(word to number, 1 or 2), and whether its tag has (R236). -/
structure HdrEnt where
  tag : LTag
  half : Nat
  hdrs : List Nat
  errs : Tab Nat := []
  tagErr : Bool := false
deriving DecidableEq, Repr

/-! ### Integrity, power, events, measurement, mailboxes -/

/-- Whose a byte of a channel is: no one's, byte `a` of the linear addresses, or byte `o` of stripe position `p` of surface `i` of generation
`g`. -/
inductive Home where
  | none
  | lin (a : Nat)
  | surf (i g p o : Nat)
deriving DecidableEq, Repr

/-- A detection on its way through handling (R384), and the ring entry it makes (R385). `home` says whose the atom is, for its write-back to be
translated when it is issued (R200). `wrote` marks the bytes of the atom written since the read that found the error (R367); `again` says that an entry
ahead names the same atom; `done` that its write-back and its entry in the recent-error table are made and it waits for an installation (R384). -/
structure Det where
  seq : Nat := 0
  epoch : Nat := 0
  unit : Nat := 0
  kind : Nat := 0
  flags : Nat := 0
  prior : Nat := 0
  loc : Nat := 0
  caddr : Nat := 0
  detail : Nat := 0
  init : Nat := 0xFFFF
  cls : Nat := 0
  home : Home := .none
  wrote : Nat := 0
  again : Bool := false
  done : Bool := false
deriving DecidableEq, Repr

/-- The integrity unit (R365 to R389). -/
structure Integ where
  queue : List Det := []
  ring : Tab Det := []
  prod : Nat := 0
  seqNext : Nat := 1
  initDone : Tab Nat := []
  initOut : List (Nat × Nat) := []
  scrubLate : Bool := false
  scrubWait : Bool := false
  checkBusy : Bool := false
  checkNext : Nat := 0
  pprSt : Nat := 0
  pprTgt : Nat := 0
  pprCh : Nat := 0
  pprAny : Bool := false
  pprFail : Bool := false
deriving DecidableEq, Repr

/-- The power controller (R390 to R413). `st` is PWR_STATUS.STATE; 4 stands for a block powered off. `rails` has a bit per good rail, as
PWR_STATUS.RAILS; `domains` lists the domains held in reset: 0 cclk, 1 regclk, 2 tclk, 3 to 10 gclk0 to gclk7, 11 aonclk, 12 + ch chclk ch (R28,
R409): no channel is present at reset. The context
record of R398 holds the fields of State themselves, which nothing changes in Dusk, so only its validity stands here. `duskChans` are the
channels that Dusk placed in self-refresh and that have not left it, `duskAll` all it placed there; `abandon` marks a restore that R403
gives up. -/
structure Power where
  st : Nat := 0
  latches : Nat := 0
  duskTgt : Nat := 0
  evtDusk : Bool := false
  rails : Nat := 0x1F
  coreGone : Bool := false
  recordValid : Bool := false
  abandon : Bool := false
  heldReg : Option (Bool × Nat × Word × Nat) := none
  prepared : Bool := false
  aborting : Bool := false
  lossPending : Bool := false
  domains : List Nat := (List.range 32).map (· + 12)
  duskChans : List Nat := []
  duskAll : List Nat := []
deriving DecidableEq, Repr

/-- A source group of the event unit (R414 to R423): pending and posted sources, counted raises, whether TIME units have passed since
the first of them, whether the hold-off timer runs, and whether R421 lets the group post past its moderation. `fresh` are the sources that
the last post posted; `resumed` that the group was due when DISABLE returned to 0 (R423). -/
structure EvtGrp where
  pending : Nat := 0
  posted : Nat := 0
  raises : Nat := 0
  timed : Bool := false
  expired : Bool := false
  holdoff : Bool := false
  bypass : Bool := false
  fresh : Nat := 0
  resumed : Bool := false
deriving DecidableEq, Repr

/-- A Contrail-tagged request in flight (R435 to R437). -/
structure Trail where
  id : Nat
  seq : Nat
  t0 : Nat
  offs : Tab Nat := []
  flow : Nat := 0
  cls : Nat := 0
  port : Nat := 0
  tag : Nat := 0
  op : Nat := 0
  ch : Nat := 0
  hit : Bool := false
  multi : Bool := false
  cut : Bool := false
  epoch : Nat := 0
  rsp : Nat := 0xF
deriving DecidableEq, Repr

/-- The counter array, its snapshots and overflow bits, and Contrail (R426 to R441). -/
structure Meas where
  ctrs : Tab Nat := []
  snaps : Tab Nat := []
  lfsr : Nat := 1
  seqNext : Nat := 0
  trails : List Trail := []
  recs : Tab (List Byte) := []
  prod : Nat := 0
  ovf : Tab Nat := []
deriving DecidableEq, Repr

/-- How a mailbox operation will end (R454). -/
inductive MbxEnd where
  | read (d : List Nat)
  | wrote
  | err (code : Nat)
deriving DecidableEq, Repr

/-- A running mailbox operation: who started it, how it will end, and the byte of the engine reserve it reads, if it reads there (R456). -/
structure MbxOp where
  writer : Nat
  res : MbxEnd
  rsv : Option Nat := none
deriving DecidableEq, Repr

/-- Squall (R463 to R470): unlock state per target (the cclk count of KEY_A), the generators, the armed injections. -/
structure Squall where
  unlocked : Bool := false
  keys : Tab (Option Nat) := []
  gens : Tab Nat := []
  gArmed : Bool := false
  sArmed : Bool := false
deriving DecidableEq, Repr

/-! ### The cclk cycle in progress -/

/-- What the register port, the mailboxes and the loader have done in the cclk cycle in progress, for a tick of that cycle to leave alone: Tick-class
writes of registers (`pend`), of flow contexts (`flows`) and of EPOCH_SEED, which reach the next tick (R64); the gates whose ARM was written,
as they stood before (R61, R62), and for those a late ARM has marked, whether GATE_STATUS.GATE_LATE and its source were set before; the entries
that take over at the end of the cycle (R52); whether the loader entered STAGED (R103). -/
structure Now where
  pend : Tab Nat := []
  flows : Tab Flow := []
  seed : Option Nat := none
  gates : Tab Gate := []
  late : Tab (Bool × Bool) := []
  turns : Tab Nat := []
  staged : Bool := false
deriving DecidableEq, Repr

/-! ### The machine -/

/-- The whole state. `bitsNow` lists the event bits that have been set in the cclk cycle in progress (R16). -/
@[ext]
structure State where
  build : Build := .zm9632
  cclk : Nat := 0
  regs : Tab Nat := []
  pend : Tab Nat := []
  now : Now := {}
  bitsNow : List Nat := []
  rdata : Word := 0
  tick : TickUnit := {}
  gates : Tab Gate := []
  loader : Loader := {}
  authReq : Bool := false
  conf : Option Image := none
  ports : Tab Port := []
  groups : Tab Group := []
  lines : Tab Line := []
  useCtr : Nat := 0
  waits : List Wait := []
  nextId : Nat := 0
  subs : List SubReq := []
  dec : Tab (List DecJob) := []
  retry : Tab (List DecJob) := []
  arr : Tab (List Arrival) := []
  enc : Tab (List EncJob) := []
  hdrWait : List SubReq := []
  halves : List Half := []
  snoops : List Snoop := []
  snoopLast : Nat := 7
  hdrs : Tab (List HdrEnt) := []
  failed : List (LTag × Nat × Nat) := []
  traffic : Traffic := {}
  chans : Tab Chan := []
  mem : List Host.Cell := []
  sm : SurfMgr := {}
  integ : Integ := {}
  power : Power := {}
  evts : Tab EvtGrp := []
  irq : Nat := 0
  posts : Tab (Nat × Nat × Bool) := []
  meas : Meas := {}
  mbx : Tab (Option MbxOp) := []
  squall : Squall := {}
  freeCtr : Nat := 0
  pending : List Instr := []
deriving DecidableEq, Repr

/-- The state after reset: every field at the value the spec states, the build a ZM-9632 with all five rails good and every domain
released (log entries 2 and 6); nothing listed in memory; no command waiting. The static input img_auth_req_i is 0 (DESIGN CHOICE, log entry 136). -/
def State.reset : State := {}

end Sys2Proof.Machine
end

