-- ==== Sys2Proof/Machine/Registers.lean ====
section
/-! DEFINITION. The register fields, from the register tables of the spec: where each lies, its width, access, Takes effect class and
reset value; which fields an address holds; and the value in force of a field. -/

namespace Sys2Proof.Machine
open Sys2Proof

/-- Access types (R9). -/
inductive Acc where
  | rw
  | ro
  | rc
  | wo
  | w1t
deriving DecidableEq, Repr

/-- Takes effect classes (R12); `none` stands for a field that no write reaches. -/
inductive Cls where
  | tick
  | quiet
  | now
  | none
deriving DecidableEq, Repr

/-- The owner whose quiescence a Quiet-class field waits for (R448). -/
inductive Owner where
  | none
  | port
  | group
  | chan
  | phy
  | evac
  | migrate
  | counters
  | contrail
deriving DecidableEq, Repr

/-- What must be in the build for the field to exist (R3). -/
inductive UnitKind where
  | none
  | group
  | port
  | chan
  | gport
deriving DecidableEq, Repr

/-- One register field. Its registers stand at `base + i * s1 + j * s2` for `i < n1`, `j < n2`. -/
structure Fld where
  ix : Nat
  base : Nat
  n1 : Nat := 1
  s1 : Nat := 0
  n2 : Nat := 1
  s2 : Nat := 0
  unit : UnitKind := .none
  lsb : Nat := 0
  width : Nat
  acc : Acc
  cls : Cls := .none
  own : Owner := .none
  rst : Nat := 0
deriving DecidableEq, Repr

namespace R


-- GATE_SHADOW_CTL (R67)
def GATE_SHADOW_CTL_LEN : Fld := { ix := 0, base := 0x34000, n1 := 8, s1 := 0x40, width := 9, acc := .rw, cls := .now, rst := 0x1 }
def GATE_SHADOW_CTL_ARM : Fld := { ix := 1, base := 0x34000, n1 := 8, s1 := 0x40, lsb := 16, width := 1, acc := .rw, cls := .now }

-- GATE_ACT_EPOCH (R67)
def GATE_ACT_EPOCH_ACT_EPOCH : Fld := { ix := 2, base := 0x34004, n1 := 8, s1 := 0x40, width := 32, acc := .rw, cls := .now }

-- GATE_STATUS (R67)
def GATE_STATUS_ACTIVE_LEN : Fld := { ix := 3, base := 0x34008, n1 := 8, s1 := 0x40, width := 9, acc := .ro, rst := 0x1 }
def GATE_STATUS_ENTRY : Fld := { ix := 4, base := 0x34008, n1 := 8, s1 := 0x40, lsb := 9, width := 8, acc := .ro }
def GATE_STATUS_ARMED : Fld := { ix := 5, base := 0x34008, n1 := 8, s1 := 0x40, lsb := 17, width := 1, acc := .ro }
def GATE_STATUS_EXTENDED : Fld := { ix := 6, base := 0x34008, n1 := 8, s1 := 0x40, lsb := 18, width := 1, acc := .ro }
def GATE_STATUS_GATE_TRUNC : Fld := { ix := 7, base := 0x34008, n1 := 8, s1 := 0x40, lsb := 24, width := 1, acc := .rc }
def GATE_STATUS_GATE_LATE : Fld := { ix := 8, base := 0x34008, n1 := 8, s1 := 0x40, lsb := 25, width := 1, acc := .rc }
def GATE_STATUS_SPILL : Fld := { ix := 9, base := 0x34008, n1 := 8, s1 := 0x40, lsb := 26, width := 1, acc := .rc }
def GATE_STATUS_GATE_SWAP : Fld := { ix := 10, base := 0x34008, n1 := 8, s1 := 0x40, lsb := 27, width := 1, acc := .rc }

-- GATE_SWAP_EPOCH (R67)
def GATE_SWAP_EPOCH_SWAP_EPOCH : Fld := { ix := 11, base := 0x3400c, n1 := 8, s1 := 0x40, width := 32, acc := .ro }

-- GATE_LATE_EPOCH (R67)
def GATE_LATE_EPOCH_LATE_EPOCH : Fld := { ix := 12, base := 0x34010, n1 := 8, s1 := 0x40, width := 32, acc := .ro }

-- GATE_TRUNC_CNT (R67)
def GATE_TRUNC_CNT_TRUNC_CNT : Fld := { ix := 13, base := 0x34014, n1 := 8, s1 := 0x40, width := 16, acc := .rc }

-- GATE_SPILL (R67)
def GATE_SPILL_SPILL_CLASSES : Fld := { ix := 14, base := 0x34018, n1 := 8, s1 := 0x40, width := 16, acc := .rc }

-- GATE_CHANNELS (R67)
def GATE_CHANNELS_CHANNELS : Fld := { ix := 15, base := 0x3401c, n1 := 8, s1 := 0x40, width := 32, acc := .ro }

-- GATE_SHADOW (R67)
def GATE_SHADOW_DURATION : Fld := { ix := 16, base := 0x38000, n1 := 8, s1 := 0x1000, n2 := 256, s2 := 0x8, width := 20, acc := .rw, cls := .now }
def GATE_SHADOW_MASK : Fld := { ix := 17, base := 0x38004, n1 := 8, s1 := 0x1000, n2 := 256, s2 := 0x8, width := 17, acc := .rw, cls := .now }

-- GATE_ACTIVE (R67)
def GATE_ACTIVE_DURATION : Fld := { ix := 18, base := 0x38800, n1 := 8, s1 := 0x1000, n2 := 256, s2 := 0x8, width := 20, acc := .ro }
def GATE_ACTIVE_MASK : Fld := { ix := 19, base := 0x38804, n1 := 8, s1 := 0x1000, n2 := 256, s2 := 0x8, width := 17, acc := .ro }

-- GATE_GUARD (R67)
def GATE_GUARD_GUARD : Fld := { ix := 20, base := 0x37000, n1 := 16, s1 := 0x4, width := 16, acc := .rw, cls := .tick }

-- IMG_CTL (R109)
def IMG_CTL_SRC : Fld := { ix := 21, base := 0x400, width := 1, acc := .rw, cls := .now }
def IMG_CTL_START : Fld := { ix := 22, base := 0x400, lsb := 4, width := 1, acc := .w1t, cls := .now }
def IMG_CTL_ABORT : Fld := { ix := 23, base := 0x400, lsb := 5, width := 1, acc := .w1t, cls := .now }

-- IMG_FIFO (R109)
def IMG_FIFO_DATA : Fld := { ix := 24, base := 0x404, width := 32, acc := .wo, cls := .now }

-- IMG_STATUS (R109)
def IMG_STATUS_STATE : Fld := { ix := 25, base := 0x408, width := 4, acc := .ro }
def IMG_STATUS_RESULT : Fld := { ix := 26, base := 0x408, lsb := 8, width := 8, acc := .ro }
def IMG_STATUS_IMG_DONE : Fld := { ix := 27, base := 0x408, lsb := 16, width := 1, acc := .rc }
def IMG_STATUS_IMG_FAIL : Fld := { ix := 28, base := 0x408, lsb := 17, width := 1, acc := .rc }
def IMG_STATUS_CONFIGURED : Fld := { ix := 29, base := 0x408, lsb := 18, width := 1, acc := .ro }

-- IMG_ERR_OFFSET (R109)
def IMG_ERR_OFFSET_OFFSET : Fld := { ix := 30, base := 0x40c, width := 32, acc := .ro }

-- IMG_ERR_DETAIL (R109)
def IMG_ERR_DETAIL_REC_TYPE : Fld := { ix := 31, base := 0x410, width := 8, acc := .ro }
def IMG_ERR_DETAIL_FIELD : Fld := { ix := 32, base := 0x410, lsb := 8, width := 8, acc := .ro }
def IMG_ERR_DETAIL_WINDOW : Fld := { ix := 33, base := 0x410, lsb := 16, width := 8, acc := .ro }
def IMG_ERR_DETAIL_CHANNEL : Fld := { ix := 34, base := 0x410, lsb := 24, width := 5, acc := .ro }
def IMG_ERR_DETAIL_DOMAIN : Fld := { ix := 35, base := 0x410, lsb := 29, width := 3, acc := .ro }

-- IMG_BYTES (R109)
def IMG_BYTES_BYTES : Fld := { ix := 36, base := 0x414, width := 32, acc := .ro }

-- IMG_ACTIVE_TAG (R109)
def IMG_ACTIVE_TAG_TAG : Fld := { ix := 37, base := 0x418, width := 32, acc := .ro }

-- IMG_ACTIVE_CRC (R109)
def IMG_ACTIVE_CRC_CRC : Fld := { ix := 38, base := 0x41c, width := 32, acc := .ro }

-- IMG_QUIESCE_LIMIT (R109)
def IMG_QUIESCE_LIMIT_LIMIT : Fld := { ix := 39, base := 0x420, width := 16, acc := .rw, cls := .now, rst := 0x32dd }

-- IMG_SKIPPED (R109)
def IMG_SKIPPED_COUNT : Fld := { ix := 40, base := 0x424, width := 16, acc := .ro }

-- PORT_CTL (R146)
def PORT_CTL_DETACH : Fld := { ix := 41, base := 0x88000, n1 := 8, s1 := 0x10000, n2 := 8, s2 := 0x800, unit := .port, width := 1, acc := .w1t, cls := .now }
def PORT_CTL_CANCEL_WAIT : Fld := { ix := 42, base := 0x88000, n1 := 8, s1 := 0x10000, n2 := 8, s2 := 0x800, unit := .port, lsb := 1, width := 1, acc := .w1t, cls := .now }
def PORT_CTL_VIOL_REARM : Fld := { ix := 43, base := 0x88000, n1 := 8, s1 := 0x10000, n2 := 8, s2 := 0x800, unit := .port, lsb := 2, width := 1, acc := .w1t, cls := .now }
def PORT_CTL_KEEP_HOLDS : Fld := { ix := 44, base := 0x88000, n1 := 8, s1 := 0x10000, n2 := 8, s2 := 0x800, unit := .port, lsb := 3, width := 1, acc := .rw, cls := .quiet, own := .port }

-- PORT_CFG (R146)
def PORT_CFG_PRIV_MAX : Fld := { ix := 45, base := 0x88004, n1 := 8, s1 := 0x10000, n2 := 8, s2 := 0x800, unit := .port, width := 2, acc := .rw, cls := .quiet, own := .port }
def PORT_CFG_KIND : Fld := { ix := 46, base := 0x88004, n1 := 8, s1 := 0x10000, n2 := 8, s2 := 0x800, unit := .port, lsb := 4, width := 2, acc := .ro }
def PORT_CFG_WAIT_LIMIT : Fld := { ix := 47, base := 0x88004, n1 := 8, s1 := 0x10000, n2 := 8, s2 := 0x800, unit := .port, lsb := 16, width := 16, acc := .rw, cls := .tick }

-- PORT_DEFAULT_FLOW (R146)
def PORT_DEFAULT_FLOW_FLOW : Fld := { ix := 48, base := 0x88008, n1 := 8, s1 := 0x10000, n2 := 8, s2 := 0x800, unit := .port, width := 20, acc := .rw, cls := .tick }

-- PORT_STATUS (R146)
def PORT_STATUS_PRESENT : Fld := { ix := 49, base := 0x8800c, n1 := 8, s1 := 0x10000, n2 := 8, s2 := 0x800, unit := .port, width := 1, acc := .ro }
def PORT_STATUS_ATTACHED : Fld := { ix := 50, base := 0x8800c, n1 := 8, s1 := 0x10000, n2 := 8, s2 := 0x800, unit := .port, lsb := 1, width := 1, acc := .ro }
def PORT_STATUS_DETACHING : Fld := { ix := 51, base := 0x8800c, n1 := 8, s1 := 0x10000, n2 := 8, s2 := 0x800, unit := .port, lsb := 2, width := 1, acc := .ro }
def PORT_STATUS_GRANTED : Fld := { ix := 52, base := 0x8800c, n1 := 8, s1 := 0x10000, n2 := 8, s2 := 0x800, unit := .port, lsb := 3, width := 1, acc := .ro }
def PORT_STATUS_WAITING : Fld := { ix := 53, base := 0x8800c, n1 := 8, s1 := 0x10000, n2 := 8, s2 := 0x800, unit := .port, lsb := 4, width := 1, acc := .ro }
def PORT_STATUS_RESTARTING : Fld := { ix := 54, base := 0x8800c, n1 := 8, s1 := 0x10000, n2 := 8, s2 := 0x800, unit := .port, lsb := 5, width := 1, acc := .ro }
def PORT_STATUS_FORCE_CAUSE : Fld := { ix := 55, base := 0x8800c, n1 := 8, s1 := 0x10000, n2 := 8, s2 := 0x800, unit := .port, lsb := 6, width := 2, acc := .ro }
def PORT_STATUS_OUTSTANDING : Fld := { ix := 56, base := 0x8800c, n1 := 8, s1 := 0x10000, n2 := 8, s2 := 0x800, unit := .port, lsb := 16, width := 11, acc := .ro }
def PORT_STATUS_ATTACH_EVT : Fld := { ix := 57, base := 0x8800c, n1 := 8, s1 := 0x10000, n2 := 8, s2 := 0x800, unit := .port, lsb := 27, width := 1, acc := .rc }
def PORT_STATUS_DETACH_EVT : Fld := { ix := 58, base := 0x8800c, n1 := 8, s1 := 0x10000, n2 := 8, s2 := 0x800, unit := .port, lsb := 28, width := 1, acc := .rc }
def PORT_STATUS_FORCED : Fld := { ix := 59, base := 0x8800c, n1 := 8, s1 := 0x10000, n2 := 8, s2 := 0x800, unit := .port, lsb := 29, width := 1, acc := .rc }
def PORT_STATUS_VIOL : Fld := { ix := 60, base := 0x8800c, n1 := 8, s1 := 0x10000, n2 := 8, s2 := 0x800, unit := .port, lsb := 30, width := 1, acc := .rc }

-- PORT_VIOL_FIRST (R146)
def PORT_VIOL_FIRST_CODE : Fld := { ix := 61, base := 0x88010, n1 := 8, s1 := 0x10000, n2 := 8, s2 := 0x800, unit := .port, width := 8, acc := .ro }
def PORT_VIOL_FIRST_TAG : Fld := { ix := 62, base := 0x88010, n1 := 8, s1 := 0x10000, n2 := 8, s2 := 0x800, unit := .port, lsb := 8, width := 10, acc := .ro }
def PORT_VIOL_FIRST_OP : Fld := { ix := 63, base := 0x88010, n1 := 8, s1 := 0x10000, n2 := 8, s2 := 0x800, unit := .port, lsb := 18, width := 4, acc := .ro }
def PORT_VIOL_FIRST_VALID : Fld := { ix := 64, base := 0x88010, n1 := 8, s1 := 0x10000, n2 := 8, s2 := 0x800, unit := .port, lsb := 22, width := 1, acc := .ro }

-- PORT_VIOL_CNT (R146)
def PORT_VIOL_CNT_COUNT : Fld := { ix := 65, base := 0x88014, n1 := 8, s1 := 0x10000, n2 := 8, s2 := 0x800, unit := .port, width := 16, acc := .rc }

-- PORT_WARN (R146)
def PORT_WARN_POOLS : Fld := { ix := 66, base := 0x88018, n1 := 8, s1 := 0x10000, n2 := 8, s2 := 0x800, unit := .port, width := 8, acc := .rw, cls := .tick, rst := 0xff }
def PORT_WARN_LEVEL : Fld := { ix := 67, base := 0x88018, n1 := 8, s1 := 0x10000, n2 := 8, s2 := 0x800, unit := .port, lsb := 8, width := 2, acc := .ro }

-- PORT_HINT (R146)
def PORT_HINT_HINT : Fld := { ix := 68, base := 0x8801c, n1 := 8, s1 := 0x10000, n2 := 8, s2 := 0x800, unit := .port, width := 6, acc := .ro, rst := 0x3f }

-- PORT_RESTART_CNT (R146)
def PORT_RESTART_CNT_COUNT : Fld := { ix := 69, base := 0x88020, n1 := 8, s1 := 0x10000, n2 := 8, s2 := 0x800, unit := .port, width := 16, acc := .rc }

-- GRP_CTL (R169)
def GRP_CTL_FREEZE : Fld := { ix := 70, base := 0x80000, n1 := 8, s1 := 0x10000, unit := .group, width := 1, acc := .rw, cls := .now }
def GRP_CTL_STYLE : Fld := { ix := 71, base := 0x80000, n1 := 8, s1 := 0x10000, unit := .group, lsb := 1, width := 1, acc := .rw, cls := .quiet, own := .group }
def GRP_CTL_GCLASS : Fld := { ix := 72, base := 0x80000, n1 := 8, s1 := 0x10000, unit := .group, lsb := 2, width := 2, acc := .rw, cls := .tick }

-- GRP_WATCHDOG (R169)
def GRP_WATCHDOG_LIMIT : Fld := { ix := 73, base := 0x80004, n1 := 8, s1 := 0x10000, unit := .group, width := 16, acc := .rw, cls := .tick }

-- GRP_REFILL (R169)
def GRP_REFILL_REFILL : Fld := { ix := 74, base := 0x80008, n1 := 8, s1 := 0x10000, unit := .group, width := 21, acc := .rw, cls := .tick }

-- GRP_REVOKE (R169)
def GRP_REVOKE_REVOKE_EN : Fld := { ix := 75, base := 0x8000c, n1 := 8, s1 := 0x10000, unit := .group, width := 8, acc := .rw, cls := .tick, rst := 0xff }

-- GRP_WEIGHT_LO (R169)
def GRP_WEIGHT_LO_WEIGHT0 : Fld := { ix := 76, base := 0x80010, n1 := 8, s1 := 0x10000, unit := .group, width := 8, acc := .rw, cls := .tick }
def GRP_WEIGHT_LO_WEIGHT1 : Fld := { ix := 77, base := 0x80010, n1 := 8, s1 := 0x10000, unit := .group, lsb := 8, width := 8, acc := .rw, cls := .tick }
def GRP_WEIGHT_LO_WEIGHT2 : Fld := { ix := 78, base := 0x80010, n1 := 8, s1 := 0x10000, unit := .group, lsb := 16, width := 8, acc := .rw, cls := .tick }
def GRP_WEIGHT_LO_WEIGHT3 : Fld := { ix := 79, base := 0x80010, n1 := 8, s1 := 0x10000, unit := .group, lsb := 24, width := 8, acc := .rw, cls := .tick }

-- GRP_WEIGHT_HI (R169)
def GRP_WEIGHT_HI_WEIGHT4 : Fld := { ix := 80, base := 0x80014, n1 := 8, s1 := 0x10000, unit := .group, width := 8, acc := .rw, cls := .tick }
def GRP_WEIGHT_HI_WEIGHT5 : Fld := { ix := 81, base := 0x80014, n1 := 8, s1 := 0x10000, unit := .group, lsb := 8, width := 8, acc := .rw, cls := .tick }
def GRP_WEIGHT_HI_WEIGHT6 : Fld := { ix := 82, base := 0x80014, n1 := 8, s1 := 0x10000, unit := .group, lsb := 16, width := 8, acc := .rw, cls := .tick }
def GRP_WEIGHT_HI_WEIGHT7 : Fld := { ix := 83, base := 0x80014, n1 := 8, s1 := 0x10000, unit := .group, lsb := 24, width := 8, acc := .rw, cls := .tick }

-- GRP_STATUS (R169)
def GRP_STATUS_OWNER : Fld := { ix := 84, base := 0x80018, n1 := 8, s1 := 0x10000, unit := .group, width := 3, acc := .ro }
def GRP_STATUS_OWNED : Fld := { ix := 85, base := 0x80018, n1 := 8, s1 := 0x10000, unit := .group, lsb := 3, width := 1, acc := .ro }
def GRP_STATUS_DRAINED : Fld := { ix := 86, base := 0x80018, n1 := 8, s1 := 0x10000, unit := .group, lsb := 4, width := 1, acc := .ro }
def GRP_STATUS_LREQ : Fld := { ix := 87, base := 0x80018, n1 := 8, s1 := 0x10000, unit := .group, lsb := 8, width := 8, acc := .ro }
def GRP_STATUS_CLASS0 : Fld := { ix := 88, base := 0x80018, n1 := 8, s1 := 0x10000, unit := .group, lsb := 16, width := 8, acc := .ro }
def GRP_STATUS_LINK_BITE : Fld := { ix := 89, base := 0x80018, n1 := 8, s1 := 0x10000, unit := .group, lsb := 24, width := 1, acc := .rc }
def GRP_STATUS_LINK_REVOKE : Fld := { ix := 90, base := 0x80018, n1 := 8, s1 := 0x10000, unit := .group, lsb := 25, width := 1, acc := .rc }
def GRP_STATUS_LINK_DRAINED : Fld := { ix := 91, base := 0x80018, n1 := 8, s1 := 0x10000, unit := .group, lsb := 26, width := 1, acc := .rc }

-- GRP_HOLD_AVG (R169)
def GRP_HOLD_AVG_AVG : Fld := { ix := 92, base := 0x8001c, n1 := 8, s1 := 0x10000, unit := .group, width := 16, acc := .ro, rst := 0x10 }

-- GRP_CREDIT (R169)
def GRP_CREDIT_CREDIT : Fld := { ix := 93, base := 0x80020, n1 := 8, s1 := 0x10000, n2 := 8, s2 := 0x4, unit := .group, width := 18, acc := .ro }

-- GRP_REVOKE_CNT (R169)
def GRP_REVOKE_CNT_COUNT : Fld := { ix := 94, base := 0x80040, n1 := 8, s1 := 0x10000, unit := .group, width := 16, acc := .rc }

-- GRP_BITE_CNT (R169)
def GRP_BITE_CNT_COUNT : Fld := { ix := 95, base := 0x80044, n1 := 8, s1 := 0x10000, unit := .group, width := 16, acc := .rc }

-- GRP_BITE_VALID (R169)
def GRP_BITE_VALID_VALID : Fld := { ix := 96, base := 0x80048, n1 := 8, s1 := 0x10000, unit := .group, width := 8, acc := .ro }

-- GRP_BITE_EPOCH (R169)
def GRP_BITE_EPOCH_EPOCH : Fld := { ix := 97, base := 0x80060, n1 := 8, s1 := 0x10000, n2 := 8, s2 := 0x4, unit := .group, width := 32, acc := .ro }

-- XBAR_ARB (R170)
def XBAR_ARB_AGE_LIMIT : Fld := { ix := 98, base := 0x37800, width := 12, acc := .rw, cls := .tick, rst := 0x100 }
def XBAR_ARB_SM_GCLASS : Fld := { ix := 99, base := 0x37800, lsb := 12, width := 2, acc := .rw, cls := .tick, rst := 0x3 }
def XBAR_ARB_INT_GCLASS : Fld := { ix := 100, base := 0x37800, lsb := 14, width := 2, acc := .rw, cls := .tick, rst := 0x3 }

-- SM_CTL (R209)
def SM_CTL_REPLACE_EN : Fld := { ix := 101, base := 0x20000, width := 1, acc := .rw, cls := .tick, rst := 0x1 }
def SM_CTL_AUTO_HOME : Fld := { ix := 102, base := 0x20000, lsb := 1, width := 1, acc := .rw, cls := .tick, rst := 0x1 }
def SM_CTL_LOAD_EPOCHS : Fld := { ix := 103, base := 0x20000, lsb := 8, width := 8, acc := .rw, cls := .tick, rst := 0x8 }
def SM_CTL_BAL_THRESH : Fld := { ix := 104, base := 0x20000, lsb := 16, width := 16, acc := .rw, cls := .tick, rst := 0x10 }

-- SM_STATUS (R209)
def SM_STATUS_SURFACES : Fld := { ix := 105, base := 0x20004, width := 17, acc := .ro }
def SM_STATUS_TABLE_FULL : Fld := { ix := 106, base := 0x20004, lsb := 17, width := 1, acc := .ro }
def SM_STATUS_REPLACING : Fld := { ix := 107, base := 0x20004, lsb := 18, width := 1, acc := .ro }

-- SM_FORCE (R209)
def SM_FORCE_INDEX : Fld := { ix := 108, base := 0x20008, width := 16, acc := .wo, cls := .now }
def SM_FORCE_GEN : Fld := { ix := 109, base := 0x20008, lsb := 16, width := 8, acc := .wo, cls := .now }
def SM_FORCE_GO : Fld := { ix := 110, base := 0x20008, lsb := 31, width := 1, acc := .w1t, cls := .now }

-- SM_FORCE_STATUS (R209)
def SM_FORCE_STATUS_RESULT : Fld := { ix := 111, base := 0x2000c, width := 4, acc := .ro }
def SM_FORCE_STATUS_FORCE_DONE : Fld := { ix := 112, base := 0x2000c, lsb := 4, width := 1, acc := .rc }

-- SM_POOL_FREE (R209)
def SM_POOL_FREE_FREE : Fld := { ix := 113, base := 0x20100, n1 := 8, s1 := 0x20, width := 18, acc := .ro }

-- SM_POOL_TOTAL (R209)
def SM_POOL_TOTAL_TOTAL : Fld := { ix := 114, base := 0x20104, n1 := 8, s1 := 0x20, width := 18, acc := .ro }

-- SM_POOL_LEVEL (R209)
def SM_POOL_LEVEL_LEVEL : Fld := { ix := 115, base := 0x20108, n1 := 8, s1 := 0x20, width := 2, acc := .ro }
def SM_POOL_LEVEL_LOW : Fld := { ix := 116, base := 0x20108, n1 := 8, s1 := 0x20, lsb := 8, width := 1, acc := .ro }
def SM_POOL_LEVEL_LOWER : Fld := { ix := 117, base := 0x20108, n1 := 8, s1 := 0x20, lsb := 9, width := 1, acc := .ro }
def SM_POOL_LEVEL_CRITICAL : Fld := { ix := 118, base := 0x20108, n1 := 8, s1 := 0x20, lsb := 10, width := 1, acc := .ro }

-- SM_POOL_HYST (R209)
def SM_POOL_HYST_HYST : Fld := { ix := 119, base := 0x2010c, n1 := 8, s1 := 0x20, width := 16, acc := .rw, cls := .tick, rst := 0x2 }

-- SM_POOL_MINFREE (R209)
def SM_POOL_MINFREE_MINFREE : Fld := { ix := 120, base := 0x20110, n1 := 8, s1 := 0x20, width := 18, acc := .rc, rst := 0x3ffff }

-- SM_POOL_NOSPACE_CNT (R209)
def SM_POOL_NOSPACE_CNT_COUNT : Fld := { ix := 121, base := 0x20114, n1 := 8, s1 := 0x20, width := 16, acc := .rc }

-- SM_POOL_WAITERS (R209)
def SM_POOL_WAITERS_WAITERS : Fld := { ix := 122, base := 0x20118, n1 := 8, s1 := 0x20, width := 11, acc := .ro }

-- SM_POOL_CHANNELS (R209)
def SM_POOL_CHANNELS_CHANNELS : Fld := { ix := 123, base := 0x2011c, n1 := 8, s1 := 0x20, width := 32, acc := .ro }

-- SM_EVAC_CTL (R209)
def SM_EVAC_CTL_CH : Fld := { ix := 124, base := 0x20400, width := 5, acc := .rw, cls := .quiet, own := .evac }
def SM_EVAC_CTL_RETIRE : Fld := { ix := 125, base := 0x20400, lsb := 8, width := 1, acc := .rw, cls := .quiet, own := .evac }
def SM_EVAC_CTL_START : Fld := { ix := 126, base := 0x20400, lsb := 16, width := 1, acc := .w1t, cls := .now }
def SM_EVAC_CTL_CANCEL : Fld := { ix := 127, base := 0x20400, lsb := 17, width := 1, acc := .w1t, cls := .now }

-- SM_EVAC_STATUS (R209)
def SM_EVAC_STATUS_STATE : Fld := { ix := 128, base := 0x20404, width := 3, acc := .ro }
def SM_EVAC_STATUS_CH : Fld := { ix := 129, base := 0x20404, lsb := 8, width := 5, acc := .ro }
def SM_EVAC_STATUS_EVAC_DONE : Fld := { ix := 130, base := 0x20404, lsb := 16, width := 1, acc := .rc }
def SM_EVAC_STATUS_EVAC_LOST : Fld := { ix := 131, base := 0x20404, lsb := 17, width := 1, acc := .rc }
def SM_EVAC_STATUS_STALLED : Fld := { ix := 132, base := 0x20404, lsb := 18, width := 1, acc := .ro }

-- SM_EVAC_LEFT (R209)
def SM_EVAC_LEFT_CHUNKS : Fld := { ix := 133, base := 0x20408, width := 24, acc := .ro }

-- SM_MIGRATE_CTL (R209)
def SM_MIGRATE_CTL_SET : Fld := { ix := 134, base := 0x20410, width := 3, acc := .rw, cls := .quiet, own := .migrate }
def SM_MIGRATE_CTL_LANE : Fld := { ix := 135, base := 0x20410, lsb := 8, width := 8, acc := .rw, cls := .quiet, own := .migrate }
def SM_MIGRATE_CTL_DEST : Fld := { ix := 136, base := 0x20410, lsb := 16, width := 5, acc := .rw, cls := .quiet, own := .migrate }
def SM_MIGRATE_CTL_START : Fld := { ix := 137, base := 0x20410, lsb := 24, width := 1, acc := .w1t, cls := .now }

-- SM_MIGRATE_STATUS (R209)
def SM_MIGRATE_STATUS_STATE : Fld := { ix := 138, base := 0x20414, width := 2, acc := .ro }
def SM_MIGRATE_STATUS_MIGRATE_DONE : Fld := { ix := 139, base := 0x20414, lsb := 16, width := 1, acc := .rc }

-- SM_LANE (R209)
def SM_LANE_CH0 : Fld := { ix := 140, base := 0x21000, n1 := 9, s1 := 0x100, n2 := 64, s2 := 0x4, width := 5, acc := .ro }
def SM_LANE_MOVING0 : Fld := { ix := 141, base := 0x21000, n1 := 9, s1 := 0x100, n2 := 64, s2 := 0x4, lsb := 7, width := 1, acc := .ro }
def SM_LANE_CH1 : Fld := { ix := 142, base := 0x21000, n1 := 9, s1 := 0x100, n2 := 64, s2 := 0x4, lsb := 8, width := 5, acc := .ro }
def SM_LANE_MOVING1 : Fld := { ix := 143, base := 0x21000, n1 := 9, s1 := 0x100, n2 := 64, s2 := 0x4, lsb := 15, width := 1, acc := .ro }
def SM_LANE_CH2 : Fld := { ix := 144, base := 0x21000, n1 := 9, s1 := 0x100, n2 := 64, s2 := 0x4, lsb := 16, width := 5, acc := .ro }
def SM_LANE_MOVING2 : Fld := { ix := 145, base := 0x21000, n1 := 9, s1 := 0x100, n2 := 64, s2 := 0x4, lsb := 23, width := 1, acc := .ro }
def SM_LANE_CH3 : Fld := { ix := 146, base := 0x21000, n1 := 9, s1 := 0x100, n2 := 64, s2 := 0x4, lsb := 24, width := 5, acc := .ro }
def SM_LANE_MOVING3 : Fld := { ix := 147, base := 0x21000, n1 := 9, s1 := 0x100, n2 := 64, s2 := 0x4, lsb := 31, width := 1, acc := .ro }

-- SM_CH_LOAD (R209)
def SM_CH_LOAD_LOAD : Fld := { ix := 148, base := 0x22000, n1 := 32, s1 := 0x4, unit := .chan, width := 32, acc := .ro }

-- SM_CH_SPARE (R209)
def SM_CH_SPARE_SPARE : Fld := { ix := 149, base := 0x22100, n1 := 32, s1 := 0x4, unit := .chan, width := 13, acc := .ro }

-- CIR_CTL (R238)
def CIR_CTL_RETRY_EN : Fld := { ix := 150, base := 0x23000, width := 1, acc := .rw, cls := .tick, rst := 0x1 }
def CIR_CTL_MARK_POISON : Fld := { ix := 151, base := 0x23000, lsb := 1, width := 1, acc := .rw, cls := .tick, rst := 0x1 }
def CIR_CTL_REARM : Fld := { ix := 152, base := 0x23000, lsb := 2, width := 1, acc := .w1t, cls := .now }

-- CIR_STATUS (R238)
def CIR_STATUS_CRC_FAIL : Fld := { ix := 153, base := 0x23004, width := 1, acc := .rc }
def CIR_STATUS_HDR_INVALID : Fld := { ix := 154, base := 0x23004, lsb := 1, width := 1, acc := .rc }
def CIR_STATUS_TRANSIENT : Fld := { ix := 155, base := 0x23004, lsb := 2, width := 1, acc := .rc }
def CIR_STATUS_MERGE_POISON : Fld := { ix := 156, base := 0x23004, lsb := 3, width := 1, acc := .rc }

-- CIR_FAIL_FIRST_A (R238)
def CIR_FAIL_FIRST_A_INDEX : Fld := { ix := 157, base := 0x23008, width := 16, acc := .ro }
def CIR_FAIL_FIRST_A_GEN : Fld := { ix := 158, base := 0x23008, lsb := 16, width := 8, acc := .ro }
def CIR_FAIL_FIRST_A_PLANE : Fld := { ix := 159, base := 0x23008, lsb := 24, width := 2, acc := .ro }
def CIR_FAIL_FIRST_A_CAUSE : Fld := { ix := 160, base := 0x23008, lsb := 26, width := 3, acc := .ro }
def CIR_FAIL_FIRST_A_WRITE : Fld := { ix := 161, base := 0x23008, lsb := 29, width := 1, acc := .ro }
def CIR_FAIL_FIRST_A_RETRIED : Fld := { ix := 162, base := 0x23008, lsb := 30, width := 1, acc := .ro }
def CIR_FAIL_FIRST_A_VALID : Fld := { ix := 163, base := 0x23008, lsb := 31, width := 1, acc := .ro }

-- CIR_FAIL_FIRST_B (R238)
def CIR_FAIL_FIRST_B_CELL_X : Fld := { ix := 164, base := 0x2300c, width := 16, acc := .ro }
def CIR_FAIL_FIRST_B_CELL_Y : Fld := { ix := 165, base := 0x2300c, lsb := 16, width := 16, acc := .ro }

-- CIR_FAIL_CNT (R238)
def CIR_FAIL_CNT_COUNT : Fld := { ix := 166, base := 0x23010, width := 16, acc := .rc }

-- CIR_TRANSIENT_CNT (R238)
def CIR_TRANSIENT_CNT_COUNT : Fld := { ix := 167, base := 0x23014, width := 16, acc := .rc }

-- CIR_HDR_ECC (R238)
def CIR_HDR_ECC_CORRECTED : Fld := { ix := 168, base := 0x23018, width := 16, acc := .rc }
def CIR_HDR_ECC_DROPPED : Fld := { ix := 169, base := 0x23018, lsb := 16, width := 16, acc := .rc }

-- HALO_CTL (R276)
def HALO_CTL_PREFETCH_DEPTH : Fld := { ix := 170, base := 0x81000, n1 := 8, s1 := 0x10000, unit := .group, width := 4, acc := .rw, cls := .tick, rst := 0x4 }
def HALO_CTL_MOTION_HINT_EN : Fld := { ix := 171, base := 0x81000, n1 := 8, s1 := 0x10000, unit := .group, lsb := 4, width := 1, acc := .rw, cls := .tick, rst := 0x1 }
def HALO_CTL_REARM : Fld := { ix := 172, base := 0x81000, n1 := 8, s1 := 0x10000, unit := .group, lsb := 5, width := 1, acc := .w1t, cls := .now }
def HALO_CTL_LOCK_MAX : Fld := { ix := 173, base := 0x81000, n1 := 8, s1 := 0x10000, unit := .group, lsb := 8, width := 6, acc := .rw, cls := .tick, rst := 0x38 }
def HALO_CTL_WP_SHAPE : Fld := { ix := 174, base := 0x81000, n1 := 8, s1 := 0x10000, unit := .group, lsb := 16, width := 8, acc := .rw, cls := .tick }

-- HALO_INV_CTL (R276)
def HALO_INV_CTL_GO : Fld := { ix := 175, base := 0x81008, n1 := 8, s1 := 0x10000, unit := .group, width := 1, acc := .w1t, cls := .now }
def HALO_INV_CTL_KIND : Fld := { ix := 176, base := 0x81008, n1 := 8, s1 := 0x10000, unit := .group, lsb := 1, width := 2, acc := .rw, cls := .now }
def HALO_INV_CTL_DISCARD : Fld := { ix := 177, base := 0x81008, n1 := 8, s1 := 0x10000, unit := .group, lsb := 3, width := 1, acc := .rw, cls := .now }
def HALO_INV_CTL_BCAST : Fld := { ix := 178, base := 0x81008, n1 := 8, s1 := 0x10000, unit := .group, lsb := 4, width := 1, acc := .rw, cls := .now }

-- HALO_INV_SURF (R276)
def HALO_INV_SURF_INDEX : Fld := { ix := 179, base := 0x8100c, n1 := 8, s1 := 0x10000, unit := .group, width := 16, acc := .rw, cls := .now }
def HALO_INV_SURF_GEN : Fld := { ix := 180, base := 0x8100c, n1 := 8, s1 := 0x10000, unit := .group, lsb := 16, width := 8, acc := .rw, cls := .now }
def HALO_INV_SURF_PLANE : Fld := { ix := 181, base := 0x8100c, n1 := 8, s1 := 0x10000, unit := .group, lsb := 24, width := 2, acc := .rw, cls := .now }
def HALO_INV_SURF_ALL_PLANES : Fld := { ix := 182, base := 0x8100c, n1 := 8, s1 := 0x10000, unit := .group, lsb := 26, width := 1, acc := .rw, cls := .now }

-- HALO_INV_TX (R276)
def HALO_INV_TX_TX0 : Fld := { ix := 183, base := 0x81010, n1 := 8, s1 := 0x10000, unit := .group, width := 8, acc := .rw, cls := .now }
def HALO_INV_TX_TX1 : Fld := { ix := 184, base := 0x81010, n1 := 8, s1 := 0x10000, unit := .group, lsb := 8, width := 8, acc := .rw, cls := .now, rst := 0xff }

-- HALO_INV_TY (R276)
def HALO_INV_TY_TY0 : Fld := { ix := 185, base := 0x81014, n1 := 8, s1 := 0x10000, unit := .group, width := 10, acc := .rw, cls := .now }
def HALO_INV_TY_TY1 : Fld := { ix := 186, base := 0x81014, n1 := 8, s1 := 0x10000, unit := .group, lsb := 16, width := 10, acc := .rw, cls := .now, rst := 0x3ff }

-- HALO_INV_LINE (R276)
def HALO_INV_LINE_FIRST : Fld := { ix := 187, base := 0x81018, n1 := 8, s1 := 0x10000, unit := .group, width := 27, acc := .rw, cls := .now }

-- HALO_INV_COUNT (R276)
def HALO_INV_COUNT_COUNT : Fld := { ix := 188, base := 0x8101c, n1 := 8, s1 := 0x10000, unit := .group, width := 27, acc := .rw, cls := .now }

-- HALO_STATUS (R276)
def HALO_STATUS_LOCKED : Fld := { ix := 189, base := 0x81020, n1 := 8, s1 := 0x10000, unit := .group, width := 6, acc := .ro }
def HALO_STATUS_VALID : Fld := { ix := 190, base := 0x81020, n1 := 8, s1 := 0x10000, unit := .group, lsb := 8, width := 7, acc := .ro }
def HALO_STATUS_INV_BUSY : Fld := { ix := 191, base := 0x81020, n1 := 8, s1 := 0x10000, unit := .group, lsb := 16, width := 1, acc := .ro }
def HALO_STATUS_INV_DONE : Fld := { ix := 192, base := 0x81020, n1 := 8, s1 := 0x10000, unit := .group, lsb := 24, width := 1, acc := .rc }
def HALO_STATUS_TAG_ERR : Fld := { ix := 193, base := 0x81020, n1 := 8, s1 := 0x10000, unit := .group, lsb := 25, width := 1, acc := .rc }
def HALO_STATUS_DATA_UE : Fld := { ix := 194, base := 0x81020, n1 := 8, s1 := 0x10000, unit := .group, lsb := 26, width := 1, acc := .rc }
def HALO_STATUS_DIRTY_LOST : Fld := { ix := 195, base := 0x81020, n1 := 8, s1 := 0x10000, unit := .group, lsb := 27, width := 1, acc := .rc }

-- HALO_ECC (R276)
def HALO_ECC_CORRECTED : Fld := { ix := 196, base := 0x81024, n1 := 8, s1 := 0x10000, unit := .group, width := 16, acc := .rc }
def HALO_ECC_UNCORRECTED : Fld := { ix := 197, base := 0x81024, n1 := 8, s1 := 0x10000, unit := .group, lsb := 16, width := 16, acc := .rc }

-- HALO_ERR_FIRST (R276)
def HALO_ERR_FIRST_ENTRY : Fld := { ix := 198, base := 0x81028, n1 := 8, s1 := 0x10000, unit := .group, width := 7, acc := .ro }
def HALO_ERR_FIRST_CAUSE : Fld := { ix := 199, base := 0x81028, n1 := 8, s1 := 0x10000, unit := .group, lsb := 8, width := 3, acc := .ro }
def HALO_ERR_FIRST_UNIT : Fld := { ix := 200, base := 0x81028, n1 := 8, s1 := 0x10000, unit := .group, lsb := 16, width := 8, acc := .ro }
def HALO_ERR_FIRST_VALID : Fld := { ix := 201, base := 0x81028, n1 := 8, s1 := 0x10000, unit := .group, lsb := 31, width := 1, acc := .ro }

-- HALO_PF_ISSUED (R276)
def HALO_PF_ISSUED_COUNT : Fld := { ix := 202, base := 0x8102c, n1 := 8, s1 := 0x10000, unit := .group, width := 16, acc := .rc }

-- HALO_PF_UNUSED (R276)
def HALO_PF_UNUSED_COUNT : Fld := { ix := 203, base := 0x81030, n1 := 8, s1 := 0x10000, unit := .group, width := 16, acc := .rc }

-- HALO_BYPASS_CNT (R276)
def HALO_BYPASS_CNT_COUNT : Fld := { ix := 204, base := 0x81034, n1 := 8, s1 := 0x10000, unit := .group, width := 16, acc := .rc }

-- HALO_ENT_A (R276)
def HALO_ENT_A_VALID : Fld := { ix := 205, base := 0x82000, n1 := 8, s1 := 0x10000, n2 := 76, s2 := 0x8, unit := .group, width := 1, acc := .ro }
def HALO_ENT_A_LOCKED : Fld := { ix := 206, base := 0x82000, n1 := 8, s1 := 0x10000, n2 := 76, s2 := 0x8, unit := .group, lsb := 1, width := 1, acc := .ro }
def HALO_ENT_A_EMPTY : Fld := { ix := 207, base := 0x82000, n1 := 8, s1 := 0x10000, n2 := 76, s2 := 0x8, unit := .group, lsb := 2, width := 1, acc := .ro }
def HALO_ENT_A_DIRTY : Fld := { ix := 208, base := 0x82000, n1 := 8, s1 := 0x10000, n2 := 76, s2 := 0x8, unit := .group, lsb := 3, width := 1, acc := .ro }
def HALO_ENT_A_OWN : Fld := { ix := 209, base := 0x82000, n1 := 8, s1 := 0x10000, n2 := 76, s2 := 0x8, unit := .group, lsb := 4, width := 1, acc := .ro }
def HALO_ENT_A_FILLING : Fld := { ix := 210, base := 0x82000, n1 := 8, s1 := 0x10000, n2 := 76, s2 := 0x8, unit := .group, lsb := 5, width := 1, acc := .ro }
def HALO_ENT_A_EVB : Fld := { ix := 211, base := 0x82000, n1 := 8, s1 := 0x10000, n2 := 76, s2 := 0x8, unit := .group, lsb := 6, width := 2, acc := .ro }
def HALO_ENT_A_KIND : Fld := { ix := 212, base := 0x82000, n1 := 8, s1 := 0x10000, n2 := 76, s2 := 0x8, unit := .group, lsb := 8, width := 1, acc := .ro }
def HALO_ENT_A_PLANE : Fld := { ix := 213, base := 0x82000, n1 := 8, s1 := 0x10000, n2 := 76, s2 := 0x8, unit := .group, lsb := 9, width := 2, acc := .ro }
def HALO_ENT_A_INDEX : Fld := { ix := 214, base := 0x82000, n1 := 8, s1 := 0x10000, n2 := 76, s2 := 0x8, unit := .group, lsb := 16, width := 16, acc := .ro }

-- HALO_ENT_B (R276)
def HALO_ENT_B_TAG : Fld := { ix := 215, base := 0x82004, n1 := 8, s1 := 0x10000, n2 := 76, s2 := 0x8, unit := .group, width := 32, acc := .ro }

-- TR_CTL (R306)
def TR_CTL_WINDOWS : Fld := { ix := 216, base := 0x30000, width := 5, acc := .rw, cls := .tick, rst := 0x1 }
def TR_CTL_OVC_HOLD : Fld := { ix := 217, base := 0x30000, lsb := 8, width := 8, acc := .rw, cls := .tick, rst := 0x8 }
def TR_CTL_ESC_EN : Fld := { ix := 218, base := 0x30000, lsb := 16, width := 1, acc := .rw, cls := .tick, rst := 0x1 }

-- TR_VIEW (R306)
def TR_VIEW_CH : Fld := { ix := 219, base := 0x30004, width := 5, acc := .rw, cls := .now }

-- TR_STATUS (R306)
def TR_STATUS_OVERCAST : Fld := { ix := 220, base := 0x30008, width := 1, acc := .ro }
def TR_STATUS_TESTING : Fld := { ix := 221, base := 0x30008, lsb := 1, width := 1, acc := .ro }
def TR_STATUS_HOLDING : Fld := { ix := 222, base := 0x30008, lsb := 2, width := 1, acc := .ro }
def TR_STATUS_LIST_OVERFLOW : Fld := { ix := 223, base := 0x30008, lsb := 3, width := 1, acc := .ro }
def TR_STATUS_SUSPENDED : Fld := { ix := 224, base := 0x30008, lsb := 4, width := 20, acc := .ro }
def TR_STATUS_OVC_ENTER : Fld := { ix := 225, base := 0x30008, lsb := 24, width := 1, acc := .rc }
def TR_STATUS_OVC_CHANGE : Fld := { ix := 226, base := 0x30008, lsb := 25, width := 1, acc := .rc }
def TR_STATUS_OVC_CLEAR : Fld := { ix := 227, base := 0x30008, lsb := 26, width := 1, acc := .rc }

-- TR_OVC_FAIL (R306)
def TR_OVC_FAIL_CHANNEL : Fld := { ix := 228, base := 0x3000c, width := 5, acc := .ro }
def TR_OVC_FAIL_DOMAIN : Fld := { ix := 229, base := 0x3000c, lsb := 5, width := 3, acc := .ro }
def TR_OVC_FAIL_WINDOW : Fld := { ix := 230, base := 0x3000c, lsb := 8, width := 8, acc := .ro }
def TR_OVC_FAIL_VALID : Fld := { ix := 231, base := 0x3000c, lsb := 16, width := 1, acc := .ro }

-- TR_OVC_EPOCH (R306)
def TR_OVC_EPOCH_EPOCH : Fld := { ix := 232, base := 0x30010, width := 32, acc := .ro }

-- TR_FCACHE (R306)
def TR_FCACHE_PINNED : Fld := { ix := 233, base := 0x30014, width := 16, acc := .ro }
def TR_FCACHE_UNPINNED : Fld := { ix := 234, base := 0x30014, lsb := 16, width := 16, acc := .ro }

-- TR_FCACHE_MISS (R306)
def TR_FCACHE_MISS_COUNT : Fld := { ix := 235, base := 0x30018, width := 32, acc := .rc }

-- TR_WINDOW (R306)
def TR_WINDOW_INDEX : Fld := { ix := 236, base := 0x3001c, width := 4, acc := .ro }

-- CLS_IDLE_SLOPE (R307)
def CLS_IDLE_SLOPE_IDLE_SLOPE : Fld := { ix := 237, base := 0x31000, n1 := 16, s1 := 0x40, width := 32, acc := .rw, cls := .tick }

-- CLS_SEND_SLOPE (R307)
def CLS_SEND_SLOPE_SEND_SLOPE : Fld := { ix := 238, base := 0x31004, n1 := 16, s1 := 0x40, width := 32, acc := .rw, cls := .tick }

-- CLS_CREDIT_LIMIT (R307)
def CLS_CREDIT_LIMIT_LIMIT : Fld := { ix := 239, base := 0x31008, n1 := 16, s1 := 0x40, width := 32, acc := .rw, cls := .tick, rst := 0x4000 }

-- CLS_QUANTUM (R307)
def CLS_QUANTUM_QUANTUM : Fld := { ix := 240, base := 0x3100c, n1 := 16, s1 := 0x40, width := 21, acc := .rw, cls := .tick, rst := 0x1000 }

-- CLS_CREDIT (R307)
def CLS_CREDIT_CREDIT : Fld := { ix := 241, base := 0x31010, n1 := 16, s1 := 0x40, width := 32, acc := .ro }

-- CLS_DEFICIT (R307)
def CLS_DEFICIT_DEFICIT : Fld := { ix := 242, base := 0x31014, n1 := 16, s1 := 0x40, width := 21, acc := .ro }

-- CLS_ESC_CNT (R307)
def CLS_ESC_CNT_COUNT : Fld := { ix := 243, base := 0x31018, n1 := 16, s1 := 0x40, width := 32, acc := .rc }

-- CLS_DEMOTE_CNT (R307)
def CLS_DEMOTE_CNT_COUNT : Fld := { ix := 244, base := 0x3101c, n1 := 16, s1 := 0x40, width := 32, acc := .rc }

-- CLS_YELLOW_CNT (R307)
def CLS_YELLOW_CNT_COUNT : Fld := { ix := 245, base := 0x31020, n1 := 16, s1 := 0x40, width := 32, acc := .rc }

-- TR_BYTES_LAST (R308)
def TR_BYTES_LAST_COUNT : Fld := { ix := 246, base := 0x35000, n1 := 32, s1 := 0x80, n2 := 16, s2 := 0x8, unit := .chan, width := 32, acc := .ro }

-- TR_BYTES_CUR (R308)
def TR_BYTES_CUR_COUNT : Fld := { ix := 247, base := 0x35004, n1 := 32, s1 := 0x80, n2 := 16, s2 := 0x8, unit := .chan, width := 32, acc := .ro }

-- TR_OVC_LIST (R308)
def TR_OVC_LIST_FLOW : Fld := { ix := 248, base := 0x36000, n1 := 1024, s1 := 0x4, width := 20, acc := .ro }
def TR_OVC_LIST_RANK : Fld := { ix := 249, base := 0x36000, n1 := 1024, s1 := 0x4, lsb := 20, width := 4, acc := .ro }
def TR_OVC_LIST_CLASS : Fld := { ix := 250, base := 0x36000, n1 := 1024, s1 := 0x4, lsb := 24, width := 4, acc := .ro }
def TR_OVC_LIST_VALID : Fld := { ix := 251, base := 0x36000, n1 := 1024, s1 := 0x4, lsb := 31, width := 1, acc := .ro }

-- CH_CTL (R336)
def CH_CTL_HOLD : Fld := { ix := 252, base := 0x100000, n1 := 32, s1 := 0x8000, unit := .chan, width := 1, acc := .rw, cls := .now }
def CH_CTL_REF_MODE : Fld := { ix := 253, base := 0x100000, n1 := 32, s1 := 0x8000, unit := .chan, lsb := 1, width := 1, acc := .rw, cls := .quiet, own := .chan }
def CH_CTL_PD_EN : Fld := { ix := 254, base := 0x100000, n1 := 32, s1 := 0x8000, unit := .chan, lsb := 2, width := 1, acc := .rw, cls := .tick, rst := 0x1 }
def CH_CTL_BL32_EN : Fld := { ix := 255, base := 0x100000, n1 := 32, s1 := 0x8000, unit := .chan, lsb := 3, width := 1, acc := .rw, cls := .tick, rst := 0x1 }

-- CH_PAGE (R336)
def CH_PAGE_PAGE_IDLE : Fld := { ix := 256, base := 0x100004, n1 := 32, s1 := 0x8000, unit := .chan, width := 12, acc := .rw, cls := .tick, rst := 0x40 }
def CH_PAGE_HIT_MAX : Fld := { ix := 257, base := 0x100004, n1 := 32, s1 := 0x8000, unit := .chan, lsb := 16, width := 8, acc := .rw, cls := .tick, rst := 0x10 }

-- CH_DIR (R336)
def CH_DIR_WR_HIGH : Fld := { ix := 258, base := 0x100008, n1 := 32, s1 := 0x8000, unit := .chan, width := 6, acc := .rw, cls := .tick, rst := 0x18 }
def CH_DIR_WR_LOW : Fld := { ix := 259, base := 0x100008, n1 := 32, s1 := 0x8000, unit := .chan, lsb := 8, width := 6, acc := .rw, cls := .tick, rst := 0x8 }
def CH_DIR_DIR_MAX : Fld := { ix := 260, base := 0x100008, n1 := 32, s1 := 0x8000, unit := .chan, lsb := 16, width := 8, acc := .rw, cls := .tick, rst := 0x20 }

-- CH_REF (R336)
def CH_REF_REF_URGENT : Fld := { ix := 261, base := 0x10000c, n1 := 32, s1 := 0x8000, unit := .chan, width := 3, acc := .rw, cls := .tick, rst := 0x6 }
def CH_REF_REF_PULLIN : Fld := { ix := 262, base := 0x10000c, n1 := 32, s1 := 0x8000, unit := .chan, lsb := 4, width := 4, acc := .rw, cls := .tick, rst := 0x2 }
def CH_REF_MR4_PERIOD : Fld := { ix := 263, base := 0x10000c, n1 := 32, s1 := 0x8000, unit := .chan, lsb := 8, width := 8, acc := .rw, cls := .tick, rst := 0x4 }

-- CH_PD (R336)
def CH_PD_PD_IDLE : Fld := { ix := 264, base := 0x100010, n1 := 32, s1 := 0x8000, unit := .chan, width := 12, acc := .rw, cls := .tick, rst := 0x80 }

-- CH_STATUS (R336)
def CH_STATUS_QUIESCED : Fld := { ix := 265, base := 0x100014, n1 := 32, s1 := 0x8000, unit := .chan, width := 1, acc := .ro }
def CH_STATUS_PD0 : Fld := { ix := 266, base := 0x100014, n1 := 32, s1 := 0x8000, unit := .chan, lsb := 1, width := 1, acc := .ro }
def CH_STATUS_PD1 : Fld := { ix := 267, base := 0x100014, n1 := 32, s1 := 0x8000, unit := .chan, lsb := 2, width := 1, acc := .ro }
def CH_STATUS_DIR : Fld := { ix := 268, base := 0x100014, n1 := 32, s1 := 0x8000, unit := .chan, lsb := 3, width := 1, acc := .ro }
def CH_STATUS_BG_MODE : Fld := { ix := 269, base := 0x100014, n1 := 32, s1 := 0x8000, unit := .chan, lsb := 4, width := 1, acc := .ro }
def CH_STATUS_RATE0 : Fld := { ix := 270, base := 0x100014, n1 := 32, s1 := 0x8000, unit := .chan, lsb := 5, width := 3, acc := .ro, rst := 0x2 }
def CH_STATUS_RATE1 : Fld := { ix := 271, base := 0x100014, n1 := 32, s1 := 0x8000, unit := .chan, lsb := 8, width := 3, acc := .ro, rst := 0x2 }
def CH_STATUS_REF_RAISED : Fld := { ix := 272, base := 0x100014, n1 := 32, s1 := 0x8000, unit := .chan, lsb := 16, width := 1, acc := .ro }
def CH_STATUS_RATE_CHANGE : Fld := { ix := 273, base := 0x100014, n1 := 32, s1 := 0x8000, unit := .chan, lsb := 24, width := 1, acc := .rc }
def CH_STATUS_REF_LIMIT : Fld := { ix := 274, base := 0x100014, n1 := 32, s1 := 0x8000, unit := .chan, lsb := 25, width := 1, acc := .rc }
def CH_STATUS_DEBT_MAX : Fld := { ix := 275, base := 0x100014, n1 := 32, s1 := 0x8000, unit := .chan, lsb := 26, width := 1, acc := .rc }

-- CH_REF_DEBT (R336)
def CH_REF_DEBT_DEBT0 : Fld := { ix := 276, base := 0x100018, n1 := 32, s1 := 0x8000, unit := .chan, width := 8, acc := .ro }
def CH_REF_DEBT_DEBT1 : Fld := { ix := 277, base := 0x100018, n1 := 32, s1 := 0x8000, unit := .chan, lsb := 8, width := 8, acc := .ro }

-- CH_QUEUE (R336)
def CH_QUEUE_ENTRIES : Fld := { ix := 278, base := 0x10001c, n1 := 32, s1 := 0x8000, unit := .chan, width := 7, acc := .ro }
def CH_QUEUE_WRITES : Fld := { ix := 279, base := 0x10001c, n1 := 32, s1 := 0x8000, unit := .chan, lsb := 8, width := 6, acc := .ro }

-- CH_OPEN (R336)
def CH_OPEN_OPEN0 : Fld := { ix := 280, base := 0x100020, n1 := 32, s1 := 0x8000, unit := .chan, width := 16, acc := .ro }
def CH_OPEN_OPEN1 : Fld := { ix := 281, base := 0x100020, n1 := 32, s1 := 0x8000, unit := .chan, lsb := 16, width := 16, acc := .ro }

-- CH_REF_CNT (R336)
def CH_REF_CNT_COUNT : Fld := { ix := 282, base := 0x100024, n1 := 32, s1 := 0x8000, unit := .chan, width := 32, acc := .rc }

-- CH_RFM_CNT (R336)
def CH_RFM_CNT_COUNT : Fld := { ix := 283, base := 0x100028, n1 := 32, s1 := 0x8000, unit := .chan, width := 16, acc := .rc }

-- CH_PD_CNT (R336)
def CH_PD_CNT_COUNT : Fld := { ix := 284, base := 0x10002c, n1 := 32, s1 := 0x8000, unit := .chan, width := 32, acc := .rc }

-- CH_TURN_CNT (R336)
def CH_TURN_CNT_COUNT : Fld := { ix := 285, base := 0x100030, n1 := 32, s1 := 0x8000, unit := .chan, width := 32, acc := .rc }

-- CH_RFM_CFG (R336)
def CH_RFM_CFG_RAAIMT : Fld := { ix := 286, base := 0x100034, n1 := 32, s1 := 0x8000, unit := .chan, width := 10, acc := .ro }
def CH_RFM_CFG_RAAMMT : Fld := { ix := 287, base := 0x100034, n1 := 32, s1 := 0x8000, unit := .chan, lsb := 12, width := 10, acc := .ro }
def CH_RFM_CFG_RFM_REQ : Fld := { ix := 288, base := 0x100034, n1 := 32, s1 := 0x8000, unit := .chan, lsb := 22, width := 1, acc := .ro }

-- CH_RAA (R336)
def CH_RAA_RAA : Fld := { ix := 289, base := 0x100200, n1 := 32, s1 := 0x8000, n2 := 32, s2 := 0x4, unit := .chan, width := 10, acc := .ro }

-- CH_TIMING (R336)
def CH_TIMING_VALUE : Fld := { ix := 290, base := 0x100400, n1 := 32, s1 := 0x8000, n2 := 37, s2 := 0x4, unit := .chan, width := 16, acc := .rw, cls := .quiet, own := .chan }

-- PHY_CTL (R359)
def PHY_CTL_COLD : Fld := { ix := 291, base := 0x101000, n1 := 32, s1 := 0x8000, unit := .chan, width := 1, acc := .w1t, cls := .now }
def PHY_CTL_WARM : Fld := { ix := 292, base := 0x101000, n1 := 32, s1 := 0x8000, unit := .chan, lsb := 1, width := 1, acc := .w1t, cls := .now }
def PHY_CTL_LONG : Fld := { ix := 293, base := 0x101000, n1 := 32, s1 := 0x8000, unit := .chan, lsb := 2, width := 1, acc := .w1t, cls := .now }
def PHY_CTL_AUTO_EVAC : Fld := { ix := 294, base := 0x101000, n1 := 32, s1 := 0x8000, unit := .chan, lsb := 3, width := 1, acc := .rw, cls := .tick, rst := 0x1 }
def PHY_CTL_REARM : Fld := { ix := 295, base := 0x101000, n1 := 32, s1 := 0x8000, unit := .chan, lsb := 4, width := 1, acc := .w1t, cls := .now }
def PHY_CTL_TRAIN_RETRY : Fld := { ix := 296, base := 0x101000, n1 := 32, s1 := 0x8000, unit := .chan, lsb := 8, width := 4, acc := .rw, cls := .tick, rst := 0x2 }

-- PHY_STATUS (R359)
def PHY_STATUS_STATE : Fld := { ix := 297, base := 0x101004, n1 := 32, s1 := 0x8000, unit := .chan, width := 4, acc := .ro }
def PHY_STATUS_STEP : Fld := { ix := 298, base := 0x101004, n1 := 32, s1 := 0x8000, unit := .chan, lsb := 4, width := 4, acc := .ro }
def PHY_STATUS_OUT_OF_SERVICE : Fld := { ix := 299, base := 0x101004, n1 := 32, s1 := 0x8000, unit := .chan, lsb := 8, width := 1, acc := .ro }
def PHY_STATUS_RETAINED : Fld := { ix := 300, base := 0x101004, n1 := 32, s1 := 0x8000, unit := .chan, lsb := 9, width := 1, acc := .ro }
def PHY_STATUS_LONG_PENDING : Fld := { ix := 301, base := 0x101004, n1 := 32, s1 := 0x8000, unit := .chan, lsb := 10, width := 1, acc := .ro }
def PHY_STATUS_CORR_PENDING : Fld := { ix := 302, base := 0x101004, n1 := 32, s1 := 0x8000, unit := .chan, lsb := 11, width := 1, acc := .ro }
def PHY_STATUS_DAWN_DONE : Fld := { ix := 303, base := 0x101004, n1 := 32, s1 := 0x8000, unit := .chan, lsb := 24, width := 1, acc := .rc }
def PHY_STATUS_ENV_MISMATCH : Fld := { ix := 304, base := 0x101004, n1 := 32, s1 := 0x8000, unit := .chan, lsb := 25, width := 1, acc := .rc }
def PHY_STATUS_TRAIN_FAIL : Fld := { ix := 305, base := 0x101004, n1 := 32, s1 := 0x8000, unit := .chan, lsb := 26, width := 1, acc := .rc }
def PHY_STATUS_EYE_LOW : Fld := { ix := 306, base := 0x101004, n1 := 32, s1 := 0x8000, unit := .chan, lsb := 27, width := 1, acc := .rc }
def PHY_STATUS_MAINT_STARVED : Fld := { ix := 307, base := 0x101004, n1 := 32, s1 := 0x8000, unit := .chan, lsb := 28, width := 1, acc := .rc }
def PHY_STATUS_LINK_ECC_HIGH : Fld := { ix := 308, base := 0x101004, n1 := 32, s1 := 0x8000, unit := .chan, lsb := 29, width := 1, acc := .rc }
def PHY_STATUS_DRIFT_HIGH : Fld := { ix := 309, base := 0x101004, n1 := 32, s1 := 0x8000, unit := .chan, lsb := 30, width := 1, acc := .rc }

-- PHY_FAIL (R359)
def PHY_FAIL_STEP : Fld := { ix := 310, base := 0x101008, n1 := 32, s1 := 0x8000, unit := .chan, width := 4, acc := .ro }
def PHY_FAIL_RANK : Fld := { ix := 311, base := 0x101008, n1 := 32, s1 := 0x8000, unit := .chan, lsb := 4, width := 1, acc := .ro }
def PHY_FAIL_CAUSE : Fld := { ix := 312, base := 0x101008, n1 := 32, s1 := 0x8000, unit := .chan, lsb := 5, width := 3, acc := .ro }
def PHY_FAIL_BIT : Fld := { ix := 313, base := 0x101008, n1 := 32, s1 := 0x8000, unit := .chan, lsb := 8, width := 5, acc := .ro }
def PHY_FAIL_VALID : Fld := { ix := 314, base := 0x101008, n1 := 32, s1 := 0x8000, unit := .chan, lsb := 31, width := 1, acc := .ro }

-- PHY_DAWN_TIME (R359)
def PHY_DAWN_TIME_TIME : Fld := { ix := 315, base := 0x10100c, n1 := 32, s1 := 0x8000, unit := .chan, width := 24, acc := .ro }
def PHY_DAWN_TIME_KIND : Fld := { ix := 316, base := 0x10100c, n1 := 32, s1 := 0x8000, unit := .chan, lsb := 24, width := 4, acc := .ro }

-- PHY_MR_MASK (R359)
def PHY_MR_MASK_MR5_MASK : Fld := { ix := 317, base := 0x101010, n1 := 32, s1 := 0x8000, unit := .chan, width := 8, acc := .rw, cls := .quiet, own := .phy, rst := 0xff }
def PHY_MR_MASK_MR6_MASK : Fld := { ix := 318, base := 0x101010, n1 := 32, s1 := 0x8000, unit := .chan, lsb := 8, width := 8, acc := .rw, cls := .quiet, own := .phy, rst := 0xff }
def PHY_MR_MASK_MR8_MASK : Fld := { ix := 319, base := 0x101010, n1 := 32, s1 := 0x8000, unit := .chan, lsb := 16, width := 8, acc := .rw, cls := .quiet, own := .phy, rst := 0xff }

-- PHY_MR_SEEN (R359)
def PHY_MR_SEEN_MR5 : Fld := { ix := 320, base := 0x101014, n1 := 32, s1 := 0x8000, n2 := 2, s2 := 0x4, unit := .chan, width := 8, acc := .ro }
def PHY_MR_SEEN_MR6 : Fld := { ix := 321, base := 0x101014, n1 := 32, s1 := 0x8000, n2 := 2, s2 := 0x4, unit := .chan, lsb := 8, width := 8, acc := .ro }
def PHY_MR_SEEN_MR8 : Fld := { ix := 322, base := 0x101014, n1 := 32, s1 := 0x8000, n2 := 2, s2 := 0x4, unit := .chan, lsb := 16, width := 8, acc := .ro }

-- PHY_DRV (R359)
def PHY_DRV_DQ_ODT : Fld := { ix := 323, base := 0x101020, n1 := 32, s1 := 0x8000, unit := .chan, width := 3, acc := .rw, cls := .quiet, own := .phy, rst := 0x3 }
def PHY_DRV_CA_ODT : Fld := { ix := 324, base := 0x101020, n1 := 32, s1 := 0x8000, unit := .chan, lsb := 3, width := 3, acc := .rw, cls := .quiet, own := .phy }
def PHY_DRV_PDDS : Fld := { ix := 325, base := 0x101020, n1 := 32, s1 := 0x8000, unit := .chan, lsb := 6, width := 3, acc := .rw, cls := .quiet, own := .phy, rst := 0x6 }
def PHY_DRV_SOC_ODT : Fld := { ix := 326, base := 0x101020, n1 := 32, s1 := 0x8000, unit := .chan, lsb := 9, width := 3, acc := .rw, cls := .quiet, own := .phy, rst := 0x3 }
def PHY_DRV_SOC_DRV : Fld := { ix := 327, base := 0x101020, n1 := 32, s1 := 0x8000, unit := .chan, lsb := 12, width := 3, acc := .rw, cls := .quiet, own := .phy, rst := 0x6 }

-- PHY_MAINT (R359)
def PHY_MAINT_ZQ_PERIOD : Fld := { ix := 328, base := 0x101024, n1 := 32, s1 := 0x8000, unit := .chan, width := 8, acc := .rw, cls := .tick, rst := 0x20 }
def PHY_MAINT_LONG_PERIOD : Fld := { ix := 329, base := 0x101024, n1 := 32, s1 := 0x8000, unit := .chan, lsb := 8, width := 8, acc := .rw, cls := .tick, rst := 0x1 }
def PHY_MAINT_MAINT_WAIT_MAX : Fld := { ix := 330, base := 0x101024, n1 := 32, s1 := 0x8000, unit := .chan, lsb := 16, width := 8, acc := .rw, cls := .tick, rst := 0x32 }

-- PHY_DRIFT_CFG (R359)
def PHY_DRIFT_CFG_DRIFT_LIMIT : Fld := { ix := 331, base := 0x101028, n1 := 32, s1 := 0x8000, unit := .chan, width := 6, acc := .rw, cls := .tick, rst := 0x8 }
def PHY_DRIFT_CFG_EYE_THRESH : Fld := { ix := 332, base := 0x101028, n1 := 32, s1 := 0x8000, unit := .chan, lsb := 8, width := 6, acc := .rw, cls := .tick, rst := 0x2 }
def PHY_DRIFT_CFG_EYE_MIN_MARGIN : Fld := { ix := 333, base := 0x101028, n1 := 32, s1 := 0x8000, unit := .chan, lsb := 16, width := 6, acc := .rw, cls := .tick, rst := 0xc }

-- PHY_OSC_I (R359)
def PHY_OSC_I_BASE : Fld := { ix := 334, base := 0x101030, n1 := 32, s1 := 0x8000, n2 := 2, s2 := 0x8, unit := .chan, width := 16, acc := .ro }
def PHY_OSC_I_LAST : Fld := { ix := 335, base := 0x101030, n1 := 32, s1 := 0x8000, n2 := 2, s2 := 0x8, unit := .chan, lsb := 16, width := 16, acc := .ro }

-- PHY_OSC_O (R359)
def PHY_OSC_O_BASE : Fld := { ix := 336, base := 0x101034, n1 := 32, s1 := 0x8000, n2 := 2, s2 := 0x8, unit := .chan, width := 16, acc := .ro }
def PHY_OSC_O_LAST : Fld := { ix := 337, base := 0x101034, n1 := 32, s1 := 0x8000, n2 := 2, s2 := 0x8, unit := .chan, lsb := 16, width := 16, acc := .ro }

-- PHY_DRIFT (R359)
def PHY_DRIFT_WR_PEND : Fld := { ix := 338, base := 0x101040, n1 := 32, s1 := 0x8000, n2 := 2, s2 := 0x4, unit := .chan, width := 8, acc := .ro }
def PHY_DRIFT_RD_PEND : Fld := { ix := 339, base := 0x101040, n1 := 32, s1 := 0x8000, n2 := 2, s2 := 0x4, unit := .chan, lsb := 8, width := 8, acc := .ro }
def PHY_DRIFT_APPLIED : Fld := { ix := 340, base := 0x101040, n1 := 32, s1 := 0x8000, n2 := 2, s2 := 0x4, unit := .chan, lsb := 16, width := 16, acc := .rc }

-- PHY_LINK_ECC (R359)
def PHY_LINK_ECC_CORRECTED : Fld := { ix := 341, base := 0x101050, n1 := 32, s1 := 0x8000, unit := .chan, width := 16, acc := .rc }
def PHY_LINK_ECC_UNCORRECTED : Fld := { ix := 342, base := 0x101050, n1 := 32, s1 := 0x8000, unit := .chan, lsb := 16, width := 16, acc := .rc }

-- PHY_LECC_THRESH (R359)
def PHY_LECC_THRESH_THRESH : Fld := { ix := 343, base := 0x101054, n1 := 32, s1 := 0x8000, unit := .chan, width := 16, acc := .rw, cls := .tick, rst := 0x100 }

-- PHY_MAINT_CNT (R359)
def PHY_MAINT_CNT_ZQ : Fld := { ix := 344, base := 0x101058, n1 := 32, s1 := 0x8000, unit := .chan, width := 16, acc := .rc }
def PHY_MAINT_CNT_LONG : Fld := { ix := 345, base := 0x101058, n1 := 32, s1 := 0x8000, unit := .chan, lsb := 16, width := 16, acc := .rc }

-- PHY_EYE (R359)
def PHY_EYE_LEFT : Fld := { ix := 346, base := 0x101100, n1 := 32, s1 := 0x8000, n2 := 64, s2 := 0x4, unit := .chan, width := 8, acc := .ro }
def PHY_EYE_RIGHT : Fld := { ix := 347, base := 0x101100, n1 := 32, s1 := 0x8000, n2 := 64, s2 := 0x4, unit := .chan, lsb := 8, width := 8, acc := .ro }
def PHY_EYE_RD_DELAY : Fld := { ix := 348, base := 0x101100, n1 := 32, s1 := 0x8000, n2 := 64, s2 := 0x4, unit := .chan, lsb := 16, width := 8, acc := .ro }
def PHY_EYE_WR_DELAY : Fld := { ix := 349, base := 0x101100, n1 := 32, s1 := 0x8000, n2 := 64, s2 := 0x4, unit := .chan, lsb := 24, width := 8, acc := .ro }

-- INT_CTL (R387)
def INT_CTL_LOG_CE : Fld := { ix := 350, base := 0x50000, width := 1, acc := .rw, cls := .tick, rst := 0x1 }
def INT_CTL_REMAP_AUTO : Fld := { ix := 351, base := 0x50000, lsb := 1, width := 1, acc := .rw, cls := .tick, rst := 0x1 }
def INT_CTL_REMAP_UE : Fld := { ix := 352, base := 0x50000, lsb := 2, width := 1, acc := .rw, cls := .tick, rst := 0x1 }
def INT_CTL_PPR_CAND_EN : Fld := { ix := 353, base := 0x50000, lsb := 3, width := 1, acc := .rw, cls := .tick, rst := 0x1 }
def INT_CTL_REARM : Fld := { ix := 354, base := 0x50000, lsb := 4, width := 1, acc := .w1t, cls := .now }
def INT_CTL_REMAP_CE_THRESH : Fld := { ix := 355, base := 0x50000, lsb := 8, width := 4, acc := .rw, cls := .tick, rst := 0x3 }

-- INT_STATUS (R387)
def INT_STATUS_RING_FULL : Fld := { ix := 356, base := 0x50004, width := 1, acc := .ro }
def INT_STATUS_INITIALISING : Fld := { ix := 357, base := 0x50004, lsb := 1, width := 1, acc := .ro }
def INT_STATUS_ECC_CE : Fld := { ix := 358, base := 0x50004, lsb := 24, width := 1, acc := .rc }
def INT_STATUS_ECC_UE : Fld := { ix := 359, base := 0x50004, lsb := 25, width := 1, acc := .rc }
def INT_STATUS_SCRUB_PASS : Fld := { ix := 360, base := 0x50004, lsb := 26, width := 1, acc := .rc }
def INT_STATUS_SCRUB_LATE : Fld := { ix := 361, base := 0x50004, lsb := 27, width := 1, acc := .rc }
def INT_STATUS_RESERVE_LOSS : Fld := { ix := 362, base := 0x50004, lsb := 28, width := 1, acc := .rc }
def INT_STATUS_INIT_DONE : Fld := { ix := 363, base := 0x50004, lsb := 29, width := 1, acc := .rc }

-- INT_ERR_FIRST (R387)
def INT_ERR_FIRST_KIND : Fld := { ix := 364, base := 0x50008, width := 8, acc := .ro }
def INT_ERR_FIRST_UNIT : Fld := { ix := 365, base := 0x50008, lsb := 8, width := 8, acc := .ro }
def INT_ERR_FIRST_VALID : Fld := { ix := 366, base := 0x50008, lsb := 31, width := 1, acc := .ro }

-- INT_ERR_FIRST_SEQ (R387)
def INT_ERR_FIRST_SEQ_SEQ : Fld := { ix := 367, base := 0x5000c, width := 32, acc := .ro }

-- INT_CE_CNT (R387)
def INT_CE_CNT_COUNT : Fld := { ix := 368, base := 0x50010, width := 32, acc := .rc }

-- INT_UE_CNT (R387)
def INT_UE_CNT_COUNT : Fld := { ix := 369, base := 0x50014, width := 32, acc := .rc }

-- INT_RING_PROD (R387)
def INT_RING_PROD_PROD : Fld := { ix := 370, base := 0x50020, width := 13, acc := .ro }

-- INT_RING_CONS (R387)
def INT_RING_CONS_CONS : Fld := { ix := 371, base := 0x50024, width := 13, acc := .rw, cls := .now }

-- INT_RING_DROP (R387)
def INT_RING_DROP_COUNT : Fld := { ix := 372, base := 0x50028, width := 16, acc := .rc }

-- INT_RING_SEQ (R387)
def INT_RING_SEQ_NEXT : Fld := { ix := 373, base := 0x5002c, width := 32, acc := .ro, rst := 0x1 }

-- INT_HANDLE (R387)
def INT_HANDLE_DEPTH : Fld := { ix := 374, base := 0x50030, width := 7, acc := .ro }
def INT_HANDLE_DROP : Fld := { ix := 375, base := 0x50030, lsb := 16, width := 16, acc := .rc }

-- INT_SCRUB_CTL (R387)
def INT_SCRUB_CTL_EN : Fld := { ix := 376, base := 0x50040, width := 1, acc := .rw, cls := .tick, rst := 0x1 }
def INT_SCRUB_CTL_PERIOD : Fld := { ix := 377, base := 0x50040, lsb := 16, width := 10, acc := .rw, cls := .tick, rst := 0x18 }

-- INT_SCRUB_STATUS (R387)
def INT_SCRUB_STATUS_PASSES : Fld := { ix := 378, base := 0x50044, width := 16, acc := .ro }
def INT_SCRUB_STATUS_PROGRESS : Fld := { ix := 379, base := 0x50044, lsb := 16, width := 10, acc := .ro }

-- INT_CHECKER (R387)
def INT_CHECKER_MODE : Fld := { ix := 380, base := 0x50060, width := 2, acc := .rw, cls := .now }
def INT_CHECKER_REGION : Fld := { ix := 381, base := 0x50060, lsb := 8, width := 6, acc := .rw, cls := .now }
def INT_CHECKER_BUSY : Fld := { ix := 382, base := 0x50060, lsb := 16, width := 1, acc := .ro }

-- INT_PPR_CTL (R387)
def INT_PPR_CTL_CH : Fld := { ix := 383, base := 0x50080, width := 5, acc := .rw, cls := .now }
def INT_PPR_CTL_ARM : Fld := { ix := 384, base := 0x50080, lsb := 8, width := 1, acc := .rw, cls := .now }
def INT_PPR_CTL_GO : Fld := { ix := 385, base := 0x50080, lsb := 16, width := 1, acc := .w1t, cls := .now }

-- INT_PPR_STATUS (R387)
def INT_PPR_STATUS_STATE : Fld := { ix := 386, base := 0x50084, width := 2, acc := .ro }
def INT_PPR_STATUS_CH : Fld := { ix := 387, base := 0x50084, lsb := 8, width := 5, acc := .ro }
def INT_PPR_STATUS_PPR_DONE : Fld := { ix := 388, base := 0x50084, lsb := 24, width := 1, acc := .rc }
def INT_PPR_STATUS_PPR_FAIL : Fld := { ix := 389, base := 0x50084, lsb := 25, width := 1, acc := .rc }

-- INT_PPR_ADD (R387)
def INT_PPR_ADD_CH : Fld := { ix := 390, base := 0x50088, width := 5, acc := .wo, cls := .now }
def INT_PPR_ADD_RANK : Fld := { ix := 391, base := 0x50088, lsb := 5, width := 1, acc := .wo, cls := .now }
def INT_PPR_ADD_BANK : Fld := { ix := 392, base := 0x50088, lsb := 6, width := 4, acc := .wo, cls := .now }
def INT_PPR_ADD_ROW : Fld := { ix := 393, base := 0x50088, lsb := 10, width := 17, acc := .wo, cls := .now }
def INT_PPR_ADD_GO : Fld := { ix := 394, base := 0x50088, lsb := 31, width := 1, acc := .w1t, cls := .now }

-- INT_INIT (R387)
def INT_INIT_WM : Fld := { ix := 395, base := 0x50100, n1 := 64, s1 := 0x4, width := 25, acc := .ro }
def INT_INIT_DONE : Fld := { ix := 396, base := 0x50100, n1 := 64, s1 := 0x4, lsb := 31, width := 1, acc := .ro }

-- FE_CTL (R388)
def FE_CTL_REARM : Fld := { ix := 397, base := 0x102000, n1 := 32, s1 := 0x8000, unit := .chan, width := 1, acc := .w1t, cls := .now }

-- FE_STATUS (R388)
def FE_STATUS_REMAP_FULL : Fld := { ix := 398, base := 0x102004, n1 := 32, s1 := 0x8000, unit := .chan, width := 1, acc := .ro }
def FE_STATUS_USED : Fld := { ix := 399, base := 0x102004, n1 := 32, s1 := 0x8000, unit := .chan, lsb := 8, width := 6, acc := .ro }
def FE_STATUS_REMAP_ADD : Fld := { ix := 400, base := 0x102004, n1 := 32, s1 := 0x8000, unit := .chan, lsb := 24, width := 1, acc := .rc }
def FE_STATUS_PPR_CANDIDATE : Fld := { ix := 401, base := 0x102004, n1 := 32, s1 := 0x8000, unit := .chan, lsb := 25, width := 1, acc := .rc }

-- FE_ERR_FIRST_A (R388)
def FE_ERR_FIRST_A_ADDR : Fld := { ix := 402, base := 0x102008, n1 := 32, s1 := 0x8000, unit := .chan, width := 32, acc := .ro }

-- FE_ERR_FIRST_B (R388)
def FE_ERR_FIRST_B_ADDR32 : Fld := { ix := 403, base := 0x10200c, n1 := 32, s1 := 0x8000, unit := .chan, width := 1, acc := .ro }
def FE_ERR_FIRST_B_KIND : Fld := { ix := 404, base := 0x10200c, n1 := 32, s1 := 0x8000, unit := .chan, lsb := 2, width := 2, acc := .ro }
def FE_ERR_FIRST_B_VALID : Fld := { ix := 405, base := 0x10200c, n1 := 32, s1 := 0x8000, unit := .chan, lsb := 31, width := 1, acc := .ro }

-- FE_ERR_FIRST_BYTES (R388)
def FE_ERR_FIRST_BYTES_BYTES : Fld := { ix := 406, base := 0x102010, n1 := 32, s1 := 0x8000, unit := .chan, width := 32, acc := .ro }

-- FE_CE_CNT (R388)
def FE_CE_CNT_COUNT : Fld := { ix := 407, base := 0x102014, n1 := 32, s1 := 0x8000, unit := .chan, width := 32, acc := .rc }

-- FE_UE_CNT (R388)
def FE_UE_CNT_COUNT : Fld := { ix := 408, base := 0x102018, n1 := 32, s1 := 0x8000, unit := .chan, width := 32, acc := .rc }

-- FE_LOST_CNT (R388)
def FE_LOST_CNT_COUNT : Fld := { ix := 409, base := 0x10201c, n1 := 32, s1 := 0x8000, unit := .chan, width := 32, acc := .rc }

-- FE_REMAP_CMD (R388)
def FE_REMAP_CMD_BLOCK : Fld := { ix := 410, base := 0x102020, n1 := 32, s1 := 0x8000, unit := .chan, width := 27, acc := .wo, cls := .now }
def FE_REMAP_CMD_OP : Fld := { ix := 411, base := 0x102020, n1 := 32, s1 := 0x8000, unit := .chan, lsb := 28, width := 2, acc := .wo, cls := .now }
def FE_REMAP_CMD_GO : Fld := { ix := 412, base := 0x102020, n1 := 32, s1 := 0x8000, unit := .chan, lsb := 31, width := 1, acc := .w1t, cls := .now }

-- FE_REMAP (R388)
def FE_REMAP_BLOCK : Fld := { ix := 413, base := 0x102100, n1 := 32, s1 := 0x8000, n2 := 32, s2 := 0x4, unit := .chan, width := 27, acc := .ro }
def FE_REMAP_MANUAL : Fld := { ix := 414, base := 0x102100, n1 := 32, s1 := 0x8000, n2 := 32, s2 := 0x4, unit := .chan, lsb := 30, width := 1, acc := .ro }
def FE_REMAP_VALID : Fld := { ix := 415, base := 0x102100, n1 := 32, s1 := 0x8000, n2 := 32, s2 := 0x4, unit := .chan, lsb := 31, width := 1, acc := .ro }

-- FE_PPR (R388)
def FE_PPR_RANK : Fld := { ix := 416, base := 0x102200, n1 := 32, s1 := 0x8000, n2 := 8, s2 := 0x4, unit := .chan, width := 1, acc := .ro }
def FE_PPR_BANK : Fld := { ix := 417, base := 0x102200, n1 := 32, s1 := 0x8000, n2 := 8, s2 := 0x4, unit := .chan, lsb := 1, width := 4, acc := .ro }
def FE_PPR_ROW : Fld := { ix := 418, base := 0x102200, n1 := 32, s1 := 0x8000, n2 := 8, s2 := 0x4, unit := .chan, lsb := 5, width := 17, acc := .ro }
def FE_PPR_STATE : Fld := { ix := 419, base := 0x102200, n1 := 32, s1 := 0x8000, n2 := 8, s2 := 0x4, unit := .chan, lsb := 28, width := 2, acc := .ro }

-- PWR_CTL (R411)
def PWR_CTL_DUSK : Fld := { ix := 420, base := 0x800, width := 1, acc := .w1t, cls := .now }
def PWR_CTL_DUSK_DEEP : Fld := { ix := 421, base := 0x800, lsb := 1, width := 1, acc := .rw, cls := .now }
def PWR_CTL_SOFT_RESET : Fld := { ix := 422, base := 0x800, lsb := 2, width := 1, acc := .w1t, cls := .now }

-- PWR_WAKE_EN (R411)
def PWR_WAKE_EN_EN : Fld := { ix := 423, base := 0x804, width := 5, acc := .rw, cls := .now, rst := 0x1f }

-- PWR_STATUS (R411)
def PWR_STATUS_STATE : Fld := { ix := 424, base := 0x808, width := 2, acc := .ro }
def PWR_STATUS_RAILS : Fld := { ix := 425, base := 0x808, lsb := 4, width := 5, acc := .ro, rst := 0x1f }
def PWR_STATUS_CORE_LOST : Fld := { ix := 426, base := 0x808, lsb := 9, width := 1, acc := .ro }
def PWR_STATUS_RESTORE_FAIL : Fld := { ix := 427, base := 0x808, lsb := 10, width := 1, acc := .ro }
def PWR_STATUS_PWR_WAKE : Fld := { ix := 428, base := 0x808, lsb := 24, width := 1, acc := .rc }
def PWR_STATUS_SLEEP_ABORTED : Fld := { ix := 429, base := 0x808, lsb := 25, width := 1, acc := .rc }
def PWR_STATUS_TEMP_ALERT : Fld := { ix := 430, base := 0x808, lsb := 26, width := 1, acc := .rc }
def PWR_STATUS_RAIL_LOSS : Fld := { ix := 431, base := 0x808, lsb := 27, width := 1, acc := .rc }

-- PWR_WAKE_CAUSE (R411)
def PWR_WAKE_CAUSE_CAUSE : Fld := { ix := 432, base := 0x80c, width := 5, acc := .ro }
def PWR_WAKE_CAUSE_ABORT : Fld := { ix := 433, base := 0x80c, lsb := 5, width := 1, acc := .ro }

-- PWR_TIMER (R411)
def PWR_TIMER_LOAD : Fld := { ix := 434, base := 0x810, width := 32, acc := .rw, cls := .now }

-- PWR_LOSS (R411)
def PWR_LOSS_RAILS : Fld := { ix := 435, base := 0x814, width := 5, acc := .rc }

-- PWR_DUSK_TIME (R411)
def PWR_DUSK_TIME_TIME : Fld := { ix := 436, base := 0x818, width := 32, acc := .ro }

-- PWR_DUSK_ACCESS (R411)
def PWR_DUSK_ACCESS_COUNT : Fld := { ix := 437, base := 0x81c, width := 16, acc := .rc }

-- CH_PWR (R412)
def CH_PWR_REQ : Fld := { ix := 438, base := 0x103000, n1 := 32, s1 := 0x8000, unit := .chan, width := 2, acc := .rw, cls := .quiet, own := .chan }
def CH_PWR_DSM_EXIT : Fld := { ix := 439, base := 0x103000, n1 := 32, s1 := 0x8000, unit := .chan, lsb := 8, width := 8, acc := .rw, cls := .quiet, own := .chan, rst := 0xc8 }
def CH_PWR_RETIRE : Fld := { ix := 440, base := 0x103000, n1 := 32, s1 := 0x8000, unit := .chan, lsb := 16, width := 1, acc := .w1t, cls := .now }
def CH_PWR_REINSTATE : Fld := { ix := 441, base := 0x103000, n1 := 32, s1 := 0x8000, unit := .chan, lsb := 17, width := 1, acc := .w1t, cls := .now }
def CH_PWR_STATE : Fld := { ix := 442, base := 0x103000, n1 := 32, s1 := 0x8000, unit := .chan, lsb := 20, width := 3, acc := .ro, rst := 0x7 }
def CH_PWR_RETIRED : Fld := { ix := 443, base := 0x103000, n1 := 32, s1 := 0x8000, unit := .chan, lsb := 24, width := 1, acc := .rc }
def CH_PWR_REINSTATED : Fld := { ix := 444, base := 0x103000, n1 := 32, s1 := 0x8000, unit := .chan, lsb := 25, width := 1, acc := .rc }

-- EVT_CTL (R425)
def EVT_CTL_DISABLE : Fld := { ix := 445, base := 0x10000, width := 1, acc := .rw, cls := .now }

-- EVT_STATUS (R425)
def EVT_STATUS_LINES : Fld := { ix := 446, base := 0x10004, width := 8, acc := .ro }

-- EVT_ACK (R425)
def EVT_ACK_GROUP : Fld := { ix := 447, base := 0x10008, width := 5, acc := .wo, cls := .now }
def EVT_ACK_MASK : Fld := { ix := 448, base := 0x10008, lsb := 16, width := 16, acc := .wo, cls := .now }

-- EVT_TGT (R425)
def EVT_TGT_CAUSE : Fld := { ix := 449, base := 0x10010, n1 := 8, s1 := 0x4, width := 5, acc := .ro }
def EVT_TGT_VALID : Fld := { ix := 450, base := 0x10010, n1 := 8, s1 := 0x4, lsb := 5, width := 1, acc := .ro }
def EVT_TGT_POSTING : Fld := { ix := 451, base := 0x10010, n1 := 8, s1 := 0x4, lsb := 6, width := 1, acc := .ro }

-- EVT_PRIV_CH (R425)
def EVT_PRIV_CH_CHANNELS : Fld := { ix := 452, base := 0x10040, n1 := 8, s1 := 0x4, width := 32, acc := .rc }

-- EVT_GRP_CFG (R425)
def EVT_GRP_CFG_TARGET : Fld := { ix := 453, base := 0x10100, n1 := 32, s1 := 0x10, width := 3, acc := .rw, cls := .tick }
def EVT_GRP_CFG_MODE : Fld := { ix := 454, base := 0x10100, n1 := 32, s1 := 0x10, lsb := 4, width := 2, acc := .rw, cls := .tick }
def EVT_GRP_CFG_PRIO : Fld := { ix := 455, base := 0x10100, n1 := 32, s1 := 0x10, lsb := 6, width := 2, acc := .rw, cls := .tick, rst := 0x2 }
def EVT_GRP_CFG_COUNT : Fld := { ix := 456, base := 0x10100, n1 := 32, s1 := 0x10, lsb := 8, width := 8, acc := .rw, cls := .tick, rst := 0x1 }

-- EVT_GRP_TIME (R425)
def EVT_GRP_TIME_TIME : Fld := { ix := 457, base := 0x10104, n1 := 32, s1 := 0x10, width := 16, acc := .rw, cls := .tick, rst := 0x28 }

-- EVT_GRP_PEND (R425)
def EVT_GRP_PEND_PENDING : Fld := { ix := 458, base := 0x10108, n1 := 32, s1 := 0x10, width := 16, acc := .ro }
def EVT_GRP_PEND_POSTED : Fld := { ix := 459, base := 0x10108, n1 := 32, s1 := 0x10, lsb := 16, width := 16, acc := .ro }

-- EVT_GRP_EN (R425)
def EVT_GRP_EN_ENABLE : Fld := { ix := 460, base := 0x1010c, n1 := 32, s1 := 0x10, width := 16, acc := .rw, cls := .now, rst := 0xffff }

-- PERF_CFG (R441)
def PERF_CFG_EVENT : Fld := { ix := 461, base := 0x40000, n1 := 256, s1 := 0x4, width := 9, acc := .rw, cls := .quiet, own := .counters }
def PERF_CFG_F_PRIV : Fld := { ix := 462, base := 0x40000, n1 := 256, s1 := 0x4, lsb := 16, width := 1, acc := .rw, cls := .quiet, own := .counters }
def PERF_CFG_F_PORT : Fld := { ix := 463, base := 0x40000, n1 := 256, s1 := 0x4, lsb := 17, width := 1, acc := .rw, cls := .quiet, own := .counters }
def PERF_CFG_F_FLOW : Fld := { ix := 464, base := 0x40000, n1 := 256, s1 := 0x4, lsb := 18, width := 1, acc := .rw, cls := .quiet, own := .counters }
def PERF_CFG_F_ADDR : Fld := { ix := 465, base := 0x40000, n1 := 256, s1 := 0x4, lsb := 19, width := 1, acc := .rw, cls := .quiet, own := .counters }
def PERF_CFG_F_CLASS : Fld := { ix := 466, base := 0x40000, n1 := 256, s1 := 0x4, lsb := 20, width := 1, acc := .rw, cls := .quiet, own := .counters }
def PERF_CFG_CHAIN : Fld := { ix := 467, base := 0x40000, n1 := 256, s1 := 0x4, lsb := 24, width := 1, acc := .rw, cls := .quiet, own := .counters }

-- PERF_CTR (R441)
def PERF_CTR_LOW : Fld := { ix := 468, base := 0x40400, n1 := 256, s1 := 0x4, width := 32, acc := .ro }

-- PERF_CTL (R441)
def PERF_CTL_FREEZE : Fld := { ix := 469, base := 0x40800, width := 1, acc := .rw, cls := .now }
def PERF_CTL_USER_EN : Fld := { ix := 470, base := 0x40800, lsb := 1, width := 1, acc := .rw, cls := .now }
def PERF_CTL_USER_GRP : Fld := { ix := 471, base := 0x40800, lsb := 8, width := 5, acc := .rw, cls := .now }

-- CTR_CTL (R441)
def CTR_CTL_EN : Fld := { ix := 472, base := 0x40810, width := 1, acc := .rw, cls := .now }
def CTR_CTL_K : Fld := { ix := 473, base := 0x40810, lsb := 1, width := 5, acc := .rw, cls := .now, rst := 0xa }
def CTR_CTL_WRAP : Fld := { ix := 474, base := 0x40810, lsb := 6, width := 1, acc := .rw, cls := .now }
def CTR_CTL_FLUSH : Fld := { ix := 475, base := 0x40810, lsb := 7, width := 1, acc := .w1t, cls := .now }

-- CTR_SEED (R441)
def CTR_SEED_SEED : Fld := { ix := 476, base := 0x40814, width := 24, acc := .rw, cls := .quiet, own := .contrail, rst := 0x1 }

-- CTR_STATUS (R441)
def CTR_STATUS_INFLIGHT : Fld := { ix := 477, base := 0x40818, width := 5, acc := .ro }
def CTR_STATUS_FULL : Fld := { ix := 478, base := 0x40818, lsb := 5, width := 1, acc := .ro }

-- CTR_PROD (R441)
def CTR_PROD_PROD : Fld := { ix := 479, base := 0x4081c, width := 9, acc := .ro }

-- CTR_CONS (R441)
def CTR_CONS_CONS : Fld := { ix := 480, base := 0x40820, width := 9, acc := .rw, cls := .now }

-- CTR_LOSS (R441)
def CTR_LOSS_MISSED : Fld := { ix := 481, base := 0x40824, width := 16, acc := .rc }
def CTR_LOSS_LOST : Fld := { ix := 482, base := 0x40824, lsb := 16, width := 16, acc := .rc }

-- CTR_LFSR (R441)
def CTR_LFSR_L : Fld := { ix := 483, base := 0x40828, width := 24, acc := .ro, rst := 0x1 }

-- PF_CHANNELS (R441)
def PF_CHANNELS_CHANNELS : Fld := { ix := 484, base := 0x41000, n1 := 32, s1 := 0x40, width := 32, acc := .rw, cls := .quiet, own := .counters, rst := 0xffffffff }

-- PF_GROUPS (R441)
def PF_GROUPS_GROUPS : Fld := { ix := 485, base := 0x41004, n1 := 32, s1 := 0x40, width := 8, acc := .rw, cls := .quiet, own := .counters, rst := 0xff }

-- PF_PORT_LO (R441)
def PF_PORT_LO_PORTS : Fld := { ix := 486, base := 0x41008, n1 := 32, s1 := 0x40, width := 32, acc := .rw, cls := .quiet, own := .counters, rst := 0xffffffff }

-- PF_PORT_HI (R441)
def PF_PORT_HI_PORTS : Fld := { ix := 487, base := 0x4100c, n1 := 32, s1 := 0x40, width := 32, acc := .rw, cls := .quiet, own := .counters, rst := 0xffffffff }

-- PF_FLOW_LO (R441)
def PF_FLOW_LO_FLOW_LO : Fld := { ix := 488, base := 0x41010, n1 := 32, s1 := 0x40, width := 20, acc := .rw, cls := .quiet, own := .counters }

-- PF_FLOW_HI (R441)
def PF_FLOW_HI_FLOW_HI : Fld := { ix := 489, base := 0x41014, n1 := 32, s1 := 0x40, width := 20, acc := .rw, cls := .quiet, own := .counters, rst := 0xfffff }

-- PF_ADDR_LO (R441)
def PF_ADDR_LO_ADDR_LO : Fld := { ix := 490, base := 0x41018, n1 := 32, s1 := 0x40, width := 28, acc := .rw, cls := .quiet, own := .counters }

-- PF_ADDR_HI (R441)
def PF_ADDR_HI_ADDR_HI : Fld := { ix := 491, base := 0x4101c, n1 := 32, s1 := 0x40, width := 28, acc := .rw, cls := .quiet, own := .counters, rst := 0xfffffff }

-- PF_CLASS (R441)
def PF_CLASS_CLASSES : Fld := { ix := 492, base := 0x41020, n1 := 32, s1 := 0x40, width := 16, acc := .rw, cls := .quiet, own := .counters, rst := 0xffff }
def PF_CLASS_PRIV : Fld := { ix := 493, base := 0x41020, n1 := 32, s1 := 0x40, lsb := 16, width := 4, acc := .rw, cls := .quiet, own := .counters, rst := 0xf }

-- PF_GRP_CTL (R441)
def PF_GRP_CTL_EN : Fld := { ix := 494, base := 0x41024, n1 := 32, s1 := 0x40, width := 1, acc := .rw, cls := .now }
def PF_GRP_CTL_SNAP : Fld := { ix := 495, base := 0x41024, n1 := 32, s1 := 0x40, lsb := 1, width := 1, acc := .w1t, cls := .now }
def PF_GRP_CTL_CLEAR : Fld := { ix := 496, base := 0x41024, n1 := 32, s1 := 0x40, lsb := 2, width := 1, acc := .w1t, cls := .now }
def PF_GRP_CTL_TICK_SNAP : Fld := { ix := 497, base := 0x41024, n1 := 32, s1 := 0x40, lsb := 3, width := 1, acc := .rw, cls := .tick }
def PF_GRP_CTL_TICK_CLEAR : Fld := { ix := 498, base := 0x41024, n1 := 32, s1 := 0x40, lsb := 4, width := 1, acc := .rw, cls := .tick }

-- PF_GRP_STATUS (R441)
def PF_GRP_STATUS_OVF : Fld := { ix := 499, base := 0x41028, n1 := 32, s1 := 0x40, width := 8, acc := .rc }

-- PF_SNAP_EPOCH (R441)
def PF_SNAP_EPOCH_EPOCH : Fld := { ix := 500, base := 0x4102c, n1 := 32, s1 := 0x40, width := 32, acc := .ro }

-- PERF_USER (R441)
def PERF_USER_LOW : Fld := { ix := 501, base := 0x48000, n1 := 8, s1 := 0x4, width := 32, acc := .ro }

-- PERF_USER_INFO (R441)
def PERF_USER_INFO_GROUP : Fld := { ix := 502, base := 0x48020, width := 5, acc := .ro }
def PERF_USER_INFO_GRP_EN : Fld := { ix := 503, base := 0x48020, lsb := 5, width := 1, acc := .ro }
def PERF_USER_INFO_ON : Fld := { ix := 504, base := 0x48020, lsb := 31, width := 1, acc := .ro }

-- PERF_USER_EPOCH (R441)
def PERF_USER_EPOCH_EPOCH : Fld := { ix := 505, base := 0x48024, width := 32, acc := .ro }

-- MBX_SEL (R453)
def MBX_SEL_INDEX : Fld := { ix := 506, base := 0x100, n1 := 8, s1 := 0x40, width := 20, acc := .rw, cls := .now }
def MBX_SEL_OBJ : Fld := { ix := 507, base := 0x100, n1 := 8, s1 := 0x40, lsb := 20, width := 8, acc := .rw, cls := .now }
def MBX_SEL_WRITE : Fld := { ix := 508, base := 0x100, n1 := 8, s1 := 0x40, lsb := 28, width := 1, acc := .rw, cls := .now }

-- MBX_CTL (R453)
def MBX_CTL_GO : Fld := { ix := 509, base := 0x104, n1 := 8, s1 := 0x40, width := 1, acc := .w1t, cls := .now }
def MBX_CTL_BUSY : Fld := { ix := 510, base := 0x104, n1 := 8, s1 := 0x40, lsb := 1, width := 1, acc := .ro }
def MBX_CTL_VALID : Fld := { ix := 511, base := 0x104, n1 := 8, s1 := 0x40, lsb := 2, width := 1, acc := .ro }
def MBX_CTL_ERR : Fld := { ix := 512, base := 0x104, n1 := 8, s1 := 0x40, lsb := 3, width := 1, acc := .ro }
def MBX_CTL_CODE : Fld := { ix := 513, base := 0x104, n1 := 8, s1 := 0x40, lsb := 8, width := 8, acc := .ro }

-- MBX_D (R453)
def MBX_D_DATA : Fld := { ix := 514, base := 0x120, n1 := 8, s1 := 0x40, n2 := 8, s2 := 0x4, width := 32, acc := .rw, cls := .now }

-- GLB_ID (R459)
def GLB_ID_PART : Fld := { ix := 515, base := 0x0, width := 16, acc := .ro }
def GLB_ID_MINOR : Fld := { ix := 516, base := 0x0, lsb := 16, width := 8, acc := .ro }
def GLB_ID_MAJOR : Fld := { ix := 517, base := 0x0, lsb := 24, width := 8, acc := .ro, rst := 0x1 }

-- GLB_SHAPE (R459)
def GLB_SHAPE_CHANNELS : Fld := { ix := 518, base := 0x4, width := 6, acc := .ro }
def GLB_SHAPE_GROUPS : Fld := { ix := 519, base := 0x4, lsb := 8, width := 4, acc := .ro }
def GLB_SHAPE_PORTS : Fld := { ix := 520, base := 0x4, lsb := 16, width := 7, acc := .ro, rst := 0x8 }

-- GLB_IMAGE_FMT (R459)
def GLB_IMAGE_FMT_VERSION : Fld := { ix := 521, base := 0x8, width := 16, acc := .ro, rst := 0x100 }

-- GLB_SCRATCH (R459)
def GLB_SCRATCH_VALUE : Fld := { ix := 522, base := 0xc, width := 32, acc := .rw, cls := .now }

-- GLB_CTL (R459)
def GLB_CTL_BUSY_REARM : Fld := { ix := 523, base := 0x10, width := 1, acc := .w1t, cls := .now }

-- GLB_STATUS (R459)
def GLB_STATUS_CONFIGURED : Fld := { ix := 524, base := 0x14, width := 1, acc := .ro }
def GLB_STATUS_CFG_BUSY : Fld := { ix := 525, base := 0x14, lsb := 24, width := 1, acc := .rc }

-- GLB_BUSY_FIRST (R459)
def GLB_BUSY_FIRST_ADDR : Fld := { ix := 526, base := 0x18, width := 21, acc := .ro }
def GLB_BUSY_FIRST_TARGET : Fld := { ix := 527, base := 0x18, lsb := 21, width := 3, acc := .ro }
def GLB_BUSY_FIRST_VALID : Fld := { ix := 528, base := 0x18, lsb := 31, width := 1, acc := .ro }

-- GLB_BUSY_CNT (R459)
def GLB_BUSY_CNT_COUNT : Fld := { ix := 529, base := 0x1c, width := 16, acc := .rc }

-- TICK_STATUS (R460)
def TICK_STATUS_STATE : Fld := { ix := 530, base := 0x300, width := 3, acc := .ro }
def TICK_STATUS_ANOMALY : Fld := { ix := 531, base := 0x300, lsb := 3, width := 1, acc := .ro }
def TICK_STATUS_LOST : Fld := { ix := 532, base := 0x300, lsb := 4, width := 1, acc := .ro }
def TICK_STATUS_RUNTS : Fld := { ix := 533, base := 0x300, lsb := 8, width := 2, acc := .ro }
def TICK_STATUS_FLYWHEELS : Fld := { ix := 534, base := 0x300, lsb := 12, width := 4, acc := .ro }
def TICK_STATUS_LOCKED : Fld := { ix := 535, base := 0x300, lsb := 24, width := 1, acc := .rc }
def TICK_STATUS_RUNT : Fld := { ix := 536, base := 0x300, lsb := 25, width := 1, acc := .rc }
def TICK_STATUS_RELOCK : Fld := { ix := 537, base := 0x300, lsb := 26, width := 1, acc := .rc }
def TICK_STATUS_FLYWHEEL : Fld := { ix := 538, base := 0x300, lsb := 27, width := 1, acc := .rc }
def TICK_STATUS_OUTLIER : Fld := { ix := 539, base := 0x300, lsb := 28, width := 1, acc := .rc }

-- TICK_EPOCH (R460)
def TICK_EPOCH_EPOCH : Fld := { ix := 540, base := 0x304, width := 32, acc := .ro }

-- TICK_IM (R460)
def TICK_IM_IM : Fld := { ix := 541, base := 0x308, width := 32, acc := .ro }

-- TICK_IC (R460)
def TICK_IC_IC : Fld := { ix := 542, base := 0x30c, width := 32, acc := .ro }

-- TICK_LAST (R460)
def TICK_LAST_TCLK : Fld := { ix := 543, base := 0x310, width := 32, acc := .ro }

-- TICK_INTERVAL (R460)
def TICK_INTERVAL_TCLK : Fld := { ix := 544, base := 0x314, width := 32, acc := .ro }

-- TICK_GLITCH_CNT (R460)
def TICK_GLITCH_CNT_COUNT : Fld := { ix := 545, base := 0x318, width := 16, acc := .rc }

-- TICK_RUNT_CNT (R460)
def TICK_RUNT_CNT_COUNT : Fld := { ix := 546, base := 0x31c, width := 16, acc := .rc }

-- TICK_FLYWHEEL_CNT (R460)
def TICK_FLYWHEEL_CNT_COUNT : Fld := { ix := 547, base := 0x320, width := 16, acc := .rc }

-- TICK_OUTLIER_CNT (R460)
def TICK_OUTLIER_CNT_COUNT : Fld := { ix := 548, base := 0x324, width := 16, acc := .rc }

-- TICK_CTL (R460)
def TICK_CTL_RELOCK : Fld := { ix := 549, base := 0x328, width := 1, acc := .w1t, cls := .now }

-- TICK_NOMINAL_TCLK (R460)
def TICK_NOMINAL_TCLK_TCLK : Fld := { ix := 550, base := 0x32c, width := 32, acc := .ro }

-- TICK_NOMINAL_CCLK (R460)
def TICK_NOMINAL_CCLK_CCLK : Fld := { ix := 551, base := 0x330, width := 32, acc := .ro }

-- ADM_CTL (R462)
def ADM_CTL_WARN : Fld := { ix := 552, base := 0x340, width := 10, acc := .rw, cls := .tick, rst := 0x32 }

-- ADM_MARGIN (R462)
def ADM_MARGIN_MARGIN : Fld := { ix := 553, base := 0x344, width := 10, acc := .ro, rst := 0x3e8 }
def ADM_MARGIN_CHANNEL : Fld := { ix := 554, base := 0x344, lsb := 10, width := 5, acc := .ro }
def ADM_MARGIN_WINDOW : Fld := { ix := 555, base := 0x344, lsb := 16, width := 8, acc := .ro }
def ADM_MARGIN_DOMAIN : Fld := { ix := 556, base := 0x344, lsb := 24, width := 3, acc := .ro }
def ADM_MARGIN_TIGHT : Fld := { ix := 557, base := 0x344, lsb := 27, width := 1, acc := .ro }
def ADM_MARGIN_VALID : Fld := { ix := 558, base := 0x344, lsb := 31, width := 1, acc := .ro }

-- ADM_LAST (R462)
def ADM_LAST_SOURCE : Fld := { ix := 559, base := 0x348, width := 2, acc := .ro }
def ADM_LAST_FAILED : Fld := { ix := 560, base := 0x348, lsb := 2, width := 1, acc := .ro }
def ADM_LAST_CHANNEL : Fld := { ix := 561, base := 0x348, lsb := 3, width := 5, acc := .ro }
def ADM_LAST_DOMAIN : Fld := { ix := 562, base := 0x348, lsb := 8, width := 3, acc := .ro }
def ADM_LAST_WINDOW : Fld := { ix := 563, base := 0x348, lsb := 11, width := 8, acc := .ro }

-- ADM_CH (R462)
def ADM_CH_LOAD : Fld := { ix := 564, base := 0x380, n1 := 32, s1 := 0x4, unit := .chan, width := 16, acc := .ro }
def ADM_CH_CAP : Fld := { ix := 565, base := 0x380, n1 := 32, s1 := 0x4, unit := .chan, lsb := 16, width := 16, acc := .ro }

-- TEST_KEY (R470)
def TEST_KEY_KEY : Fld := { ix := 566, base := 0x60000, width := 32, acc := .wo, cls := .now }

-- SQ_STATUS (R470)
def SQ_STATUS_UNLOCKED : Fld := { ix := 567, base := 0x60004, width := 1, acc := .ro }
def SQ_STATUS_PERMITTED : Fld := { ix := 568, base := 0x60004, lsb := 1, width := 1, acc := .ro }
def SQ_STATUS_KEY_PENDING : Fld := { ix := 569, base := 0x60004, lsb := 2, width := 1, acc := .ro }

-- SQ_SEED (R470)
def SQ_SEED_SEED : Fld := { ix := 570, base := 0x60008, width := 15, acc := .rw, cls := .now, rst := 0x1 }

-- SQ_INJ_CNT (R470)
def SQ_INJ_CNT_COUNT : Fld := { ix := 571, base := 0x6000c, width := 16, acc := .rc }

-- SQ_REVOKE (R470)
def SQ_REVOKE_GROUPS : Fld := { ix := 572, base := 0x60010, width := 8, acc := .rw, cls := .now }
def SQ_REVOKE_PERIOD : Fld := { ix := 573, base := 0x60010, lsb := 16, width := 16, acc := .rw, cls := .now }

-- SQ_REF_HOLD (R470)
def SQ_REF_HOLD_CHANNELS : Fld := { ix := 574, base := 0x60014, width := 32, acc := .rw, cls := .now }

-- SQ_STRETCH_CH (R470)
def SQ_STRETCH_CH_CHANNELS : Fld := { ix := 575, base := 0x60018, width := 32, acc := .rw, cls := .now }

-- SQ_STRETCH (R470)
def SQ_STRETCH_G0 : Fld := { ix := 576, base := 0x6001c, width := 4, acc := .rw, cls := .now }
def SQ_STRETCH_G1 : Fld := { ix := 577, base := 0x6001c, lsb := 4, width := 4, acc := .rw, cls := .now }
def SQ_STRETCH_G2 : Fld := { ix := 578, base := 0x6001c, lsb := 8, width := 4, acc := .rw, cls := .now }
def SQ_STRETCH_G3 : Fld := { ix := 579, base := 0x6001c, lsb := 12, width := 4, acc := .rw, cls := .now }
def SQ_STRETCH_G4 : Fld := { ix := 580, base := 0x6001c, lsb := 16, width := 4, acc := .rw, cls := .now }
def SQ_STRETCH_G5 : Fld := { ix := 581, base := 0x6001c, lsb := 20, width := 4, acc := .rw, cls := .now }
def SQ_STRETCH_G6 : Fld := { ix := 582, base := 0x6001c, lsb := 24, width := 4, acc := .rw, cls := .now }
def SQ_STRETCH_G7 : Fld := { ix := 583, base := 0x6001c, lsb := 28, width := 4, acc := .rw, cls := .now }

-- SQ_TICK (R470)
def SQ_TICK_JITTER : Fld := { ix := 584, base := 0x60020, width := 16, acc := .rw, cls := .now }
def SQ_TICK_DROP : Fld := { ix := 585, base := 0x60020, lsb := 16, width := 8, acc := .rw, cls := .now }

-- SQ_NOSPACE (R470)
def SQ_NOSPACE_POOLS : Fld := { ix := 586, base := 0x60024, width := 8, acc := .rw, cls := .now }

-- SQ_PORT (R470)
def SQ_PORT_DELAY : Fld := { ix := 587, base := 0x60100, n1 := 64, s1 := 0x4, unit := .gport, width := 12, acc := .rw, cls := .now }
def SQ_PORT_DUTY : Fld := { ix := 588, base := 0x60100, n1 := 64, s1 := 0x4, unit := .gport, lsb := 16, width := 4, acc := .rw, cls := .now }

-- SQ_GINJ_ADDR (R470)
def SQ_GINJ_ADDR_ATOM : Fld := { ix := 589, base := 0x60200, width := 28, acc := .rw, cls := .now }
def SQ_GINJ_ADDR_ANY : Fld := { ix := 590, base := 0x60200, lsb := 28, width := 1, acc := .rw, cls := .now }

-- SQ_GINJ_CTL (R470)
def SQ_GINJ_CTL_CH : Fld := { ix := 591, base := 0x60204, width := 5, acc := .rw, cls := .now }
def SQ_GINJ_CTL_DFLIP : Fld := { ix := 592, base := 0x60204, lsb := 8, width := 8, acc := .rw, cls := .now }
def SQ_GINJ_CTL_CFLIP : Fld := { ix := 593, base := 0x60204, lsb := 16, width := 8, acc := .rw, cls := .now }
def SQ_GINJ_CTL_GO : Fld := { ix := 594, base := 0x60204, lsb := 24, width := 1, acc := .w1t, cls := .now }
def SQ_GINJ_CTL_ARMED : Fld := { ix := 595, base := 0x60204, lsb := 25, width := 1, acc := .ro }

-- SQ_GINJ_BYTES (R470)
def SQ_GINJ_BYTES_BYTES : Fld := { ix := 596, base := 0x60208, width := 32, acc := .rw, cls := .now }

-- SQ_SINJ_CTL (R470)
def SQ_SINJ_CTL_INDEX : Fld := { ix := 597, base := 0x60210, width := 16, acc := .rw, cls := .now }
def SQ_SINJ_CTL_ANY : Fld := { ix := 598, base := 0x60210, lsb := 16, width := 1, acc := .rw, cls := .now }
def SQ_SINJ_CTL_GO : Fld := { ix := 599, base := 0x60210, lsb := 24, width := 1, acc := .w1t, cls := .now }
def SQ_SINJ_CTL_ARMED : Fld := { ix := 600, base := 0x60210, lsb := 25, width := 1, acc := .ro }

-- SQ_SINJ_XOR (R470)
def SQ_SINJ_XOR_XOR : Fld := { ix := 601, base := 0x60214, width := 16, acc := .rw, cls := .now, rst := 0x1 }

-- SQ_HINJ (R470)
def SQ_HINJ_GROUP : Fld := { ix := 602, base := 0x60220, width := 3, acc := .rw, cls := .now }
def SQ_HINJ_ENTRY : Fld := { ix := 603, base := 0x60220, lsb := 4, width := 7, acc := .rw, cls := .now }
def SQ_HINJ_WORD : Fld := { ix := 604, base := 0x60220, lsb := 11, width := 10, acc := .rw, cls := .now }
def SQ_HINJ_KIND : Fld := { ix := 605, base := 0x60220, lsb := 21, width := 2, acc := .rw, cls := .now }
def SQ_HINJ_GO : Fld := { ix := 606, base := 0x60220, lsb := 31, width := 1, acc := .w1t, cls := .now }

-- SQ_LINJ (R470)
def SQ_LINJ_CH : Fld := { ix := 607, base := 0x60230, width := 5, acc := .rw, cls := .now }
def SQ_LINJ_KIND : Fld := { ix := 608, base := 0x60230, lsb := 8, width := 2, acc := .rw, cls := .now, rst := 0x1 }
def SQ_LINJ_COUNT : Fld := { ix := 609, base := 0x60230, lsb := 16, width := 8, acc := .rw, cls := .now }

end R

/-- Register fields 0 to 39 of the tables. -/
def fields0 : List Fld := [
  R.GATE_SHADOW_CTL_LEN, R.GATE_SHADOW_CTL_ARM, R.GATE_ACT_EPOCH_ACT_EPOCH, R.GATE_STATUS_ACTIVE_LEN, R.GATE_STATUS_ENTRY,
  R.GATE_STATUS_ARMED, R.GATE_STATUS_EXTENDED, R.GATE_STATUS_GATE_TRUNC, R.GATE_STATUS_GATE_LATE, R.GATE_STATUS_SPILL,
  R.GATE_STATUS_GATE_SWAP, R.GATE_SWAP_EPOCH_SWAP_EPOCH, R.GATE_LATE_EPOCH_LATE_EPOCH, R.GATE_TRUNC_CNT_TRUNC_CNT,
  R.GATE_SPILL_SPILL_CLASSES, R.GATE_CHANNELS_CHANNELS, R.GATE_SHADOW_DURATION, R.GATE_SHADOW_MASK, R.GATE_ACTIVE_DURATION,
  R.GATE_ACTIVE_MASK, R.GATE_GUARD_GUARD, R.IMG_CTL_SRC, R.IMG_CTL_START, R.IMG_CTL_ABORT, R.IMG_FIFO_DATA,
  R.IMG_STATUS_STATE, R.IMG_STATUS_RESULT, R.IMG_STATUS_IMG_DONE, R.IMG_STATUS_IMG_FAIL, R.IMG_STATUS_CONFIGURED,
  R.IMG_ERR_OFFSET_OFFSET, R.IMG_ERR_DETAIL_REC_TYPE, R.IMG_ERR_DETAIL_FIELD, R.IMG_ERR_DETAIL_WINDOW,
  R.IMG_ERR_DETAIL_CHANNEL, R.IMG_ERR_DETAIL_DOMAIN, R.IMG_BYTES_BYTES, R.IMG_ACTIVE_TAG_TAG, R.IMG_ACTIVE_CRC_CRC,
  R.IMG_QUIESCE_LIMIT_LIMIT]

/-- Register fields 40 to 79 of the tables. -/
def fields1 : List Fld := [
  R.IMG_SKIPPED_COUNT, R.PORT_CTL_DETACH, R.PORT_CTL_CANCEL_WAIT, R.PORT_CTL_VIOL_REARM, R.PORT_CTL_KEEP_HOLDS,
  R.PORT_CFG_PRIV_MAX, R.PORT_CFG_KIND, R.PORT_CFG_WAIT_LIMIT, R.PORT_DEFAULT_FLOW_FLOW, R.PORT_STATUS_PRESENT,
  R.PORT_STATUS_ATTACHED, R.PORT_STATUS_DETACHING, R.PORT_STATUS_GRANTED, R.PORT_STATUS_WAITING, R.PORT_STATUS_RESTARTING,
  R.PORT_STATUS_FORCE_CAUSE, R.PORT_STATUS_OUTSTANDING, R.PORT_STATUS_ATTACH_EVT, R.PORT_STATUS_DETACH_EVT,
  R.PORT_STATUS_FORCED, R.PORT_STATUS_VIOL, R.PORT_VIOL_FIRST_CODE, R.PORT_VIOL_FIRST_TAG, R.PORT_VIOL_FIRST_OP,
  R.PORT_VIOL_FIRST_VALID, R.PORT_VIOL_CNT_COUNT, R.PORT_WARN_POOLS, R.PORT_WARN_LEVEL, R.PORT_HINT_HINT,
  R.PORT_RESTART_CNT_COUNT, R.GRP_CTL_FREEZE, R.GRP_CTL_STYLE, R.GRP_CTL_GCLASS, R.GRP_WATCHDOG_LIMIT, R.GRP_REFILL_REFILL,
  R.GRP_REVOKE_REVOKE_EN, R.GRP_WEIGHT_LO_WEIGHT0, R.GRP_WEIGHT_LO_WEIGHT1, R.GRP_WEIGHT_LO_WEIGHT2, R.GRP_WEIGHT_LO_WEIGHT3]

/-- Register fields 80 to 119 of the tables. -/
def fields2 : List Fld := [
  R.GRP_WEIGHT_HI_WEIGHT4, R.GRP_WEIGHT_HI_WEIGHT5, R.GRP_WEIGHT_HI_WEIGHT6, R.GRP_WEIGHT_HI_WEIGHT7, R.GRP_STATUS_OWNER,
  R.GRP_STATUS_OWNED, R.GRP_STATUS_DRAINED, R.GRP_STATUS_LREQ, R.GRP_STATUS_CLASS0, R.GRP_STATUS_LINK_BITE,
  R.GRP_STATUS_LINK_REVOKE, R.GRP_STATUS_LINK_DRAINED, R.GRP_HOLD_AVG_AVG, R.GRP_CREDIT_CREDIT, R.GRP_REVOKE_CNT_COUNT,
  R.GRP_BITE_CNT_COUNT, R.GRP_BITE_VALID_VALID, R.GRP_BITE_EPOCH_EPOCH, R.XBAR_ARB_AGE_LIMIT, R.XBAR_ARB_SM_GCLASS,
  R.XBAR_ARB_INT_GCLASS, R.SM_CTL_REPLACE_EN, R.SM_CTL_AUTO_HOME, R.SM_CTL_LOAD_EPOCHS, R.SM_CTL_BAL_THRESH,
  R.SM_STATUS_SURFACES, R.SM_STATUS_TABLE_FULL, R.SM_STATUS_REPLACING, R.SM_FORCE_INDEX, R.SM_FORCE_GEN, R.SM_FORCE_GO,
  R.SM_FORCE_STATUS_RESULT, R.SM_FORCE_STATUS_FORCE_DONE, R.SM_POOL_FREE_FREE, R.SM_POOL_TOTAL_TOTAL, R.SM_POOL_LEVEL_LEVEL,
  R.SM_POOL_LEVEL_LOW, R.SM_POOL_LEVEL_LOWER, R.SM_POOL_LEVEL_CRITICAL, R.SM_POOL_HYST_HYST]

/-- Register fields 120 to 159 of the tables. -/
def fields3 : List Fld := [
  R.SM_POOL_MINFREE_MINFREE, R.SM_POOL_NOSPACE_CNT_COUNT, R.SM_POOL_WAITERS_WAITERS, R.SM_POOL_CHANNELS_CHANNELS,
  R.SM_EVAC_CTL_CH, R.SM_EVAC_CTL_RETIRE, R.SM_EVAC_CTL_START, R.SM_EVAC_CTL_CANCEL, R.SM_EVAC_STATUS_STATE,
  R.SM_EVAC_STATUS_CH, R.SM_EVAC_STATUS_EVAC_DONE, R.SM_EVAC_STATUS_EVAC_LOST, R.SM_EVAC_STATUS_STALLED,
  R.SM_EVAC_LEFT_CHUNKS, R.SM_MIGRATE_CTL_SET, R.SM_MIGRATE_CTL_LANE, R.SM_MIGRATE_CTL_DEST, R.SM_MIGRATE_CTL_START,
  R.SM_MIGRATE_STATUS_STATE, R.SM_MIGRATE_STATUS_MIGRATE_DONE, R.SM_LANE_CH0, R.SM_LANE_MOVING0, R.SM_LANE_CH1,
  R.SM_LANE_MOVING1, R.SM_LANE_CH2, R.SM_LANE_MOVING2, R.SM_LANE_CH3, R.SM_LANE_MOVING3, R.SM_CH_LOAD_LOAD,
  R.SM_CH_SPARE_SPARE, R.CIR_CTL_RETRY_EN, R.CIR_CTL_MARK_POISON, R.CIR_CTL_REARM, R.CIR_STATUS_CRC_FAIL,
  R.CIR_STATUS_HDR_INVALID, R.CIR_STATUS_TRANSIENT, R.CIR_STATUS_MERGE_POISON, R.CIR_FAIL_FIRST_A_INDEX,
  R.CIR_FAIL_FIRST_A_GEN, R.CIR_FAIL_FIRST_A_PLANE]

/-- Register fields 160 to 199 of the tables. -/
def fields4 : List Fld := [
  R.CIR_FAIL_FIRST_A_CAUSE, R.CIR_FAIL_FIRST_A_WRITE, R.CIR_FAIL_FIRST_A_RETRIED, R.CIR_FAIL_FIRST_A_VALID,
  R.CIR_FAIL_FIRST_B_CELL_X, R.CIR_FAIL_FIRST_B_CELL_Y, R.CIR_FAIL_CNT_COUNT, R.CIR_TRANSIENT_CNT_COUNT,
  R.CIR_HDR_ECC_CORRECTED, R.CIR_HDR_ECC_DROPPED, R.HALO_CTL_PREFETCH_DEPTH, R.HALO_CTL_MOTION_HINT_EN, R.HALO_CTL_REARM,
  R.HALO_CTL_LOCK_MAX, R.HALO_CTL_WP_SHAPE, R.HALO_INV_CTL_GO, R.HALO_INV_CTL_KIND, R.HALO_INV_CTL_DISCARD,
  R.HALO_INV_CTL_BCAST, R.HALO_INV_SURF_INDEX, R.HALO_INV_SURF_GEN, R.HALO_INV_SURF_PLANE, R.HALO_INV_SURF_ALL_PLANES,
  R.HALO_INV_TX_TX0, R.HALO_INV_TX_TX1, R.HALO_INV_TY_TY0, R.HALO_INV_TY_TY1, R.HALO_INV_LINE_FIRST, R.HALO_INV_COUNT_COUNT,
  R.HALO_STATUS_LOCKED, R.HALO_STATUS_VALID, R.HALO_STATUS_INV_BUSY, R.HALO_STATUS_INV_DONE, R.HALO_STATUS_TAG_ERR,
  R.HALO_STATUS_DATA_UE, R.HALO_STATUS_DIRTY_LOST, R.HALO_ECC_CORRECTED, R.HALO_ECC_UNCORRECTED, R.HALO_ERR_FIRST_ENTRY,
  R.HALO_ERR_FIRST_CAUSE]

/-- Register fields 200 to 239 of the tables. -/
def fields5 : List Fld := [
  R.HALO_ERR_FIRST_UNIT, R.HALO_ERR_FIRST_VALID, R.HALO_PF_ISSUED_COUNT, R.HALO_PF_UNUSED_COUNT, R.HALO_BYPASS_CNT_COUNT,
  R.HALO_ENT_A_VALID, R.HALO_ENT_A_LOCKED, R.HALO_ENT_A_EMPTY, R.HALO_ENT_A_DIRTY, R.HALO_ENT_A_OWN, R.HALO_ENT_A_FILLING,
  R.HALO_ENT_A_EVB, R.HALO_ENT_A_KIND, R.HALO_ENT_A_PLANE, R.HALO_ENT_A_INDEX, R.HALO_ENT_B_TAG, R.TR_CTL_WINDOWS,
  R.TR_CTL_OVC_HOLD, R.TR_CTL_ESC_EN, R.TR_VIEW_CH, R.TR_STATUS_OVERCAST, R.TR_STATUS_TESTING, R.TR_STATUS_HOLDING,
  R.TR_STATUS_LIST_OVERFLOW, R.TR_STATUS_SUSPENDED, R.TR_STATUS_OVC_ENTER, R.TR_STATUS_OVC_CHANGE, R.TR_STATUS_OVC_CLEAR,
  R.TR_OVC_FAIL_CHANNEL, R.TR_OVC_FAIL_DOMAIN, R.TR_OVC_FAIL_WINDOW, R.TR_OVC_FAIL_VALID, R.TR_OVC_EPOCH_EPOCH,
  R.TR_FCACHE_PINNED, R.TR_FCACHE_UNPINNED, R.TR_FCACHE_MISS_COUNT, R.TR_WINDOW_INDEX, R.CLS_IDLE_SLOPE_IDLE_SLOPE,
  R.CLS_SEND_SLOPE_SEND_SLOPE, R.CLS_CREDIT_LIMIT_LIMIT]

/-- Register fields 240 to 279 of the tables. -/
def fields6 : List Fld := [
  R.CLS_QUANTUM_QUANTUM, R.CLS_CREDIT_CREDIT, R.CLS_DEFICIT_DEFICIT, R.CLS_ESC_CNT_COUNT, R.CLS_DEMOTE_CNT_COUNT,
  R.CLS_YELLOW_CNT_COUNT, R.TR_BYTES_LAST_COUNT, R.TR_BYTES_CUR_COUNT, R.TR_OVC_LIST_FLOW, R.TR_OVC_LIST_RANK,
  R.TR_OVC_LIST_CLASS, R.TR_OVC_LIST_VALID, R.CH_CTL_HOLD, R.CH_CTL_REF_MODE, R.CH_CTL_PD_EN, R.CH_CTL_BL32_EN,
  R.CH_PAGE_PAGE_IDLE, R.CH_PAGE_HIT_MAX, R.CH_DIR_WR_HIGH, R.CH_DIR_WR_LOW, R.CH_DIR_DIR_MAX, R.CH_REF_REF_URGENT,
  R.CH_REF_REF_PULLIN, R.CH_REF_MR4_PERIOD, R.CH_PD_PD_IDLE, R.CH_STATUS_QUIESCED, R.CH_STATUS_PD0, R.CH_STATUS_PD1,
  R.CH_STATUS_DIR, R.CH_STATUS_BG_MODE, R.CH_STATUS_RATE0, R.CH_STATUS_RATE1, R.CH_STATUS_REF_RAISED,
  R.CH_STATUS_RATE_CHANGE, R.CH_STATUS_REF_LIMIT, R.CH_STATUS_DEBT_MAX, R.CH_REF_DEBT_DEBT0, R.CH_REF_DEBT_DEBT1,
  R.CH_QUEUE_ENTRIES, R.CH_QUEUE_WRITES]

/-- Register fields 280 to 319 of the tables. -/
def fields7 : List Fld := [
  R.CH_OPEN_OPEN0, R.CH_OPEN_OPEN1, R.CH_REF_CNT_COUNT, R.CH_RFM_CNT_COUNT, R.CH_PD_CNT_COUNT, R.CH_TURN_CNT_COUNT,
  R.CH_RFM_CFG_RAAIMT, R.CH_RFM_CFG_RAAMMT, R.CH_RFM_CFG_RFM_REQ, R.CH_RAA_RAA, R.CH_TIMING_VALUE, R.PHY_CTL_COLD,
  R.PHY_CTL_WARM, R.PHY_CTL_LONG, R.PHY_CTL_AUTO_EVAC, R.PHY_CTL_REARM, R.PHY_CTL_TRAIN_RETRY, R.PHY_STATUS_STATE,
  R.PHY_STATUS_STEP, R.PHY_STATUS_OUT_OF_SERVICE, R.PHY_STATUS_RETAINED, R.PHY_STATUS_LONG_PENDING,
  R.PHY_STATUS_CORR_PENDING, R.PHY_STATUS_DAWN_DONE, R.PHY_STATUS_ENV_MISMATCH, R.PHY_STATUS_TRAIN_FAIL,
  R.PHY_STATUS_EYE_LOW, R.PHY_STATUS_MAINT_STARVED, R.PHY_STATUS_LINK_ECC_HIGH, R.PHY_STATUS_DRIFT_HIGH, R.PHY_FAIL_STEP,
  R.PHY_FAIL_RANK, R.PHY_FAIL_CAUSE, R.PHY_FAIL_BIT, R.PHY_FAIL_VALID, R.PHY_DAWN_TIME_TIME, R.PHY_DAWN_TIME_KIND,
  R.PHY_MR_MASK_MR5_MASK, R.PHY_MR_MASK_MR6_MASK, R.PHY_MR_MASK_MR8_MASK]

/-- Register fields 320 to 359 of the tables. -/
def fields8 : List Fld := [
  R.PHY_MR_SEEN_MR5, R.PHY_MR_SEEN_MR6, R.PHY_MR_SEEN_MR8, R.PHY_DRV_DQ_ODT, R.PHY_DRV_CA_ODT, R.PHY_DRV_PDDS,
  R.PHY_DRV_SOC_ODT, R.PHY_DRV_SOC_DRV, R.PHY_MAINT_ZQ_PERIOD, R.PHY_MAINT_LONG_PERIOD, R.PHY_MAINT_MAINT_WAIT_MAX,
  R.PHY_DRIFT_CFG_DRIFT_LIMIT, R.PHY_DRIFT_CFG_EYE_THRESH, R.PHY_DRIFT_CFG_EYE_MIN_MARGIN, R.PHY_OSC_I_BASE,
  R.PHY_OSC_I_LAST, R.PHY_OSC_O_BASE, R.PHY_OSC_O_LAST, R.PHY_DRIFT_WR_PEND, R.PHY_DRIFT_RD_PEND, R.PHY_DRIFT_APPLIED,
  R.PHY_LINK_ECC_CORRECTED, R.PHY_LINK_ECC_UNCORRECTED, R.PHY_LECC_THRESH_THRESH, R.PHY_MAINT_CNT_ZQ, R.PHY_MAINT_CNT_LONG,
  R.PHY_EYE_LEFT, R.PHY_EYE_RIGHT, R.PHY_EYE_RD_DELAY, R.PHY_EYE_WR_DELAY, R.INT_CTL_LOG_CE, R.INT_CTL_REMAP_AUTO,
  R.INT_CTL_REMAP_UE, R.INT_CTL_PPR_CAND_EN, R.INT_CTL_REARM, R.INT_CTL_REMAP_CE_THRESH, R.INT_STATUS_RING_FULL,
  R.INT_STATUS_INITIALISING, R.INT_STATUS_ECC_CE, R.INT_STATUS_ECC_UE]

/-- Register fields 360 to 399 of the tables. -/
def fields9 : List Fld := [
  R.INT_STATUS_SCRUB_PASS, R.INT_STATUS_SCRUB_LATE, R.INT_STATUS_RESERVE_LOSS, R.INT_STATUS_INIT_DONE, R.INT_ERR_FIRST_KIND,
  R.INT_ERR_FIRST_UNIT, R.INT_ERR_FIRST_VALID, R.INT_ERR_FIRST_SEQ_SEQ, R.INT_CE_CNT_COUNT, R.INT_UE_CNT_COUNT,
  R.INT_RING_PROD_PROD, R.INT_RING_CONS_CONS, R.INT_RING_DROP_COUNT, R.INT_RING_SEQ_NEXT, R.INT_HANDLE_DEPTH,
  R.INT_HANDLE_DROP, R.INT_SCRUB_CTL_EN, R.INT_SCRUB_CTL_PERIOD, R.INT_SCRUB_STATUS_PASSES, R.INT_SCRUB_STATUS_PROGRESS,
  R.INT_CHECKER_MODE, R.INT_CHECKER_REGION, R.INT_CHECKER_BUSY, R.INT_PPR_CTL_CH, R.INT_PPR_CTL_ARM, R.INT_PPR_CTL_GO,
  R.INT_PPR_STATUS_STATE, R.INT_PPR_STATUS_CH, R.INT_PPR_STATUS_PPR_DONE, R.INT_PPR_STATUS_PPR_FAIL, R.INT_PPR_ADD_CH,
  R.INT_PPR_ADD_RANK, R.INT_PPR_ADD_BANK, R.INT_PPR_ADD_ROW, R.INT_PPR_ADD_GO, R.INT_INIT_WM, R.INT_INIT_DONE,
  R.FE_CTL_REARM, R.FE_STATUS_REMAP_FULL, R.FE_STATUS_USED]

/-- Register fields 400 to 439 of the tables. -/
def fields10 : List Fld := [
  R.FE_STATUS_REMAP_ADD, R.FE_STATUS_PPR_CANDIDATE, R.FE_ERR_FIRST_A_ADDR, R.FE_ERR_FIRST_B_ADDR32, R.FE_ERR_FIRST_B_KIND,
  R.FE_ERR_FIRST_B_VALID, R.FE_ERR_FIRST_BYTES_BYTES, R.FE_CE_CNT_COUNT, R.FE_UE_CNT_COUNT, R.FE_LOST_CNT_COUNT,
  R.FE_REMAP_CMD_BLOCK, R.FE_REMAP_CMD_OP, R.FE_REMAP_CMD_GO, R.FE_REMAP_BLOCK, R.FE_REMAP_MANUAL, R.FE_REMAP_VALID,
  R.FE_PPR_RANK, R.FE_PPR_BANK, R.FE_PPR_ROW, R.FE_PPR_STATE, R.PWR_CTL_DUSK, R.PWR_CTL_DUSK_DEEP, R.PWR_CTL_SOFT_RESET,
  R.PWR_WAKE_EN_EN, R.PWR_STATUS_STATE, R.PWR_STATUS_RAILS, R.PWR_STATUS_CORE_LOST, R.PWR_STATUS_RESTORE_FAIL,
  R.PWR_STATUS_PWR_WAKE, R.PWR_STATUS_SLEEP_ABORTED, R.PWR_STATUS_TEMP_ALERT, R.PWR_STATUS_RAIL_LOSS,
  R.PWR_WAKE_CAUSE_CAUSE, R.PWR_WAKE_CAUSE_ABORT, R.PWR_TIMER_LOAD, R.PWR_LOSS_RAILS, R.PWR_DUSK_TIME_TIME,
  R.PWR_DUSK_ACCESS_COUNT, R.CH_PWR_REQ, R.CH_PWR_DSM_EXIT]

/-- Register fields 440 to 479 of the tables. -/
def fields11 : List Fld := [
  R.CH_PWR_RETIRE, R.CH_PWR_REINSTATE, R.CH_PWR_STATE, R.CH_PWR_RETIRED, R.CH_PWR_REINSTATED, R.EVT_CTL_DISABLE,
  R.EVT_STATUS_LINES, R.EVT_ACK_GROUP, R.EVT_ACK_MASK, R.EVT_TGT_CAUSE, R.EVT_TGT_VALID, R.EVT_TGT_POSTING,
  R.EVT_PRIV_CH_CHANNELS, R.EVT_GRP_CFG_TARGET, R.EVT_GRP_CFG_MODE, R.EVT_GRP_CFG_PRIO, R.EVT_GRP_CFG_COUNT,
  R.EVT_GRP_TIME_TIME, R.EVT_GRP_PEND_PENDING, R.EVT_GRP_PEND_POSTED, R.EVT_GRP_EN_ENABLE, R.PERF_CFG_EVENT,
  R.PERF_CFG_F_PRIV, R.PERF_CFG_F_PORT, R.PERF_CFG_F_FLOW, R.PERF_CFG_F_ADDR, R.PERF_CFG_F_CLASS, R.PERF_CFG_CHAIN,
  R.PERF_CTR_LOW, R.PERF_CTL_FREEZE, R.PERF_CTL_USER_EN, R.PERF_CTL_USER_GRP, R.CTR_CTL_EN, R.CTR_CTL_K, R.CTR_CTL_WRAP,
  R.CTR_CTL_FLUSH, R.CTR_SEED_SEED, R.CTR_STATUS_INFLIGHT, R.CTR_STATUS_FULL, R.CTR_PROD_PROD]

/-- Register fields 480 to 519 of the tables. -/
def fields12 : List Fld := [
  R.CTR_CONS_CONS, R.CTR_LOSS_MISSED, R.CTR_LOSS_LOST, R.CTR_LFSR_L, R.PF_CHANNELS_CHANNELS, R.PF_GROUPS_GROUPS,
  R.PF_PORT_LO_PORTS, R.PF_PORT_HI_PORTS, R.PF_FLOW_LO_FLOW_LO, R.PF_FLOW_HI_FLOW_HI, R.PF_ADDR_LO_ADDR_LO,
  R.PF_ADDR_HI_ADDR_HI, R.PF_CLASS_CLASSES, R.PF_CLASS_PRIV, R.PF_GRP_CTL_EN, R.PF_GRP_CTL_SNAP, R.PF_GRP_CTL_CLEAR,
  R.PF_GRP_CTL_TICK_SNAP, R.PF_GRP_CTL_TICK_CLEAR, R.PF_GRP_STATUS_OVF, R.PF_SNAP_EPOCH_EPOCH, R.PERF_USER_LOW,
  R.PERF_USER_INFO_GROUP, R.PERF_USER_INFO_GRP_EN, R.PERF_USER_INFO_ON, R.PERF_USER_EPOCH_EPOCH, R.MBX_SEL_INDEX,
  R.MBX_SEL_OBJ, R.MBX_SEL_WRITE, R.MBX_CTL_GO, R.MBX_CTL_BUSY, R.MBX_CTL_VALID, R.MBX_CTL_ERR, R.MBX_CTL_CODE,
  R.MBX_D_DATA, R.GLB_ID_PART, R.GLB_ID_MINOR, R.GLB_ID_MAJOR, R.GLB_SHAPE_CHANNELS, R.GLB_SHAPE_GROUPS]

/-- Register fields 520 to 559 of the tables. -/
def fields13 : List Fld := [
  R.GLB_SHAPE_PORTS, R.GLB_IMAGE_FMT_VERSION, R.GLB_SCRATCH_VALUE, R.GLB_CTL_BUSY_REARM, R.GLB_STATUS_CONFIGURED,
  R.GLB_STATUS_CFG_BUSY, R.GLB_BUSY_FIRST_ADDR, R.GLB_BUSY_FIRST_TARGET, R.GLB_BUSY_FIRST_VALID, R.GLB_BUSY_CNT_COUNT,
  R.TICK_STATUS_STATE, R.TICK_STATUS_ANOMALY, R.TICK_STATUS_LOST, R.TICK_STATUS_RUNTS, R.TICK_STATUS_FLYWHEELS,
  R.TICK_STATUS_LOCKED, R.TICK_STATUS_RUNT, R.TICK_STATUS_RELOCK, R.TICK_STATUS_FLYWHEEL, R.TICK_STATUS_OUTLIER,
  R.TICK_EPOCH_EPOCH, R.TICK_IM_IM, R.TICK_IC_IC, R.TICK_LAST_TCLK, R.TICK_INTERVAL_TCLK, R.TICK_GLITCH_CNT_COUNT,
  R.TICK_RUNT_CNT_COUNT, R.TICK_FLYWHEEL_CNT_COUNT, R.TICK_OUTLIER_CNT_COUNT, R.TICK_CTL_RELOCK, R.TICK_NOMINAL_TCLK_TCLK,
  R.TICK_NOMINAL_CCLK_CCLK, R.ADM_CTL_WARN, R.ADM_MARGIN_MARGIN, R.ADM_MARGIN_CHANNEL, R.ADM_MARGIN_WINDOW,
  R.ADM_MARGIN_DOMAIN, R.ADM_MARGIN_TIGHT, R.ADM_MARGIN_VALID, R.ADM_LAST_SOURCE]

/-- Register fields 560 to 599 of the tables. -/
def fields14 : List Fld := [
  R.ADM_LAST_FAILED, R.ADM_LAST_CHANNEL, R.ADM_LAST_DOMAIN, R.ADM_LAST_WINDOW, R.ADM_CH_LOAD, R.ADM_CH_CAP, R.TEST_KEY_KEY,
  R.SQ_STATUS_UNLOCKED, R.SQ_STATUS_PERMITTED, R.SQ_STATUS_KEY_PENDING, R.SQ_SEED_SEED, R.SQ_INJ_CNT_COUNT,
  R.SQ_REVOKE_GROUPS, R.SQ_REVOKE_PERIOD, R.SQ_REF_HOLD_CHANNELS, R.SQ_STRETCH_CH_CHANNELS, R.SQ_STRETCH_G0,
  R.SQ_STRETCH_G1, R.SQ_STRETCH_G2, R.SQ_STRETCH_G3, R.SQ_STRETCH_G4, R.SQ_STRETCH_G5, R.SQ_STRETCH_G6, R.SQ_STRETCH_G7,
  R.SQ_TICK_JITTER, R.SQ_TICK_DROP, R.SQ_NOSPACE_POOLS, R.SQ_PORT_DELAY, R.SQ_PORT_DUTY, R.SQ_GINJ_ADDR_ATOM,
  R.SQ_GINJ_ADDR_ANY, R.SQ_GINJ_CTL_CH, R.SQ_GINJ_CTL_DFLIP, R.SQ_GINJ_CTL_CFLIP, R.SQ_GINJ_CTL_GO, R.SQ_GINJ_CTL_ARMED,
  R.SQ_GINJ_BYTES_BYTES, R.SQ_SINJ_CTL_INDEX, R.SQ_SINJ_CTL_ANY, R.SQ_SINJ_CTL_GO]

/-- Register fields 600 to 609 of the tables. -/
def fields15 : List Fld := [
  R.SQ_SINJ_CTL_ARMED, R.SQ_SINJ_XOR_XOR, R.SQ_HINJ_GROUP, R.SQ_HINJ_ENTRY, R.SQ_HINJ_WORD, R.SQ_HINJ_KIND, R.SQ_HINJ_GO,
  R.SQ_LINJ_CH, R.SQ_LINJ_KIND, R.SQ_LINJ_COUNT]

/-- Every register field. -/
def allFields : List Fld :=
  fields0 ++ fields1 ++ fields2 ++ fields3 ++ fields4 ++ fields5 ++ fields6 ++ fields7 ++
  fields8 ++ fields9 ++ fields10 ++ fields11 ++ fields12 ++ fields13 ++ fields14 ++ fields15

/-- The key of one field of one unit in the register table of State. -/
def Fld.key (f : Fld) (i j : Nat) : Nat := f.ix * 2 ^ 20 + i % 1024 * 1024 + j % 1024

/-- Whether the build has the unit the field belongs to (R3). -/
def Fld.present (f : Fld) (b : Build) (i : Nat) : Bool :=
  match f.unit with
  | .none => true
  | .group => decide (i < b.groups)
  | .port => decide (i < b.groups)
  | .chan => decide (i < b.channels)
  | .gport => decide (i < 8 * b.groups)

/-- Numbers in a field's range that name no register or a reserved bit: CH_TIMING has no parameter 0 (R323, R336), counter 0 has no CHAIN bit
(R441), a rank has 18 trained bits (R359). -/
def Fld.hole (f : Fld) (i j : Nat) : Bool :=
  (f.ix == R.CH_TIMING_VALUE.ix && j == 0) || (f.ix == R.PERF_CFG_CHAIN.ix && i == 0) ||
    (R.PHY_EYE_LEFT.ix ≤ f.ix && f.ix ≤ R.PHY_EYE_WR_DELAY.ix && decide (18 ≤ j % 32))

/-- The unit numbers of the register that holds field `f` at byte address `a`, if it does. -/
def Fld.at (f : Fld) (a : Nat) : Option (Nat × Nat) :=
  if a < f.base then none
  else
    let d := a - f.base
    let i := if f.n1 = 1 then 0 else d / f.s1
    let r := if f.n1 = 1 then d else d % f.s1
    let j := if f.n2 = 1 then 0 else r / f.s2
    let e := if f.n2 = 1 then r else r % f.s2
    if e = 0 ∧ i < f.n1 ∧ j < f.n2 ∧ f.hole i j = false then some (i, j) else none

/-- A field of one unit. -/
structure Slot where
  f : Fld
  i : Nat := 0
  j : Nat := 0
deriving DecidableEq, Repr

/-- The fields of the register at byte address `a`; address bits [1:0] are ignored (R442). -/
def slotsAt (a : Nat) : List Slot :=
  allFields.filterMap fun f =>
    match f.at (a / 4 * 4) with
    | some (i, j) => some ⟨f, i, j⟩
    | none => none

/-- The reset value of a field; some depend on the build or on the unit's number (R306, R425, R459). -/
def Fld.reset (f : Fld) (b : Build) (i : Nat) : Nat :=
  if f.ix = R.CLS_QUANTUM_QUANTUM.ix then (if 4 ≤ i ∧ i ≤ 14 then 0x1000 else 0)
  else if f.ix = R.EVT_GRP_CFG_TARGET.ix then (if 24 ≤ i then i - 24 else 0)
  else if f.ix = R.EVT_GRP_CFG_PRIO.ix then (if 24 ≤ i then 0 else 2)
  else if f.ix = R.EVT_GRP_CFG_COUNT.ix then (if b.coalesces then 1 else 0)
  else if f.ix = R.GLB_ID_PART.ix then b.part
  else if f.ix = R.GLB_SHAPE_CHANNELS.ix then b.channels
  else if f.ix = R.GLB_SHAPE_GROUPS.ix then b.groups
  else if f.ix = R.GLB_SHAPE_PORTS.ix then 8 * b.groups
  else f.rst

/-- The value in force of a field that State keeps in its register table. -/
def State.rd (s : State) (f : Fld) (i : Nat := 0) (j : Nat := 0) : Nat :=
  Tab.get (f.reset s.build i) s.regs (f.key i j)

/-- Make `v`, cut to the field's width, the value in force of a field. -/
def State.wr (s : State) (f : Fld) (i j v : Nat) : State :=
  { s with regs := Tab.insert (f.key i j) (v % 2 ^ f.width) s.regs }

/-- Set an event bit, and note that it was set in this cycle (R16). -/
def State.setBit (s : State) (f : Fld) (i j : Nat) : State := { s.wr f i j 1 with bitsNow := f.key i j :: s.bitsNow }

/-- Add to an RC counter field, saturating at its maximum (R450). -/
def State.bump (s : State) (f : Fld) (i j n : Nat) : State :=
  { s with regs := Tab.insert (f.key i j) (satAdd f.width (s.rd f i j) n) s.regs }

/-- The registers from address `lo` up to `hi` return to their reset values (R11). -/
def State.resetRegs (keep : Fld → Bool) (s : State) : State :=
  { s with regs := s.regs.filter fun e => allFields.any fun f => f.ix = e.1 / 2 ^ 20 && keep f }

end Sys2Proof.Machine
end

