-- ==== Sys2Proof/Machine/Ops.lean ====
section
/-! DEFINITION. The named operations that every family of commands shares: the tables of units, event raising, the counter array,
refusal of a register write, the passing of cclk cycles, and the DRAM bytes. -/

namespace Sys2Proof.Machine
open Sys2Proof

/-! ### The tables of units -/

def State.port (s : State) (p : Nat) : Port := Tab.get {} s.ports p
def State.setPort (s : State) (p : Nat) (x : Port) : State := { s with ports := Tab.insert p x s.ports }
def State.group (s : State) (g : Nat) : Group := Tab.get {} s.groups g
def State.setGroup (s : State) (g : Nat) (x : Group) : State := { s with groups := Tab.insert g x s.groups }
def State.chan (s : State) (ch : Nat) : Chan := Tab.get {} s.chans ch
def State.setChan (s : State) (ch : Nat) (x : Chan) : State := { s with chans := Tab.insert ch x s.chans }
def State.gate (s : State) (d : Nat) : Gate := Tab.get {} s.gates d
def State.setGate (s : State) (d : Nat) (x : Gate) : State := { s with gates := Tab.insert d x s.gates }
def State.evt (s : State) (g : Nat) : EvtGrp := Tab.get {} s.evts g
def State.setEvt (s : State) (g : Nat) (x : EvtGrp) : State := { s with evts := Tab.insert g x s.evts }
def State.surf (s : State) (i : Nat) : Surf := Tab.get {} s.sm.surfs i
def State.setSurf (s : State) (i : Nat) (x : Surf) : State := { s with sm := { s.sm with surfs := Tab.insert i x s.sm.surfs } }
/-- Entry `e` of slice `g`: 0 to 63 the array, 64 to 71 the side buffer, 72 to 75 the eviction buffer (R274). -/
def State.line (s : State) (g e : Nat) : Line := Tab.get {} s.lines (g * 128 + e)
def State.setLine (s : State) (g e : Nat) (x : Line) : State := { s with lines := Tab.insert (g * 128 + e) x s.lines }

/-- The queue of slice `g` in a table of queues. -/
def queueOf {α : Type} (t : Tab (List α)) (g : Nat) : List α := Tab.get [] t g

/-- A list without its `k`-th element. -/
def dropAt {α : Type} : List α → Nat → List α
  | [], _ => []
  | _ :: t, 0 => t
  | a :: t, k + 1 => a :: dropAt t k

/-- A list with its `k`-th element replaced. -/
def setAt {α : Type} : List α → Nat → α → List α
  | [], _, _ => []
  | _ :: t, 0, x => x :: t
  | a :: t, k + 1, x => a :: setAt t k x

/-- The smallest number of a list, if it has one. -/
def minOf : List Nat → Option Nat
  | [] => none
  | a :: t =>
    match minOf t with
    | none => some a
    | some b => some (min a b)

/-- Insert into a list of numbers in ascending order. -/
def sortedInsert (x : Nat) : List Nat → List Nat
  | [] => [x]
  | a :: t => if x ≤ a then x :: a :: t else a :: sortedInsert x t

/-- Sort numbers into ascending order. -/
def sortNat (l : List Nat) : List Nat := l.foldl (fun t x => sortedInsert x t) []

/-- Comparison of two lists of numbers, first difference deciding. -/
def lexLt : List Nat → List Nat → Bool
  | [], _ => false
  | _, [] => false
  | a :: t, b :: u => decide (a < b) || (a == b && lexLt t u)

/-- The first element of a list under an order. -/
def firstBy {α : Type} (key : α → List Nat) : List α → Option α
  | [] => none
  | a :: t =>
    match firstBy key t with
    | none => some a
    | some b => if lexLt (key b) (key a) then some b else some a

/-- Insert in order. -/
def insertBy {α : Type} (key : α → List Nat) (x : α) : List α → List α
  | [] => [x]
  | a :: t => if lexLt (key x) (key a) then x :: a :: t else a :: insertBy key x t

/-- Sort a list under an order, stably. -/
def sortBy {α : Type} (key : α → List Nat) (l : List α) : List α := l.foldl (fun t x => insertBy key x t) []

/-- The bytes of a little-endian number of `n` bytes. -/
def leBytes (n v : Nat) : List Byte := (List.range n).map fun k => BitVec.ofNat 8 (v / 2 ^ (8 * k))

/-- The number of a little-endian list of bytes. -/
def leNat : List Byte → Nat
  | [] => 0
  | b :: t => b.toNat + 256 * leNat t

/-- One bit of the reflected CRC-32C (R70). -/
def crcBit (c : Nat) : Nat := if c % 2 = 1 then c / 2 ^^^ 0x82F63B78 else c / 2

/-- One byte of the reflected CRC-32C. -/
def crcByte (c : Nat) (b : Byte) : Nat :=
  crcBit (crcBit (crcBit (crcBit (crcBit (crcBit (crcBit (crcBit (c ^^^ b.toNat))))))))

/-- The CRC-32C of a list of bytes (R70). -/
def crc32c (l : List Byte) : Nat := l.foldl crcByte 0xFFFFFFFF ^^^ 0xFFFFFFFF

/-! ### Free values -/

/-- Read and advance the counter that makes every free value a fresh one (the model's own field). -/
def State.fresh (s : State) : Nat × State := (s.freeCtr, { s with freeCtr := s.freeCtr + 1 })

/-! ### Counters (R426 to R430) -/

/-- An occurrence of event `ev`, `n` times over, at port group `grp` or channel `ch` or neither. Engine work has no `req`. -/
structure Occ where
  ev : Nat
  n : Nat := 1
  grp : Option Nat := none
  ch : Option Nat := none
  req : Option ReqAttr := none
  cls : Nat := 15
deriving DecidableEq, Repr

/-- The configured class of a flow as R150 reads it: C15 for a flow that is not defined. -/
def State.flowClass (s : State) (f : Nat) : Nat :=
  let x := Tab.get ({} : Flow) s.traffic.flows f
  if x.defined then x.cls else 15

/-- The class in which uncharged work of a request runs (R286): that in which its flow runs now. -/
def Flow.workClass (x : Flow) : Nat := if x.defined = false ∨ x.suspended = true ∨ x.demoted = true then 15 else x.cls

/-- The class an occurrence of a sub-request carries before R287 has assigned it one (R429): its named class, the arbitration class of a request,
or the class in which engine work runs. -/
def State.subClass (s : State) (u : SubReq) : Nat :=
  match u.named with
  | some c => c
  | none => if u.rq.isSome then s.flowClass u.flow else (Tab.get ({} : Flow) s.traffic.flows u.flow).workClass

/-- The attributes of request `r` of port `p` (R429): its privilege, port and flow after R144 and R150, and the bytes of a linear request. -/
def State.attrOf (s : State) (p : Nat) (r : Req) : ReqAttr :=
  { priv := r.priv, port := p, flow := r.flow
    lin := if s.rd R.PORT_CFG_KIND (p / 8) (p % 8) = 2 then some (r.addr, r.addr + 64 * r.len + 63) else none }

/-- The occurrence of event `ev` for a port request, before R287 has assigned a class (R429). -/
def State.occAt (s : State) (ev n : Nat) (a : ReqAttr) : Occ :=
  { ev := ev, n := n, grp := some (a.port / 8), req := some a, cls := s.flowClass a.flow }

/-- The filters an event carries, in the order V, P, F, A, C (R430). -/
def evCarries (ev : Nat) : Bool × Bool × Bool × Bool × Bool :=
  if ev ≤ 0x00A then (false, false, false, false, false)
  else if ev ≤ 0x01D then (true, true, true, true, true)
  else if ev = 0x01E then (false, true, false, false, false)
  else if ev ≤ 0x02C then (true, true, true, true, true)
  else if ev = 0x02D then (false, true, false, false, false)
  else if ev ≤ 0x032 then (false, true, false, false, true)
  else if ev ≤ 0x035 then (false, true, false, false, false)
  else if ev ≤ 0x038 then (false, false, false, false, false)
  else if ev ≤ 0x03A then (false, false, false, false, true)
  else if ev ≤ 0x047 then (true, true, true, true, true)
  else if ev ≤ 0x049 then (false, false, false, false, true)
  else if ev ≤ 0x05E then (false, false, false, false, false)
  else if ev ≤ 0x06A then (true, true, true, true, true)
  else if ev ≤ 0x06F then (false, false, false, false, false)
  else if ev ≤ 0x074 then (false, true, false, false, false)
  else if ev ≤ 0x07E then (false, false, false, false, false)
  else if ev ≤ 0x08F then (true, true, true, true, true)
  else if ev ≤ 0x09F then (true, true, true, true, false)
  else if ev ≤ 0x0A9 then (true, true, true, true, true)
  else if ev ≤ 0x0AF then (false, false, false, false, false)
  else if ev ≤ 0x0CE then (true, true, true, true, false)
  else if ev ≤ 0x0D4 then (false, false, false, false, true)
  else if ev ≤ 0x119 then (false, false, false, false, false)
  else if ev ≤ 0x13F then (true, true, true, true, false)
  else (false, false, false, false, false)

/-- Whether an occurrence lies in the scope of counter group `G` (R429). -/
def State.inScope (s : State) (G : Nat) (o : Occ) : Bool :=
  match o.grp, o.ch with
  | some g, _ => bit (s.rd R.PF_GROUPS_GROUPS G) g
  | none, some c => bit (s.rd R.PF_CHANNELS_CHANNELS G) c
  | none, none => true

/-- Whether an occurrence passes the filters that counter `k` enables and its event carries (R429). -/
def State.passesFilters (s : State) (k : Nat) (o : Occ) : Bool :=
  let G := k / 8
  let (cv, cp, cf, ca, cc) := evCarries o.ev
  let on (f : Fld) (carried : Bool) : Bool := carried && s.rd f k == 1
  (!on R.PERF_CFG_F_PRIV cv || match o.req with | none => false | some r => bit (s.rd R.PF_CLASS_PRIV G) r.priv) &&
  (!on R.PERF_CFG_F_PORT cp || match o.req with
    | none => false
    | some r => if r.port < 32 then bit (s.rd R.PF_PORT_LO_PORTS G) r.port else bit (s.rd R.PF_PORT_HI_PORTS G) (r.port - 32)) &&
  (!on R.PERF_CFG_F_FLOW cf || match o.req with
    | none => false
    | some r => decide (s.rd R.PF_FLOW_LO_FLOW_LO G ≤ r.flow ∧ r.flow ≤ s.rd R.PF_FLOW_HI_FLOW_HI G)) &&
  (!on R.PERF_CFG_F_ADDR ca || match o.req with
    | none => false
    | some r =>
      match r.lin with
      | none => false
      | some (a, b) => decide (s.rd R.PF_ADDR_LO_ADDR_LO G * 4096 ≤ b ∧ a ≤ s.rd R.PF_ADDR_HI_ADDR_HI G * 4096 + 4095)) &&
  (!on R.PERF_CFG_F_CLASS cc || bit (s.rd R.PF_CLASS_CLASSES G) o.cls)

/-- Whether counter `k` counts at all: its group's EN is 1 and FREEZE is 0 (R426). -/
def State.ctrOn (s : State) (k : Nat) : Bool := s.rd R.PF_GRP_CTL_EN (k / 8) == 1 && s.rd R.PERF_CTL_FREEZE == 0

/-- Add `n` to counter `k` of a measurement state: wrap at 2^48, set OVF, and carry into a chained counter (R426, R428). -/
def ctrAdd (s : State) : Nat → Nat → Nat → Meas → Meas
  | 0, _, _, m => m
  | fuel + 1, k, n, m =>
    if k < 256 ∧ s.ctrOn k = true ∧ n ≠ 0 then
      let t := Tab.get 0 m.ctrs k + n
      let m := { m with ctrs := Tab.insert k (t % 2 ^ 48) m.ctrs }
      if t < 2 ^ 48 then m
      else
        let o := Tab.get 0 m.ovf (k / 8)
        let m := { m with ovf := Tab.insert (k / 8) (o ||| 2 ^ (k % 8)) m.ovf }
        if s.rd R.PERF_CFG_CHAIN (k + 1) = 1 then ctrAdd s fuel (k + 1) (t / 2 ^ 48) m else m
    else m

/-- The measurement state after an occurrence: every counter of an enabled group that names its event, is not chained to its
neighbour, and whose scope and filters it passes adds it. -/
def State.counted (s : State) (o : Occ) : Meas :=
  if s.rd R.PERF_CTL_FREEZE = 1 then s.meas
  else
    (List.range 32).foldl (fun m G =>
      if s.rd R.PF_GRP_CTL_EN G = 1 ∧ s.inScope G o = true then
        (List.range 8).foldl (fun m i =>
          let k := 8 * G + i
          if s.rd R.PERF_CFG_EVENT k = o.ev ∧ s.rd R.PERF_CFG_CHAIN k = 0 ∧ s.passesFilters k o = true then
            ctrAdd s 256 k o.n m
          else m) m
      else m) s.meas

/-- Count an occurrence (R426). -/
def State.count (s : State) (o : Occ) : State := { s with meas := s.counted o }

/-! ### Events (R414 to R419) -/

/-- The target of a source group (R418). -/
def State.evtTarget (s : State) (g : Nat) : Nat := if 24 ≤ g then g - 24 else s.rd R.EVT_GRP_CFG_TARGET g

/-- Source `n` of group `g` is raised: it becomes pending, and counts for moderation if it is enabled (R417, R419). A raise during
the four cycles of a post to the same target by a group of lower priority posts past its moderation (R421). -/
def State.raised (s : State) (g n : Nat) : EvtGrp :=
  let e := s.evt g
  let on := bit (s.rd R.EVT_GRP_EN_ENABLE g) n
  let past : Bool := match Tab.find s.posts (s.evtTarget g) with
    | some (q, p, plain) =>
      plain && decide (s.cclk ≤ p + 3 ∧ (s.rd R.EVT_GRP_CFG_PRIO g < s.rd R.EVT_GRP_CFG_PRIO q ∨
        s.rd R.EVT_GRP_CFG_PRIO g = s.rd R.EVT_GRP_CFG_PRIO q ∧ g < q))
    | none => false
  { e with
    pending := e.pending ||| 2 ^ n
    raises := if on then e.raises + 1 else e.raises
    timed := e.timed || on
    bypass := e.bypass || (on && past) }

/-- Raise source `n` of group `g`. -/
def State.raise (s : State) (g n : Nat) : State := s.setEvt g (s.raised g n)

/-- Raise source `n` of the private bank of target `t` (R416). -/
def State.raisePriv (s : State) (t n : Nat) : State := s.raise (24 + t % 8) n

/-- The port source of global port `p`: PORT_ATTACH, PORT_DETACH, PORT_FORCED, PORT_VIOL (R415). -/
def State.raisePort (s : State) (p : Nat) : State := s.raise (1 + p / 16) (p % 16)

/-- A channel source: the pair of groups that starts at `base` (R415). -/
def State.raiseChan (s : State) (base ch : Nat) : State := s.raise (base + ch / 16) (ch % 16)

/-- A private channel source 4 to 6 of target `t`, which also sets EVT_PRIV_CH (R416). -/
def State.raisePrivChan (s : State) (t n ch : Nat) : State :=
  let s := s.raisePriv t n
  s.wr R.EVT_PRIV_CH_CHANNELS t 0 (s.rd R.EVT_PRIV_CH_CHANNELS t ||| 2 ^ ch)

/-- The posted, pending sources of group `g`, without those of a post of the group whose cycle P + `d` has not come (R420). -/
def State.shownOf (s : State) (g d : Nat) : Nat :=
  let e := s.evt g
  let l := e.posted &&& e.pending
  match Tab.find s.posts (s.evtTarget g) with
  | some (q, p, _) => if q = g ∧ s.cclk < p + d then l ^^^ (l &&& e.fresh) else l
  | none => l

/-- The groups of target `t` with posted sources that show `d` cycles after their post (R420). -/
def State.postedTo (s : State) (t d : Nat) : List Nat := (List.range 32).filter fun g => s.evtTarget g == t && s.shownOf g d != 0

/-- The levels of evt_irq_o: 0 while a rail is absent or EVT_CTL.DISABLE is 1, held in Dusk, else as the posted sources give
(R407, R420, R423, R424). -/
def State.irqLines (s : State) : Nat :=
  if s.power.rails ≠ 0x1F ∨ s.power.st = 4 then 0
  else if s.power.st = 2 ∨ s.power.st = 3 then s.irq
  else if s.rd R.EVT_CTL_DISABLE = 1 then 0
  else (List.range 8).foldl (fun l t => if (s.postedTo t 3).isEmpty then l else l ||| 2 ^ t) 0

/-! ### Refusal of a register write (R451) -/

/-- A write to address `a` by target `tgt` is refused with CFG_BUSY. -/
def State.cfgBusy (s : State) (a tgt : Nat) : State :=
  let s := (s.raisePriv tgt 1).count { ev := 0x008 }
  let s := (s.setBit R.GLB_STATUS_CFG_BUSY 0 0).bump R.GLB_BUSY_CNT_COUNT 0 0 1
  if s.rd R.GLB_BUSY_FIRST_VALID = 1 then s
  else
    ((s.wr R.GLB_BUSY_FIRST_ADDR 0 0 (a / 4 * 4)).wr R.GLB_BUSY_FIRST_TARGET 0 0 (tgt % 8)).wr R.GLB_BUSY_FIRST_VALID 0 0 1

/-- Refuse if `b`. -/
def State.busyIf (s : State) (b : Bool) (a tgt : Nat) : State := if b then s.cfgBusy a tgt else s

/-! ### Tick-class writes (R64, R447) -/

/-- A table with the entries of another written over it. -/
def Tab.over {α : Type} (t w : Tab α) : Tab α := w.foldl (fun t e => Tab.insert e.1 e.2 t) t

/-- A Tick-class write of this cycle: it reaches the next tick that is not this cycle's own (R64). -/
def State.pendTick (s : State) (k v : Nat) : State := { s with now := { s.now with pend := Tab.insert k v s.now.pend } }

/-- Every pending Tick-class register write, those of this cycle included. -/
def State.pendAll (s : State) : Tab Nat := Tab.over s.pend s.now.pend

/-- Every pending write of a flow context, those of this cycle included. -/
def State.flowPendAll (s : State) : Tab Flow := Tab.over s.traffic.flowPend s.now.flows

/-- The gate sequencers after the entries `l` have taken over at the end of cycle `c` (R52). -/
def turnGates (c : Nat) (l : Tab Nat) (t : Tab Gate) : Tab Gate :=
  l.foldl (fun t e => Tab.insert e.1 { Tab.get {} t e.1 with entry := e.2, entStart := c } t) t

/-- The cclk cycle ends: what was written in it now waits for the next tick (R61, R64, R103), its event bits may be cleared (R16), and the next gate
entries take over (R52). -/
def State.newCycle (s : State) : State :=
  { s with
    pend := s.pendAll
    traffic := { s.traffic with flowPend := s.flowPendAll }
    tick := { s.tick with seed := s.now.seed.or s.tick.seed }
    gates := turnGates s.cclk s.now.turns s.gates
    bitsNow := []
    now := {} }

/-! ### Squall -/

/-- Squall locks: every Squall field returns to its reset value and armed injections are disarmed (R464). -/
def State.squallLock (s : State) : State :=
  { s with
    regs := s.regs.filter fun e => decide (e.1 / 2 ^ 20 < R.TEST_KEY_KEY.ix ∨ R.SQ_LINJ_COUNT.ix < e.1 / 2 ^ 20)
    squall := {} }

/-! ### Channels, ports and groups of the build and of the configuration -/

/-- C of R2. -/
def State.C (s : State) : Nat := s.build.channels
/-- G of R2. -/
def State.G (s : State) : Nat := s.build.groups

/-- The configuration's CHANNEL record of a channel: the channel is present (R78). -/
def State.chanRec (s : State) (ch : Nat) : Option ChanRec :=
  match s.conf with
  | none => none
  | some i => i.chans.find? fun r => r.ch == ch

/-- Whether a channel is present. -/
def State.chPresent (s : State) (ch : Nat) : Bool := (s.chanRec ch).isSome

/-- The first waiting CREATE of each pool of the configuration that `f` names is due for another try (R191). -/
def State.retryDue (s : State) (f : PoolRec → Bool) : State :=
  match s.conf with
  | none => s
  | some i =>
    let l := ((i.pools.filter f).map (·.pool)).filter fun n => !s.sm.due.contains n
    { s with sm := { s.sm with due := s.sm.due ++ l } }

/-! ### Words out of lists -/

/-- The first `n` numbers of a list, padded with zeros. -/
def padTo (n : Nat) (l : List Nat) : List Nat := (List.range n).map fun k => l.getD k 0

/-- The higher-ranked of two part results (R129). -/
def worse (a b : Nat) : Nat :=
  let rank (c : Nat) : Nat := if c = 2 then 3 else if c = 3 then 2 else if c = 1 then 1 else 0
  if rank a < rank b then b else a

end Sys2Proof.Machine
end

