-- ==== Sys2Proof/Machine/Seq.lean ====
section
/-! DEFINITION. Starting a Dawn sequence, losing a channel's contents, and the wake latches: what several families of commands do
to a channel and to the power controller. -/

namespace Sys2Proof.Machine
open Sys2Proof

/-- PHY_STATUS.STATE of a channel that never trained, is in service, is out of service (R359); 1 to 4 name the sequence running. -/
def svcNever : Nat := 0
def svcIn : Nat := 5
def svcOut : Nat := 6

/-- The steps of a sequence, by its KIND: 1 cold Dawn, 2 warm Dawn, 3 short retrain, 4 recovery (R343). -/
def seqSteps (kind : Nat) : List Nat :=
  match kind with
  | 1 => [1, 2, 3, 4, 5, 6, 7, 8, 9, 12, 13, 15]
  | 2 => [4, 14, 2, 3, 5, 7, 10, 11, 12, 15]
  | 3 => [14, 7, 10, 12, 15]
  | 4 => [3, 5, 6, 7, 8, 9, 12, 15]
  | _ => []

/-- The step after `step` in a list of steps. -/
def nextStep : List Nat → Nat → Option Nat
  | [], _ => none
  | [_], _ => none
  | a :: b :: t, step => if a = step then some b else nextStep (b :: t) step

/-- Whether the channel is in service. -/
def State.inService (s : State) (ch : Nat) : Bool := (s.chan ch).svc == svcIn && !(s.chan ch).retired

/-- Whether the channel is out of service (the condition CH_OUT_OF_SERVICE): it went out and has not come back into service, though a cold Dawn may run
(R348). -/
def State.outOfService (s : State) (ch : Nat) : Bool := (s.chan ch).out && !(s.chan ch).retired

/-- Whether a sequence runs on the channel, or a warm Dawn waits for its self-refresh (R343, R347). -/
def State.seqRuns (s : State) (ch : Nat) : Bool := (s.chan ch).seq != 0 || (s.chan ch).warm.isSome

/-- Whether the retained training state is valid: its tag must match the channel's CHANNEL record (R350). -/
def State.retainedOk (s : State) (ch : Nat) : Bool :=
  let t := (s.chan ch).retainedSt
  match s.chanRec ch with
  | none => t.valid
  | some r =>
    t.valid && t.ck == r.ck && t.ranks == r.ranks && t.density == r.density && t.mr5 == r.mr5 && t.mr6 == r.mr6 && t.mr8 == r.mr8

/-- The contents of a channel become undefined: nothing that was written to it is kept (R344). -/
def State.loseContents (s : State) (ch : Nat) : State :=
  let s := { s with mem := s.mem.filter fun c => c.1 / 2 ^ 34 != ch }
  s.setChan ch { s.chan ch with memGen := (s.chan ch).memGen + 1 }

/-- The DRAM-side state of a channel whose dies are reset or run a sequence: every bank precharged, with its rolling activation count (R330), no
power-down, no oscillator run, WCK to be synchronised. -/
def Chan.rested (c : Chan) : Chan :=
  { c with
    banks := c.banks.map fun e => (e.1, { raa := e.2.raa })
    ranks := c.ranks.map fun e => (e.1, { e.2 with pd := false, acts := [], needWck := true, oscStep := 0, driftAt := none })
    dir := false, drain := false, mrrAt := [] }

/-! ### Training state (R340, R350, R351) -/

/-- Bits of a rank that are trained: DQ[15:0] and DMI[1:0]. -/
def trainBits : Nat := 18

/-- Values that the training state holds for each rank. -/
def trainLen : Nat := 55

/-- The trained settings in force on rank `r`, as the training state holds them: CA, CS and Vref settings and WCK phases, the read and write delay of each
bit, the oscillator baselines, and the corrections applied since (R350). -/
def State.rankVals (s : State) (ch r : Nat) : List Int :=
  let x := s.chan ch
  let k := Tab.get ({} : Rank) x.ranks r
  ((List.range 15).map fun i => Int.ofNat (Tab.get 0 x.trained (16 * r + i))) ++
    ((List.range trainBits).map fun b => Int.ofNat (s.rd R.PHY_EYE_RD_DELAY ch (r * 32 + b))) ++
    ((List.range trainBits).map fun b => Int.ofNat (s.rd R.PHY_EYE_WR_DELAY ch (r * 32 + b))) ++
    [Int.ofNat (s.rd R.PHY_OSC_I_BASE ch r), Int.ofNat (s.rd R.PHY_OSC_O_BASE ch r), k.wrDone, k.rdDone]

/-- RANKS of the channel's record. -/
def State.recRanks (s : State) (ch : Nat) : Nat := ((s.chanRec ch).map (·.ranks)).getD 0

/-- The trained settings in force on a channel. -/
def State.trainedVals (s : State) (ch : Nat) : List Int := (List.range (s.recRanks ch)).flatMap (s.rankVals ch)

/-- Put the settings of a training state in force on rank `r`. -/
def State.loadRank (ch : Nat) (vals : List Int) (s : State) (r : Nat) : State :=
  let v (i : Nat) : Int := vals.getD (trainLen * r + i) 0
  let s := (List.range trainBits).foldl (fun (s : State) b =>
    (s.wr R.PHY_EYE_RD_DELAY ch (r * 32 + b) (v (15 + b)).toNat).wr R.PHY_EYE_WR_DELAY ch (r * 32 + b) (v (15 + trainBits + b)).toNat) s
  let s := (s.wr R.PHY_OSC_I_BASE ch r (v 51).toNat).wr R.PHY_OSC_O_BASE ch r (v 52).toNat
  let x := s.chan ch
  s.setChan ch { x with
    trained := (List.range 15).foldl (fun (t : Tab Nat) i => Tab.insert (16 * r + i) (v i).toNat t) x.trained
    ranks := Tab.insert r { Tab.get ({} : Rank) x.ranks r with wrDone := v 53, rdDone := v 54, wrPend := 0, rdOsc := 0, rdPend := [] } x.ranks }

/-- A warm Dawn or a short retrain starts from the retained training state (R343, R351). -/
def State.loadTrained (s : State) (ch : Nat) : State :=
  (List.range (s.recRanks ch)).foldl (State.loadRank ch (s.chan ch).retainedSt.vals) s

/-- The drive and termination settings of PHY_DRV (R340). -/
def State.drvNow (s : State) (ch : Nat) : List Nat :=
  [s.rd R.PHY_DRV_DQ_ODT ch, s.rd R.PHY_DRV_CA_ODT ch, s.rd R.PHY_DRV_PDDS ch, s.rd R.PHY_DRV_SOC_ODT ch, s.rd R.PHY_DRV_SOC_DRV ch]

/-- A sequence that runs ends, whatever its outcome: PHY_DAWN_TIME takes its length and its KIND (R343, R359). -/
def State.seqEnd (s : State) (ch : Nat) : State :=
  let x := s.chan ch
  if x.seq = 0 then s else (s.wr R.PHY_DAWN_TIME_TIME ch 0 x.us).wr R.PHY_DAWN_TIME_KIND ch 0 x.seq

/-- Set every rank's debt to 0; the REFpb rotation starts again (R326). -/
def Chan.clearDebt (x : Chan) : Chan := { x with ranks := x.ranks.map fun e => (e.1, { e.2 with debt := 0, rot := 0 }) }

/-- chclk of a channel is held in reset: until step CLOCK of a Dawn, and again once the channel is Retired or loses a supply of its PHY (R409). -/
def State.holdChclk (s : State) (chs : List Nat) : State :=
  { s with power := { s.power with domains := sortNat ((s.power.domains.filter fun d => !(chs.map (· + 12)).contains d) ++ chs.map (· + 12)) } }

/-- chclk of a channel is released (R409). -/
def State.freeChclk (s : State) (ch : Nat) : State :=
  { s with power := { s.power with domains := s.power.domains.filter fun d => d != 12 + ch } }

/-- An input of the run-time capacity test changes: the test starts, or starts again (R302), and the restoration hold starts again. The outcome of a test
that has completed stays due. -/
def State.testInput (s : State) : State :=
  if s.conf.isNone then s
  else { s with traffic := { s.traffic with testing := true, testFrom := s.cclk, hold := 0 } }

/-- Start sequence `kind` on channel `ch`. A warm Dawn or a short retrain that finds no valid retained state is a cold Dawn instead, and
an interrupted cold Dawn is followed by a cold Dawn (R344, R347). A cold Dawn destroys the contents; a full image's, and one whose reset takes the dies
out of self-refresh, sets the refresh debts to 0 (R326). A sequence uses the settings of PHY_DRV as it starts (R340). A channel that leaves service
by it is an input of the run-time capacity test (R302). -/
def State.startSeq (s : State) (ch kind : Nat) (tgt : Option Nat) (full : Bool) : State :=
  let c := s.chan ch
  let k := if (kind = 2 ∨ kind = 3) ∧ (s.retainedOk ch = false ∨ c.wasCold = true) then 1 else kind
  let s := if s.inService ch then s.testInput else s
  let s := s.seqEnd ch
  let s := if k = 1 then s.loseContents ch else s
  let s := if k = 2 ∨ k = 3 then s.loadTrained ch else s
  let c := (s.chan ch).rested
  let c := if full = true ∨ (k = 1 ∧ 2 ≤ c.pwr) then c.clearDebt else c
  s.setChan ch
    { c with
      svc := k, seq := k, step := (seqSteps k).headD 0, tries := 0, us := 0, seqTgt := tgt, drv := s.drvNow ch
      fullImg := full, wasCold := k == 1, pwr := 0, retired := false, warm := none, out := c.out && !full }

/-- Whether PWR_WAKE_EN enables wake source `src` (R401). -/
def State.wakeEn (s : State) (src : Nat) : Bool := bit (s.rd R.PWR_WAKE_EN_EN) src

/-- Whether the write-backs that Dusk asks for have reached the channels: step 3 of R398 is over. -/
def State.flushed (s : State) : Bool :=
  s.power.prepared && s.subs.isEmpty && s.hdrWait.isEmpty && (s.enc.all fun e => e.2.isEmpty) && (s.dec.all fun e => e.2.isEmpty) &&
    s.chans.all fun e => e.2.cq.isEmpty && e.2.fly.isEmpty

/-- Step 3 of R398 ends with the header cache invalidated. -/
def State.endFlush (s : State) : State := if s.flushed then { s with hdrs := [] } else s

/-- Entry into Dusk aborts: PWR_WAKE_CAUSE records the latches, SLEEP_ABORTED is raised to the requester, channels that entered
self-refresh or deep sleep leave it, and the device returns to Run once they are back (R399). -/
def State.abortDusk (s : State) : State :=
  let s := s.endFlush
  let s := (s.wr R.PWR_WAKE_CAUSE_CAUSE 0 0 s.power.latches).wr R.PWR_WAKE_CAUSE_ABORT 0 0 1
  let s := (s.setBit R.PWR_STATUS_SLEEP_ABORTED 0 0).raisePriv s.power.duskTgt 10
  let chans := s.power.duskChans
  let s := chans.foldl (fun s ch => s.startSeq ch 3 none false) s
  { s with power := { s.power with
      aborting := !chans.isEmpty, st := if chans.isEmpty then 0 else 1
      prepared := false, latches := if chans.isEmpty then 0 else s.power.latches } }

/-- The channels in service whose dies are in self-refresh or deep sleep. -/
def State.sleeping (s : State) : List Nat := (List.range s.C).filter fun ch => s.inService ch && decide (2 ≤ (s.chan ch).pwr)

/-- Every rail is good and the device is Waking: the PLL of each channel in self-refresh or deep sleep locks, and one that Dusk placed there starts its
short retrain; one that REQ placed there stays (R394). With VDD_CORE lost, a channel in service without valid retained state ends the restore
instead (R402, R403). -/
def State.startWake (s : State) : State :=
  if s.power.st ≠ 3 ∨ s.power.rails ≠ 0x1F then s
  else if s.power.coreGone && s.sleeping.any fun ch => !s.retainedOk ch then
    { s with power := { s.power with abandon := true, duskChans := [] } }
  else
    let s := s.sleeping.foldl State.freeChclk s
    s.power.duskChans.foldl (fun s ch => s.startSeq ch 3 none false) s

/-- The wake sources of mask `m` show an edge in one cycle, `n` aonclk cycles after cycle S (R399, R401, R402): the latches of the enabled ones
set where the device is entering Dusk or in it. An entry aborts; in Dusk, evt_dusk_o falls, PWR_DUSK_TIME is taken and the device is
Waking. In Run, and for a disabled source, nothing is latched. -/
def State.latchMask (s : State) (m n : Nat) : State :=
  let e := m &&& s.rd R.PWR_WAKE_EN_EN
  if e = 0 then s
  else if s.power.st = 1 then
    let s := { s with power := { s.power with latches := s.power.latches ||| e } }
    if s.power.aborting then s.wr R.PWR_WAKE_CAUSE_CAUSE 0 0 s.power.latches else s.abortDusk
  else if s.power.st = 2 then
    let s := s.wr R.PWR_DUSK_TIME_TIME 0 0 (min (n / 1024) 0xFFFFFFFF)
    ({ s with power := { s.power with latches := s.power.latches ||| e, st := 3, evtDusk := false } }).startWake
  else s

/-- Wake source `src` shows an edge that a command other than WAKE_LATCH makes. In Dusk such a command does not say how many aonclk cycles have
passed since S, so the time that PWR_DUSK_TIME takes is a free value (log entry 157). -/
def State.latchWake (s : State) (src : Nat) : State :=
  if s.power.st = 1 then s.latchMask (2 ^ src) 0
  else if s.power.st = 2 then s.fresh.2.latchMask (2 ^ src) (Config.duskCycles s.fresh.1)
  else s

/-! ### The end of a load, and a channel partial image -/

/-- A load ends: the loader returns to IDLE, RESULT and the error registers are set, and IMG_DONE or IMG_FAIL goes to the target that wrote
START (R92, R97, R416). `e.code` 0 is OK. -/
def State.imgEnd (s : State) (e : ImgErr) : State :=
  let t := s.loader.tgt
  let s := { s with loader := { st := 0, tgt := t } }
  let s := ((s.wr R.IMG_STATUS_RESULT 0 0 e.code).wr R.IMG_ERR_OFFSET_OFFSET 0 0 e.off).wr R.IMG_ERR_DETAIL_REC_TYPE 0 0 e.recType
  let s := ((s.wr R.IMG_ERR_DETAIL_FIELD 0 0 e.field).wr R.IMG_ERR_DETAIL_WINDOW 0 0 e.window).wr R.IMG_ERR_DETAIL_CHANNEL 0 0 e.channel
  let s := s.wr R.IMG_ERR_DETAIL_DOMAIN 0 0 e.domain
  if e.code = 0 then ((s.setBit R.IMG_STATUS_IMG_DONE 0 0).raisePriv t 2).count { ev := 0x006 }
  else (s.setBit R.IMG_STATUS_IMG_FAIL 0 0).raisePriv t 3

/-- Whether a repair runs on channel `ch`: a partial image of it waits for the end of the repair (R380). -/
def State.repairing (s : State) (ch : Nat) : Bool := decide (2 ≤ s.integ.pprSt) && s.integ.pprCh == ch

/-- Whether the loader is applying a partial image of channel `ch` whose values have not yet taken effect and may take effect now. -/
def State.chanImgWaits (s : State) (ch : Nat) : Bool :=
  s.loader.st == 6 && !s.loader.applied && (s.chan ch).imgHold && !s.repairing ch

/-- Replace the record of one channel in the configuration. -/
def putChan (c : ChanRec) (l : List ChanRec) : List ChanRec := l.map fun r => if r.ch = c.ch then c else r

/-- The DRAM_TIMING values of a record go to CH_TIMING (R79, R336). -/
def State.putTiming (s : State) (t : TimRec) : State :=
  t.params.foldl (fun (s : State) (e : Nat × Nat) => s.wr R.CH_TIMING_VALUE t.ch e.1 e.2) s

/-- The CHANNEL and DRAM_TIMING values of a channel partial image take effect. The Bool says that the channel needs a cold Dawn: its clock,
ranks, density or mode registers changed (R105). -/
def State.takeChanImage (s : State) (ch : Nat) : State × Bool :=
  match s.loader.img, s.conf with
  | some img, some cf =>
    let old := s.chanRec ch
    let s := { s with
      conf := some { cf with
        chans := img.chans.foldl (fun (l : List ChanRec) (c : ChanRec) => putChan c l) cf.chans
        tims := img.tims.foldl (fun (l : List TimRec) (t : TimRec) => (l.filter fun u => u.ch != t.ch) ++ [t]) cf.tims }
      loader := { s.loader with applied := true } }
    let s := (img.tims.foldl (fun (s : State) (t : TimRec) => s.putTiming t) s).wr R.IMG_ACTIVE_CRC_CRC 0 0 img.crc
    let new := s.chanRec ch
    let f (r : ChanRec) : List Nat := [r.ck, r.ranks, r.density, r.mr5, r.mr6, r.mr8]
    (s, old.map f != new.map f)
  | _, _ => (s, false)

/-- A channel partial image applies to its quiesced channel and starts its Dawn: an interrupted cold Dawn is followed by a cold one
(R105, R347). -/
def State.applyChanImage (s : State) (ch : Nat) : State :=
  let r := s.takeChanImage ch
  r.1.startSeq ch (if r.2 then 1 else 2) none false

/-- A channel that a partial image owns, its values in effect, resumes: its queues issue again and the load ends with OK (R105). -/
def State.resumeChanImage (s : State) (ch : Nat) : State :=
  if (s.chan ch).imgHold = true ∧ s.loader.applied = true then
    (s.setChan ch { s.chan ch with imgHold := false, imgStop := false }).imgEnd { code := 0 }
  else s

end Sys2Proof.Machine
end

