-- ==== Sys2Proof/Machine/Gates.lean ====
section
/-! DEFINITION. Gate lists: the mask in force, the remaining open time of R55, arming, the swap at a tick. -/

namespace Sys2Proof.Machine
open Sys2Proof

/-- Entry `n` of a gate list. -/
def GateList.ent (l : GateList) (n : Nat) : GateEntry := Tab.get {} l.ents n

/-- The indices of the entries that run: those in use with a DURATION that is not 0 (R50). -/
def GateList.running (l : GateList) : List Nat := (List.range l.len).filter fun n => (l.ent n).dur != 0

/-- The closing entry: the last in use with a DURATION that is not 0 (R50). -/
def GateList.closing (l : GateList) : Option Nat := l.running.getLast?

/-- The first entry that runs. -/
def GateList.first (l : GateList) : Nat := l.running.headD 0

/-- The entry that takes over from entry `n`, if one does. -/
def GateList.after (l : GateList) (n : Nat) : Option Nat := l.running.find? fun m => decide (n < m)

/-- The programmed length of a list in cclk cycles, S of R54. -/
def GateList.total (l : GateList) : Nat := (l.running.map fun n => (l.ent n).dur * 64).sum

/-- The mask that governs issue in domain `d`: every class and maintenance while the sequencer does not run (R49, R52). -/
def State.gateMask (s : State) (d : Nat) : Nat :=
  let g := s.gate d
  if g.running then (g.active.ent g.entry).mask else 0x1FFFF

/-- The number the next accepted tick gives EPOCH (R45, R46). -/
def State.nextEpoch (s : State) : Nat := s.tick.seed.getD ((s.tick.epoch + 1) % 2 ^ 64)

/-- Whether an armed shadow becomes active at a tick that makes EPOCH `e` (R59, R60). -/
def Gate.dueAt (g : Gate) (e : Nat) : Bool := g.armed && (g.late || g.act == e % 2 ^ 32)

/-- The list of domain `d` that will be active after the next tick. -/
def State.listAfterTick (s : State) (d : Nat) : GateList :=
  let g := s.gate d
  if g.dueAt s.nextEpoch then g.shadow else g.active

/-- How long bit `b` stays open along the entries `ns` of a list, and whether it is still open after the last of them. -/
def openRun (l : GateList) (b : Nat) : List Nat → Nat × Bool
  | [] => (0, true)
  | n :: t =>
    if bit (l.ent n).mask b then
      let r := openRun l b t
      ((l.ent n).dur * 64 + r.1, r.2)
    else (0, false)

/-- The remaining open time of mask bit `b` in domain `d` at the current cycle; `none` when nothing ends it (R55). Once the predicted tick has passed
with no tick accepted, no time is left in the active list, and the run goes on from entry 0 of the next. -/
def State.openLeft (s : State) (d b : Nat) : Option Nat :=
  let g := s.gate d
  if g.running = false then none
  else if bit (g.active.ent g.entry).mask b = false then some 0
  else
    let endAt := g.entStart + (g.active.ent g.entry).dur * 64
    let cur := endAt - s.cclk
    let rest := openRun g.active b (g.active.running.filter fun n => decide (g.entry < n))
    let tickAt := s.tick.lastC + s.tick.ic
    if rest.2 = false ∧ s.cclk < tickAt then some (cur + rest.1)
    else
      let next := s.listAfterTick d
      let r := openRun next b next.running
      if r.2 then none else some ((tickAt - s.cclk) + r.1)

/-- The cycle in which bit `b` of the mask in force last opened in domain `d`, within the epoch in progress. -/
def State.openSince (s : State) (d b : Nat) : Nat :=
  let g := s.gate d
  if g.running = false then s.tick.lastC
  else
    let before := (g.active.running.filter fun n => decide (n < g.entry)).reverse.takeWhile fun n => bit (g.active.ent n).mask b
    g.entStart - (before.map fun n => (g.active.ent n).dur * 64).sum

/-- Whether the guard of class `c` holds the class back in domain `d` (R55). -/
def State.guardHolds (s : State) (d c : Nat) : Bool :=
  let g := s.rd R.GATE_GUARD_GUARD c
  if g = 0 then false
  else match s.openLeft d c with
    | none => false
    | some n => decide (n < g)

/-- Start the active list at its first entry at tick cycle `c` (R52). -/
def Gate.restart (g : Gate) (c : Nat) : Gate :=
  { g with running := true, entry := g.active.first, start := c, entStart := c, extended := false }

/-- Whether a tick at cycle `c` truncates the list (R54). -/
def Gate.truncatedBy (g : Gate) (c : Nat) : Bool := g.running && decide (c < g.start + g.active.total)

/-- The active and the shadow list exchange roles (R60). -/
def Gate.swap (g : Gate) (e : Nat) : Gate :=
  { g with active := g.shadow, shadow := g.active, armed := false, late := false, swapEpoch := e % 2 ^ 32 }

/-- d of R59: how far ahead the armed epoch lies of epoch `e`. -/
def Gate.ahead (g : Gate) (e : Nat) : Nat := (g.act + 2 ^ 32 - e % 2 ^ 32) % 2 ^ 32

/-- Whether the armed epoch has already begun in epoch `e` (R59). -/
def Gate.isLate (g : Gate) (e : Nat) : Bool := g.ahead e == 0 || decide (2 ^ 31 ≤ g.ahead e)

/-- Raise an event of domain `d`: its event bit in GATE_STATUS and the domain's source (R44, R415). -/
def State.raiseGate (s : State) (f : Fld) (d : Nat) : State := (s.setBit f d 0).raise 0 (8 + d)

/-- Test an armed shadow of domain `d` against the epoch in progress: a late one becomes due at the next tick and raises GATE_LATE
(R46, R59). What that sets is noted, for a tick of the cycle to test against its own epoch (R61). -/
def State.armTest (s : State) (d : Nat) : State :=
  let g := s.gate d
  if g.isLate s.tick.epoch then
    let was := (s.rd R.GATE_STATUS_GATE_LATE d == 1, bit (s.evt 0).pending (8 + d))
    let s := { s with now := { s.now with late := Tab.insert d ((Tab.find s.now.late d).getD was) s.now.late } }
    (s.setGate d { g with late := true, lateEpoch := s.tick.epoch % 2 ^ 32 }).raiseGate R.GATE_STATUS_GATE_LATE d
  else s

/-- Take back the GATE_LATE of an ARM in the tick cycle, which R61 tests against the new epoch number only: its event bit and its source are as they
were before. -/
def State.unraiseLate (s : State) (d : Nat) : State :=
  match Tab.find s.now.late d with
  | none => s
  | some (b, p) =>
    let e := s.evt 0
    let s := if b then s else s.wr R.GATE_STATUS_GATE_LATE d 0 0
    let s := if bit (s.rd R.EVT_GRP_EN_ENABLE 0) (8 + d) then s.setEvt 0 { e with raises := e.raises - 1 } else s
    if p then s else s.setEvt 0 { s.evt 0 with pending := (s.evt 0).pending ^^^ ((s.evt 0).pending &&& 2 ^ (8 + d)) }

/-- Keep the gate of domain `d` as it stood before the first write of its ARM in this cycle (R61, R62). -/
def State.noteGate (s : State) (d : Nat) : State :=
  if (Tab.find s.now.gates d).isSome then s else { s with now := { s.now with gates := Tab.insert d (s.gate d) s.now.gates } }

/-- A write of GATE_SHADOW_CTL: LEN under R58, then ARM under R50, R58, R59 and R62. The Bool says that a field was refused. -/
def State.shadowCtl (s : State) (d w : Nat) : State × Bool :=
  let g := s.gate d
  let len := bits w 0 9
  let same := len == g.shadow.len
  let lenBad := !same && (g.armed || len == 0 || decide (256 < len))
  let g1 := if same || lenBad then g else { g with shadow := { g.shadow with len := len } }
  if bit w 16 then
    if g.armed then (s.setGate d g1, lenBad)
    else if g1.shadow.running.isEmpty then (s.setGate d g1, true)
    else (((s.noteGate d).setGate d { g1 with armed := true }).armTest d, lenBad)
  else ((s.noteGate d).setGate d { g1 with armed := false, late := false }, lenBad)

/-- A write of GATE_ACT_EPOCH (R58). -/
def State.actEpochWrite (s : State) (d w : Nat) : State × Bool :=
  let g := s.gate d
  if w = g.act then (s, false)
  else if g.armed then (s, true)
  else (s.setGate d { g with act := w }, false)

/-- A write of a shadow entry's DURATION (`mask` false) or MASK (R58). -/
def State.shadowEntWrite (s : State) (d n w : Nat) (mask : Bool) : State × Bool :=
  let g := s.gate d
  let e := g.shadow.ent n
  let e' : GateEntry := if mask then { e with mask := bits w 0 17 } else { e with dur := bits w 0 20 }
  if e' = e then (s, false)
  else if g.armed then (s, true)
  else (s.setGate d { g with shadow := { g.shadow with ents := Tab.insert n e' g.shadow.ents } }, false)

end Sys2Proof.Machine
end

