-- ==== Sys2Proof/Machine/Codec.lean ====
section
/-! DEFINITION. The byte code of GUARDED data (R363 to R365) and the Cirrus cell code: headers, the raw packing, PRED, the CRC-16
(R211 to R223). -/

namespace Sys2Proof.Machine
open Sys2Proof

/-! ### The byte code -/

/-- COL of R363. -/
def checkCols : List Nat := [0x39, 0x72, 0xE4, 0xF1, 0xDB, 0x8F, 0x27, 0x4E]

/-- The check byte of a data byte (R363). -/
def checkByte (d : Byte) : Byte :=
  BitVec.ofNat 8 ((List.range 8).foldl (fun c i => if bit d.toNat i then c ^^^ checkCols.getD i 0 else c) 0)

/-- The check byte of a byte in poisoned form (R365). -/
def poisonCheck (d : Byte) : Byte := checkByte d ^^^ 0xFF

/-- The syndrome of an error in bit `n` of the 16: data bits 0 to 7, check bits 8 to 15 (R364). -/
def bitSyn (n : Nat) : Nat := if n < 8 then checkCols.getD n 0 else 2 ^ (n - 8)

/-- The patterns of one or two bit errors, as 16-bit masks. -/
def errPatterns : List (List Nat) :=
  (List.range 16).map (fun i => [i]) ++ (List.range 16).flatMap fun i => (List.range i).map fun j => [i, j]

/-- The pattern a syndrome names, if it is correctable (R364). -/
def patternOf (syn : Nat) : Option (List Nat) := errPatterns.find? fun p => p.foldl (fun c n => c ^^^ bitSyn n) 0 == syn

/-- A stored pair as the engine reads it: 0 clean, 1 corrected, 2 uncorrectable, and the data byte returned (R364, R366). -/
def decodePair (d c : Byte) : Nat × Byte :=
  let syn := (c ^^^ checkByte d).toNat
  if syn = 0 then (0, d)
  else
    match patternOf syn with
    | none => (2, d)
    | some p => (1, BitVec.ofNat 8 (p.foldl (fun v n => if n < 8 then v ^^^ 2 ^ n else v) d.toNat))

/-! ### Bit strings -/

/-- The `w` low bits of `v`, most significant first (R218). -/
def putBits (v w : Nat) : List Bool := (List.range w).map fun i => bit v (w - 1 - i)

/-- The number of a string of bits. -/
def ofBits (l : List Bool) : Nat := l.foldl (fun v b => 2 * v + b2n b) 0

/-- Bytes of a bit string of `n` bytes, padded with 0 bits. -/
def packBytes : Nat → List Bool → List Byte
  | 0, _ => []
  | n + 1, l => BitVec.ofNat 8 (ofBits ((l ++ List.replicate 8 false).take 8)) :: packBytes n (l.drop 8)

/-- The bit string of bytes. -/
def unpackBytes (l : List Byte) : List Bool := l.flatMap fun b => putBits b.toNat 8

/-- Read `w` bits. -/
def takeBits (w : Nat) (l : List Bool) : Option (Nat × List Bool) :=
  if l.length < w then none else some (ofBits (l.take w), l.drop w)

/-- Count up to `n` one bits; a zero bit that ends the count is taken. -/
def takeOnes : Nat → List Bool → Option (Nat × List Bool)
  | 0, l => some (0, l)
  | _ + 1, [] => none
  | _ + 1, false :: t => some (0, t)
  | n + 1, true :: t =>
    match takeOnes n t with
    | none => none
    | some (q, l) => some (q + 1, l)

/-! ### CRC-16 -/

/-- One bit of the CRC-16 (R223). -/
def crc16Bit (c : Nat) : Nat := if 0x8000 ≤ c then (c * 2 ^^^ 0x1021) % 0x10000 else c * 2 % 0x10000

/-- One byte of the CRC-16. -/
def crc16Byte (c b : Nat) : Nat :=
  crc16Bit (crc16Bit (crc16Bit (crc16Bit (crc16Bit (crc16Bit (crc16Bit (crc16Bit (c ^^^ b * 256))))))))

/-- The CRC-16 of a cell's samples (R223). -/
def crc16 (l : List Nat) : Nat := l.foldl (fun c v => crc16Byte (crc16Byte c (v / 256 % 256)) (v % 256)) 0xFFFF

/-! ### Headers -/

/-- MODE of a header (R215). -/
def hdrMode (h : Nat) : Nat := bits h 5 3
/-- GCNT of a header. -/
def hdrGcnt (h : Nat) : Nat := bits h 0 5
/-- CRC field of a header. -/
def hdrCrc (h : Nat) : Nat := bits h 16 16
/-- A header of its fields. -/
def mkHdr (mode gcnt crc : Nat) : Nat := gcnt + mode * 32 + crc * 65536
/-- The POISON header. -/
def hdrPoison : Nat := mkHdr 7 0 0

/-- Whether a header is invalid at depth `d` (R216, R217). -/
def hdrInvalid (d h : Nat) : Bool :=
  let m := hdrMode h
  let g := hdrGcnt h
  bits h 8 8 != 0 ||
  match m with
  | 0 => g != 0
  | 1 => g != 0 || decide (2 ^ d ≤ hdrCrc h)
  | 2 => decide (g < 2 ∨ d - 1 < g)
  | 3 => g != d
  | 7 => g != 0
  | _ => true

/-! ### Cells -/

/-- Bytes of a raw cell at depth `d` (R219). -/
def packRaw (d : Nat) (l : List Nat) : List Byte := packBytes (32 * d) (l.flatMap fun v => putBits v d)

/-- `n` values of `d` bits from a bit string. -/
def unpackVals (d : Nat) : Nat → List Bool → List Nat
  | 0, _ => []
  | n + 1, l => ofBits ((l ++ List.replicate d false).take d) :: unpackVals d n (l.drop d)

/-- Samples of a raw cell. -/
def unpackRaw (d : Nat) (l : List Byte) : List Nat := unpackVals d 256 (unpackBytes l)

/-- pred(n) of R221, from the samples before n, newest first. -/
def predict (d n : Nat) (r : List Nat) : Nat :=
  let a := r.getD 0 0
  let b := r.getD 31 0
  let c := r.getD 32 0
  if n = 0 then 2 ^ (d - 1)
  else if n < 32 then a
  else if n % 32 = 0 then b
  else if max a b ≤ c then min a b
  else if c ≤ min a b then max a b
  else a + b - c

/-- The mapped residuals m of the samples, given those before, newest first. -/
def residuals (d : Nat) : List Nat → Nat → List Nat → List Nat
  | [], _, _ => []
  | v :: t, n, r =>
    let p := predict d n r
    (if p ≤ v then 2 * (v - p) else 2 * (p - v) - 1) :: residuals d t (n + 1) (v :: r)

/-- len(m, k) of R221. -/
def codeLen (d m k : Nat) : Nat := if m / 2 ^ k < 16 then m / 2 ^ k + 1 + k else 16 + d

/-- The parameter of a group: the smallest k of least total length. -/
def bestK (d : Nat) (ms : List Nat) : Nat :=
  let cost (k : Nat) : Nat := (ms.map fun m => codeLen d m k).sum
  (List.range (min d 15 + 1)).foldl (fun b k => if cost k < cost b then k else b) 0

/-- The code of one sample. -/
def codeSample (d k m v : Nat) : List Bool :=
  let q := m / 2 ^ k
  if q < 16 then List.replicate q true ++ [false] ++ putBits (m % 2 ^ k) k
  else List.replicate 16 true ++ putBits v d

/-- The PRED bit string of a cell (R221). -/
def predBits (d : Nat) (l : List Nat) : List Bool :=
  let ms := residuals d l 0 []
  let ks := (List.range 32).map fun g => bestK d ((ms.drop (8 * g)).take 8)
  (ks.flatMap fun k => putBits k 4) ++
    (List.range 256).flatMap fun n => codeSample d (ks.getD (n / 8) 0) (ms.getD n 0) (l.getD n 0)

/-- The encoder (R220): header and payload of a cell of 256 samples. -/
def encodeCell (d : Nat) (l : List Nat) : Nat × List Byte :=
  let v := l.headD 0
  if l.all fun x => x == v then (mkHdr 1 0 v, [])
  else
    let b := predBits d l
    let g := (b.length + 255) / 256
    if g < d then (mkHdr 2 g (crc16 l), packBytes (32 * g) b) else (mkHdr 3 d (crc16 l), packRaw d l)

/-- How decoding ends: the samples, or a failure with its CAUSE of R238 (1 CRC mismatch, 2 OVERRUN, 3 RANGE). -/
inductive CellOut where
  | ok (samples : List Nat)
  | bad (cause : Nat)
deriving DecidableEq, Repr

/-- The samples of a PRED payload from sample `n` on (R222); `r` are those before, newest first, `ks` the k table. -/
def decodeFrom (d : Nat) (ks : List Nat) : Nat → Nat → List Nat → List Bool → CellOut
  | 0, _, r, _ => .ok r.reverse
  | f + 1, n, r, l =>
    let k := ks.getD (n / 8) 0
    match takeOnes 16 l with
    | none => .bad 2
    | some (q, l) =>
      if q = 16 then
        match takeBits d l with
        | none => .bad 2
        | some (v, l) => decodeFrom d ks f (n + 1) (v :: r) l
      else
        match takeBits k l with
        | none => .bad 2
        | some (m, l) =>
          let m := q * 2 ^ k + m
          let p := predict d n r
          let v : Int := if m % 2 = 0 then p + m / 2 else (p : Int) - (m + 1 : Nat) / 2
          if v < 0 ∨ (2 ^ d : Nat) ≤ v then .bad 3 else decodeFrom d ks f (n + 1) (v.toNat :: r) l

/-- Decode a PRED payload (R222). -/
def decodePred (d : Nat) (payload : List Byte) : CellOut :=
  let l := unpackBytes payload
  if l.length < 128 then .bad 2
  else
    let ks := (List.range 32).map fun g => ofBits ((l.drop (4 * g)).take 4)
    decodeFrom d ks 256 0 [] (l.drop 128)

/-- A PRED or RAW cell with its check (R223). -/
def decodeCell (d h : Nat) (payload : List Byte) : CellOut :=
  let out := if hdrMode h = 3 then .ok (unpackRaw d payload) else decodePred d payload
  match out with
  | .ok l => if crc16 l = hdrCrc h then .ok l else .bad 1
  | .bad c => .bad c

end Sys2Proof.Machine
end

