-- ==== Sys2Proof/Machine/Detect.lean ====
section
/-! DEFINITION. A detection enters the handling queue (R384). -/

namespace Sys2Proof.Machine
open Sys2Proof

/-- SEQ after `n`: it wraps from 2^32 - 1 to 1 (R385). -/
def seqAfter (n : Nat) : Nat := if n = 0xFFFFFFFF then 1 else n + 1

/-- A ring entry's 32 bytes (R385). -/
def Det.bytes (d : Det) : List Byte :=
  leBytes 4 d.seq ++ leBytes 4 d.epoch ++ leBytes 1 d.unit ++ leBytes 1 d.kind ++ leBytes 1 d.flags ++ leBytes 1 0 ++ leBytes 4 d.prior ++
    leBytes 8 d.loc ++ leBytes 4 d.detail ++ leBytes 2 d.init ++ leBytes 1 d.cls ++ leBytes 1 0

/-- A detection takes the next SEQ and joins the queue, nested if the queue is not empty; a full queue drops it and counts it (R384). -/
def State.detect (s : State) (d : Det) : State :=
  if 64 ≤ s.integ.queue.length then s.bump R.INT_HANDLE_DROP 0 0 1
  else
    let nested := !s.integ.queue.isEmpty
    let d := { d with
      seq := s.integ.seqNext, epoch := s.tick.epoch % 2 ^ 32
      again := (d.kind == 1 || d.kind == 2) && s.integ.queue.any fun e => (e.kind == 1 || e.kind == 2) && e.unit == d.unit && e.loc == d.loc
      flags := d.flags ||| b2n nested, prior := (s.integ.queue.map (·.seq)).headD 0 }
    { s with integ := { s.integ with queue := s.integ.queue ++ [d], seqNext := seqAfter s.integ.seqNext } }

end Sys2Proof.Machine
end

