-- ==== Sys2Proof/Machine/RegOps.lean ====
section
/-! DEFINITION. A register write, field by field (R9 to R13, R447 to R449, R487), and what the device state lets an access do (R400,
R407). -/

namespace Sys2Proof.Machine
open Sys2Proof

/-- Whether CH_QUIESCED holds (R334). -/
def State.chQuiesced (s : State) (ch : Nat) : Bool := (s.chan ch).quiesced

/-- Whether the PHY of a channel counts as quiesced: QUIESCED holds, or the channel is out of service or absent, and no partial image
owns it (R104, R359). -/
def State.phyQuiesced (s : State) (ch : Nat) : Bool :=
  (s.chQuiesced ch || s.outOfService ch || !s.chPresent ch) && !(s.chan ch).imgHold

/-- KIND of a port: 0 absent, 1 surface, 2 linear (R84). -/
def State.portKind (s : State) (p : Nat) : Nat := s.rd R.PORT_CFG_KIND (p / 8) (p % 8)

/-- Whether the block is powered, with its ports not isolated: every supply is good (R141, R142, R407). -/
def State.powered (s : State) : Bool := s.power.rails == 0x1F && s.power.st != 4

/-- sp_present_o or lp_present_o of a port (R141): after a loss of VDD_CORE in Dusk no full image is in force until the wake has restored it (R403). -/
def State.presence (s : State) (p : Nat) : Bool := (s.port p).present && s.powered && !s.power.coreGone

/-- Whether a link is frozen, by FREEZE or by a group partial image (R162). -/
def State.frozen (s : State) (g : Nat) : Bool := s.rd R.GRP_CTL_FREEZE g == 1 || (s.group g).frozenImg

/-- LREQ of a port in the cycle in progress: a beat of its queue has not crossed, or the last one crosses in this cycle (R148). -/
def State.lreq (s : State) (p : Nat) : Bool := !(s.port p).queue.isEmpty || decide (s.cclk < (s.port p).lreqTo)

/-- The port that holds the grant: a grant lasts to the first cycle in which its owner's LREQ is 0 (R149). -/
def State.ownerNow (s : State) (g : Nat) : Option Nat := (s.group g).owner.filter fun i => s.lreq (8 * g + i)

/-- The port whose request or holds an arrival at the surface manager concerns. -/
def SmItem.port (a : SmItem) : Option Nat :=
  match a.act with
  | .req p _ _ => some p
  | .release p => some p
  | .force _ => none

/-- Whether a request of port `p` as it is attached now stands at the surface manager: not yet applied, or waiting for space. -/
def State.inSm (s : State) (p : Nat) : Bool :=
  (s.sm.waits.any fun w => w.port == p) || s.sm.inbox.any fun a =>
    match a.act with
    | .req q g _ => q == p && g == (s.port p).gen
    | _ => false

/-- Whether no port of a group holds the grant and every request beat taken has been answered (R164). Requests of a force-detached port that still
run inside the engine are answered to no one and keep nothing waiting (DESIGN CHOICE, log entry 123). -/
def State.groupEmpty (s : State) (g : Nat) : Bool :=
  (s.ownerNow g).isNone && (List.range 8).all fun i =>
    let q := s.port (8 * g + i)
    q.queue.isEmpty && q.rsps.isEmpty && q.discard.isNone && !(s.waits.any fun w => w.port == 8 * g + i && w.pgen == q.gen) &&
      !s.inSm (8 * g + i)

/-- The condition DRAINED (R164). -/
def State.isDrained (s : State) (g : Nat) : Bool := s.frozen g && s.groupEmpty g

/-- Whether the owner of a Quiet-class field is quiesced (R448). `i`, `j` are the field's unit numbers. -/
def State.quietOk (s : State) (f : Fld) (i j : Nat) : Bool :=
  match f.own with
  | .none => true
  | .port => !(s.port (8 * i + j)).attached && !(s.group i).frozenImg
  | .group => s.isDrained i && !(s.group i).frozenImg
  | .chan => s.chQuiesced i && !(s.chan i).imgHold
  | .phy => s.phyQuiesced i
  | .evac => s.sm.move.kind != 1 && s.sm.start.kind != 1
  | .migrate => s.sm.move.kind != 2 && s.sm.start.kind != 2
  | .counters => s.rd R.PF_GRP_CTL_EN (if f.base < 0x41000 then i / 8 else i) == 0
  | .contrail => s.rd R.CTR_CTL_EN == 0

/-- The value a Tick-class field will hold after the next tick: the pending one, or the one in force. -/
def State.pendOr (s : State) (f : Fld) (i j : Nat) : Nat := (Tab.find s.pendAll (f.key i j)).getD (s.rd f i j)

/-- Width in bits of CH_TIMING_p.VALUE, by parameter code (R323). -/
def timingWidth (p : Nat) : Nat :=
  ([(0x01, 7), (0x02, 7), (0x03, 7), (0x04, 8), (0x05, 8), (0x06, 7), (0x07, 6), (0x08, 4), (0x09, 4), (0x0A, 6), (0x0B, 8), (0x0C, 8),
    (0x0D, 6), (0x0E, 6), (0x0F, 6), (0x10, 7), (0x11, 16), (0x12, 12), (0x13, 12), (0x14, 8), (0x15, 6), (0x16, 12), (0x17, 8), (0x18, 6),
    (0x19, 6), (0x1A, 5), (0x1B, 6), (0x1C, 6), (0x1D, 12), (0x1E, 7), (0x1F, 12), (0x20, 5), (0x21, 5), (0x22, 5), (0x23, 5),
    (0x24, 4)].find? fun (e : Nat × Nat) => e.1 == p).elim 16 (·.2)

/-- The range rules of the register tables: a value that breaks one is refused with CFG_BUSY (R447). -/
def State.rangeOk (s : State) (f : Fld) (i j v : Nat) : Bool :=
  if f = R.GRP_WATCHDOG_LIMIT then decide (1 ≤ v)
  else if f = R.GRP_REFILL_REFILL then decide (256 ≤ v ∧ v ≤ 1048576)
  else if f = R.SM_CTL_LOAD_EPOCHS then decide (1 ≤ v)
  else if f = R.HALO_CTL_PREFETCH_DEPTH then decide (v ≤ 8)
  else if f = R.HALO_CTL_LOCK_MAX then decide (v ≤ 56)
  else if f = R.HALO_INV_CTL_KIND then decide (v ≤ 2)
  else if f = R.TR_CTL_WINDOWS then decide (1 ≤ v ∧ v ≤ 16)
  else if f = R.TR_CTL_OVC_HOLD then decide (1 ≤ v)
  else if f = R.CLS_QUANTUM_QUANTUM then (if 4 ≤ i ∧ i ≤ 14 then decide (64 ≤ v ∧ v ≤ 1048576) else v == 0)
  else if f = R.CH_DIR_WR_HIGH then decide (1 ≤ v ∧ v ≤ 32)
  else if f = R.CH_DIR_WR_LOW then decide (v < s.pendOr R.CH_DIR_WR_HIGH i j)
  else if f = R.CH_REF_REF_URGENT then decide (1 ≤ v)
  else if f = R.CH_REF_REF_PULLIN then decide (v ≤ 8)
  else if f = R.CH_REF_MR4_PERIOD then decide (1 ≤ v)
  else if f = R.CH_TIMING_VALUE then decide (v < 2 ^ timingWidth j)
  else if f = R.PHY_DRV_SOC_DRV then decide (1 ≤ v)
  else if f = R.PHY_MAINT_ZQ_PERIOD then decide (1 ≤ v)
  else if f = R.PHY_DRIFT_CFG_EYE_THRESH then decide (1 ≤ v)
  else if f = R.INT_CTL_REMAP_CE_THRESH then decide (1 ≤ v)
  else if f = R.INT_SCRUB_CTL_PERIOD then decide (1 ≤ v ∧ v ≤ 720)
  else if f = R.CTR_CTL_K then decide (v ≤ 23)
  else if f = R.CH_PWR_REQ then decide (v ≤ 2)
  else if f = R.CH_PWR_DSM_EXIT then decide (1 ≤ v)
  else true

/-- Apply one field of a write of word `w` under the field's own class. `s0` is the state before the write, which decides Quiet fields
(R449). The Bool says that a field was refused. -/
def applySlot (s0 : State) (w : Nat) (sb : State × Bool) (x : Slot) : State × Bool :=
  let v := bits w x.f.lsb x.f.width
  if x.f.acc ≠ .rw ∨ x.f.present s0.build x.i = false then sb
  else
    match x.f.cls with
    | .tick =>
      if sb.1.rangeOk x.f x.i x.j v then (sb.1.pendTick (x.f.key x.i x.j) v, sb.2) else (sb.1, true)
    | .quiet =>
      if v = s0.rd x.f x.i x.j then sb
      else if s0.quietOk x.f x.i x.j && s0.rangeOk x.f x.i x.j v then (sb.1.wr x.f x.i x.j v, sb.2)
      else (sb.1, true)
    | .now => if s0.rangeOk x.f x.i x.j v then (sb.1.wr x.f x.i x.j v, sb.2) else (sb.1, true)
    | .none => sb

/-- Apply the fields of a register in ascending order. -/
def applySlots (s0 : State) (w : Nat) (xs : List Slot) : State × Bool := xs.foldl (applySlot s0 w) (s0, false)

/-- Whether a write of word `w` writes anything where its fields accept no write: a value that differs from the one the field holds, or a W1T bit of
`acts` that is set (R487). -/
def State.carries (s : State) (w : Nat) (xs : List Slot) (acts : List Nat) : Bool :=
  (xs.any fun x => x.f.acc == .rw && x.f.present s.build x.i && bits w x.f.lsb x.f.width != s.rd x.f x.i x.j) || acts.any fun n => bit w n

/-- An action a register write starts: it may refuse, which raises CFG_BUSY. -/
abbrev Act := State → State × Bool

/-- Run the actions of the W1T bits that a written word sets, in the order listed. -/
def runActs (w : Nat) (acts : List (Nat × Act)) (sb : State × Bool) : State × Bool :=
  acts.foldl (fun sb e => if bit w e.1 then let r := e.2 sb.1; (r.1, sb.2 || r.2) else sb) sb

/-- A write of word `w` to the register at address `a` by target `tgt`: its fields under their classes, then its actions, then
CFG_BUSY at most once (R13). -/
def State.writeReg (s : State) (xs : List Slot) (acts : List (Nat × Act)) (a w tgt : Nat) : State :=
  let r := runActs w acts (applySlots s w xs)
  r.1.busyIf r.2 a tgt

/-- Whether address `a` is a power register (R400). -/
def isPowerReg (a : Nat) : Bool := decide (0x800 ≤ a ∧ a ≤ 0x81F)

/-- Whether the register port answers at all: regclk and cclk are out of reset and the block is powered (R407, R409). Domains 0 and 1
of the reset sequencer are cclk and regclk. -/
def State.portUp (s : State) : Bool :=
  s.power.st != 4 && bit s.power.rails 0 && !s.power.domains.contains 0 && !s.power.domains.contains 1

/-- A register access made by the processor side, whose effect in Run is `k`. `hold` is what is kept of an access that waits for Run: whether
it writes, its address, word and target. In Dusk and while waking, an access outside the power registers waits for Run; in Dusk it is a wake
edge, or is answered at once without effect where REG is not enabled (R400). While the engine enters Dusk it is answered and is a wake
edge (R398). -/
def State.access (s : State) (hold : Bool × Nat × Word × Nat) (k : State → State) : State :=
  let a := hold.2.1
  if s.portUp = false then s
  else if isPowerReg a then k s
  else if s.power.st = 0 then k s
  else if s.power.st = 1 then k (s.latchWake 2)
  else if s.power.heldReg.isSome then s
  else if s.power.st = 3 then { s with power := { s.power with heldReg := some hold } }
  else if s.wakeEn 2 then ({ s with power := { s.power with heldReg := some hold } } : State).latchWake 2
  else
    let s := s.bump R.PWR_DUSK_ACCESS_COUNT 0 0 1
    if hold.1 then s else { s with rdata := 0 }

/-- A register write as it reaches the port: address, word, target and effect. -/
def State.regAccess (s : State) (a : Nat) (w : Word) (tgt : Nat) (k : Nat → State → State) : State :=
  s.access (true, a, w, tgt) (k w.toNat)

end Sys2Proof.Machine
end

