-- ==== Sys2Proof/Machine/Route.lean ====
section
/-! DEFINITION. Where data lies and what a sub-request waits for: surface geometry, regions and lanes, a move's redirection, and the room
and readiness a sub-request needs before it enters a front end (R20 to R22, R175 to R200). -/

namespace Sys2Proof.Machine
open Sys2Proof

/-- Bytes of an extent. -/
def extBytes : Nat := 0x200000

/-- Sample depth d of a DEPTH code. -/
def depthBits (code : Nat) : Nat := if code = 0 then 8 else if code = 1 then 10 else if code = 2 then 12 else 16

def Surf.d (x : Surf) : Nat := depthBits x.depth
def Surf.sealed (x : Surf) : Bool := x.prot == 1
def Surf.guarded (x : Surf) : Bool := x.prot == 2

/-- Bytes of a tile (R180). -/
def Surf.tileBytes (x : Surf) : Nat := 512 * x.d

/-- TEXT of R180. -/
def Surf.text (x : Surf) : Nat := if x.sealed then extBytes / (x.tileBytes + 64) else extBytes / x.tileBytes

/-- Bytes of a chunk (R198). -/
def chunkBytes : Nat := 0x10000

/-! ### Surface geometry (R175 to R184) -/

/-- Planes of a FORMAT (R176). -/
def planesOf (f : Nat) : Nat := if f = 0 then 1 else if f ≤ 3 then 3 else 4

def Surf.planes (x : Surf) : Nat := planesOf x.format

/-- WP and HP of a plane (R176). -/
def Surf.dims (x : Surf) (p : Nat) : Nat × Nat :=
  if p = 0 ∨ p = 3 ∨ 3 ≤ x.format then (x.width, x.height)
  else if x.format = 1 then (cdiv x.width 2, cdiv x.height 2)
  else (cdiv x.width 2, x.height)

/-- W_t and H_t of a plane. -/
def Surf.tiles (x : Surf) (p : Nat) : Nat × Nat := (cdiv (x.dims p).1 128, cdiv (x.dims p).2 32)

/-- The skew of a plane over `n` stripe positions (R182). -/
def Surf.skew (x : Surf) (n p : Nat) : Nat :=
  if x.shape = 1 then
    if n = 1 then 1
    else ((List.range (n + 1)).find? fun k => decide (n ≤ k * k) && Nat.gcd k n == 1).getD 1
  else if x.shape = 2 then 1
  else (x.tiles p).1 % n

/-- row_count of R183. -/
def rowCount (n w start pos : Nat) : Nat := w / n + (if (pos + n - start % n) % n < w % n then 1 else 0)

/-- Tiles of the first `h` rows of a plane at stripe position `pos`. -/
def Surf.rowsAt (x : Surf) (n p pos h : Nat) : Nat :=
  ((List.range h).map fun y => rowCount n (x.tiles p).1 (x.skew n p * y % n) pos).sum

/-- Stripe position of a tile (R182). -/
def Surf.posOf (x : Surf) (n p tx ty : Nat) : Nat := (tx + x.skew n p * ty) % n

/-- Ordinal k of a tile within its position (R183). -/
def Surf.ordinal (x : Surf) (n p tx ty : Nat) : Nat :=
  let pos := x.posOf n p tx ty
  ((List.range p).map fun q => x.rowsAt n q pos (x.tiles q).2).sum + x.rowsAt n p pos ty +
    rowCount n tx (x.skew n p * ty % n) pos

/-- Tiles at a stripe position. -/
def Surf.tilesAt (x : Surf) (n pos : Nat) : Nat := ((List.range x.planes).map fun q => x.rowsAt n q pos (x.tiles q).2).sum

/-- Extents a stripe position takes for its data (R183). -/
def Surf.extsAt (x : Surf) (n pos : Nat) : Nat := cdiv (x.tilesAt n pos) x.text

/-- All tiles of the surface, in plane order, then row order, then column order, before tile (tx, ty) of plane p: the tile number. -/
def Surf.tileNo (x : Surf) (p tx ty : Nat) : Nat :=
  ((List.range p).map fun q => (x.tiles q).1 * (x.tiles q).2).sum + ty * (x.tiles p).1 + tx

/-- Tiles of the surface. -/
def Surf.tileCount (x : Surf) : Nat := ((List.range x.planes).map fun q => (x.tiles q).1 * (x.tiles q).2).sum

/-- Plane and tile coordinates of a tile number, planes from `p` on. -/
def Surf.tileFrom (x : Surf) : Nat → Nat → Nat → Nat × Nat × Nat
  | 0, p, _ => (p, 0, 0)
  | f + 1, p, k =>
    let w := (x.tiles p).1
    if k < w * (x.tiles p).2 ∨ x.planes ≤ p + 1 then (p, k % w, k / w) else Surf.tileFrom x f (p + 1) (k - w * (x.tiles p).2)

def Surf.tileAt (x : Surf) (k : Nat) : Nat × Nat × Nat := x.tileFrom 4 0 k

/-- Offset of cell `c` of slot `sl` within its extent, and of its header (R184). -/
def Surf.cellOff (x : Surf) (sl c : Nat) : Nat := (if x.sealed then x.text * 64 else 0) + sl * x.tileBytes + c * 32 * x.d
def Surf.hdrOff (_ : Surf) (sl c : Nat) : Nat := sl * 64 + c * 4

/-! ### Regions and lanes (R195) -/

/-- The region that holds byte address `a`. -/
def State.regionAt (s : State) (a : Nat) : Option RegionRec :=
  match s.conf with
  | none => none
  | some i => i.regions.find? fun r => decide (r.base ≤ a ∧ a < r.base + r.size)

/-- Lane and segment offset of byte `a` of a region (R195). -/
def laneOf (r : RegionRec) (a : Nat) : Nat × Nat :=
  let o := a - r.base
  let gi := o / 512
  let b := gi / 256
  ((gi % 256) ^^^ ((b ^^^ b / 256 ^^^ b / 65536) % 256), b * 512 + o % 512)

/-- LANE_CH of a lane of a set (set 8 the reserve set). -/
def State.laneCh (s : State) (set lane : Nat) : Nat := Tab.get 0 s.sm.lanes (set * 256 + lane)

/-- Bytes of a lane segment of a region. -/
def RegionRec.segBytes (r : RegionRec) : Nat := r.size / 256

/-- The engine reserve as a region: GUARDED, number 64, on the reserve set, behind the linear addresses (R174, R195). -/
def rsvRegion : RegionRec := { region := 64, base := 2 ^ 40, size := 0x5000000, set := 8, prot := 2 }

/-- The regions of the configuration and the engine reserve. -/
def State.allRegions (s : State) : List RegionRec :=
  match s.conf with
  | none => []
  | some i => rsvRegion :: i.regions

/-- The region, or the reserve, that holds byte address `a`. -/
def State.regionFor (s : State) (a : Nat) : Option RegionRec := s.allRegions.find? fun r => decide (r.base ≤ a ∧ a < r.base + r.size)

/-- Regions of an interleave set, in ascending number. -/
def State.regionsOf (s : State) (set : Nat) : List RegionRec := sortBy (fun r => [r.region]) (s.allRegions.filter fun r => r.set == set)

/-- Address within a list of extents that byte `o` falls on. -/
def extAddr (l : List Nat) (o : Nat) : Nat := l.getD (o / extBytes) 0 * extBytes + o % extBytes

/-! ### Moves: the unit in progress (R197 to R200) -/

/-- A place in DRAM: channel, channel address, and the address of its check atom in the companion. -/
structure At where
  ch : Nat
  a : Nat
  ca : Nat := 0
deriving DecidableEq, Repr

/-- Whole chunks that `n` bytes take. -/
def chunksOf (n : Nat) : Nat := cdiv n chunkBytes

/-- The first chunk and the first destination extent of region `r` within a move of a lane of its set. -/
def State.laneBase (s : State) (r : RegionRec) : Nat × Nat :=
  ((s.regionsOf r.set).filter fun q => decide (q.region < r.region)).foldl
    (fun b q => (b.1 + chunksOf q.segBytes, b.2 + cdiv q.segBytes extBytes)) (0, 0)

/-- Chunks of a unit. -/
def State.unitChunks (s : State) (u : MoveUnit) : Nat :=
  match u with
  | .lane set _ => ((s.regionsOf set).map fun r => chunksOf r.segBytes).sum
  | .pos i p => ((s.surf i).pos.getD p {}).exts.length * 32

/-- Extents, data and companions, that a unit takes at its destination. -/
def State.unitExts (s : State) (u : MoveUnit) : Nat × Nat :=
  match u with
  | .lane set _ =>
    (((s.regionsOf set).map fun r => cdiv r.segBytes extBytes).sum,
      (((s.regionsOf set).filter fun r => r.prot == 2).map fun r => cdiv r.segBytes extBytes).sum)
  | .pos i p => let x := (s.surf i).pos.getD p {}; (x.exts.length, x.comps.length)

/-- Extents of companions of the regions before `r` in a move of a lane. -/
def State.laneCompBase (s : State) (r : RegionRec) : Nat :=
  (((s.regionsOf r.set).filter fun q => decide (q.region < r.region) && q.prot == 2).map fun q => cdiv q.segBytes extBytes).sum

/-- The move that has unit `u` in progress, one that has given way to another move as held (R197, R207). -/
def State.moveOf (s : State) (u : MoveUnit) : Option Move :=
  if s.sm.move.unit = some u then some s.sm.move
  else if s.sm.parked.unit = some u then some { s.sm.parked with held := true }
  else none

/-- Where byte `o` of a region's lane segment lies: in force, and at the destination of a move of that lane. -/
def State.segAt (s : State) (r : RegionRec) (lane o : Nat) : At :=
  let g : Seg := Tab.get {} s.sm.segs (r.region * 256 + lane)
  { ch := s.laneCh r.set lane, a := extAddr g.exts (g.off + o), ca := extAddr g.comps (g.coff + o) }
def State.segDst (s : State) (m : Move) (r : RegionRec) (o : Nat) : At :=
  { ch := m.dst
    a := extAddr (m.dstMain.drop (s.laneBase r).2) o
    ca := extAddr (m.dstComp.drop (s.laneCompBase r)) o }

/-- The state of chunk `k` of the unit that a move has in progress: 0 UNCOPIED, 1 COPYING, 2 COPIED; a held move copies nothing (R198, R203). -/
def Move.chunkState (m : Move) (k : Nat) : Nat :=
  if k < m.chunk then 2 else if k = m.chunk ∧ !m.held ∧ !m.lost then 1 else 0

/-- Where a byte lies for a request, where a write of it is mirrored, and its offset in the chunk in copy (R198). -/
structure Route where
  at_ : At
  mirror : Option At := none
  inChunk : Option Nat := none
deriving DecidableEq, Repr

/-- The route of a byte with places `src` and `dst` and unit offset `u` in a unit that move `m` moves. -/
def Move.route (m : Move) (src dst : At) (u : Nat) : Route :=
  match m.chunkState (u / chunkBytes) with
  | 0 => { at_ := src }
  | 1 => { at_ := src, mirror := some dst, inChunk := some (u % chunkBytes) }
  | _ => { at_ := dst }

/-- The route of byte `a` of a region. -/
def State.linRoute (s : State) (r : RegionRec) (a : Nat) : Route :=
  let lo := laneOf r a
  let src := s.segAt r lo.1 lo.2
  match s.moveOf (.lane r.set lo.1) with
  | some m => m.route src (s.segDst m r lo.2) ((s.laneBase r).1 * chunkBytes + lo.2)
  | none => { at_ := src }

/-- The route of byte `o` of extent `e` of stripe position `p` of surface `i`. -/
def State.posRoute (s : State) (i p e o : Nat) : Route :=
  let x := (s.surf i).pos.getD p {}
  let src : At := { ch := x.ch, a := x.exts.getD e 0 * extBytes + o, ca := x.comps.getD e 0 * extBytes + o }
  match s.moveOf (.pos i p) with
  | some m => m.route src { ch := m.dst, a := m.dstMain.getD e 0 * extBytes + o, ca := m.dstComp.getD e 0 * extBytes + o } (e * extBytes + o)
  | none => { at_ := src }

/-- Stripe position, extent and offset in the extent of byte `o` of a cell of a surface tile, or of its header (R182 to R184). -/
def State.cellPlace (s : State) (t : LTag) (c : Nat) (hdr : Bool) (o : Nat) : Nat × Nat × Nat :=
  let x := s.surf t.idx
  let n := x.pos.length
  let k := x.ordinal n t.plane t.tx t.ty
  let sl := k % x.text
  (x.posOf n t.plane t.tx t.ty, k / x.text, (if hdr then x.hdrOff sl c else x.cellOff sl c) + o)

/-- The route of byte `o` of a cell of a surface tile, or of its header. -/
def State.cellRoute (s : State) (t : LTag) (c : Nat) (hdr : Bool) (o : Nat := 0) : Route :=
  let p := s.cellPlace t c hdr o
  s.posRoute t.idx p.1 p.2.1 p.2.2

/-- The parts of the `n` bytes from byte `o` of a cell, each as its first byte, its length and its route: two where the cell crosses from one
chunk of the position being moved into a chunk of another state (R198). -/
def State.cellParts (s : State) (t : LTag) (c o n : Nat) : List (Nat × Nat × Route) :=
  let p := s.cellPlace t c false o
  let u := p.2.1 * extBytes + p.2.2
  let k := chunkBytes - u % chunkBytes
  let crosses := match s.moveOf (.pos t.idx p.1) with
    | some m => m.chunkState (u / chunkBytes) != m.chunkState (u / chunkBytes + 1)
    | none => false
  if k < n ∧ crosses = true then
    [(0, k, s.posRoute t.idx p.1 p.2.1 p.2.2), (k, n - k, s.posRoute t.idx p.1 p.2.1 (p.2.2 + k))]
  else [(0, n, s.posRoute t.idx p.1 p.2.1 p.2.2)]

/-! ### Whose a byte is -/

/-- The byte address of byte `o` of lane `l`'s segment of a region: the inverse of `laneOf` (R195). -/
def RegionRec.byteAt (r : RegionRec) (l o : Nat) : Nat :=
  let b := o / 512
  r.base + (b * 256 + (l ^^^ ((b ^^^ b / 256 ^^^ b / 65536) % 256))) * 512 + o % 512

/-- Byte `o` of extent `e` in a list of extents, counted from the first. -/
def inExts (l : List Nat) (e o : Nat) : Option Nat := (l.findIdx? fun x => x == e).map fun j => j * extBytes + o

/-- Byte `a` of channel `ch` as a byte of stripe position `p` of surface `i`, at the source or at the destination of a move; where `comp` says so, as the
check byte of one. -/
def State.posHome (s : State) (comp : Bool) (ch a i p : Nat) : Option Home :=
  let x := s.surf i
  let q := x.pos.getD p {}
  let here := if q.ch = ch then inExts (if comp then q.comps else q.exts) (a / extBytes) (a % extBytes) else none
  let there := match s.moveOf (.pos i p) with
    | some m => if m.dst = ch then inExts (if comp then m.dstComp else m.dstMain) (a / extBytes) (a % extBytes) else none
    | none => none
  (here.or there).map fun o => .surf i x.gen p o

/-- Byte `a` of channel `ch` as a byte of lane `l` of a region, at the source or at the destination of a move; where `comp` says so, as the check byte of
one. -/
def State.laneHome (s : State) (comp : Bool) (ch a : Nat) (r : RegionRec) (l : Nat) : Option Home :=
  let g : Seg := Tab.get {} s.sm.segs (r.region * 256 + l)
  let off := if comp then g.coff else g.off
  let n := cdiv r.segBytes extBytes
  let here := if s.laneCh r.set l = ch then
      (inExts (if comp then g.comps else g.exts) (a / extBytes) (a % extBytes)).bind fun o => if off ≤ o ∧ o < off + r.segBytes then some (o - off) else none
    else none
  let there := match s.moveOf (.lane r.set l) with
    | some m =>
      if m.dst ≠ ch ∨ (comp && r.prot != 2) = true then none
      else
        let l := if comp then m.dstComp.drop (s.laneCompBase r) else m.dstMain.drop (s.laneBase r).2
        (inExts (l.take n) (a / extBytes) (a % extBytes)).bind fun o => if o < r.segBytes then some o else none
    | none => none
  (here.or there).map fun o => .lin (r.byteAt l o)

/-- Whose byte `a` of channel `ch` is, or whose check byte. -/
def State.homeIn (s : State) (comp : Bool) (ch a : Nat) : Home :=
  let inSurf := s.sm.surfs.findSome? fun e => (List.range e.2.pos.length).findSome? fun p => s.posHome comp ch a e.1 p
  let inRegion := s.allRegions.findSome? fun r => (List.range 256).findSome? fun l => s.laneHome comp ch a r l
  (inSurf.or inRegion).getD .none
def State.homeAt (s : State) (ch a : Nat) : Home := s.homeIn false ch a

/-- The bank swizzle of byte `a` of channel `ch`: that of the surface it belongs to, 0 for a region's; that of its data XOR 0x8 for a check byte (R185,
R195). -/
def State.bswAt (s : State) (ch a : Nat) : Nat :=
  let of (h : Home) : Nat := match h with | .surf i _ _ _ => (s.surf i).bsw | _ => 0
  match s.homeAt ch a with
  | .none => match s.homeIn true ch a with | .none => 0 | h => of h ^^^ 8
  | h => of h

/-! ### The engine reserve (R174) -/

/-- Where the structures of the reserve begin in it, in the order of R174's table: the flow table at 0, the surface descriptors, the two copies of the
extent maps, the error ring and the saved training state (log entry 132). -/
def rsvDesc : Nat := 0x4000000
def rsvMaps : Nat := 0x4800000
def rsvRing : Nat := 0x4C00000
def rsvTraining : Nat := 0x4C20000

/-- The route of byte `o` of the reserve, and its channel (R174, R195). -/
def State.rsvRoute (s : State) (o : Nat) : Route := s.linRoute rsvRegion (rsvRegion.base + o)
def State.rsvChan (s : State) (o : Nat) : Nat := (s.rsvRoute o).at_.ch

/-! ### Preparation (R179) -/

/-- Whether a surface's tiles are prepared before use: every class but OPEN without INIT. -/
def Surf.prepares (x : Surf) : Bool := x.prot != 0 || x.init

/-- Whether a tile of a surface is ready for requests. -/
def Surf.tileReady (x : Surf) (k : Nat) : Bool := !x.prepares || decide (k < x.prep) || x.prepOut.contains k

/-! ### Where a sub-request goes -/

/-- The region of a linear sub-request. -/
def State.subRegion (s : State) (u : SubReq) : Option RegionRec := s.regionAt (u.tag.line * 8192 + u.unit * 32 + u.addr)

/-- The route of a sub-request (R184, R195, R200). -/
def State.subRoute (s : State) (u : SubReq) : Route :=
  if u.tag.lin then
    match s.subRegion u with
    | some r => s.linRoute r (u.tag.line * 8192 + u.unit * 32 + u.addr)
    | none => { at_ := { ch := 0, a := 0 } }
  else if u.kind = .hdr ∨ u.kind = .hdrWr then s.cellRoute u.tag (u.unit / 8 * 8) true
  else s.cellRoute u.tag u.unit false u.addr

/-- The parts of a sub-request: its first atom, the number of atoms and the route of each (R198). -/
def State.subParts (s : State) (u : SubReq) : List (Nat × Nat × Route) :=
  if u.tag.lin ∨ u.kind = .hdr ∨ u.kind = .hdrWr then [(0, u.atoms, s.subRoute u)]
  else (s.cellParts u.tag u.unit u.addr (32 * u.atoms)).map fun e => (e.1 / 32, e.2.1 / 32, e.2.2)

/-- Whether a sub-request lies in GUARDED storage. -/
def State.subGuarded (s : State) (u : SubReq) : Bool :=
  if u.tag.lin then ((s.subRegion u).map (·.prot)).getD 0 == 2 else (s.surf u.tag.idx).guarded

/-- Whether two sub-requests of the traffic unit concern the same cells or atoms and one of them writes. -/
def SubReq.meets (a b : SubReq) : Bool :=
  (a.write || b.write) && a.tag == b.tag &&
    (if a.tag.lin then decide (a.unit < b.unit + max 1 b.atoms ∧ b.unit < a.unit + max 1 a.atoms)
     else a.unit == b.unit || ((a.kind == SubKind.hdr || b.kind == SubKind.hdr) && a.unit / 8 == b.unit / 8))

/-! ### What a sub-request waits for -/

/-- Whether the 64 KiB unit of a GUARDED region at region offset `o` is initialised (R369). -/
def State.unitReady (s : State) (r o : Nat) : Bool :=
  decide (o / chunkBytes < Tab.get 0 s.integ.initDone r) || s.integ.initOut.contains (r, o / chunkBytes)

/-- Whether byte `o` of the reserve may be read or written: its unit is initialised and its contents are not to be marked as lost (R369, R490). -/
def State.rsvReady (s : State) (o : Nat) : Bool :=
  let p := (s.rsvRoute o).at_
  s.unitReady 64 o && !(s.chan p.ch).lossTodo.contains (p.a / extBytes) && !(s.chan p.ch).lossTodo.contains (p.ca / extBytes)

/-- Whether the storage a sub-request touches is prepared (R179, R369, R490). -/
def State.subReady (s : State) (u : SubReq) (p : At) : Bool :=
  let x := s.chan p.ch
  !x.lossTodo.contains (p.a / extBytes) && !(s.subGuarded u && x.lossTodo.contains (p.ca / extBytes)) &&
    (if u.tag.lin then
      match s.subRegion u with
      | some r => r.prot != 2 || s.unitReady r.region (u.tag.line * 8192 + u.unit * 32 - r.base)
      | none => true
    else (s.surf u.tag.idx).tileReady ((s.surf u.tag.idx).tileNo u.tag.plane u.tag.tx u.tag.ty))

/-- Bytes of reorder buffer that a read reserves (R20); the scrub reserves none. -/
def SubReq.rrbBytes (u : SubReq) : Nat := if u.write ∨ u.scrub = true then 0 else 32 * u.atoms

/-- Whether port `p` may reserve `n` bytes (R21). -/
def State.rrbRoom (s : State) (p n : Nat) : Bool :=
  let held (q : Nat) : Nat := (s.port q).rrb + (if q = p then n else 0)
  let shared := ((List.range 8).map fun i => held (p / 8 * 8 + i) - 16384).sum
  n == 0 || (decide (held p ≤ 65536) && decide (shared ≤ 131072))

/-- Bytes of the write data buffer that a write takes, with its check bytes. -/
def SubReq.wdbBytes (u : SubReq) (guarded : Bool) : Nat := if u.write then 32 * u.atoms * (if guarded then 2 else 1) else 0

/-- Bytes of a channel's write data buffer in use by the writes that the engine originates in the channel, or by the others (R22). -/
def State.wdbUsed (s : State) (ch : Nat) (own : Bool) : Nat :=
  let x := s.chan ch
  (((x.cq ++ x.fly).filter fun q => q.sub.scrub == own).map fun q => q.sub.wdbBytes q.sub.guarded).sum

/-- Whether a channel's write data buffer has room: 60 KiB, the rest being the reserve of R22. -/
def State.wdbRoom (s : State) (ch n : Nat) : Bool := n == 0 || decide (s.wdbUsed ch false + n ≤ 61440)

/-- Whether the 4 KiB reserve of a channel's write data buffer has room for a correction write-back of one atom and its check bytes (R22). -/
def State.ownRoom (s : State) (ch : Nat) : Bool := decide (s.wdbUsed ch true + 64 ≤ 4096)

/-- Whether a write of `n` atoms with route `r` meets the piece in copy (R198). -/
def State.inPiece (s : State) (u : SubReq) (n : Nat) (r : Route) : Bool :=
  u.write && match r.inChunk with
    | none => false
    | some o => decide (o / 4096 ≤ s.sm.move.piece ∧ s.sm.move.piece ≤ (o + 32 * n - 1) / 4096)

/-- Whether a write meets the piece in copy with one of its parts. -/
def State.meetsPiece (s : State) (u : SubReq) : Bool := (s.subParts u).any fun p => s.inPiece u p.2.1 p.2.2

/-- Whether the storage of every part of a sub-request is prepared. -/
def State.partsReady (s : State) (u : SubReq) : Bool := (s.subParts u).all fun p => s.subReady u p.2.2.at_

/-- Whether the write data buffers have room for all the parts of a sub-request together, and for those of a mirrored write at its destination. -/
def State.partsRoom (s : State) (u : SubReq) : Bool :=
  let takes := (s.subParts u).flatMap fun p =>
    let n := { u with atoms := p.2.1 }.wdbBytes (s.subGuarded u)
    (p.2.2.at_.ch, n) :: (match p.2.2.mirror with | some m => [(m.ch, n)] | none => [])
  (takes.map (·.1)).eraseDups.all fun ch => s.wdbRoom ch ((takes.filter fun e => e.1 == ch).map (·.2)).sum

end Sys2Proof.Machine
end

