-- ==== Sys2Proof/Machine/Time.lean ====
section
/-! DEFINITION. What cclk cycles do by themselves: the credit-based shapers of R297, the link watchdogs (R158), and what the counters add up in
every cycle (R426, R430). -/

namespace Sys2Proof.Machine
open Sys2Proof

/-- CCLK_KHZ of the configuration (R76). -/
def State.cclkKhz (s : State) : Nat :=
  match s.conf with
  | some { tick := some t, .. } => t.cclkKhz
  | _ => 0

/-- NOMINAL_TCLK of the configuration (R76). -/
def State.nomTclk (s : State) : Nat :=
  match s.conf with
  | some { tick := some t, .. } => t.tclk
  | _ => 0

/-- NOMINAL_CCLK of the configuration (R76). -/
def State.nomCclk (s : State) : Nat :=
  match s.conf with
  | some { tick := some t, .. } => t.cclk
  | _ => 0

/-- The schedule domain of a channel (R48). -/
def State.domainOf (s : State) (ch : Nat) : Nat := ((s.chanRec ch).map (·.domain)).getD 0

/-- CREDIT after `n` cycles in which SEND_LEFT runs down (R297); `lim` is CREDIT_LIMIT × 1024. -/
def creditSend (c send lim : Int) (n : Nat) : Int :=
  if n = 0 then c else max (min (c - n * send) (lim - (n - 1 : Nat) * send)) (-lim)

/-- CREDIT after `n` cycles in which the class has an entry waiting. -/
def creditWait (c idle lim : Int) (n : Nat) : Int :=
  if n = 0 then c else min (max (c + n * idle) ((n - 1 : Nat) * idle - lim)) lim

/-- CREDIT after `n` cycles without an entry waiting. -/
def creditIdle (c idle lim : Int) (n : Nat) : Int :=
  if n = 0 then c else if 0 < c then 0 else max (min (c + n * idle) 0) (min ((n - 1 : Nat) * idle - lim) 0)

/-- How many of the next `n` cycles leave class `c` neither gated nor held back by its guard. -/
def State.freeCycles (s : State) (d c n : Nat) : Nat :=
  if bit (s.gateMask d) c = false then 0
  else
    let g := s.rd R.GATE_GUARD_GUARD c
    if g = 0 then n
    else match s.openLeft d c with
      | none => n
      | some r => if r < g then 0 else min n (r - g + 1)

/-- Whether channel `x` has an entry of class `c` waiting. -/
def Chan.hasClass (x : Chan) (c : Nat) : Bool := x.cq.any fun q => q.cls == c

/-- One shaper of channel `ch` over `n` cycles, the limit in force in each of them; the turn of a class that is not eligible throughout them
ends (R297, R298). -/
def State.shape (s : State) (ch n : Nat) (x : Chan) (c : Nat) : Chan :=
  let idle := s.rd R.CLS_IDLE_SLOPE_IDLE_SLOPE c
  let left := Tab.get 0 x.sendLeft c
  let cr := Tab.get 0 x.credit c
  let send := s.rd R.CLS_SEND_SLOPE_SEND_SLOPE c
  let lim : Int := s.rd R.CLS_CREDIT_LIMIT_LIMIT c * 1024
  let a := min n left
  let cr1 := creditSend cr send lim a
  let open_ := s.freeCycles (s.domainOf ch) c n
  let cr2 := if x.hasClass c then creditWait cr1 idle lim (open_ - a) else creditIdle cr1 idle lim (open_ - a)
  let cr2 := if n = 0 then cr else max (min cr2 lim) (-lim)
  let ends := x.drr == c && x.drrOpen && (decide (open_ < n) || idle != 0 && decide (cr < 0 ∨ cr1 < 0 ∨ cr2 < 0))
  let x := if ends then { x with drrOpen := false } else x
  if idle = 0 ∧ left = 0 ∧ cr = 0 then x
  else { x with sendLeft := Tab.insert c (left - a) x.sendLeft, credit := Tab.insert c cr2 x.credit }

/-- Every shaper of every channel over `n` cycles. -/
def State.shapeAll (s : State) (n : Nat) : State :=
  { s with chans := s.chans.map fun e => (e.1, (List.range 16).foldl (s.shape e.1 n) e.2) }

/-- Whether any counter group counts. -/
def State.countingOn (s : State) : Bool :=
  s.rd R.PERF_CTL_FREEZE == 0 && (List.range 32).any fun g => s.rd R.PF_GRP_CTL_EN g == 1

/-- Whether a correction is pending for a rank (R352, R353). -/
def Rank.corrPending (k : Rank) : Bool := k.wrPend != 0 || k.rdOsc != 0 || k.rdPend.any fun e => e.2 != 0

/-- Whether an operation is due on a rank. -/
def Rank.maintDue (k : Rank) (kind : Nat) : Bool := if kind = 1 then k.long else if kind = 2 then k.corrPending else k.zq

/-- A cycle of a sub-request in the traffic unit, `n` times over, by what it waits for (R430): its flow's context, reorder space, a piece in copy,
or, with its storage ready, the front end's input and there perhaps the write data buffer. -/
def State.countSub (s : State) (n : Nat) (u : SubReq) : State :=
  if u.named.isNone && !s.traffic.fcache.contains u.flow && !s.traffic.fpass.contains u.flow then s.count { ev := 0x0AC, n := n }
  else if u.atoms = 0 then s
  else
    let r := s.subRoute u
    if s.rrbRoom u.port u.rrbBytes = false then s.count { ev := 0x05E, n := n, grp := some u.g }
    else if s.meetsPiece u then s.count { ev := 0x07B, n := n }
    else if s.partsReady u = false then s
    else
      let s := if s.partsRoom u then s else s.count { ev := 0x0D5, n := n, ch := some r.at_.ch }
      s.count { ev := 0x039, n := n, grp := some u.g, req := u.rq, cls := s.subClass u }

/-- Allocations of slice `g` that wait for a CLEAN line in its eviction buffer (R261): the lines that requests have left for later, those of PRELOADs
while no place of the buffer is free or CLEAN; lines that wait for an invalidate are none. -/
def State.allocsWaiting (s : State) (g : Nat) : Nat :=
  let full := [72, 73, 74, 75].all fun e => (s.line g e).valid && (s.line g e).evb != 0
  let gone (t : LTag) : Bool := (List.range 76).any fun e => (s.line g e).valid && (s.line g e).gone && (s.line g e).tag == t
  ((s.waits.filter fun w => w.port / 8 == g && (w.xf.op != 4 || full)).map fun w => (w.later.filter fun t => !gone t).length).sum

/-- What a port group adds in `n` cycles. -/
def State.countGroup (s : State) (n g : Nat) : State :=
  let l := (List.range 76).map (s.line g)
  let x := s.group g
  let s := if (s.ownerNow g).isNone then s.count { ev := 0x036, n := n, grp := some g } else s
  let s := if s.rd R.GRP_CTL_FREEZE g = 1 ∨ x.frozenImg then s.count { ev := 0x038, n := n, grp := some g } else s
  let s := (List.range 8).foldl (fun (s : State) i =>
    match (s.port (8 * g + i)).queue with
    | [] => s
    | y :: _ => if s.ownerNow g = some i then s else s.count (s.occAt 0x032 n (s.attrOf (8 * g + i) y.req))) s
  let s := s.count { ev := 0x04C, n := n * s.allocsWaiting g, grp := some g }
  let s := s.count { ev := 0x053, n := n * (s.snoops.filter fun m => m.g == g && m.sent).length, grp := some g }
  let s := s.count { ev := 0x05A, n := n * (l.filter (·.valid)).length, grp := some g }
  let s := s.count { ev := 0x05B, n := n * (l.filter fun x => x.units.any fun u => u.2.dirty).length, grp := some g }
  let s := s.count { ev := 0x05C, n := n * (l.filter (·.locked)).length, grp := some g }
  let s := s.count { ev := 0x05D, n := n * cdiv (((List.range 8).map fun p => (s.port (8 * g + p)).rrb).sum) 1024, grp := some g }
  let held := (s.hdrWait.filter fun u => u.g == g).length + ((queueOf s.enc g).filter fun j => j.phase == 0).length
  s.count { ev := 0x06F, n := n * held, grp := some g }

/-- What a channel adds in `n` cclk cycles. -/
def State.countChan (s : State) (n ch : Nat) : State :=
  let x := s.chan ch
  let d := s.domainOf ch
  let s := s.count { ev := 0x0D4, n := n * x.cq.length, ch := some ch }
  let s := if x.ranks.any (fun e => [1, 2, 3].any fun k => e.2.maintDue k && x.maint != some (k, e.1)) then
    s.count { ev := 0x118, n := n, ch := some ch } else s
  (List.range 16).foldl (fun s c =>
    if x.hasClass c = false then s
    else if bit (s.gateMask d) c = false then s.count { ev := 0x0D0, n := n, ch := some ch, cls := c }
    else if s.guardHolds d c then s.count { ev := 0x0D1, n := n, ch := some ch, cls := c }
    else if s.rd R.CLS_IDLE_SLOPE_IDLE_SLOPE c ≠ 0 ∧ Tab.get 0 x.credit c < 0 then
      s.count { ev := 0x0D2, n := n, ch := some ch, cls := c }
    else s) s

/-- What the counters add in `n` cycles in which nothing else happens (R430). -/
def State.countCycles (s : State) (n : Nat) : State :=
  if s.countingOn = false then s
  else
    let s := s.count { ev := 0x000, n := n }
    let s := s.count { ev := 0x076, n := n * s.sm.waits.length }
    let s := s.subs.foldl (fun s u => s.countSub n u) s
    let s := (List.range s.G).foldl (fun s g => s.countGroup n g) s
    (List.range s.C).foldl (fun s ch => s.countChan n ch) s

/-- Whether cclk runs: the device is not in Dusk or off, and its domain is out of reset. -/
def State.cclkRuns (s : State) : Bool := s.power.st != 2 && s.power.st != 4 && !s.power.domains.contains 0

/-- Whether the slice's intake for a port is full: a sub-request of the port waits for reorder space (R21, R149; DEDUCED, log entry 124). -/
def State.intakeFull (s : State) (p : Nat) : Bool :=
  s.subs.any fun u => u.port == p && u.rrbBytes != 0 && u.rq.isSome && !s.rrbRoom p u.rrbBytes

/-- The first cycle from which the owner `p` of a link is stuck, if it is: a write of it is open with its next beat missing, or a response of it waits
while its slice intake is full (R158). -/
def State.stuckFrom (s : State) (p : Nat) : Option Nat :=
  let q := s.port p
  if (match q.queue with | [] => false | x :: _ => !x.closed && x.crossed == 1 + x.beats.length) then some s.cclk
  else if s.intakeFull p then q.rsps.head?.map fun r => max s.cclk r.readyAt
  else none

/-- The stuck cycles among the next `n` of link `g`: those in which its owner is stuck and no beat of it crosses (R158). -/
def State.stuckCycles (s : State) (n g : Nat) : Nat :=
  let x := s.group g
  match x.owner.bind fun i => s.stuckFrom (8 * g + i) with
  | none => 0
  | some a => s.cclk + n - max a (max x.grantAt x.beatAt)

/-- The link watchdogs over `n` cycles (R158). -/
def State.watchLinks (s : State) (n : Nat) : State :=
  (List.range s.G).foldl (fun s g => if s.stuckCycles n g = 0 then s else s.setGroup g { s.group g with stuck := (s.group g).stuck + s.stuckCycles n g }) s

/-- What `n` cclk cycles do by themselves. -/
def State.runCycles (s : State) (n : Nat) : State := ((s.countCycles n).watchLinks n).shapeAll n

end Sys2Proof.Machine
end

