-- ==== Sys2Proof/Machine/FrontEnd.lean ====
section
/-! DEFINITION. The channel front end: the address map of R310, what is pending at the traffic unit (R293), the class queues, and the
passing of entries to the controller (R295 to R300, R315 to R317). -/

namespace Sys2Proof.Machine
open Sys2Proof

/-! ### Address map -/

/-- The place of a 32 B atom in the DRAM of a channel (R310). -/
structure Loc where
  rank : Nat
  bank : Nat
  row : Nat
  col : Nat
deriving DecidableEq, Repr

/-- Bytes per die of DENSITY Gb. -/
def dieBytes (density : Nat) : Nat := density * 0x08000000

/-- The map of R310 from a channel address and a bank swizzle. -/
def mapAddr (density a bsw : Nat) : Loc :=
  let die := dieBytes density
  let x := if die = 0 then a else a % die
  let row := x / 2 ^ 15
  { rank := if die = 0 then 0 else a / die
    bank := (bits x 9 4 ^^^ (row % 16)) ^^^ bsw
    row := row
    col := bits x 13 2 * 16 + bits x 5 4 }

/-- RANKS of a channel. -/
def State.ranksOf (s : State) (ch : Nat) : Nat := ((s.chanRec ch).map (·.ranks)).getD 0
/-- DENSITY of a channel. -/
def State.densityOf (s : State) (ch : Nat) : Nat := ((s.chanRec ch).map (·.density)).getD 0
/-- CK_KHZ of a channel. -/
def State.ckKhz (s : State) (ch : Nat) : Nat := ((s.chanRec ch).map (·.ck)).getD 0

/-- Bank-group mode (R312). -/
def State.bgMode (s : State) (ch : Nat) : Bool := decide (400000 < s.ckKhz ch)

/-- Storage key of byte `a` of channel `ch`. -/
def memKey (ch a : Nat) : Nat := ch * 2 ^ 34 + a

/-! ### Contrail stamps (R436) -/

/-- Record that trail `tg` has reached stage `k` now, if it had not; stages are numbered 2 to 8. -/
def State.stamp (s : State) (tg : Option Nat) (k : Nat) : State :=
  match tg with
  | none => s
  | some id =>
    { s with meas := { s.meas with trails := s.meas.trails.map fun t =>
        if t.id = id ∧ (Tab.find t.offs k).isNone then { t with offs := Tab.insert k (s.cclk - t.t0) t.offs } else t } }

/-- Change the trail numbered `tg`. -/
def State.modTrail (s : State) (tg : Option Nat) (f : Trail → Trail) : State :=
  match tg with
  | none => s
  | some id => { s with meas := { s.meas with trails := s.meas.trails.map fun t => if t.id = id then f t else t } }

/-! ### Pending requests (R293) -/

/-- Change a flow's context. -/
def State.setFlow (s : State) (f : Nat) (x : Flow) : State := { s with traffic := { s.traffic with flows := Tab.insert f x s.traffic.flows } }

/-- Oldest pending request and count of a flow (R293). -/
def State.pendOf (s : State) (f : Nat) : Nat × Nat :=
  let l := (s.traffic.live.filter fun e => e.2.1 == f).map fun e => e.2.2
  ((minOf l).getD 0, l.length)

/-- OLDEST and PENDING follow the pending requests of flow `f` (R279, R293). -/
def State.notePend (s : State) (f : Nat) : State :=
  let x := Tab.get ({} : Flow) s.traffic.flows f
  let p := s.pendOf f
  s.setFlow f { x with oldest := if p.2 = 0 then x.oldest else p.1 % 2 ^ 32, pending := p.2 % 2 ^ 17 }

/-- Whether request `id` still has work that keeps it pending: it waits at its port, has sub-requests to issue yet, waits with a cell for a header or an
update, or has a sub-request that has not wholly passed to a controller. A retry is no sub-request of the request (log entry 134). -/
def State.stillPending (s : State) (id : Nat) : Bool :=
  s.ports.any (fun e => e.2.queue.any fun x => x.id == id) ||
  s.waits.any (fun w => w.id == id && (!w.issued || !w.later.isEmpty)) ||
  (s.subs ++ s.hdrWait).any (fun u => u.wait == some id || u.own == some id) ||
  s.sm.inbox.any (fun a => match a.act with | .req _ _ x => x.id == id | _ => false) ||
  s.snoops.any (fun n => (match n.act with | .fill _ u => u.wait == some id || u.own == some id | .write w => w == id) ||
    n.more.any fun m => m.2.wait == some id) ||
  s.enc.any (fun e => e.2.any fun j => j.wait == some id) ||
  s.chans.any fun e => e.2.cq.any (fun q => q.sub.own == some id) ||
    (e.2.fly ++ e.2.done).any fun q => q.sub.kind == SubKind.hdr && q.sub.own == some id

/-- Request `id` stops being pending once nothing keeps it so. -/
def State.settle (s : State) (id : Option Nat) : State :=
  match id with
  | none => s
  | some n =>
    match Tab.find s.traffic.live n with
    | none => s
    | some e => if s.stillPending n then s else ({ s with traffic := { s.traffic with live := Tab.erase n s.traffic.live } } : State).notePend e.1

/-! ### Order among entries -/

/-- Whether an entry is escalated: green, of C4 to C14, urgency 3, ESC_EN set (R294). -/
def State.escalated (s : State) (cls urg : Nat) (yellow : Bool) : Bool :=
  !yellow && urg == 3 && decide (4 ≤ cls ∧ cls ≤ 14) && s.rd R.TR_CTL_ESC_EN == 1

/-- Precedence level of R296, 0 highest: C0 to C3, the escalated band, the weighted group, C15. -/
def State.levelOf (s : State) (cls urg : Nat) (yellow : Bool) : Nat :=
  if cls ≤ 3 then cls else if s.escalated cls urg yellow then 4 else if cls ≤ 14 then 5 else 6

/-- The order of R295: green before yellow, green by descending urgency, then by age, then by entry to the front end. -/
def r295Key (urg : Nat) (yellow : Bool) (t0 seq : Nat) : List Nat := [b2n yellow, if yellow then 0 else 3 - urg, t0, seq]

/-! ### Sub-requests and atoms -/

/-- A controller entry that a queue entry has still to pass: its atoms from `off` on, `n` of them (R315). -/
structure Piece where
  q : QEnt
  off : Nat
  n : Nat
deriving DecidableEq, Repr

/-- The controller entries that `atoms` atoms from number `off` on, the first of them atom `first` of the channel, make: those in one 512 B block
each (R315). -/
def blocksOf : Nat → Nat → Nat → Nat → List (Nat × Nat)
  | 0, _, _, _ => []
  | fuel + 1, first, off, atoms =>
    if atoms = 0 then []
    else
      let n := min atoms (16 - (first + off) % 16)
      (off, n) :: blocksOf fuel first (off + n) (atoms - n)

/-- What a queue entry has still to pass. -/
def QEnt.pieces (q : QEnt) : List Piece := q.left.map fun p => ⟨q, p.1, p.2⟩

/-- Bus charge of a controller entry with its companion: its data bytes, and its check bytes if GUARDED (R285). -/
def Piece.charge (p : Piece) : Nat := p.n * 32 * (if p.q.sub.guarded then 2 else 1)

/-- The order of R295: green before yellow, green by descending urgency, then by age, then by entry to the front end. -/
def Piece.key (p : Piece) (urg : Nat) (yellow : Bool) : List Nat := r295Key urg yellow p.q.sub.t0 p.q.seq ++ [p.off]

/-- What R317 compares of a controller entry, queued still (`held` none) or with the controller (`held` says whether it is a companion): the order of
entry to the front end, the atoms it touches by the channel address of the first and their number, and the level and the class under which it runs. -/
structure Turn where
  seq : Nat
  off : Nat
  held : Option Bool
  write : Bool
  at_ : List (Nat × Nat)
  level : Nat
  cls : Nat
deriving DecidableEq, Repr

/-- Whether two controller entries touch a common atom, and one of them writes (R317). -/
def Turn.meets (a b : Turn) : Bool :=
  (a.write || b.write) && a.at_.any fun x => b.at_.any fun y => decide (x.1 / 32 < y.1 / 32 + y.2 ∧ y.1 / 32 < x.1 / 32 + x.2)

/-- An entry that has still to pass, with the companion of a GUARDED one. -/
def State.pieceTurn (s : State) (p : Piece) : Turn :=
  let q := p.q
  { seq := q.seq, off := p.off, held := none, write := q.sub.write
    at_ := (q.sub.addr + 32 * p.off, p.n) :: (if q.sub.guarded then [(q.sub.caddr + 32 * p.off, p.n)] else [])
    level := s.levelOf q.cls q.urg q.yellow, cls := q.cls }

/-- An entry of the controller. -/
def CEnt.turn (e : CEnt) : Turn :=
  { seq := e.seq, off := e.off, held := some e.check, write := e.write, at_ := [(e.a, e.n)], level := e.level, cls := e.cls }

/-- Every entry of a channel that has not issued all its column commands. -/
def State.turns (s : State) (x : Chan) : List Turn := (x.cq.flatMap QEnt.pieces).map s.pieceTurn ++ x.ctl.map CEnt.turn

/-- Whether an earlier entry of the class queues stands before entry `p` under R317. -/
def State.heldBack (s : State) (x : Chan) (p : Piece) : Bool :=
  (s.turns x).any fun e => e.held.isNone && decide (e.seq < p.q.seq) && e.meets (s.pieceTurn p)

/-- The entries of a channel, latest first, each with the level and the class under which it runs until it issues: its own, or those of a later entry
of a higher level that touches the same atoms and so waits for it (R317). -/
def State.effs (s : State) (x : Chan) : List Turn :=
  (sortBy (fun e => [e.seq]) (s.turns x)).reverse.foldl (fun l e =>
    l ++ [l.foldl (fun b p => if p.seq != e.seq && e.meets p && decide (p.level < b.level) then
      { b with level := p.level, cls := p.cls } else b) e]) []

/-- How one entry runs. -/
def State.inherit (s : State) (x : Chan) (p : Piece) : Turn :=
  ((s.effs x).find? fun e => e.seq == p.q.seq && e.off == p.off && e.held.isNone).getD (s.pieceTurn p)

/-- Whether the controller has room for an entry and its companion (R315). -/
def Chan.room (x : Chan) (q : QEnt) : Bool :=
  let n := if q.sub.guarded then 2 else 1
  decide (x.ctl.length + n ≤ 64) && (!q.sub.write || decide ((x.ctl.filter (·.write)).length + n ≤ 32))

/-- The controller entry of `p` at channel address `a`, the data's or the companion's (R315). -/
def State.mkEntry (s : State) (ch : Nat) (p : Piece) (a bsw : Nat) (check : Bool) : CEnt :=
  let q := p.q
  let l := mapAddr (s.densityOf ch) a bsw
  let eff := s.inherit (s.chan ch) p
  let k := Tab.get ({} : Bank) (s.chan ch).banks (l.rank * 16 + l.bank)
  { seq := q.seq, write := q.sub.write, check := check, rank := l.rank, bank := l.bank, row := l.row
    cols := (List.range p.n).map (l.col + ·), off := p.off, a := a, n := p.n, base := k.hits
    level := eff.level, cls := eff.cls, urg := q.urg, yellow := q.yellow, t0 := q.sub.t0, hit := k.row == some l.row
    header := q.sub.kind == .hdr || q.sub.kind == .hdrWr, ctag := q.sub.sctag }

/-! ### Choosing what passes -/

/-- Whether the front end of a channel may pass entries at all: in service, no sequence, not held, not stopped by a partial image or a
repair, not in self-refresh (R105, R334, R346, R392). -/
def State.mayPass (s : State) (ch : Nat) : Bool :=
  let x := s.chan ch
  s.inService ch && x.seq == 0 && s.rd R.CH_CTL_HOLD ch == 0 && !x.imgStop && !x.pprHold && x.pwr < 2

/-- Whether a class is eligible at a channel: its gate bit, its guard and its shaper (R296, R297). -/
def State.eligible (s : State) (ch c : Nat) : Bool :=
  let d := s.domainOf ch
  bit (s.gateMask d) c && !s.guardHolds d c &&
    (s.rd R.CLS_IDLE_SLOPE_IDLE_SLOPE c == 0 || decide (0 ≤ Tab.get 0 (s.chan ch).credit c))

/-- The entries of a channel that may be presented, and how they run: not held back by R317, their class eligible. -/
def State.presented (s : State) (ch : Nat) : List (Piece × Turn) :=
  let x := s.chan ch
  let l := s.effs x
  ((x.cq.flatMap QEnt.pieces).map fun p =>
    (p, (l.find? fun e => e.seq == p.q.seq && e.off == p.off && e.held.isNone).getD (s.pieceTurn p))).filter fun p =>
      !s.heldBack x p.1 && s.eligible ch p.2.cls

/-- The entry of class `c` that R295 presents first among the weighted group's. -/
def State.headOf (c : Nat) (l : List (Piece × Turn)) : Option Piece :=
  (firstBy (fun p => p.1.key p.1.q.urg p.1.q.yellow) (l.filter fun p => p.2.cls == c && p.2.level == 5)).map (·.1)

/-- The class after `p` of C4 to C14, in ascending order and wrapping. -/
def nextWeighted (p : Nat) : Nat := if p < 4 ∨ 14 ≤ p then 4 else p + 1

/-- Deficit round robin (R298): the entry to pass, and the front end's deficits, pointer and turn after the choice. `l` holds the entry that
each class presents first. -/
def State.drrPick (s : State) (l : List (Option Piece)) : Nat → Chan → Nat → Option Piece × Chan × Nat
  | 0, x, n => (none, x, n)
  | fuel + 1, x, n =>
    let go (x : Chan) (c : Nat) (n : Nat) : Option Piece × Chan × Nat :=
      match l.getD c none with
      | none => State.drrPick s l fuel { x with drrOpen := false, drr := c } n
      | some p =>
        if p.charge ≤ Tab.get 0 x.deficit c then
          (some p, { x with drr := c, drrOpen := true, deficit := Tab.insert c (Tab.get 0 x.deficit c - p.charge) x.deficit }, n)
        else State.drrPick s l fuel { x with drrOpen := false, drr := c } n
    if x.drrOpen then go x x.drr n
    else
      let c := nextWeighted x.drr
      match l.getD c none with
      | none => State.drrPick s l fuel { x with drr := c } n
      | some _ =>
        go { x with deficit := Tab.insert c (Tab.get 0 x.deficit c + s.rd R.CLS_QUANTUM_QUANTUM c) x.deficit } c (n + 1)

/-- The entry that passes next, with the front end after the choice and the turns of R298 it took. The head of a higher level blocks
lower levels even if the controller has no room for it (log entry 13). -/
def State.pick (s : State) (ch : Nat) : Option (Piece × Chan × Nat) :=
  let x := s.chan ch
  let l := s.presented ch
  match firstBy (fun p => p.2.level :: (if p.2.level = 4 then [p.1.q.sub.t0, p.1.q.seq, p.1.off] else p.1.key p.1.q.urg p.1.q.yellow)) l with
  | none => none
  | some p =>
    if p.2.level ≠ 5 then if x.room p.1.q then some (p.1, x, 0) else none
    else
      match s.drrPick ((List.range 15).map fun c => State.headOf c l) 4096 x 0 with
      | (some q, x', n) => if x.room q.q then some (q, x', n) else none
      | (none, _, _) => none

/-- Whether a step of the engine's own work of class `cls` and urgency `urg` may use channel `ch` now: the front end passes entries, the class is
eligible, and no entry of a higher level stands before it (R18, R286, R296). Such a step is whole; among work of its own level it comes when its
command comes (log entry 131). -/
def State.engineMay (s : State) (ch cls urg : Nat) : Bool :=
  s.mayPass ch && s.eligible ch cls && !(s.presented ch).any fun p => decide (p.2.level < s.levelOf cls urg false)

/-- Whether a step of engine work need not wait for channel `ch`: it may pass, or the channel is out of service and takes nothing (R348). -/
def State.engineFree (s : State) (ch cls urg : Nat) : Bool := s.outOfService ch || s.engineMay ch cls urg

/-- SEND_LEFT that passing a bus charge adds (R297). -/
def State.sendTime (s : State) (ch b : Nat) : Nat :=
  let ck := s.ckKhz ch
  if ck = 0 then 0 else (b * s.cclkKhz + 16 * ck - 1) / (16 * ck)

/-- Pass controller entry `p` and its companion (R315, R316), with the charges of R297 and R300. -/
def State.passEntry (s : State) (ch : Nat) (p : Piece) (x : Chan) : State :=
  let q := p.q
  let b := p.charge
  let e := s.mkEntry ch p (q.sub.addr + 32 * p.off) q.sub.bsw false
  let es := if q.sub.guarded then [e, s.mkEntry ch p (q.sub.caddr + 32 * p.off) (q.sub.bsw ^^^ 8) true] else [e]
  let q' := { q with left := q.left.filter fun l => l != (p.off, p.n) }
  let whole := q'.left.isEmpty
  let cq := if whole then x.cq.filter (fun e => e.seq != q.seq) else x.cq.map fun e => if e.seq = q.seq then q' else e
  let x := { x with
    ctl := x.ctl ++ es
    cq := cq
    fly := if whole then x.fly ++ [q'] else x.fly
    deficit := if 4 ≤ q.cls ∧ q.cls ≤ 14 ∧ !cq.any (fun e => e.cls == q.cls) then Tab.insert q.cls 0 x.deficit else x.deficit
    sendLeft := Tab.insert q.cls (Tab.get 0 x.sendLeft q.cls + s.sendTime ch b) x.sendLeft
    bytesCur := Tab.insert q.cls ((Tab.get 0 x.bytesCur q.cls + b / 32) % 2 ^ 32) x.bytesCur }
  let occ (ev n : Nat) : Occ := { ev := ev, n := n, ch := some ch, req := q.sub.rq, cls := q.cls }
  let esc := s.escalated q.cls q.urg q.yellow
  let lifted := s.inherit (s.chan ch) p != s.pieceTurn p
  let s := s.setChan ch x
  let s := ((s.count (occ (0x0B0 + q.cls) (b / 32))).count (occ (0x130 + q.cls) 1)).count (occ (0x120 + q.cls) (s.cclk - q.sub.t0))
  let s := if lifted then s.count { ev := 0x0D6, ch := some ch } else s
  let s := if esc then (s.count (occ (0x0C0 + q.cls) 1)).bump R.CLS_ESC_CNT_COUNT q.cls 0 1 else s
  if whole then s.settle q.sub.own else s

end Sys2Proof.Machine
end

