-- ==== Sys2Proof/Machine/Sched.lean ====
section
/-! DEFINITION. The channel controller: the legality and the choice of DRAM commands (R318 to R324), refresh, refresh management,
MR4 reads, power-down, the start of maintenance operations (R356) and slot accounting (R335). -/

namespace Sys2Proof.Machine
open Sys2Proof

/-! ### Timing parameters -/

/-- The Squall stretch group of a parameter code, if it is stretched (R467). -/
def stretchGroup (p : Nat) : Option Nat :=
  if p ∈ [0x01, 0x04, 0x05, 0x0A, 0x0B] then some 0
  else if p ∈ [0x02, 0x03, 0x0F, 0x0C] then some 1
  else if p ∈ [0x08, 0x09] then some 2
  else if p ∈ [0x0D, 0x0E, 0x10, 0x24] then some 3
  else if p ∈ [0x12, 0x13, 0x14, 0x15, 0x1F] then some 4
  else if p ∈ [0x18, 0x19, 0x16, 0x17] then some 5
  else if p ∈ [0x1A, 0x1B, 0x1C] then some 6
  else if p ∈ [0x1D, 0x1E] then some 7
  else none

/-- The Squall field that stretches a group. -/
def stretchFld (g : Nat) : Fld :=
  match g with
  | 0 => R.SQ_STRETCH_G0
  | 1 => R.SQ_STRETCH_G1
  | 2 => R.SQ_STRETCH_G2
  | 3 => R.SQ_STRETCH_G3
  | 4 => R.SQ_STRETCH_G4
  | 5 => R.SQ_STRETCH_G5
  | 6 => R.SQ_STRETCH_G6
  | _ => R.SQ_STRETCH_G7

/-- The value in force of timing parameter `p` of channel `ch`, in CK cycles (R323, R467). -/
def State.tp (s : State) (ch p : Nat) : Nat :=
  s.rd R.CH_TIMING_VALUE ch p +
    (match stretchGroup p with
     | some g => if s.squall.unlocked ∧ bit (s.rd R.SQ_STRETCH_CH_CHANNELS) ch then s.rd (stretchFld g) else 0
     | none => 0)

/-! ### Banks and ranks -/

def Chan.bankAt (x : Chan) (r b : Nat) : Bank := Tab.get {} x.banks (r * 16 + b)
def Chan.setBank (x : Chan) (r b : Nat) (k : Bank) : Chan := { x with banks := Tab.insert (r * 16 + b) k x.banks }
def Chan.rankAt (x : Chan) (r : Nat) : Rank := Tab.get {} x.ranks r
def Chan.setRank (x : Chan) (r : Nat) (k : Rank) : Chan := { x with ranks := Tab.insert r k x.ranks }

/-- The open banks of a rank. -/
def Chan.openBanks (x : Chan) (r : Nat) : List Nat := (List.range 16).filter fun b => (x.bankAt r b).row.isSome

/-- The banks that REFpb at address `b` refreshes, in bank-group mode or not (R312, R326; log entry 14). -/
def refCovers (bg : Bool) (b : Nat) : List Nat :=
  if bg then [b % 2 + b % 8 / 2 * 4, b % 2 + b % 8 / 2 * 4 + 2] else [b % 8, b % 8 + 8]

/-- U of R327. -/
def State.unitU (s : State) (ch : Nat) : Nat := if s.rd R.CH_CTL_REF_MODE ch = 0 then 8 else 1

/-- The refresh multiple m of a rate code (R331). -/
def rateMul (code : Nat) : Nat := if code ≤ 2 then 1 else if code = 3 then 2 else 4

/-- Whether a rank's next refresh is forced (R327). -/
def State.refForced (s : State) (ch r : Nat) : Bool :=
  decide (((s.rd R.CH_REF_REF_URGENT ch * s.unitU ch : Nat) : Int) ≤ ((s.chan ch).rankAt r).debt)

/-- Whether a forced refresh of the rank keeps ACTs and column commands from bank `b` (R327). -/
def State.refBlocks (s : State) (ch r b : Nat) : Bool :=
  s.refForced ch r && (s.unitU ch == 1 || (refCovers (s.bgMode ch) ((s.chan ch).rankAt r).rot).contains b)

/-- Whether RFMpb is forced, or opportunistic, for a bank (R330). -/
def Chan.rfmForced (x : Chan) (r b : Nat) : Bool :=
  (x.rankAt r).rfmReq && (x.rankAt r).raammt != 0 && decide ((x.rankAt r).raammt ≤ (x.bankAt r b).raa)
def Chan.rfmDue (x : Chan) (r b : Nat) : Bool :=
  (x.rankAt r).rfmReq && (x.rankAt r).raaimt != 0 && decide ((x.rankAt r).raaimt ≤ (x.bankAt r b).raa)

/-- Whether a maintenance operation holds a rank: long trainings and ZQ calibrations do (R355). -/
def Chan.maintHolds (x : Chan) (r : Nat) : Bool :=
  match x.maint with
  | some (k, q) => q == r && k != 2
  | none => false

/-! ### Maintenance operations -/

/-- Duration of a maintenance operation in CK cycles: kind 1 long training, 2 drift correction, 3 ZQ calibration (R355). -/
def State.maintCk (s : State) (ch kind : Nat) : Nat :=
  if kind = 1 then 40000 else if kind = 2 then 32 else s.tp ch 0x03 + s.tp ch 0x1D + s.tp ch 0x1E + 32

/-- The same in cclk cycles. -/
def State.maintCclk (s : State) (ch kind : Nat) : Nat :=
  if s.ckKhz ch = 0 then 0 else cdiv (s.maintCk ch kind * s.cclkKhz) (s.ckKhz ch)

/-- Whether the maintenance bit stays open long enough for an operation (R56). -/
def State.maintFits (s : State) (ch kind : Nat) : Bool :=
  let d := s.domainOf ch
  bit (s.gateMask d) 16 && (match s.openLeft d 16 with | none => true | some n => decide (s.maintCclk ch kind ≤ n))

/-- Whether a long training that failed waits for the next window: the maintenance bit has been open since before it ended (R357). -/
def State.longWaits (s : State) (ch : Nat) (k : Rank) : Bool :=
  match k.longAt with
  | none => false
  | some t => decide (s.openSince (s.domainOf ch) 16 ≤ t)

/-- The operation that starts now, if one may: in the order of R356, one at a time, on a channel in service. -/
def State.maintStart (s : State) (ch : Nat) : Option (Nat × Nat) :=
  let x := s.chan ch
  if x.maint.isSome ∨ s.inService ch = false ∨ x.seq ≠ 0 ∨ 2 ≤ x.pwr then none
  else
    [1, 2, 3].findSome? fun k =>
      (List.range (s.ranksOf ch)).findSome? fun r =>
        if (x.rankAt r).maintDue k && s.maintFits ch k && !(k == 1 && s.longWaits ch (x.rankAt r)) then some (k, r) else none

/-- Start a maintenance operation in CK cycle `ck`: a long training discards the corrections pending for its rank (R356), a drift correction holds the
next two data slots of its rank in which nothing is on its way (R355). QUIESCED does not hold while it runs (R334). -/
def State.beginMaint (s : State) (ch ck : Nat) : State :=
  match s.maintStart ch with
  | none => s
  | some (k, r) =>
    let x := s.chan ch
    let l := max (s.tp ch 0x06) (s.tp ch 0x07)
    let q := x.rankAt r
    let q := if k = 1 then { q with wrPend := 0, rdOsc := 0, rdPend := [] }
      else if k = 2 then { q with driftAt := some ((max (x.dataEnd + 1) (ck + l) + 1) / 2 * 2) } else q
    s.setChan ch { x.setRank r q with maint := some (k, r), mStep := 0, mNext := 0, mFrom := ck, quiesced := false }

/-! ### Commands -/

/-- What the controller may put on the command bus. `why` of a precharge is 0 for a refresh or a held channel, 1 for a page timeout, 2 for an entry
that needs another row. `oscStart`, `oscStop` and `oscMrr` are the commands of an oscillator run, the last for count `k` (R352). -/
inductive DCmd where
  | pdx (r : Nat)
  | refPb (r b : Nat)
  | refAb (r : Nat)
  | rfm (r b : Nat)
  | pre (r b why : Nat)
  | preAb (r : Nat)
  | cas (r : Nat)
  | act (r b row seq : Nat)
  | col (seq off : Nat) (check : Bool)
  | sre
  | zqStart (r : Nat)
  | zqLatch (r : Nat)
  | mrr (r : Nat)
  | oscStart (r : Nat)
  | oscStop (r : Nat)
  | oscMrr (r k : Nat)
deriving DecidableEq, Repr

/-- Whether a controller entry must wait for an earlier entry of the same atoms (R317): one of the channel that entered the front end
before it and has not issued all its column commands. -/
def State.ordered (s : State) (x : Chan) (e : CEnt) : Bool :=
  (s.turns x).all fun o => !(decide (o.seq < e.seq) && o.meets e.turn)

/-- The key of R318: precedence level, then R295. -/
def CEnt.key (e : CEnt) : List Nat := e.level :: r295Key e.urg e.yellow e.t0 e.seq

/-- Whether an entry hits the open row of its bank. -/
def Chan.hits (x : Chan) (e : CEnt) : Bool := (x.bankAt e.rank e.bank).row == some e.row

/-- Column commands that the open row of its bank has taken since entry `f` began waiting there for another row (R321). -/
def Chan.taken (x : Chan) (f : CEnt) : Nat := (x.bankAt f.rank f.bank).hits - f.base

/-- Whether entry `f` waits for another row in the bank of entry `e`, at the same or a higher level (R321). -/
def CEnt.waitsOn (f e : CEnt) : Bool := f.rank == e.rank && f.bank == e.bank && f.row != e.row && decide (f.level ≤ e.level)

/-- Whether hits to a bank's open row have stopped counting for an entry (R321). -/
def State.hitLimited (s : State) (ch : Nat) (x : Chan) (e : CEnt) : Bool :=
  let m := s.rd R.CH_PAGE_HIT_MAX ch
  m != 0 && x.ctl.any fun f => f.waitsOn e && decide (m ≤ x.taken f)

/-- Whether an entry keeps its bank's row open against another row's entry `f`: it hits, at the same or a higher level, and its hits
still count (R319, R321). -/
def State.keepsRow (s : State) (ch : Nat) (x : Chan) (f : CEnt) : Bool :=
  x.ctl.any fun e => e.rank == f.rank && e.bank == f.bank && x.hits e && decide (e.level ≤ f.level) && !s.hitLimited ch x e

/-- Whether an entry can progress at all in its own direction: R317 lets it, and no row that another entry keeps open stands in its
way. -/
def State.canProgress (s : State) (ch : Nat) (x : Chan) (e : CEnt) : Bool :=
  s.ordered x e && (x.hits e || (x.bankAt e.rank e.bank).row.isNone || !s.keepsRow ch x e)

/-- The controller's entries at the levels they are served at: an entry takes the level of a later entry that waits for it (R317). -/
def State.lift (s : State) (x : Chan) : Chan :=
  let l := (s.effs x).filter fun p => p.held.isSome
  { x with ctl := x.ctl.map fun e =>
      match l.find? fun p => p.seq == e.seq && p.off == e.off && p.held == some e.check with
      | some p => { e with level := min e.level p.level }
      | none => e }

/-- The direction in force after R320, whether a write drain runs, and whether the direction changed. R320 does not say what happens where nothing of
the present direction can ever progress and something of the other can: its list alone would stop the channel for good, so the direction
changes then too, in a drain as well (DEDUCED, log entry 15). -/
def State.direction (s : State) (ch : Nat) : Bool × Bool × Bool :=
  let x := s.lift (s.chan ch)
  let wr := x.ctl.filter (·.write)
  let rds := x.ctl.filter fun e => !e.write
  let high (l : List CEnt) : Nat := l.foldl (fun m e => min m e.level) 99
  let can (l : List CEnt) : Bool := l.any (s.canProgress ch x)
  let rdHigher := !rds.isEmpty && decide (high rds < high wr)
  let drain := x.drain && decide (s.rd R.CH_DIR_WR_LOW ch < wr.length) && !rdHigher
  if x.dir && drain && (can wr || !can rds) then (true, true, false)
  else if x.dir && x.drain && !rds.isEmpty then (false, false, true)
  else
    let cur := if x.dir then wr else rds
    let oth := if x.dir then rds else wr
    let m := s.rd R.CH_DIR_DIR_MAX ch
    let fill := !x.dir && decide (s.rd R.CH_DIR_WR_HIGH ch ≤ wr.length)
    if !oth.isEmpty && (cur.isEmpty || (!can cur && can oth) || decide (high oth < high cur) || fill || (m != 0 && decide (m ≤ x.bursts)))
    then (!x.dir, fill, true)
    else (x.dir, false, false)

/-- Whether the next column command of an entry moves two columns with BL32: it has both halves of a pair still to move (R313). -/
def State.bl32 (s : State) (ch : Nat) (e : CEnt) : Bool :=
  match e.cols with
  | c :: d :: _ => s.rd R.CH_CTL_BL32_EN ch == 1 && c % 2 == 0 && d == c + 1
  | _ => false

/-- Whether the data slots of the next column command of an entry, from CK cycle `c` on, are free: a drift correction of its rank does not hold them
(R355), and no MR4 read fills them (R335). -/
def State.slotsFree (s : State) (ch : Nat) (x : Chan) (e : CEnt) (c : Nat) : Bool :=
  let n := if s.bl32 ch e then 4 else 2
  (match (x.rankAt e.rank).driftAt with
   | some a => decide (c + n ≤ a ∨ a + 4 ≤ c)
   | none => true) && x.mrrAt.all fun m => decide (c + n ≤ 2 * m ∨ 2 * m + 2 ≤ c)

/-- Whether a column command of entry `e` is legal in CK cycle `ck` (R314, R324). -/
def State.colLegal (s : State) (ch ck : Nat) (x : Chan) (e : CEnt) : Bool :=
  let k := x.bankAt e.rank e.bank
  let r := x.rankAt e.rank
  let l := if e.write then s.tp ch 0x07 else s.tp ch 0x06
  let bg := e.bank % 4
  x.hits e && decide (k.colOk ≤ ck ∧ r.ready ≤ ck ∧ r.wckOk ≤ ck ∧ x.colOkAny ≤ ck ∧ Tab.get 0 x.colOkBg bg ≤ ck) &&
  !r.pd && !r.needWck && (ck + l) % 2 == 0 &&
  (if e.write then decide (x.wrOk ≤ ck) else decide (x.rdOkAny ≤ ck ∧ Tab.get 0 x.rdOkBg bg ≤ ck)) &&
  (match x.dataRank with
   | some q => q == e.rank || decide (x.dataEnd + s.tp ch 0x24 ≤ ck + l)
   | none => true) &&
  s.slotsFree ch x e (ck + l)

/-- Whether an ACT of bank `b` is legal in CK cycle `ck`. -/
def State.actLegal (s : State) (ch ck : Nat) (x : Chan) (r b : Nat) : Bool :=
  let k := x.bankAt r b
  let q := x.rankAt r
  k.row.isNone && !q.pd && decide (k.actOk ≤ ck ∧ q.ready ≤ ck ∧ q.actOk ≤ ck) &&
  (match q.acts[3]? with | some a => decide (a + s.tp ch 0x0B ≤ ck) | none => true) && !x.rfmForced r b

/-- Whether a precharge of bank `b` is legal in CK cycle `ck`. -/
def Chan.preLegal (x : Chan) (ck r b : Nat) : Bool :=
  let k := x.bankAt r b
  let q := x.rankAt r
  k.row.isSome && !q.pd && decide (k.preOk ≤ ck ∧ q.ready ≤ ck)

/-- Whether every open bank of a rank may be precharged now, and one is open. -/
def Chan.preAbLegal (x : Chan) (ck r : Nat) : Bool :=
  !(x.openBanks r).isEmpty && (x.openBanks r).all fun b => x.preLegal ck r b

/-- Whether a refresh or RFMpb of closed bank `b` is legal now. -/
def Chan.refBankLegal (x : Chan) (ck r b : Nat) : Bool :=
  let k := x.bankAt r b
  let q := x.rankAt r
  k.row.isNone && !q.pd && decide (k.refOk ≤ ck ∧ q.ready ≤ ck)

def Chan.refPbLegal (x : Chan) (bg : Bool) (ck r : Nat) : Bool :=
  decide ((x.rankAt r).refOk ≤ ck) && (refCovers bg (x.rankAt r).rot).all fun b => x.refBankLegal ck r b
def Chan.refAbLegal (x : Chan) (ck r : Nat) : Bool :=
  decide ((x.rankAt r).refOk ≤ ck) && (List.range 16).all fun b => x.refBankLegal ck r b
def Chan.idleLegal (x : Chan) (ck r : Nat) : Bool := !(x.rankAt r).pd && decide ((x.rankAt r).ready ≤ ck)

/-- The refresh of a rank that comes next, or the precharge it needs. -/
def State.refOrPre (s : State) (ch ck : Nat) (x : Chan) (r : Nat) : Option DCmd :=
  if s.unitU ch = 8 then
    if x.refPbLegal (s.bgMode ch) ck r then some (.refPb r (x.rankAt r).rot)
    else ((refCovers (s.bgMode ch) (x.rankAt r).rot).find? fun b => x.preLegal ck r b).map fun b => .pre r b 0
  else if x.refAbLegal ck r then some (.refAb r)
  else if x.preAbLegal ck r then some (.preAb r)
  else none

/-- The next command of an oscillator run that is due on a rank: MPC start, MPC stop once the run time has passed, and the reads of the two counts
(R352). -/
def Chan.oscCmd (x : Chan) (ck r : Nat) : Option DCmd :=
  let k := x.rankAt r
  if k.osc = 0 ∨ x.idleLegal ck r = false ∨ (k.oscStep ≠ 0 ∧ ck < k.oscAt) then none
  else if k.oscStep = 0 then some (.oscStart r)
  else if k.oscStep = 1 then some (.oscStop r)
  else some (.oscMrr r (k.oscStep - 2))

/-- Group 1 of R318: forced refresh and refresh management, the precharges they need, and overdue mode register reads. -/
def State.group1 (s : State) (ch ck : Nat) (x : Chan) : Option DCmd :=
  (List.range (s.ranksOf ch)).findSome? fun r =>
    let ref := if s.refForced ch r then s.refOrPre ch ck x r else none
    match ref with
    | some c => some c
    | none =>
      let rfm := (List.range 16).findSome? fun b =>
        if x.rfmForced r b then
          if x.refBankLegal ck r b then some (DCmd.rfm r b)
          else if x.preLegal ck r b then some (DCmd.pre r b 0) else none
        else none
      match rfm with
      | some c => some c
      | none =>
        if (x.rankAt r).mr4 = 2 ∧ x.idleLegal ck r then some (.mrr r)
        else if (x.rankAt r).osc = 2 then x.oscCmd ck r
        else none

/-- Group 2: the commands of a started operation, first the all-bank precharge that it needs (R322). A ZQ calibration is then started and latched
(R323, R355); the spec names no commands of a long training or a drift correction. -/
def State.group2 (ck : Nat) (x : Chan) : Option DCmd :=
  match x.maint with
  | some (k, r) =>
    if k = 2 then none
    else if (x.openBanks r).isEmpty = false then if x.preAbLegal ck r then some (.preAb r) else none
    else if k ≠ 3 ∨ x.idleLegal ck r = false ∨ ck < x.mNext then none
    else if x.mStep = 0 then some (.zqStart r)
    else if x.mStep = 1 then some (.zqLatch r)
    else none
  | none => none

/-- Whether an entry may have commands issued for it: its rank is not held by a maintenance operation. -/
def State.served (x : Chan) (e : CEnt) : Bool := !x.maintHolds e.rank

/-- Group 3: column commands of the direction in force, and the WCK synchronisation one of them needs (R318, R324). -/
def State.group3 (s : State) (ch ck : Nat) (x : Chan) (dir : Bool) (l : List CEnt) : Option DCmd :=
  l.findSome? fun e =>
    if e.write = dir ∧ s.ordered x e = true ∧ x.hits e = true ∧ State.served x e = true ∧ s.refBlocks ch e.rank e.bank = false ∧
        s.hitLimited ch x e = false then
      if (x.rankAt e.rank).needWck ∧ x.idleLegal ck e.rank then some (.cas e.rank)
      else if s.colLegal ch ck x e then some (.col e.seq e.off e.check)
      else none
    else none

/-- Whether an ACT for an entry gives way to an entry of a higher level that waits for another row of the bank (R319). -/
def Chan.actYields (x : Chan) (e : CEnt) : Bool :=
  x.ctl.any fun f => f.rank == e.rank && f.bank == e.bank && f.row != e.row && decide (f.level < e.level)

/-- Group 4: PRE and ACT for entries whose row is not open (R318, R319, R321). -/
def State.group4 (s : State) (ch ck : Nat) (x : Chan) (l : List CEnt) : Option DCmd :=
  l.findSome? fun e =>
    if x.hits e = true ∨ State.served x e = false ∨ s.refBlocks ch e.rank e.bank = true then none
    else if (x.bankAt e.rank e.bank).row.isSome then
      if s.keepsRow ch x e then none
      else if x.preLegal ck e.rank e.bank then some (.pre e.rank e.bank 2) else none
    else if x.actYields e then none
    else if s.actLegal ch ck x e.rank e.bank then some (.act e.rank e.bank e.row e.seq)
    else none

/-- Whether Squall holds opportunistic and pulled-in refresh of a channel (R467). -/
def State.refHeld (s : State) (ch : Nat) : Bool := s.squall.unlocked && bit (s.rd R.SQ_REF_HOLD_CHANNELS) ch

/-- The refresh of a rank as group 5 offers it. -/
def State.refOffer (s : State) (ch ck : Nat) (x : Chan) (r : Nat) : Option DCmd :=
  if s.unitU ch = 8 then if x.refPbLegal (s.bgMode ch) ck r then some (.refPb r (x.rankAt r).rot) else none
  else s.refOrPre ch ck x r

/-- Whether Dusk is to place the channel in self-refresh: it is in service and its REQ is 0 (step 4 of R398). -/
def State.duskDue (s : State) (ch : Nat) : Bool :=
  s.flushed && s.inService ch && s.rd R.CH_PWR_REQ ch == 0 && (s.chan ch).pwr < 2

/-- Whether the controller is to place the channel in self-refresh: CH_PWR.REQ asks for it, a warm Dawn, the end of a repair, or Dusk (R343, R380,
R394, R398). -/
def State.srDue (s : State) (ch : Nat) : Bool :=
  let x := s.chan ch
  x.warm.isSome || (x.srReq && x.pwr < 2 && s.rd R.CH_PWR_REQ ch != 0) || s.duskDue ch

/-- Whether a rank has met for PD_IDLE CK cycles what power-down asks for (R333). -/
def State.pdWaits (s : State) (ch ck : Nat) (x : Chan) (r : Nat) : Bool :=
  let k := x.rankAt r
  s.inService ch && x.seq == 0 && decide (x.pwr < 2) && s.rd R.CH_CTL_PD_EN ch == 1 && !k.pd && decide (r < s.ranksOf ch) &&
    x.ctl.all (fun e => e.rank != r) && decide (k.idleFrom + s.rd R.CH_PD_PD_IDLE ch ≤ ck) && !decide (1 ≤ k.debt) && k.mr4 == 0 && k.osc == 0 &&
    !x.maintHolds r && (List.range 16).all (fun b => !x.rfmDue r b)

/-- Group 5 (R318): opportunistic refresh, opportunistic RFMpb, MR4 reads and oscillator commands that are due, pulled-in refresh, and
page-timeout precharges. Before them come the all-bank precharges of a channel that is held, stopped or about to enter self-refresh, and of a rank
that power-down waits for (R322, R334; DESIGN CHOICE, log entry 130). -/
def State.group5 (s : State) (ch ck : Nat) (x : Chan) : Option DCmd :=
  let rs := (List.range (s.ranksOf ch)).filter fun r => !x.maintHolds r
  let busy (r b : Nat) : Bool := x.ctl.any fun e => e.rank == r && e.bank == b
  let opp := if s.refHeld ch && !s.srDue ch && !s.power.prepared then none else rs.findSome? fun r =>
    if 1 ≤ (x.rankAt r).debt ∧ (if s.unitU ch = 8 then (refCovers (s.bgMode ch) (x.rankAt r).rot) else List.range 16).all (fun b => !busy r b) then
      s.refOffer ch ck x r
    else none
  let rfm := if s.refHeld ch then none else rs.findSome? fun r => (List.range 16).findSome? fun b =>
    if x.rfmDue r b ∧ x.refBankLegal ck r b then some (DCmd.rfm r b) else none
  let mr := rs.findSome? fun r =>
    if (x.rankAt r).mr4 ≠ 0 ∧ x.idleLegal ck r then some (DCmd.mrr r)
    else x.oscCmd ck r
  let pull := if s.refHeld ch then none else rs.findSome? fun r =>
    if -((s.rd R.CH_REF_REF_PULLIN ch * s.unitU ch : Nat) : Int) < (x.rankAt r).debt ∧ x.ctl.all (fun e => e.rank != r) then
      s.refOffer ch ck x r
    else none
  let held := (s.rd R.CH_CTL_HOLD ch == 1 || x.imgStop || x.pprHold || s.srDue ch || s.power.prepared) && x.ctl.isEmpty
  let shut := rs.findSome? fun r => if (held || s.pdWaits ch ck x r) && x.preAbLegal ck r then some (DCmd.preAb r) else none
  let idle := rs.findSome? fun r => (x.openBanks r).findSome? fun b =>
    let k := x.bankAt r b
    let hit := x.ctl.any fun e => e.rank == r && e.bank == b && x.hits e
    if !hit && decide (k.lastCol + s.rd R.CH_PAGE_PAGE_IDLE ch ≤ ck) && x.preLegal ck r b then some (DCmd.pre r b 1) else none
  [opp, rfm, mr, pull, shut, idle].findSome? id

/-- Whether a rank in power-down must leave it (R333). -/
def State.leavesPd (s : State) (ch : Nat) (x : Chan) (r : Nat) : Bool :=
  let k := x.rankAt r
  s.srDue ch || x.ctl.any (fun e => e.rank == r) || decide (((s.unitU ch : Nat) : Int) ≤ k.debt) || k.mr4 != 0 || k.osc != 0 ||
    (match x.maint with | some (_, q) => q == r | none => false)

/-- Power-down exits that are due and legal: tPDMIN has passed (R333). -/
def State.pdExit (s : State) (ch ck : Nat) (x : Chan) : Option DCmd :=
  (List.range (s.ranksOf ch)).findSome? fun r =>
    let k := x.rankAt r
    if k.pd && s.leavesPd ch x r && decide (k.pdAt + s.tp ch 0x19 ≤ ck) then some (.pdx r) else none

/-- Whether self-refresh entry is legal: the controller is empty, no maintenance operation runs, every bank is precharged, every debt is 0 or below and
every rank ready (R328, R392). -/
def State.sreLegal (s : State) (ch ck : Nat) (x : Chan) : Bool :=
  x.ctl.isEmpty && x.maint.isNone &&
    (List.range (s.ranksOf ch)).all fun r => (x.openBanks r).isEmpty && x.idleLegal ck r && decide ((x.rankAt r).debt ≤ 0 ∧ (x.rankAt r).refOk ≤ ck)

/-- Whether refresh debt accrues in the sequence that runs on a channel: from the end of SETPOINT, or of SR_EXIT (R346). -/
def State.dawnAccrues (s : State) (ch : Nat) : Bool :=
  let x := s.chan ch
  x.seq != 0 && decide (x.step ∈ (if x.seq = 1 then [4, 5, 6, 7, 8, 9, 12, 13, 15] else if x.seq = 4 then [3, 5, 6, 7, 8, 9, 12, 15] else
    [2, 3, 5, 7, 10, 11, 12, 15]))

/-- The command the controller issues in CK cycle `ck`, if one is legal (R318). While a sequence runs, only forced refreshes issue (R346);
a channel in self-refresh, out of service or never trained issues nothing, a Retired one only while the controller holds entries (R395). -/
def State.choose (s : State) (ch ck : Nat) (x : Chan) (dir : Bool) : Option DCmd :=
  let x := s.lift x
  if ck < x.cmdAt ∨ 2 ≤ x.pwr then none
  else if x.seq ≠ 0 then
    if s.dawnAccrues ch then
      (List.range (s.ranksOf ch)).findSome? fun r => if s.refForced ch r then s.refOrPre ch ck x r else none
    else none
  else if s.inService ch = false ∧ (x.retired = false ∨ x.ctl.isEmpty = true) then none
  else
    let l := sortBy CEnt.key x.ctl
    match s.pdExit ch ck x with
    | some c => some c
    | none =>
      match s.group1 ch ck x with
      | some c => some c
      | none =>
        if s.srDue ch ∧ s.sreLegal ch ck x then some .sre
        else
        match State.group2 ck x with
        | some c => some c
        | none =>
          match s.group3 ch ck x dir l with
          | some c => some c
          | none =>
            match s.group4 ch ck x l with
            | some c => some c
            | none => s.group5 ch ck x

/-- The next refresh of a rank becomes forced, if it is: REF_DEBT_MAX (R327). -/
def State.debtMax (s : State) (ch r : Nat) : State :=
  if s.refForced ch r then (s.setBit R.CH_STATUS_DEBT_MAX ch 0).raiseChan 9 ch else s

/-! ### Effects -/

/-- A bank refreshed or managed: RAA falls by RAAIMT, stopping at 0 (R330), and the next ACT waits `t`. -/
def Chan.refreshBank (x : Chan) (r b until_ : Nat) : Chan :=
  let k := x.bankAt r b
  x.setBank r b { k with raa := k.raa - (x.rankAt r).raaimt, actOk := max k.actOk until_, refOk := max k.refOk until_, refUntil := until_ }

/-- A precharge of bank `b` at `ck` with the wait `t` before its next ACT or refresh. -/
def Chan.closeBank (x : Chan) (ck r b t : Nat) : Chan :=
  let k := x.bankAt r b
  x.setBank r b { k with row := none, hits := 0, actOk := max k.actOk (ck + t), refOk := max k.refOk (ck + t) }

/-- The corrections that the two oscillator counts last read of a rank give (R352); DRIFT_HIGH if one that is pending reaches DRIFT_LIMIT (R354). -/
def State.oscResult (s : State) (ch r : Nat) : State :=
  let oi := s.rd R.PHY_OSC_I_LAST ch r
  let oo := s.rd R.PHY_OSC_O_LAST ch r
  let x := s.chan ch
  let k := x.rankAt r
  let dI := Config.oscSteps (s.rd R.PHY_OSC_I_BASE ch r) (oi % 2 ^ 16) - k.wrDone
  let dO := Config.oscSteps (s.rd R.PHY_OSC_O_BASE ch r) (oo % 2 ^ 16) - k.rdDone
  let k' := { k with osc := 0, oscStep := 0, wrPend := dI, rdOsc := if k.swept ≠ 0 then 0 else dO, swept := k.swept - 1 }
  let s := s.setChan ch (x.setRank r k')
  let m := max k'.wrPend.natAbs k'.rdOsc.natAbs
  if m ≠ 0 ∧ s.rd R.PHY_DRIFT_CFG_DRIFT_LIMIT ch ≤ m then
    (s.setBit R.PHY_STATUS_DRIFT_HIGH ch 0).raiseChan 11 ch
  else s

/-- Whether any rank of a channel reports a raised refresh rate (R332). -/
def State.refRaised (s : State) (ch : Nat) : Bool := (s.chan ch).ranks.any fun e => decide (3 ≤ e.2.rate)

/-- A rank's rate code is read (R331, R332). -/
def State.rateRead (s : State) (ch r code : Nat) : State :=
  let raised := s.refRaised ch
  let x := s.chan ch
  let k := x.rankAt r
  let s := s.setChan ch (x.setRank r { k with rate := code % 8, mr4 := 0 })
  let s := if code % 8 ≠ k.rate then (s.setBit R.CH_STATUS_RATE_CHANGE ch 0).raiseChan 9 ch else s
  let s := if s.refRaised ch && !raised then s.raiseChan 9 ch else s
  let s := if s.refRaised ch != raised then s.testInput else s
  if code % 8 = 5 then (s.setBit R.CH_STATUS_REF_LIMIT ch 0).raiseChan 9 ch else s

/-- A column command of entry `e` issues: the bus, the bank and the rank take its times, and the entry loses the columns it moves. A read burst is
noted with its queue entry (R358). -/
def State.issueCol (s : State) (ch ck : Nat) (e : CEnt) : State :=
  match e.cols with
  | [] => s
  | _ :: one =>
    let x := s.chan ch
    let bl32 := s.bl32 ch e
    let rest := if bl32 then one.drop 1 else one
    let n := if bl32 then 4 else 2
    let l := if e.write then s.tp ch 0x07 else s.tp ch 0x06
    let lastData := ck + l + n - 1
    let bg := e.bank % 4
    let bgm := s.bgMode ch
    let cs := if bgm then s.tp ch 0x08 else s.tp ch 0x09
    let k := x.bankAt e.rank e.bank
    let limit := s.rd R.CH_PAGE_HIT_MAX ch
    let lifted := s.lift x
    let reached := limit != 0 && (lifted.ctl.any fun f => lifted.ctl.any fun h =>
      h.seq == e.seq && h.off == e.off && h.check == e.check && f.waitsOn h && x.taken f + 1 == limit)
    let x := x.setBank e.rank e.bank { k with
      lastCol := ck, hits := k.hits + 1
      preOk := max k.preOk (if e.write then lastData + s.tp ch 0x0C else ck + s.tp ch 0x0F) }
    let wtr := if bgm then s.tp ch 0x0D else s.tp ch 0x0E
    let x := { x with
      colOkAny := max x.colOkAny (ck + max cs n)
      colOkBg := Tab.insert bg (ck + max (s.tp ch 0x09) n) x.colOkBg
      rdOkAny := if e.write then lastData + wtr else x.rdOkAny
      rdOkBg := if e.write then Tab.insert bg (lastData + s.tp ch 0x0E) x.rdOkBg else x.rdOkBg
      wrOk := if e.write then x.wrOk else ck + s.tp ch 0x10 + (if bl32 then 2 else 0)
      dataEnd := lastData, dataRank := some e.rank
      bursts := x.bursts + 1, cmdAt := ck + 1
      slotNext := max x.slotNext ((ck + l + n) / 2) }
    let e' := { e with cols := rest }
    let same (f : CEnt) : Bool := f.seq == e.seq && f.off == e.off && f.check == e.check
    let b := { e with off := e.off + (e.n - e.cols.length), a := e.a + 32 * (e.n - e.cols.length), n := n / 2, cols := e.cols.take (n / 2) }
    let note (q : QEnt) : QEnt := if q.seq = e.seq ∧ e.write = false then { q with sent := q.sent ++ [b] } else q
    let ctl := if rest.isEmpty then x.ctl.filter (fun f => !same f) else x.ctl.map fun f => if same f then e' else f
    let whole := !(ctl.any fun f => f.seq == e.seq)
    let fly := x.fly.map note
    let fin := if whole then fly.find? fun q => q.seq == e.seq else none
    let x := { x with
      ctl := ctl
      cq := x.cq.map note
      fly := if fin.isSome then fly.filter (fun q => q.seq != e.seq) else fly
      done := match fin with | some q => if q.sub.write then x.done else x.done ++ [q] | none => x.done }
    let s := s.setChan ch x
    let s := if reached then s.count { ev := 0x104, ch := some ch } else s
    let s := (s.stamp e.ctag 5).stamp e.ctag 6
    let s := s.count { ev := if e.write then (if bl32 then 0x0F6 else 0x0F5) else if bl32 then 0x0F4 else 0x0F3, ch := some ch }
    let s := if e.hit then s.count { ev := 0x0FC, ch := some ch } else s
    let s := s.count { ev := 0x0E0, n := n / 2, ch := some ch }
    if e.check then (s.count { ev := 0x0E2, n := n / 2, ch := some ch }).count { ev := 0x0E7, n := n / 2, ch := some ch }
    else if e.header then (s.count { ev := 0x0E2, n := n / 2, ch := some ch }).count { ev := 0x0E8, n := n / 2, ch := some ch }
    else s.count { ev := 0x0E1, n := n / 2, ch := some ch }

/-- The state of the dies that a REQ value asks for: 2 self-refresh, 3 deep sleep. -/
def reqState (v : Nat) : Nat := if v = 0 then 0 else v + 1

/-- A command issues in CK cycle `ck`. -/
def State.issue (s : State) (ch ck : Nat) (c : DCmd) (mr : MrrData) : State :=
  let x := s.chan ch
  let next (x : Chan) : Chan := { x with cmdAt := ck + 1 }
  match c with
  | .pdx r =>
    s.setChan ch (next (x.setRank r { x.rankAt r with pd := false, ready := ck + s.tp ch 0x18, needWck := true }))
  | .refPb r b =>
    let k := x.rankAt r
    let forced := s.refForced ch r
    let x := (refCovers (s.bgMode ch) b).foldl (fun x b => x.refreshBank r b (ck + s.tp ch 0x13)) x
    let x := x.setRank r { x.rankAt r with
      debt := k.debt - 1, rot := (k.rot + 1) % 8, refOk := ck + s.tp ch 0x14, actOk := max k.actOk (ck + s.tp ch 0x15) }
    let s := ((s.setChan ch (next x)).bump R.CH_REF_CNT_COUNT ch 0 1).count { ev := 0x0F7, ch := some ch }
    (if forced then s.count { ev := 0x100, ch := some ch } else s).debtMax ch r
  | .refAb r =>
    let k := x.rankAt r
    let forced := s.refForced ch r
    let t := ck + s.tp ch 0x12
    let x := (List.range 16).foldl (fun x b => x.refreshBank r b t) x
    let x := x.setRank r { x.rankAt r with debt := k.debt - 1, ready := t, refUntil := t }
    let s := ((s.setChan ch (next x)).bump R.CH_REF_CNT_COUNT ch 0 1).count { ev := 0x0F8, ch := some ch }
    (if forced then s.count { ev := 0x100, ch := some ch } else s).debtMax ch r
  | .rfm r b =>
    let x := x.refreshBank r b (ck + s.tp ch 0x1F)
    ((s.setChan ch (next x)).bump R.CH_RFM_CNT_COUNT ch 0 1).count { ev := 0x0F9, ch := some ch }
  | .pre r b why =>
    let s := s.setChan ch (next (x.closeBank ck r b (s.tp ch 0x02)))
    let s := s.count { ev := 0x0F1, ch := some ch }
    if why = 1 then s.count { ev := 0x0FE, ch := some ch } else if why = 2 then s.count { ev := 0x0FD, ch := some ch } else s
  | .preAb r =>
    let x := (List.range 16).foldl (fun x b => x.closeBank ck r b (s.tp ch 0x03)) x
    let x := x.setRank r { x.rankAt r with ready := max (x.rankAt r).ready (ck + s.tp ch 0x03) }
    (s.setChan ch (next x)).count { ev := 0x0F2, ch := some ch }
  | .cas r =>
    let t := s.tp ch 0x22 + s.tp ch 0x23 + (if x.dir then s.tp ch 0x21 else s.tp ch 0x20)
    s.setChan ch (next (x.setRank r { x.rankAt r with needWck := false, wckOk := ck + t }))
  | .act r b row seq =>
    let k := x.bankAt r b
    let q := x.rankAt r
    let tag := (x.ctl.find? fun e => e.seq == seq).bind (·.ctag)
    let x := x.setBank r b { k with
      row := some row, hits := 0, raa := if q.rfmReq then k.raa + 1 else k.raa, lastCol := ck
      colOk := ck + s.tp ch 0x01, preOk := max k.preOk (ck + s.tp ch 0x04), actOk := max k.actOk (ck + s.tp ch 0x05) }
    let x := x.setRank r { q with acts := (ck :: q.acts).take 4, actOk := max q.actOk (ck + s.tp ch 0x0A) }
    let s := s.setChan ch { x with cmdAt := ck + 2, ctl := x.ctl.map fun e => if e.rank = r ∧ e.bank = b then { e with base := 0 } else e }
    (s.stamp tag 5).count { ev := 0x0F0, ch := some ch }
  | .col seq off check =>
    match x.ctl.find? fun e => e.seq == seq && e.off == off && e.check == check with
    | some e => s.issueCol ch ck e
    | none => s
  | .sre =>
    match x.warm with
    | some t =>
      let ppr := s.integ.pprSt == 3 && s.integ.pprCh == ch
      (s.setChan ch (next { x with pwr := 2 })).startSeq ch (if ppr then 3 else 2) (if ppr then none else some t) false
    | none =>
      if s.duskDue ch then
        { s.setChan ch (next { x with pwr := 2 + s.rd R.PWR_CTL_DUSK_DEEP }) with
          power := { s.power with duskChans := s.power.duskChans ++ [ch], duskAll := s.power.duskAll ++ [ch] } }
      else s.setChan ch (next { x with pwr := reqState (s.rd R.CH_PWR_REQ ch) })
  | .zqStart _ =>
    s.setChan ch { next x with mStep := 1, mNext := ck + s.tp ch 0x1D }
  | .zqLatch r =>
    let t := ck + s.tp ch 0x1E
    s.setChan ch { next (x.setRank r { x.rankAt r with ready := max (x.rankAt r).ready t }) with mStep := 2, mNext := t }
  | .mrr r =>
    let k := { x.rankAt r with ready := ck + s.tp ch 0x1A, refUntil := ck + s.tp ch 0x1A }
    let s := s.setChan ch { next (x.setRank r k) with mrrAt := x.mrrAt ++ [(ck + s.tp ch 0x06) / 2] }
    ((s.rateRead ch r mr.rate).count { ev := 0x0FA, ch := some ch }).count { ev := 0x106, ch := some ch }
  | .oscStart r =>
    s.setChan ch (next (x.setRank r { x.rankAt r with oscStep := 1, oscAt := ck + Config.oscRunCk }))
  | .oscStop r =>
    s.setChan ch (next (x.setRank r { x.rankAt r with oscStep := 2, oscAt := 0 }))
  | .oscMrr r n =>
    let k := { x.rankAt r with oscStep := 3, ready := ck + s.tp ch 0x1A, refUntil := ck + s.tp ch 0x1A }
    let s := (s.setChan ch (next (x.setRank r k))).count { ev := 0x0FA, ch := some ch }
    if n = 0 then s.wr R.PHY_OSC_I_LAST ch r mr.oscI
    else ((s.wr R.PHY_OSC_O_LAST ch r mr.oscO).oscResult ch r).count { ev := 0x116, ch := some ch }

/-- The rank whose idle time a command ends: that of an entry's command, of a refresh that was forced or opportunistic, of refresh management, a mode
register read or an oscillator's command, or of a power-down exit (R333). -/
def DCmd.busyRank (x : Chan) : DCmd → Option Nat
  | .pdx r | .rfm r _ | .act r _ _ _ | .mrr r | .oscStart r | .oscStop r | .oscMrr r _ => some r
  | .refPb r _ | .refAb r => if 1 ≤ (x.rankAt r).debt then some r else none
  | .col seq off check => (x.ctl.find? fun e => e.seq == seq && e.off == off && e.check == check).map (·.rank)
  | .pre _ _ _ | .preAb _ | .cas _ | .sre | .zqStart _ | .zqLatch _ => none

/-- A rank is not idle in CK cycle `ck`. -/
def Chan.touchRank (x : Chan) (r : Option Nat) (ck : Nat) : Chan :=
  match r with
  | none => x
  | some r => x.setRank r { x.rankAt r with idleFrom := ck }

/-! ### Slot accounting (R335) -/

/-- Counter events of the slot categories: WASTED with its sub-category, or a category of its own. -/
def slotEvents (row : Nat) : List Nat :=
  match row with
  | 4 => [0x0E2, 0x0E3]
  | 5 => [0x0E9]
  | 6 => [0x0E2, 0x0E4]
  | 7 => [0x0E2, 0x0E5]
  | 8 => [0x0E2, 0x0E6]
  | _ => [0x0EA]

/-- The row of R335 that an idle slot judged at CK cycle `c` takes. -/
def State.slotRow (s : State) (ch : Nat) (x : Chan) (dir : Bool) (cand : Option CEnt) (c : Nat) : Nat :=
  if x.seq ≠ 0 then 4
  else
    match cand with
    | none => 5
    | some e =>
      let k := x.bankAt e.rank e.bank
      let r := x.rankAt e.rank
      let l := if e.write then s.tp ch 0x07 else s.tp ch 0x06
      let drift := match r.driftAt with | some a => decide (a ≤ c + l ∧ c + l < a + 4) | none => false
      if x.maintHolds e.rank || drift then 4
      else if s.refBlocks ch e.rank e.bank || x.rfmForced e.rank e.bank || decide (c < k.refUntil ∨ c < r.refUntil) then 6
      else if e.write ≠ dir ∨ (if e.write then c < x.wrOk else (c < x.rdOkAny ∨ c < Tab.get 0 x.rdOkBg (e.bank % 4))) ∨
          (x.dataRank.isSome ∧ x.dataRank ≠ some e.rank ∧ c + l < x.dataEnd + s.tp ch 0x24) then 7
      else if r.pd = true ∨ r.needWck = true ∨ c < r.wckOk ∨ (k.row.isSome ∧ k.row ≠ some e.row) ∨
          (k.row = some e.row ∧ c < k.colOk) ∨ (k.row = none ∧ s.actLegal ch c x e.rank e.bank = true) ∨
          (k.row = none ∧ c < k.actOk) then 8
      else 9

/-- The entry R318 groups 3 and 4 would serve first if every timing rule were met. -/
def State.slotCand (s : State) (ch : Nat) (x : Chan) (dir : Bool) : Option CEnt :=
  let x := s.lift x
  let l := sortBy CEnt.key x.ctl
  match l.find? fun e => e.write == dir && x.hits e && s.ordered x e && !s.hitLimited ch x e with
  | some e => some e
  | none => l.find? fun e => !x.hits e &&
      (if (x.bankAt e.rank e.bank).row.isSome then !s.keepsRow ch x e else !x.actYields e)

/-- Count an idle slot of row `row`, `n` times. -/
def State.countSlots (s : State) (ch row n : Nat) : State :=
  if n = 0 then s
  else (slotEvents row).foldl (fun s ev => s.count { ev := ev, n := n, ch := some ch }) (s.count { ev := 0x0E0, n := n, ch := some ch })

/-- The CK cycle from which no time that a candidate may wait on still runs, so that every idle slot judged from there on takes one row. -/
def State.settledAt (s : State) (ch : Nat) (x : Chan) (cand : Option CEnt) : Nat :=
  match cand with
  | none => 0
  | some e =>
    let k := x.bankAt e.rank e.bank
    let r := x.rankAt e.rank
    [k.refUntil, r.refUntil, x.wrOk, x.rdOkAny, Tab.get 0 x.rdOkBg (e.bank % 4), x.dataEnd + s.tp ch 0x24, r.wckOk, k.colOk, k.actOk, r.ready, r.actOk,
      (r.acts[3]?).elim 0 (· + s.tp ch 0x0B), (r.driftAt).elim 0 (· + 4)].foldl max 0

/-- Account the idle slots of a channel that are judged before CK cycle `ck`: each is judged on the state that held since the last command. A slot that
the data of an MR4 read fill is engine work (R335). -/
def State.accountSlots (s : State) (ch ck : Nat) : State :=
  let x := s.chan ch
  let l := if x.dir then s.tp ch 0x07 else s.tp ch 0x06
  let first := x.slotNext
  let last := max first ((ck + l) / 2)
  let mine := x.mrrAt.filter fun m => decide (first ≤ m ∧ m < last)
  let s := if s.countingOn = false ∨ 2 ≤ x.pwr ∨ x.retired = true ∨ (s.inService ch = false ∧ x.seq = 0) then s
    else
      let cand := s.slotCand ch x x.dir
      let judge (i : Nat) : Nat := s.slotRow ch x x.dir cand (2 * i - l)
      let mid := min last (max first ((s.settledAt ch x cand + l) / 2 + 1))
      let s := (List.range (mid - first)).foldl (fun s i => if mine.contains (first + i) then s else s.countSlots ch (judge (first + i)) 1) s
      let s := s.countSlots ch (judge mid) (last - mid - (mine.filter fun m => decide (mid ≤ m)).length)
      let n := mine.length
      if n = 0 then s else (s.count { ev := 0x0E0, n := n, ch := some ch }).count { ev := 0x0E1, n := n, ch := some ch }
  s.setChan ch { s.chan ch with slotNext := last, mrrAt := (s.chan ch).mrrAt.filter fun m => decide (last ≤ m) }

/-- The chclk cycles up to CK cycle `ck` pass for the controller's counters: entries held, and cycles with a rank in power-down (R430). -/
def State.countChclk (s : State) (ch ck : Nat) : State :=
  let x := s.chan ch
  let from_ := x.chclkAt
  let s := s.count { ev := 0x103, n := (ck / 2 - from_) * x.ctl.length, ch := some ch }
  let s := match minOf ((x.ranks.filter fun e => e.2.pd).map fun e => e.2.pdAt / 2) with
    | some a => s.count { ev := 0x102, n := ck / 2 - max from_ a, ch := some ch }
    | none => s
  s.setChan ch { s.chan ch with chclkAt := max from_ (ck / 2) }

/-- Whether a command serves an entry below the highest level that the controller holds (R319). -/
def DCmd.lower (x : Chan) (c : DCmd) : Bool :=
  let below (l : List CEnt) : Bool :=
    match minOf (l.map (·.level)) with
    | some n => x.ctl.any fun f => decide (f.level < n)
    | none => false
  match c with
  | .col seq off check => below (x.ctl.filter fun e => e.seq == seq && e.off == off && e.check == check)
  | .act r b row seq => below (x.ctl.filter fun e => e.seq == seq && e.rank == r && e.bank == b && e.row == row)
  | .pre r b why => why == 2 && below (x.ctl.filter fun e => e.rank == r && e.bank == b && !x.hits e)
  | _ => false

/-- A Retired channel's pads, chclk and PHY stop once its controller has completed the entries it held (R395). -/
def State.endRetire (s : State) (ch : Nat) : State :=
  if (s.chan ch).retired ∧ (s.chan ch).ctl.isEmpty then s.holdChclk [ch] else s

/-- DRAM_COMMAND_ISSUE: in CK cycle `ck` the controller of channel `ch` takes its direction (R320), starts a maintenance operation that
may start (R356), and issues the first legal command of the groups of R318. `mr` is what the dies answer to a mode register read. -/
def execDramCommandIssue (ch ck : Nat) (mr : MrrData) (s : State) : Host.Outcome State Fault Refusal :=
  let s := (s.countChclk ch ck).accountSlots ch ck
  let d := s.direction ch
  let s := s.setChan ch { s.chan ch with dir := d.1, drain := d.2.1, bursts := if d.2.2 then 0 else (s.chan ch).bursts }
  let s := if d.2.2 then ((s.bump R.CH_TURN_CNT_COUNT ch 0 1).count { ev := 0x0FF, ch := some ch }).accountSlots ch ck else s
  let s := s.beginMaint ch ck
  match s.choose ch ck (s.chan ch) d.1 with
  | none => .next s
  | some c =>
    let r := c.busyRank (s.chan ch)
    let s := if c.lower (s.lift (s.chan ch)) then s.count { ev := 0x105, ch := some ch } else s
    let s := s.issue ch ck c mr
    .next ((s.setChan ch ((s.chan ch).touchRank r ck)).endRetire ch)

/-- REFRESH_ACCRUAL: the refresh debt of a rank rises by 1, unless its dies refresh themselves or no sequence has brought them up. A refresh
that becomes forced raises REF_DEBT_MAX (R326 to R328). -/
def execRefreshAccrual (ch r _ck : Nat) (s : State) : Host.Outcome State Fault Refusal :=
  let x := s.chan ch
  let runs := (s.inService ch && x.pwr < 2) || s.dawnAccrues ch
  if runs = false ∨ s.ranksOf ch ≤ r then .next s
  else
    let was := s.refForced ch r
    let s := s.setChan ch (x.setRank r { x.rankAt r with debt := (x.rankAt r).debt + 1 })
    .next (if was then s else s.debtMax ch r)

/-- MR4_READ_DUE: a rank's MR4 read falls due; one that is due already is late and moves to group 1 (R331). -/
def execMr4ReadDue (ch r : Nat) (s : State) : Host.Outcome State Fault Refusal :=
  let x := s.chan ch
  if s.inService ch = false ∨ 2 ≤ x.pwr ∨ s.ranksOf ch ≤ r then .next s
  else .next (s.setChan ch (x.setRank r { x.rankAt r with mr4 := min 2 ((x.rankAt r).mr4 + 1) }))

/-- OSC_DUE: the oscillator run of each rank falls due; one that is due already is late and moves to group 1 (R352). -/
def execOscDue (ch : Nat) (s : State) : Host.Outcome State Fault Refusal :=
  let x := s.chan ch
  if s.inService ch = false ∨ 2 ≤ x.pwr then .next s
  else
    .next (s.setChan ch ((List.range (s.ranksOf ch)).foldl (fun x r => x.setRank r { x.rankAt r with osc := min 2 ((x.rankAt r).osc + 1) }) x))

/-- POWER_DOWN_ENTRY: in CK cycle `ck` a rank that has had no entry, no refresh or mode register read due and no maintenance operation for PD_IDLE CK
cycles enters power-down, once its banks are precharged and tRPAB has passed (R322, R333). -/
def execPowerDownEntry (ch r ck : Nat) (s : State) : Host.Outcome State Fault Refusal :=
  let x := s.chan ch
  if s.pdWaits ch ck x r = false ∨ (x.openBanks r).isEmpty = false ∨ x.idleLegal ck r = false ∨ ck < x.cmdAt then .next s
  else
    let x := { x.setRank r { x.rankAt r with pd := true, pdAt := ck } with cmdAt := ck + 1 }
    .next (((s.setChan ch x).bump R.CH_PD_CNT_COUNT ch 0 1).count { ev := 0x101, ch := some ch })

/-- Whether a channel meets what QUIESCED asks for: it is held, or stopped by a partial image or a repair, or in self-refresh, its
controller is empty, every bank is precharged and no maintenance operation runs (R334, R394). -/
def State.drainedCh (s : State) (ch : Nat) : Bool :=
  let x := s.chan ch
  (s.rd R.CH_CTL_HOLD ch == 1 || x.imgStop || x.pprHold || x.srReq) &&
    x.ctl.isEmpty && x.banks.all (fun e => e.2.row.isNone) && x.maint.isNone

/-- CH_QUIESCED: the condition rises (R334, R337). -/
def execChQuiesced (ch : Nat) (s : State) : Host.Outcome State Fault Refusal :=
  if s.drainedCh ch = false ∨ (s.chan ch).quiesced = true ∨ s.chPresent ch = false then .next s
  else .next ((s.setChan ch { s.chan ch with quiesced := true }).raiseChan 9 ch)

/-- QUIESCED falls where nothing holds the channel any more (R334, R394). -/
def State.unquiesce (s : State) (ch : Nat) : State :=
  let x := s.chan ch
  if s.rd R.CH_CTL_HOLD ch = 1 ∨ x.imgStop = true ∨ x.pprHold = true ∨ x.srReq = true then s
  else s.setChan ch { x with quiesced := false }

/-- The slots of CH_CTL. -/
def chCtlSlots (ch : Nat) : List Slot :=
  [⟨R.CH_CTL_HOLD, ch, 0⟩, ⟨R.CH_CTL_REF_MODE, ch, 0⟩, ⟨R.CH_CTL_PD_EN, ch, 0⟩, ⟨R.CH_CTL_BL32_EN, ch, 0⟩]

/-- Byte address of a register of channel `ch`. -/
def chAddr (ch o : Nat) : Nat := 0x100000 + ch * 0x8000 + o

/-- A write of CH_CTL: a change of REF_MODE sets every debt to 0 (R326), and clearing HOLD lets the front end pass entries again unless a
partial image or a repair keeps the channel quiesced; a held channel counts as quiesced in the capacity test (R334). -/
def State.writeChCtl (s : State) (ch w tgt : Nat) : State :=
  if s.C ≤ ch then s
  else
    let s' := s.writeReg (chCtlSlots ch) [] (chAddr ch 0) w tgt
    let s' := if s'.rd R.CH_CTL_REF_MODE ch ≠ s.rd R.CH_CTL_REF_MODE ch then s'.setChan ch (s'.chan ch).clearDebt else s'
    let s' := if s'.rd R.CH_CTL_HOLD ch ≠ s.rd R.CH_CTL_HOLD ch then s'.testInput else s'
    s'.unquiesce ch

/-- CHANNEL_HOLD: CH_CTL is written with HOLD 1. -/
def execChannelHold (ch : Nat) (w : Word) (tgt : Nat) (s : State) : Host.Outcome State Fault Refusal :=
  .next (s.regAccess (chAddr ch 0) (w ||| 1) tgt fun w s => s.writeChCtl ch w tgt)

/-- CH_HOLD_CLEAR: CH_CTL is written with HOLD 0. -/
def execChHoldClear (ch : Nat) (w : Word) (tgt : Nat) (s : State) : Host.Outcome State Fault Refusal :=
  .next (s.regAccess (chAddr ch 0) (w &&& 0xFFFFFFFE) tgt fun w s => s.writeChCtl ch w tgt)

end Sys2Proof.Machine
end

