-- ==== Sys2Proof/Machine/Roles.lean ====
section
/-! DEFINITION. What the extents of a channel hold: the tiles of surfaces and the lane segments of regions (R172, R180, R183, R195, R490). -/

namespace Sys2Proof.Machine
open Sys2Proof

/-- The roles of the extents of one stripe position of a surface. -/
def Surf.roles (x : Surf) (exts comps : List Nat) : List (Nat × Nat × Nat) :=
  if x.sealed then exts.map fun e => (e, 3, x.text * 64)
  else if x.guarded then (exts.map fun e => (e, 1, 0)) ++ comps.map fun e => (e, 2, 0)
  else []

/-- The roles of a move's destination extents: those of its unit. -/
def State.moveRoles (s : State) (m : Move) : List (Nat × Nat × Nat) :=
  match m.unit with
  | none => []
  | some (.pos i _) => (s.surf i).roles m.dstMain m.dstComp
  | some (.lane set _) => (s.regionsOf set).flatMap fun r =>
    if r.prot ≠ 2 then []
    else
      let n := cdiv r.segBytes extBytes
      (((m.dstMain.drop (s.laneBase r).2).take n).map fun e => (e, 1, 0)) ++ ((m.dstComp.drop (s.laneCompBase r)).take n).map fun e => (e, 2, 0)

/-- The extents of channel `ch` that hold GUARDED data (1), the check bytes of such data (2), a SEALED surface, with the bytes of its headers (3, n), or
segments of the engine reserve and their companions (4), those at the destination of a move among them. -/
def State.heldExts (s : State) (ch : Nat) : List (Nat × Nat × Nat) :=
  let surfs := s.sm.surfs.flatMap fun e => e.2.pos.flatMap fun p => if p.ch ≠ ch then [] else e.2.roles p.exts p.comps
  let regions := (s.allRegions.filter fun r => r.prot == 2).flatMap fun r =>
    (List.range 256).flatMap fun l =>
      if s.laneCh r.set l ≠ ch then []
      else
        let g : Seg := Tab.get {} s.sm.segs (r.region * 256 + l)
        if r.region = 64 then (g.exts ++ g.comps).map fun x => (x, 4, 0)
        else (g.exts.map fun x => (x, 1, 0)) ++ g.comps.map fun x => (x, 2, 0)
  let moves := [s.sm.move, s.sm.parked].flatMap fun m => if m.dst = ch then s.moveRoles m else []
  (surfs ++ regions ++ moves).eraseDups

end Sys2Proof.Machine
end

