-- ==== Sys2Proof/Machine/Phy.lean ====
section
/-! DEFINITION. The PHY: the steps of the Dawn sequences, a channel entering or leaving service, drift tracking and maintenance
(R341 to R360). -/

namespace Sys2Proof.Machine
open Sys2Proof

/-! ### Capture and events -/

/-- Capture a failure in PHY_FAIL; later ones wait for REARM (R359). -/
def State.phyFail (s : State) (ch step rank cause b : Nat) : State :=
  if s.rd R.PHY_FAIL_VALID ch = 1 then s
  else
    ((((s.wr R.PHY_FAIL_STEP ch 0 step).wr R.PHY_FAIL_RANK ch 0 rank).wr R.PHY_FAIL_CAUSE ch 0 cause).wr R.PHY_FAIL_BIT ch 0 b).wr
      R.PHY_FAIL_VALID ch 0 1

/-- Raise an event of a sequence: in the bank of the target that started it through PHY_CTL, as private source `n`, else shared
(R360, R416). -/
def State.raiseSeq (s : State) (f : Fld) (n ch : Nat) (tgt : Option Nat) : State :=
  let s := s.setBit f ch 0
  match tgt with
  | some t => s.raisePrivChan t n ch
  | none => s.raiseChan 11 ch

/-! ### Training state -/

/-- The 512 B of a channel's training state in the layout of R458: the tag, the CRC-32C, and the trained values `vals` in a layout that only the engine
reads (free values; log entry 5). -/
def trainImage (vals : List Int) (r : ChanRec) : List Byte :=
  let head := leBytes 4 r.ck ++ leBytes 1 r.ranks ++ leBytes 1 r.density ++ leBytes 1 r.mr5 ++ leBytes 1 r.mr6 ++ leBytes 1 r.mr8 ++
    leBytes 3 0
  let rest := (List.range 496).map fun i => Config.trainedByte vals (i + 16)
  head ++ leBytes 4 (crc32c (head ++ leBytes 4 0 ++ rest)) ++ rest

/-- The training state is retained, and its copy saved in the engine reserve (R350, R351). -/
def State.retain (s : State) (ch : Nat) : State :=
  match s.chanRec ch with
  | none => s
  | some r =>
    let vals := s.trainedVals ch
    let img := trainImage vals r
    s.setChan ch { s.chan ch with
      retainedSt := { valid := true, ck := r.ck, ranks := r.ranks, density := r.density, mr5 := r.mr5, mr6 := r.mr6, mr8 := r.mr8, bytes := img
                      vals := vals }
      copy := img, copyVals := vals }

/-- Change trained setting `k` of rank `r`. -/
def State.setTrained (s : State) (ch r k v : Nat) : State :=
  s.setChan ch { s.chan ch with trained := Tab.insert (16 * r + k) v (s.chan ch).trained }

/-- The centre of a window, given by its first delay and its width (R342). -/
def centre (w : Nat × Nat) : Nat := w.1 + w.2 / 2

/-- Whether a window is wide enough: 2 × EYE_MIN_MARGIN steps (R342). -/
def State.wide (s : State) (ch : Nat) (w : Nat × Nat) : Bool := decide (2 * s.rd R.PHY_DRIFT_CFG_EYE_MIN_MARGIN ch ≤ w.2)

/-- The windows that a training step trains, by rank and by their number within the rank. -/
def State.trainedBits (s : State) (ch step : Nat) : List (Nat × Nat) :=
  (List.range (s.ranksOf ch)).flatMap fun r => (List.range (if step = 6 then 8 else trainBits)).map fun b => (r, b)

/-- The window that a step found for a bit; none found is a window of no width. -/
def winOf (step : Nat) (wins : List (Nat × Nat)) (e : Nat × Nat) : Nat × Nat :=
  wins.getD ((if step = 6 then 8 else trainBits) * e.1 + e.2) (0, 0)

/-- The rank and the code of the first bit whose window is too narrow (R342, R359): 24 to 30 CA, 31 CS, 0 to 17 DQ and DMI. -/
def State.narrow (s : State) (ch step : Nat) (wins : List (Nat × Nat)) : Option (Nat × Nat) :=
  if step = 7 then none
  else ((s.trainedBits ch step).find? fun e => !s.wide ch (winOf step wins e)).map fun e => (e.1, if step = 6 then e.2 + 24 else e.2)

/-- The width of a bit's read window (`w` 0) or write window (`w` 32) is noted. -/
def State.setWidth (s : State) (ch r b w n : Nat) : State :=
  s.setChan ch { s.chan ch with widths := Tab.insert (64 * r + w + b) n (s.chan ch).widths }

/-- A training step passes: each setting is placed at the centre of its window, and the Vref codes or the WCK phases that it found are in force (R341,
R342). -/
def State.placeStep (s : State) (ch step : Nat) (wins : List (Nat × Nat)) (codes : List Nat) : State :=
  let s := (s.trainedBits ch step).foldl (fun (s : State) e =>
    let w := winOf step wins e
    if step = 6 then s.setTrained ch e.1 e.2 (centre w)
    else if step = 8 then (s.wr R.PHY_EYE_RD_DELAY ch (e.1 * 32 + e.2) (centre w)).setWidth ch e.1 e.2 0 w.2
    else if step = 9 then (s.wr R.PHY_EYE_WR_DELAY ch (e.1 * 32 + e.2) (centre w)).setWidth ch e.1 e.2 32 w.2
    else s) s
  (List.range (s.ranksOf ch)).foldl (fun (s : State) r =>
    if step = 6 then s.setTrained ch r 8 (codes.getD r 0)
    else
      let k := if step = 7 then 9 else if step = 8 then 11 else 13
      (s.setTrained ch r k (codes.getD (2 * r) 0)).setTrained ch r (k + 1) (codes.getD (2 * r + 1) 0)) s

/-- Add `n` steps to a delay in force, as eight bits. -/
def State.moveDelay (s : State) (f : Fld) (ch j : Nat) (n : Int) : State := s.wr f ch j (toTwos 8 (s.rd f ch j + n))

/-- Apply drift corrections to a rank: `w` steps to every write delay, `o` to every read delay, and the eye monitor's to their bits; a correction of no
step is none (R352, R353, R355). -/
def State.applyDrift (s : State) (ch r : Nat) (w o : Int) (eye : Tab Int) : State :=
  let s := (List.range 18).foldl (fun s b =>
    (s.moveDelay R.PHY_EYE_WR_DELAY ch (r * 32 + b) w).moveDelay R.PHY_EYE_RD_DELAY ch (r * 32 + b) (o + Tab.get 0 eye b)) s
  if w = 0 ∧ o = 0 ∧ (eye.all fun e => e.2 == 0) = true then s else (s.bump R.PHY_DRIFT_APPLIED ch r 1).count { ev := 0x113, ch := some ch }

/-- Record oscillator counts as the baselines of a rank (R341). -/
def State.oscBase (s : State) (ch r oi oo : Nat) : State :=
  let s := (s.wr R.PHY_OSC_I_BASE ch r oi).wr R.PHY_OSC_O_BASE ch r oo
  let s := (s.wr R.PHY_OSC_I_LAST ch r oi).wr R.PHY_OSC_O_LAST ch r oo
  s.setChan ch ((s.chan ch).setRank r { (s.chan ch).rankAt r with wrDone := 0, rdDone := 0, wrPend := 0, rdOsc := 0 })

/-- A short retrain compares the counts with the baselines and applies the correction at once (R341). -/
def State.oscCompare (s : State) (ch r oi oo : Nat) : State :=
  let s := (s.wr R.PHY_OSC_I_LAST ch r oi).wr R.PHY_OSC_O_LAST ch r oo
  let k := (s.chan ch).rankAt r
  let w := Config.oscSteps (s.rd R.PHY_OSC_I_BASE ch r) (oi % 2 ^ 16) - k.wrDone
  let o := Config.oscSteps (s.rd R.PHY_OSC_O_BASE ch r) (oo % 2 ^ 16) - k.rdDone
  let s := s.setChan ch ((s.chan ch).setRank r { k with wrDone := k.wrDone + w, rdDone := k.rdDone + o, wrPend := 0, rdOsc := 0 })
  s.applyDrift ch r w o []

/-! ### In and out of service -/

/-- A queued read of a channel that cannot serve it: its data come back as lost (R348). -/
def QEnt.lose (q : QEnt) : QEnt :=
  { q with data := List.replicate (q.sub.atoms * 32) none, cdata := [], lost := true }

/-- A repair of a channel ends once its retrain has ended: PPR_DONE, and PPR_FAIL if a row failed, go to the target that wrote GO (R380). -/
def State.pprEnd (s : State) (ch : Nat) : State :=
  if s.integ.pprSt ≠ 3 ∨ s.integ.pprCh ≠ ch then s
  else
    let t := s.integ.pprTgt
    let s := { s with integ := { s.integ with pprSt := 0 } }
    let s := (s.setBit R.INT_PPR_STATUS_PPR_DONE 0 0).raisePriv t 7
    if s.integ.pprFail then (s.setBit R.INT_PPR_STATUS_PPR_FAIL 0 0).raisePriv t 8 else s

/-- The device returns to Run after an aborted entry once every channel that entered self-refresh is back (R399). -/
def State.dawnPower (s : State) (ch : Nat) : State :=
  let l := s.power.duskChans.filter fun c => c != ch
  let p := { s.power with duskChans := l }
  if s.power.aborting ∧ l.isEmpty then { s with power := { p with aborting := false, st := 0, latches := 0 } }
  else { s with power := p }

/-- A channel goes out of service (R348): its queued reads come back as lost, its buffered writes are discarded and counted, and an evacuation
may start while AUTO_EVAC asks for one. -/
def State.goOut (s : State) (ch : Nat) : State :=
  let x := s.chan ch
  let all := x.cq ++ x.fly
  let reads := all.filter fun q => !q.sub.write
  let s := (s.seqEnd ch).loseContents ch
  let s := s.setChan ch { (s.chan ch).rested with
    svc := svcOut, out := true, seq := 0, step := 0, cq := [], fly := [], ctl := [], maint := none, warm := none, pwr := 0, wasCold := false, pprHold := false
    srReq := s.rd R.CH_PWR_REQ ch != 0
    done := x.done ++ reads.map QEnt.lose, autoEvac := true }
  let late (w : Wait) : Bool := all.any fun q => q.sub.write && q.sub.wait == some w.id
  let s := { s with waits := s.waits.map fun w => if late w then { w with code := worse w.code 2 } else w }
  let s := (s.bump R.FE_LOST_CNT_COUNT ch 0 all.length).count { ev := 0x0DF, n := all.length, ch := some ch }
  let s := all.foldl (fun s q => s.settle q.sub.own) s
  (((((s.raiseChan 11 ch).testInput).resumeChanImage ch).pprEnd ch).unquiesce ch).dawnPower ch

/-- A cold Dawn outside a full image has destroyed a channel's contents: the loss is logged, and so is that of the reserve structures
on the channel (R370, R490). -/
def State.lostContents (s : State) (ch : Nat) : State :=
  let s := s.detect { unit := ch, kind := 0x13 }
  if (List.range 256).any fun l => (Tab.find s.sm.lanes (8 * 256 + l)) == some ch then s.detect { unit := 0x31, kind := 0x11 } else s

/-- ENTER completes: the training state is retained and the channel is in service (R341, R331, R490). A reinstated channel takes extents again
(R204), and CREATEs that wait for its pools are due (R191). -/
def State.enter (s : State) (ch : Nat) : State :=
  let x := s.chan ch
  let kind := x.seq
  let s := (s.seqEnd ch).retain ch
  let y := s.chan ch
  let reserve := (List.range 256).any fun l => Tab.find s.sm.lanes (8 * 256 + l) == some ch
  let lost := kind == 1 && !x.fullImg && (!x.reinst || !(s.heldExts ch).isEmpty || reserve)
  let y := { y with
    svc := svcIn, out := false, seq := 0, step := 0, wasCold := false, autoEvac := false, srReq := s.rd R.CH_PWR_REQ ch != 0, pprHold := false
    lossTodo := if lost then sortNat ((s.heldExts ch).foldl (fun l e => if l.contains e.1 then l else l ++ [e.1]) []) else []
    reinst := false
    ranks := y.ranks.map fun e => (e.1, if kind = 3 ∨ kind = 4 then { e.2 with mr4 := max 1 e.2.mr4 } else e.2) }
  let s := s.setChan ch y
  let s := s.raiseSeq R.PHY_STATUS_DAWN_DONE 4 ch x.seqTgt
  let s := if x.reinst then (s.setBit R.CH_PWR_REINSTATED ch 0).raiseChan 15 ch else s
  let s := if kind = 3 then s.count { ev := 0x119, ch := some ch } else s
  let s := if lost then s.lostContents ch else s
  let s := if x.reinst then { s with sm := { s.sm with partEvac := s.sm.partEvac.filter fun c => c != ch } } else s
  let s := s.retryDue fun r => bit r.mask ch
  (((s.testInput.resumeChanImage ch).pprEnd ch).unquiesce ch).dawnPower ch

/-! ### Steps -/

/-- Whether the dies of a rank match the CHANNEL record under the masks of PHY_MR_MASK; a byte-mode die, or one of another organisation than the
engine's, never does (R8, R345; log entry 10). -/
def State.dieMatches (s : State) (ch : Nat) (r : ChanRec) (d : DieId) : Bool :=
  let eq (f : Fld) (a b : Nat) : Bool := (a % 256) &&& s.rd f ch == (b % 256) &&& s.rd f ch
  eq R.PHY_MR_MASK_MR5_MASK d.mr5 r.mr5 && eq R.PHY_MR_MASK_MR6_MASK d.mr6 r.mr6 && eq R.PHY_MR_MASK_MR8_MASK d.mr8 r.mr8 &&
    bits d.mr8 6 2 == 0

/-- What IDENTIFY loads from a rank: its refresh management values and its rate code (R329, R345). -/
def State.loadDie (s : State) (ch r : Nat) (d : DieId) : State :=
  let x := s.chan ch
  let s := s.setChan ch (x.setRank r { x.rankAt r with rfmReq := d.rfmReq, raaimt := d.raaimt % 1024, raammt := d.raammt % 1024 })
  let s := if r = 0 then
      ((s.wr R.CH_RFM_CFG_RAAIMT ch 0 d.raaimt).wr R.CH_RFM_CFG_RAAMMT ch 0 d.raammt).wr R.CH_RFM_CFG_RFM_REQ ch 0 (b2n d.rfmReq)
    else s
  s.rateRead ch r d.rate

/-- Record the mode registers read from a rank. -/
def State.seeDie (s : State) (ch r : Nat) (d : DieId) : State :=
  ((s.wr R.PHY_MR_SEEN_MR5 ch r d.mr5).wr R.PHY_MR_SEEN_MR6 ch r d.mr6).wr R.PHY_MR_SEEN_MR8 ch r d.mr8

/-- The dies of a channel, rank 0 first. -/
def State.dies (s : State) (ch : Nat) (r0 r1 : DieId) : List (Nat × DieId) := ([(0, r0), (1, r1)] : List (Nat × DieId)).take (s.ranksOf ch)

/-- The step in progress has passed: a partial image that waits for the channel takes over, or the sequence goes on to its next step, or
ENTER completes. The end of CLOCK releases chclk (R409), and that of SR_EXIT sets the refresh debts to 0 (R326). -/
def State.stepPassed (s : State) (ch : Nat) : State :=
  if s.chanImgWaits ch then s.applyChanImage ch
  else
    let x := s.chan ch
    let s := if x.step = 4 then s.freeChclk ch else s
    let x := if x.step = 14 then x.clearDebt else x
    match nextStep (seqSteps x.seq) x.step with
    | some n => s.setChan ch { x with step := n, tries := 0 }
    | none => s.enter ch

/-- IDENTIFY has read the dies (R345). A mismatch takes the channel out of service, unless a partial image waits for the end of the step (R347). -/
def State.identified (s : State) (ch : Nat) (r0 r1 : DieId) : State :=
  match s.chanRec ch with
  | none => s
  | some rec =>
    let ds := s.dies ch r0 r1
    match ds.find? fun e => !s.dieMatches ch rec e.2 with
    | some e =>
      let t := (s.chan ch).seqTgt
      let s := ds.foldl (fun s e => s.seeDie ch e.1 e.2) s
      let s := (s.phyFail ch 2 e.1 1 0).raiseSeq R.PHY_STATUS_ENV_MISMATCH 6 ch t
      if s.chanImgWaits ch then s.applyChanImage ch else (s.goOut ch).dawnPower ch
    | none => (ds.foldl (fun s e => s.loadDie ch e.1 e.2) s).stepPassed ch

/-- OSC has counted (R341). -/
def State.measured (s : State) (ch i0 o0 i1 o1 : Nat) : State :=
  let kind := (s.chan ch).seq
  let one (s : State) (r oi oo : Nat) : State :=
    if s.ranksOf ch ≤ r then s else if kind = 3 then s.oscCompare ch r oi oo else s.oscBase ch r oi oo
  (one (one s 0 i0 o0) 1 i1 o1).stepPassed ch

/-- The step in progress has failed (R342, R347): it is repeated up to TRAIN_RETRY times; then a cold Dawn or a recovery takes the channel out
of service, and a warm Dawn or a short retrain gives way to a recovery. -/
def State.stepFailed (s : State) (ch rank cause b : Nat) : State :=
  let x := s.chan ch
  if x.step ≠ 2 ∧ x.tries < s.rd R.PHY_CTL_TRAIN_RETRY ch then
    if s.chanImgWaits ch then s.applyChanImage ch else s.setChan ch { x with tries := x.tries + 1 }
  else
    let s := (s.phyFail ch x.step rank cause b).raiseSeq R.PHY_STATUS_TRAIN_FAIL 5 ch x.seqTgt
    if s.chanImgWaits ch then s.applyChanImage ch
    else if x.seq = 1 ∨ x.seq = 4 then (s.goOut ch).dawnPower ch
    else s.startSeq ch 4 none false

/-- A training step ends with the windows and the other settings found: it passes where every window is wide enough (R342). -/
def State.trainedStep (s : State) (ch : Nat) (wins : List (Nat × Nat)) (codes : List Nat) : State :=
  let step := (s.chan ch).step
  match s.narrow ch step wins with
  | some e => s.stepFailed ch e.1 2 e.2
  | none => (s.placeStep ch step wins codes).stepPassed ch

/-- DAWN_STEP_DONE: the step in progress on channel `ch` ends after `us` µs. IDENTIFY ends with what the dies answered, OSC with the counts, CBT,
READ_TRAIN and WRITE_TRAIN with the windows found, WCK_LEVEL with the phases or its failure, every other step with its pass or failure; a result that
does not fit the step changes nothing. -/
def execDawnStepDone (ch us : Nat) (out : DawnOut) (s : State) : Host.Outcome State Fault Refusal :=
  let x := s.chan ch
  if x.seq = 0 then .next s
  else
    let s' := s.setChan ch { x with us := x.us + us }
    match out with
    | .identified r0 r1 => if x.step = 2 then .next (s'.identified ch r0 r1) else .next s
    | .measured i0 o0 i1 o1 => if x.step = 12 then .next (s'.measured ch i0 o0 i1 o1) else .next s
    | .trained wins codes => if x.step ∈ [6, 7, 8, 9] then .next (s'.trainedStep ch wins codes) else .next s
    | .pass => if x.step ∈ [2, 6, 7, 8, 9, 12] then .next s else .next (s'.stepPassed ch)
    | .failed rank cause b => if x.step ∈ [2, 6, 8, 9, 12] then .next s else .next (s'.stepFailed ch rank cause b)

/-! ### Drift and maintenance -/

/-- The largest pending read correction of a rank, in magnitude. -/
def Rank.rdLargest (k : Rank) : Int :=
  k.rdPend.foldl (fun m e => if m.natAbs < e.2.natAbs then e.2 else m) k.rdOsc

/-- EYE_SWEEP_DONE: a sweep of bit `b` of rank `r` ends with `left` and `right` passing offsets (R353, R354). The oscillator's read correction is not
used any more (R352). -/
def execEyeSweepDone (ch r b left right : Nat) (s : State) : Host.Outcome State Fault Refusal :=
  if s.inService ch = false ∨ s.ranksOf ch ≤ r ∨ 18 ≤ b then .next s
  else
    let j := r * 32 + b
    let l := min left 32
    let g := min right 32
    let s := ((s.wr R.PHY_EYE_LEFT ch j l).wr R.PHY_EYE_RIGHT ch j g).count { ev := 0x117, ch := some ch }
    let c : Int := ((g : Int) - l).tdiv 2
    let x := s.chan ch
    let k := { x.rankAt r with swept := 10, rdOsc := 0 }
    let k := if s.rd R.PHY_DRIFT_CFG_EYE_THRESH ch ≤ c.natAbs then { k with rdPend := Tab.insert b c k.rdPend } else k
    let low := decide (min l g < s.rd R.PHY_DRIFT_CFG_EYE_MIN_MARGIN ch)
    let k := if low then { k with long := true } else k
    let s := s.setChan ch (x.setRank r k)
    let s := if low then (s.setBit R.PHY_STATUS_EYE_LOW ch 0).raiseChan 11 ch else s
    if s.rd R.PHY_DRIFT_CFG_EYE_THRESH ch ≤ c.natAbs ∧ s.rd R.PHY_DRIFT_CFG_DRIFT_LIMIT ch ≤ c.natAbs then
      .next ((s.setBit R.PHY_STATUS_DRIFT_HIGH ch 0).raiseChan 11 ch)
    else .next s

/-- ZQ_DUE: ZQ calibration of a rank falls due (R355). -/
def execZqDue (ch r : Nat) (s : State) : Host.Outcome State Fault Refusal :=
  let x := s.chan ch
  if s.inService ch = false ∨ s.ranksOf ch ≤ r then .next s
  else .next (s.setChan ch (x.setRank r { x.rankAt r with zq := true }))

/-- LONG_TRAINING_DUE: the periodic long training of a rank falls due, unless LONG_PERIOD turns it off (R355). -/
def execLongTrainingDue (ch r : Nat) (s : State) : Host.Outcome State Fault Refusal :=
  let x := s.chan ch
  if s.inService ch = false ∨ s.ranksOf ch ≤ r ∨ s.rd R.PHY_MAINT_LONG_PERIOD ch = 0 then .next s
  else .next (s.setChan ch (x.setRank r { x.rankAt r with long := true }))

/-- The first window that a long training of rank `r` may not use: its step, 8 or 9, and its bit; it is too narrow, or narrower than before (R357). -/
def State.longNarrow (s : State) (ch r : Nat) (wins : List (Nat × Nat)) : Option (Nat × Nat) :=
  ((List.range (2 * trainBits)).find? fun i =>
    let w := wins.getD i (0, 0)
    !s.wide ch w || decide (w.2 < Tab.get 0 (s.chan ch).widths (64 * r + i / trainBits * 32 + i % trainBits))).map fun i => (8 + i / trainBits, i % trainBits)

/-- A setting that a search within `n` of the setting in force `v` finds at `x` (R355). -/
def within (n v x : Nat) : Nat := min (v + n) (max (v - n) x)

/-- The settings that an accepted long training puts in force on rank `r`: centres within 8 steps, and Vref codes within 4, of those in force
(R355). -/
def State.longPlace (s : State) (ch r : Nat) (l : LongRes) : State :=
  let s := (List.range trainBits).foldl (fun (s : State) b =>
    let rw := l.wins.getD b (0, 0)
    let ww := l.wins.getD (trainBits + b) (0, 0)
    let s := s.wr R.PHY_EYE_RD_DELAY ch (r * 32 + b) (within 8 (s.rd R.PHY_EYE_RD_DELAY ch (r * 32 + b)) (centre rw))
    let s := s.wr R.PHY_EYE_WR_DELAY ch (r * 32 + b) (within 8 (s.rd R.PHY_EYE_WR_DELAY ch (r * 32 + b)) (centre ww))
    (s.setWidth ch r b 0 rw.2).setWidth ch r b 32 ww.2) s
  (List.range 4).foldl (fun (s : State) k =>
    s.setTrained ch r (11 + k) (within 4 (Tab.get 0 (s.chan ch).trained (16 * r + 11 + k)) (l.codes.getD k 0))) s

/-- A long training ends (R351, R357): new settings, baselines and a saved copy, or TRAIN_FAIL with the settings in force and a new
request for the next window. -/
def State.longDone (s : State) (ch r : Nat) (l : LongRes) : State :=
  let s := (s.bump R.PHY_MAINT_CNT_LONG ch 0 1).count { ev := 0x115, ch := some ch }
  let x := s.chan ch
  match s.longNarrow ch r l.wins with
  | some e =>
    let s := s.setChan ch (x.setRank r { x.rankAt r with longAt := some s.cclk })
    ((s.phyFail ch e.1 r 6 e.2).setBit R.PHY_STATUS_TRAIN_FAIL ch 0).raiseChan 11 ch
  | none =>
    let s := s.setChan ch (x.setRank r { x.rankAt r with long := false, longAt := none })
    ((s.longPlace ch r l).oscBase ch r l.oscI l.oscO).retain ch

/-- A drift correction ends. -/
def State.driftDone (s : State) (ch r : Nat) : State :=
  let x := s.chan ch
  let k := x.rankAt r
  let s := s.setChan ch (x.setRank r { k with
    wrDone := k.wrDone + k.wrPend, rdDone := k.rdDone + k.rdOsc, wrPend := 0, rdOsc := 0, rdPend := [], driftAt := none })
  s.applyDrift ch r k.wrPend k.rdOsc k.rdPend

/-- A ZQ calibration ends. -/
def State.zqDone (s : State) (ch r : Nat) : State :=
  let x := s.chan ch
  let s := s.setChan ch (x.setRank r { x.rankAt r with zq := false })
  (s.bump R.PHY_MAINT_CNT_ZQ ch 0 1).count { ev := 0x114, ch := some ch }

/-- MAINTENANCE_DONE: the operation in progress, its commands all issued, completes and applies its results; `l` is what a long training found. A rank
that the operation held is idle from its end on (R333). -/
def execMaintenanceDone (ch : Nat) (l : LongRes) (s : State) : Host.Outcome State Fault Refusal :=
  let x := s.chan ch
  match x.maint with
  | none => .next s
  | some (k, r) =>
    if k ≠ 2 ∧ ((x.openBanks r).isEmpty = false ∨ (k = 3 ∧ x.mStep ≠ 2)) then .next s
    else
      let y := { x with maint := none }
      let s := s.setChan ch (if k = 2 then y else y.touchRank (some r) (max (y.rankAt r).idleFrom (x.mFrom + s.maintCk ch k)))
      if k = 1 then .next (s.longDone ch r l)
      else if k = 2 then .next (s.driftDone ch r)
      else .next (s.zqDone ch r)

/-- Whether a maintenance operation is due on a channel and has not started. -/
def State.maintWaits (s : State) (ch : Nat) : Bool :=
  (List.range (s.ranksOf ch)).any fun r => [1, 2, 3].any fun k =>
    ((s.chan ch).rankAt r).maintDue k && (s.chan ch).maint != some (k, r)

/-- MAINT_STARVED: an operation has been due for MAINT_WAIT_MAX ms without starting (R354). -/
def execMaintStarved (ch : Nat) (s : State) : Host.Outcome State Fault Refusal :=
  if s.rd R.PHY_MAINT_MAINT_WAIT_MAX ch = 0 ∨ s.maintWaits ch = false then .next s
  else .next ((s.setBit R.PHY_STATUS_MAINT_STARVED ch 0).raiseChan 11 ch)

/-! ### PHY_CTL -/

/-- COLD or WARM is written: accepted while the PHY is quiesced and no sequence runs; a channel the configuration does not name stays as it is
(R344, R347, R348, R359). A warm Dawn of an active channel waits until the channel is in self-refresh (R343). -/
def State.phyStart (s : State) (ch kind tgt : Nat) : State × Bool :=
  if s.phyQuiesced ch = false ∨ s.seqRuns ch = true ∨ (s.chan ch).retired = true then (s, true)
  else if s.chPresent ch = false then (s, false)
  else
    let x := s.chan ch
    let out := s.outOfService ch
    let r := x.srReq
    if kind = 2 ∧ s.inService ch = true ∧ x.pwr < 2 ∧ s.retainedOk ch = true ∧ x.wasCold = false then
      (s.setChan ch { x with warm := some tgt }, false)
    else
    let s := s.startSeq ch kind (some tgt) false
    (({ s with chans := Tab.insert ch { s.chan ch with reinst := out && kind == 1, srReq := r } s.chans } : State).testInput, false)

/-- LONG is written: a long training of every rank is requested (R355). -/
def State.phyLongReq (s : State) (ch : Nat) : State × Bool :=
  let x := s.chan ch
  (s.setChan ch ((List.range (s.ranksOf ch)).foldl (fun x r => x.setRank r { x.rankAt r with long := true }) x), false)

/-- A write of PHY_CTL. -/
def State.writePhyCtl (s : State) (ch w tgt : Nat) : State :=
  if s.C ≤ ch then s
  else
    s.writeReg [⟨R.PHY_CTL_AUTO_EVAC, ch, 0⟩, ⟨R.PHY_CTL_TRAIN_RETRY, ch, 0⟩]
      [(0, fun s => s.phyStart ch 1 tgt), (1, fun s => s.phyStart ch 2 tgt), (2, fun s => s.phyLongReq ch),
       (4, fun s => (s.wr R.PHY_FAIL_VALID ch 0 0, false))]
      (chAddr ch 0x1000) w tgt

/-- PHY_COLD. -/
def execPhyCold (ch : Nat) (w : Word) (tgt : Nat) (s : State) : Host.Outcome State Fault Refusal :=
  .next (s.regAccess (chAddr ch 0x1000) (w ||| 1) tgt fun w s => s.writePhyCtl ch w tgt)

/-- PHY_WARM. -/
def execPhyWarm (ch : Nat) (w : Word) (tgt : Nat) (s : State) : Host.Outcome State Fault Refusal :=
  .next (s.regAccess (chAddr ch 0x1000) (w ||| 2) tgt fun w s => s.writePhyCtl ch w tgt)

/-- PHY_LONG. -/
def execPhyLong (ch : Nat) (w : Word) (tgt : Nat) (s : State) : Host.Outcome State Fault Refusal :=
  .next (s.regAccess (chAddr ch 0x1000) (w ||| 4) tgt fun w s => s.writePhyCtl ch w tgt)

/-- PHY_REARM. -/
def execPhyRearm (ch : Nat) (w : Word) (tgt : Nat) (s : State) : Host.Outcome State Fault Refusal :=
  .next (s.regAccess (chAddr ch 0x1000) (w ||| 16) tgt fun w s => s.writePhyCtl ch w tgt)

end Sys2Proof.Machine
end

