-- ==== Sys2Proof/Machine/Place.lean ====
section
/-! DEFINITION. The DRAM bytes, extent pools and the placement of surfaces (R172 to R200, R362). -/

namespace Sys2Proof.Machine
open Sys2Proof

/-! ### DRAM bytes -/

/-- The byte listed at a storage key, if something has been written there. -/
def State.memAt (s : State) (key : Nat) : Option Byte := Tab.find s.mem key

/-- The byte a read finds at a storage key: what was written, else whatever the DRAM holds, a free value (R362; log entry 3). -/
def State.memByte (s : State) (key : Nat) : Byte :=
  (s.memAt key).getD (Config.dramByte (s.chan (key / 2 ^ 34)).memGen key)

/-- The canonical form of the DRAM contents: keys strictly rise. An unlisted key reads as a free value, so no entry can equal it by rule. -/
def Memory.wf (m : List Host.Cell) : Bool := Tab.rising m

/-- Write bytes by storage key. -/
def State.memWrite (s : State) (l : List (Nat × Byte)) : State :=
  { s with mem := l.foldl (fun m c => Tab.insert c.1 c.2 m) s.mem }

/-- `l` written from storage key `k` on, without the bytes that stood there: one pass for a long run. -/
def State.memFill (s : State) (k : Nat) (l : List Byte) : State :=
  { s with mem := (s.mem.filter fun c => decide (c.1 < k)) ++ (List.range l.length).zipWith (fun i b => (k + i, b)) l ++
      s.mem.filter fun c => decide (k + l.length ≤ c.1) }

/-! ### Remapped blocks (R374) -/

/-- The remap entry of a channel that serves a block. -/
def Chan.remapOf (x : Chan) (block : Nat) : Option Nat :=
  (x.remap.find? fun e => e.2.valid && e.2.block == block).map (·.1)

/-- A stored byte as the front end reads it: from the spare word of a remapped block, else from DRAM. -/
def State.cellByte (s : State) (key : Nat) : Byte :=
  let ch := key / 2 ^ 34
  let a := key % 2 ^ 34
  match (s.chan ch).remapOf (a / 64) with
  | some k => (Tab.get ({} : Remap) (s.chan ch).remap k).word.getD (a % 64) 0
  | none => s.memByte key

/-- The wrong stored bits, 0 to 2, in the 64-bit word of a spare word that holds a stored byte (R374). No command makes such an error (log entry 41). -/
def State.spareErrs (s : State) (key : Nat) : Nat :=
  let x := s.chan (key / 2 ^ 34)
  let a := key % 2 ^ 34
  match x.remapOf (a / 64) with
  | some k => Tab.get 0 (Tab.get ({} : Remap) x.remap k).errs (a % 64 / 8)
  | none => 0

/-- Write one stored byte. -/
def State.cellPut (s : State) (c : Nat × Byte) : State :=
  let ch := c.1 / 2 ^ 34
  let a := c.1 % 2 ^ 34
  let x := s.chan ch
  match x.remapOf (a / 64) with
  | some k =>
    let r := Tab.get ({} : Remap) x.remap k
    s.setChan ch { x with remap := Tab.insert k { r with word := setAt r.word (a % 64) c.2, errs := Tab.erase (a % 64 / 8) r.errs } x.remap }
  | none => s.memWrite [c]

/-- Write stored bytes. -/
def State.cellsPut (s : State) (l : List (Nat × Byte)) : State :=
  if (l.any fun c => !(s.chan (c.1 / 2 ^ 34)).remap.isEmpty) then l.foldl State.cellPut s else s.memWrite l

/-- `l` written from storage key `k` on: to DRAM, and to the spare words of the remapped blocks among it (R374). -/
def State.cellsFill (s : State) (k : Nat) (l : List Byte) : State :=
  if (s.chan (k / 2 ^ 34)).remap.isEmpty then s.memFill k l
  else s.cellsPut ((List.range l.length).zipWith (fun i b => (k + i, b)) l)

/-- Engine work of `n` bytes that takes effect with the command that ends it passes channel `ch` in class `cls`: the charges of R297 and R300. -/
def State.engineBytes (s : State) (ch cls n : Nat) : State :=
  if s.inService ch = false ∨ n < 32 then s
  else
    let x := s.chan ch
    (s.setChan ch { x with
      sendLeft := Tab.insert cls (Tab.get 0 x.sendLeft cls + s.sendTime ch n) x.sendLeft
      bytesCur := Tab.insert cls ((Tab.get 0 x.bytesCur cls + n / 32) % 2 ^ 32) x.bytesCur }).count
      { ev := 0x0B0 + cls, n := n / 32, ch := some ch, cls := cls }

/-! ### The engine reserve (R174, R370) -/

/-- Whether some byte of the `n` from byte `o` of the reserve is uncorrectable as stored, or cannot be read. -/
def State.rsvLost (s : State) (o n : Nat) : Bool :=
  (List.range n).any fun k =>
    let p := (s.rsvRoute (o + k)).at_
    let d := memKey p.ch p.a
    let c := memKey p.ch p.ca
    s.outOfService p.ch || s.spareErrs d == 2 || s.spareErrs c == 2 || (decodePair (s.cellByte d) (s.cellByte c)).1 == 2

/-- Write a structure of the reserve from byte `o` on with its check bytes, and at the destination of a chunk in copy, in class `cls`. -/
def State.rsvWrite (s : State) (o : Nat) (l : List Byte) (cls : Nat) : State :=
  let put (s : State) (p : At) (cls : Nat) : State :=
    if s.inService p.ch then
      ((s.cellsPut ((List.range l.length).zipWith (fun k b => (memKey p.ch (p.a + k), b)) l)).cellsPut
        ((List.range l.length).zipWith (fun k b => (memKey p.ch (p.ca + k), checkByte b)) l)).engineBytes p.ch cls (2 * l.length)
    else s
  let r := s.rsvRoute o
  let s := put s r.at_ cls
  match r.mirror with
  | some m => put s m 15
  | none => s

/-! ### Extent pools (R187 to R190) -/

/-- Free extents of pool `n` on a channel. -/
def State.freeIn (s : State) (n ch : Nat) : List Nat := Tab.get [] s.sm.poolFree (n * 32 + ch)

/-- FREE of pool `n`. -/
def State.poolFree (s : State) (n : Nat) : Nat := ((List.range 32).map fun ch => (s.freeIn n ch).length).sum

/-- The POOL record of pool `n`. -/
def State.poolRec (s : State) (n : Nat) : Option PoolRec :=
  match s.conf with
  | none => none
  | some i => i.pools.find? fun r => r.pool == n

/-- The level of pool `n`: its highest watermark condition in force (R187). -/
def State.poolLevel (s : State) (n : Nat) : Nat :=
  let l := Tab.get 0 s.sm.poolIn n
  if bit l 2 then 3 else if bit l 1 then 2 else if bit l 0 then 1 else 0

/-- Bring pool `n`'s levels and MINFREE up to its FREE; a level that is entered raises its source (R187, R210). -/
def State.poolUpdate (s : State) (n : Nat) : State :=
  match s.poolRec n with
  | none => s
  | some r =>
    let free := s.poolFree n
    let was := Tab.get 0 s.sm.poolIn n
    let on (k wm : Nat) : Bool := if bit was k then decide (free ≤ wm + s.rd R.SM_POOL_HYST_HYST n) else decide (free ≤ wm)
    let now := b2n (on 0 r.low) + 2 * b2n (on 1 r.lower) + 4 * b2n (on 2 r.critical)
    let s := { s with sm := { s.sm with poolIn := Tab.insert n now s.sm.poolIn } }
    let s := s.wr R.SM_POOL_MINFREE_MINFREE n 0 (min free (s.rd R.SM_POOL_MINFREE_MINFREE n))
    (List.range 3).foldl (fun s k => if bit now k && !bit was k then s.raise 6 n else s) s

/-- Take the `k` lowest-numbered free extents of pool `n` on a channel. -/
def State.takePool (s : State) (n ch k : Nat) : List Nat × State :=
  let l := s.freeIn n ch
  let s := { s with sm := { s.sm with poolFree := Tab.insert (n * 32 + ch) (l.drop k) s.sm.poolFree } }
  (l.take k, s.count { ev := 0x077, n := min k l.length })

/-- Return extents to pool `n` on a channel; its first waiting CREATE is due for another try (R191). -/
def State.givePool (s : State) (n ch : Nat) (l : List Nat) : State :=
  if l.isEmpty then s
  else
    let t := l.foldl (fun t x => sortedInsert x t) (s.freeIn n ch)
    (({ s with sm := { s.sm with poolFree := Tab.insert (n * 32 + ch) t s.sm.poolFree } } : State).retryDue fun r => r.pool == n).count
      { ev := 0x078, n := l.length }

/-- Spare extents of a channel. -/
def State.spareOf (s : State) (ch : Nat) : List Nat := Tab.get [] s.sm.spare ch
def State.setSpare (s : State) (ch : Nat) (l : List Nat) : State := { s with sm := { s.sm with spare := Tab.insert ch l s.sm.spare } }
/-- Extents return as spare to a channel. -/
def State.giveSpare (s : State) (ch : Nat) (l : List Nat) : State := s.setSpare ch (l.foldl (fun t x => sortedInsert x t) (s.spareOf ch))

/-- Destination extents of move `m` return where they came from: to their pools, or as spare. -/
def State.giveBack (s : State) (m : Move) (l : List Nat) : State :=
  l.foldl (fun (s : State) x =>
    match m.pools.find? fun e => e.1 == x with
    | some e => (s.givePool e.2 m.dst [x]).poolUpdate e.2
    | none => s.giveSpare m.dst [x]) s

/-! ### Placement (R181 to R185) -/

/-- Whether a channel takes no new positions, extents and lanes: it is being evacuated, was partly evacuated, or is armed for repair (R204,
R206, R379). -/
def State.noNew (s : State) (ch : Nat) : Bool :=
  ([s.sm.move, s.sm.start].any fun m => m.kind == 1 && m.ch == ch) || s.sm.partEvac.contains ch ||
    (s.rd R.INT_PPR_CTL_ARM == 1 && s.rd R.INT_PPR_CTL_CH == ch)

/-- Measured load of a channel (R181). -/
def State.chLoad (s : State) (ch : Nat) : Nat :=
  ((List.range 16).map fun c => ((Tab.get [] (s.chan ch).bytesLast c).take (s.rd R.SM_CTL_LOAD_EPOCHS)).sum).sum * 32

/-- CHLIST for a new surface of pool `n` (R181). -/
def State.chList (s : State) (n : Nat) : List Nat :=
  match s.poolRec n with
  | none => []
  | some r =>
    sortBy (fun ch => [s.chLoad ch, ch]) ((List.range s.C).filter fun ch => bit r.mask ch && s.inService ch && !s.noNew ch)

/-- BSW for a new surface of pool `n` (R185). -/
def State.chooseBsw (s : State) (n : Nat) : Nat :=
  let held (b : Nat) : Nat := (s.sm.surfs.filter fun e => e.2.live && e.2.pool == n && e.2.bsw == b).length
  (List.range 16).foldl (fun best b => if held b < held best then b else best) 0

/-- Place a surface: its stripe positions with their extents taken, or none where a channel lacks them (R183, R189). -/
def State.placeSurf (s : State) (x : Surf) : Option (List Pos × State) :=
  let chs := s.chList x.pool
  let n := chs.length
  if n = 0 then none
  else
    let need (p : Nat) : Nat := x.extsAt n p * (if x.guarded then 2 else 1)
    if (List.range n).all fun p => decide (need p ≤ (s.freeIn x.pool (chs.getD p 0)).length) then
      let r := (List.range n).foldl (fun (b : List Pos × State) p =>
        let ch := chs.getD p 0
        let k := x.extsAt n p
        let (m, s) := b.2.takePool x.pool ch k
        let (c, s) := if x.guarded then s.takePool x.pool ch k else ([], s)
        (b.1 ++ [{ ch := ch, exts := m, comps := c }], s)) ([], s)
      some (r.1, r.2.poolUpdate x.pool)
    else none

/-- Live surfaces. -/
def State.liveCount (s : State) : Nat := (s.sm.surfs.filter fun e => e.2.live).length

/-- TABLE_FULL (R178). -/
def State.tableFull (s : State) : Bool := s.liveCount == 65536

/-- The index at the head of the free list: indices 0 to 65,535 in ascending order, then freed ones in the order of their return (R177). -/
def State.freeIndex (s : State) : Option (Nat × State) :=
  if s.sm.freeNext < 65536 then some (s.sm.freeNext, { s with sm := { s.sm with freeNext := s.sm.freeNext + 1 } })
  else
    match s.sm.freed with
    | [] => none
    | i :: t => some (i, { s with sm := { s.sm with freed := t } })

end Sys2Proof.Machine
end

