-- ==== Sys2Proof/Machine/Slice.lean ====
section
/-! DEFINITION. A Halo slice: its lines, the units of a line, write-back, victims, fetches and the header cache
(R235 to R263, R271 to R274). -/

namespace Sys2Proof.Machine
open Sys2Proof

/-! ### Units of a line -/

/-- Plane column and row of the first sample of cell `c` of a tile. -/
def cellOrigin (t : LTag) (c : Nat) : Nat × Nat := (t.tx * 128 + c % 4 * 32, t.ty * 32 + c / 4 * 8)

/-- Whether a cell holds any sample of its plane. -/
def Surf.cellIn (x : Surf) (t : LTag) (c : Nat) : Bool :=
  let o := cellOrigin t c
  decide (o.1 < (x.dims t.plane).1 ∧ o.2 < (x.dims t.plane).2)

/-- Whether sample `n` of a cell lies in its plane. -/
def Surf.sampleIn (x : Surf) (t : LTag) (c n : Nat) : Bool :=
  let o := cellOrigin t c
  decide (o.1 + n % 32 < (x.dims t.plane).1 ∧ o.2 + n / 32 < (x.dims t.plane).2)

/-- The units of a line that a fill fetches: cells with a sample in the plane, or all 256 atoms (R245). -/
def State.unitsOf (s : State) (t : LTag) : List Nat :=
  if t.lin then List.range 256 else (List.range 16).filter fun c => (s.surf t.idx).cellIn t c

/-- Fill value of a plane. -/
def State.fillOf (s : State) (t : LTag) : Nat := (s.surf t.idx).fill.getD t.plane 0

/-- A cell full of one value. -/
def flat (v : Nat) : List Nat := List.replicate 256 v

/-- Edge replication: samples outside the plane take the nearest in-plane sample's value (R213). -/
def Surf.replicate (x : Surf) (t : LTag) (c : Nat) (l : List Nat) : List Nat :=
  let o := cellOrigin t c
  let w := (x.dims t.plane).1 - o.1
  let h := (x.dims t.plane).2 - o.2
  (List.range 256).map fun n => l.getD (min (n / 32) (h - 1) * 32 + min (n % 32) (w - 1)) 0

/-- A list of values with written ones put in. -/
def overlay (l : List Nat) (w : List (Nat × Nat)) : List Nat := w.foldl (fun l e => setAt l e.1 e.2) l

/-- Protection class and policy of the data a line holds (R240, R248). -/
def State.protOf (s : State) (t : LTag) : Nat :=
  if t.lin then ((s.regionAt (t.line * 8192)).map (·.prot)).getD 0 else (s.surf t.idx).prot
/-- Whether a region is under the checker, or about to be: no slice allocates lines for it (R381). -/
def State.underCheck (s : State) (r : Nat) : Bool :=
  (s.rd R.INT_CHECKER_MODE != 0 || s.rd R.INT_CHECKER_BUSY == 1) && s.rd R.INT_CHECKER_REGION == r
/-- Whether no slice may allocate a line, whatever asks for it (R381). -/
def State.noAlloc (s : State) (t : LTag) : Bool :=
  t.lin && match s.regionAt (t.line * 8192) with | some r => s.underCheck r.region | none => false
def State.policyOf (s : State) (t : LTag) : Nat :=
  if t.lin then
    match s.regionAt (t.line * 8192) with
    | none => 3
    | some r => if s.underCheck r.region then 3 else r.cache
  else (s.surf t.idx).policy

/-- Whether a write covers a unit whole: every in-plane sample, or all 32 bytes (R227, R249). -/
def State.coversUnit (s : State) (t : LTag) (u : Nat) (w : List (Nat × Nat)) : Bool :=
  let has (n : Nat) : Bool := w.any fun e => e.1 == n
  if t.lin then (List.range 32).all has
  else (List.range 256).all fun n => !(s.surf t.idx).sampleIn t u n || has n

/-! ### Waits -/

/-- Change the wait numbered `id`. -/
def State.modWait (s : State) (id : Nat) (f : Wait → Wait) : State :=
  { s with waits := s.waits.map fun w => if w.id = id then f w else w }

/-- A part of request `id` ends with result `code`. -/
def State.partDone (s : State) (id : Option Nat) (code : Nat) : State :=
  match id with
  | none => s
  | some n => s.modWait n fun w => { w with parts := w.parts - 1, code := worse w.code code }

/-! ### Sub-requests -/

/-- Send a sub-request to the traffic unit; a write or a header write is a part of its request. -/
def State.push (s : State) (u : SubReq) : State :=
  let s := match u.wait with
    | some n => if u.write then s.modWait n fun w => { w with parts := w.parts + 1 } else s
    | none => s
  { s with subs := s.subs ++ [{ u with id := s.nextId, since := s.cclk, own := if u.own.isSome then u.own else u.wait }], nextId := s.nextId + 1 }

/-- The counter occurrence of a piece of work at slice `g`, before R287 has assigned it a class: engine work carries the class in which it
runs (R429). -/
def State.occOf (s : State) (ev n g : Nat) (u : SubReq) : Occ :=
  { ev := ev, n := n, grp := some g, req := u.rq, cls := s.subClass u }

/-- Runs of consecutive atoms among those `has` names, from atom `k` on, as (first, count). -/
def atomRuns (has : Nat → Bool) : Nat → Nat → List (Nat × Nat)
  | 0, _ => []
  | n + 1, k =>
    if has k then
      match atomRuns has n (k + 1) with
      | (a, m) :: t => if a = k + 1 then (k, m + 1) :: t else (k, 1) :: (a, m) :: t
      | [] => [(k, 1)]
    else atomRuns has n (k + 1)

/-- Write bytes of one unit, given as (offset, byte), in runs of atoms (R251, R252). `u` carries what the writes have in common. -/
def State.writeBytes (s : State) (u : SubReq) (l : List (Nat × Byte)) : State :=
  (atomRuns (fun k => l.any fun e => e.1 / 32 == k) 16 0).foldl (fun (s : State) (r : Nat × Nat) =>
    let lo := r.1 * 32
    let mine := l.filter fun e => decide (lo ≤ e.1 ∧ e.1 < lo + r.2 * 32)
    s.push { u with
      write := true, addr := lo, atoms := r.2
      charge := if u.named.isSome then 0 else r.2 * 32
      cells := mine.map fun e => (e.1 - lo, e.2) }) s

/-- The bytes of a raw cell that hold bits of the samples written: the mask of R251. -/
def rawBytes (d : Nat) (w : List (Nat × Nat)) (data : List Nat) : List (Nat × Byte) :=
  let l := packRaw d data
  let hit (k : Nat) : Bool := w.any fun e => decide (d * e.1 < 8 * k + 8 ∧ 8 * k < d * e.1 + d)
  ((List.range (32 * d)).filter hit).map fun k => (k, l.getD k 0)

/-- The bytes of a raw cell of which every bit belongs to a written sample. -/
def rawWhole (d : Nat) (w : List (Nat × Nat)) : List Nat :=
  (List.range (32 * d)).filter fun k => (List.range 8).all fun b => w.any fun e => e.1 == (8 * k + b) / d

/-! ### Stored bytes as a read finds them (R374) -/

/-- The initiator of a detection (R385). -/
def SubReq.initiator (u : SubReq) : Nat := if u.scrub then 0x41 else u.port

/-- `n` stored bytes from a channel address; none for those of a spare word with two wrong bits (R374). -/
def State.sample (s : State) (ch a n : Nat) : List (Option Byte) :=
  (List.range n).map fun k => if s.spareErrs (memKey ch (a + k)) = 2 then none else some (s.cellByte (memKey ch (a + k)))

/-- A read of `n` bytes from a channel address finds the errors of the spare words there (R374): one wrong bit of a 64-bit word is corrected, two are
logged. -/
def State.spareCheck (s : State) (ch a n init cls : Nat) : State :=
  let hit := (List.range ((n + 7) / 8)).filter fun k => s.spareErrs (memKey ch (a + 8 * k)) != 0
  let bad := hit.filter fun k => s.spareErrs (memKey ch (a + 8 * k)) == 2
  let mend (b w e : Nat) : Bool := e == 1 && hit.any fun k => (a + 8 * k) / 8 == b * 8 + w
  if hit.isEmpty then s
  else
    let s := s.setChan ch { s.chan ch with remap := (s.chan ch).remap.map fun r =>
      (r.1, { r.2 with errs := r.2.errs.filter fun e => !mend r.2.block e.1 e.2 }) }
    bad.foldl (fun (s : State) k => s.detect
      { unit := ch, kind := 0x0C, loc := (a + 8 * k) / 64 * 64, init := init, cls := cls, flags := if init = 0x41 then 32 else 0 }) s

/-! ### Header cache (R235) -/

/-- The set of a header atom: the tile number's low ten bits (R235, DESIGN CHOICE, log entry 168). -/
def State.hdrSet (s : State) (t : LTag) : Nat := (s.surf t.idx).tileNo t.plane t.tx t.ty % 1024

/-- The header of a cell, if its atom is cached. -/
def State.hdrCached (s : State) (t : LTag) (c : Nat) : Option Nat :=
  ((queueOf s.hdrs (s.hdrSet t)).find? fun e => e.tag == t && e.half == c / 8).map fun e => e.hdrs.getD (c % 8) 0

/-- Hold an entry of the header cache as the most recently used of its set of 16. -/
def State.hdrFront (s : State) (x : HdrEnt) : State :=
  let k := s.hdrSet x.tag
  let q := (queueOf s.hdrs k).filter fun e => !(e.tag == x.tag && e.half == x.half)
  { s with hdrs := Tab.insert k ((x :: q).take 16) s.hdrs }

/-- Hold a header atom that has just been read. -/
def State.hdrPut (s : State) (t : LTag) (half : Nat) (l : List Nat) : State := s.hdrFront { tag := t, half := half, hdrs := l }

/-- LOCATION of a Cirrus detection (R385). -/
def cirLoc (t : LTag) (c : Nat) : Nat :=
  let o := cellOrigin t c
  t.idx + t.gen * 2 ^ 16 + t.plane * 2 ^ 24 + o.1 / 32 * 2 ^ 26 + o.2 / 8 * 2 ^ 42

/-- What a lookup of cell `c` for `u` finds wrong in its set (R236): an entry whose tag fails its parity, or the atom itself with two wrong bits in
the word of the header, is dropped and logged, and one wrong bit of that word is corrected; each is counted. No command makes such an error (log entry
41). -/
def State.hdrCheck (s : State) (u : SubReq) (c : Nat) : State :=
  let t := u.tag
  let k := s.hdrSet t
  let q := queueOf s.hdrs k
  let mine (e : HdrEnt) : Bool := e.tag == t && e.half == c / 8
  let w := c % 8 / 2
  let gone (e : HdrEnt) : Bool := e.tagErr || (mine e && decide (2 ≤ Tab.get 0 e.errs w))
  let mend (e : HdrEnt) : Bool := !gone e && mine e && Tab.get 0 e.errs w == 1
  if (q.any fun e => gone e || mend e) = false then s
  else
    let s := { s with hdrs := Tab.insert k ((q.filter fun e => !gone e).map fun e => if mend e then { e with errs := Tab.insert w 0 e.errs } else e) s.hdrs }
    let s := (s.bump R.CIR_HDR_ECC_DROPPED 0 0 (q.filter gone).length).bump R.CIR_HDR_ECC_CORRECTED 0 0 (q.filter mend).length
    (q.filter gone).foldl (fun (s : State) e =>
      s.detect { unit := 0x20 + u.g, kind := 0x0B, loc := cirLoc e.tag (e.half * 8), init := u.port, cls := s.subClass u }) s

/-- A lookup makes its atom the most recently used. -/
def State.hdrTouch (s : State) (t : LTag) (c : Nat) : State :=
  let k := s.hdrSet t
  match (queueOf s.hdrs k).find? fun e => e.tag == t && e.half == c / 8 with
  | some e => s.hdrFront e
  | none => s

/-- A header changes: the cache is written through (R235). -/
def State.hdrSetCell (s : State) (t : LTag) (c h : Nat) : State :=
  let k := s.hdrSet t
  match (queueOf s.hdrs k).find? fun e => e.tag == t && e.half == c / 8 with
  | some e => s.hdrFront { e with hdrs := setAt e.hdrs (c % 8) h }
  | none => s

/-- Drop the cached headers of a surface. -/
def State.hdrDrop (s : State) (idx : Nat) : State :=
  { s with hdrs := s.hdrs.map fun e => (e.1, e.2.filter fun h => h.tag.idx != idx) }

/-- A cell is rewritten: the reads that took its header before, and the failures logged, are of an older version (R226). -/
def State.outdate (s : State) (t : LTag) (c : Nat) : State :=
  let m (v : SubReq) : SubReq := if !v.write && v.tag == t && v.unit == c then { v with stale := v.stale + 1 } else v
  let mq (q : QEnt) : QEnt := { q with sub := m q.sub }
  let mj (e : Nat × List DecJob) : Nat × List DecJob := (e.1, e.2.map fun j => { j with sub := m j.sub })
  { s with
    subs := s.subs.map m
    halves := s.halves.map fun h => { h with q := mq h.q }
    dec := s.dec.map mj
    retry := s.retry.map mj
    failed := s.failed.map fun e => if e.1 = t ∧ e.2.1 = c then (t, c, e.2.2 + 1) else e
    chans := s.chans.map fun e => (e.1, { e.2 with cq := e.2.cq.map mq, fly := e.2.fly.map mq, done := e.2.done.map mq }) }

/-- Charge a cell at raw size where no command moves it whole: the raw read or the raw write of R234. -/
def State.chargeRaw (s : State) (u : SubReq) : State :=
  s.push { u with write := true, addr := 0, atoms := 0, charge := 32 * (s.surf u.tag.idx).d, cells := [], named := none }

/-- Queue a header write (R235). -/
def State.writeHdr (s : State) (u : SubReq) (h : Nat) : State :=
  ((s.hdrSetCell u.tag u.unit h).outdate u.tag u.unit).push { u with
    kind := .hdrWr, write := true, addr := 0, atoms := 1, charge := 0
    cells := (List.range 4).map fun k => (u.unit % 8 * 4 + k, BitVec.ofNat 8 (h / 2 ^ (8 * k))) }

/-- The header that stands in DRAM for a cell, once its pending writes have landed. -/
def State.hdrStored (s : State) (t : LTag) (c : Nat) : Nat :=
  let r := (s.cellRoute t c true).at_
  ((List.range 4).map fun k => (s.cellByte (memKey r.ch (r.a + k))).toNat * 256 ^ k).sum

/-- The header of a cell in force now: that of the last header write on its way to the front end, else what DRAM holds (R232). -/
def State.hdrNow (s : State) (t : LTag) (c : Nat) : Nat :=
  match s.subs.reverse.find? fun u => u.kind == SubKind.hdrWr && u.tag == t && u.unit == c with
  | some u => leNat (u.cells.map (·.2))
  | none => s.hdrStored t c

/-- The cached header atoms that `hit` names by tile and half become POISON, as DRAM now holds them (R202, R235, R490). -/
def State.hdrsLost (s : State) (hit : LTag → Nat → Bool) : State :=
  { s with hdrs := s.hdrs.map fun e => (e.1, e.2.map fun h => if hit h.tag h.half then { h with hdrs := List.replicate 8 hdrPoison, errs := [] } else h) }

/-! ### Fetching a unit (R225, R245) -/

/-- Whether an update of a cell is under way, or waits to encode it, so that a reader of its header waits (R232). -/
def State.cellHeld (s : State) (t : LTag) (c : Nat) : Bool :=
  s.enc.any fun e => e.2.any fun j => j.tag == t && j.cell == c

/-- Send a unit that needs no payload to its slice. -/
def State.arrive (s : State) (g : Nat) (a : Arrival) : State := { s with arr := Tab.insert g (queueOf s.arr g ++ [a]) s.arr }

/-- The event of CELL_UNWR to CELL_POISON for a header's MODE. -/
def modeEvent (m : Nat) : Nat := if m = 7 then 0x064 else 0x060 + m

/-- Act on a cell's header (R225): the cell's sub-request goes to the traffic unit, with no atom to read where the header alone resolves it or is
invalid, since it is charged all the same (R234). -/
def State.byHeader (s : State) (u : SubReq) (h : Nat) : State :=
  let x := s.surf u.tag.idx
  let m := hdrMode h
  let bad := hdrInvalid x.d h
  let n := if bad = false ∧ (m = 2 ∨ m = 3) then hdrGcnt h else 0
  let s := if bad then s else
    ((s.count (s.occOf (modeEvent m) 1 u.g u)).count (s.occOf 0x065 n u.g u)).count (s.occOf 0x066 x.d u.g u)
  s.push { u with addr := 0, atoms := n, charge := if u.named.isSome then 0 else 32 * x.d, hdr := h }

/-- A cell that its header alone resolves: UNWRITTEN, CONSTANT or POISON (R225). -/
def State.flatArrival (s : State) (u : SubReq) : Arrival :=
  let m := hdrMode u.hdr
  if m = 0 then { sub := u, st := 2, data := flat (s.fillOf u.tag) }
  else if m = 1 then { sub := u, st := 1, data := flat (hdrCrc u.hdr) }
  else { sub := u, st := 3, data := flat (s.fillOf u.tag) }

/-- A cell whose header calls for no payload leaves the traffic unit in class `cls`: its samples go to the slice, or an invalid header to the check that
fails it (R225). -/
def State.noPayload (s : State) (u : SubReq) (cls : Nat) : State :=
  if hdrInvalid (s.surf u.tag.idx).d u.hdr then
    { s with dec := Tab.insert u.g (queueOf s.dec u.g ++ [{ sub := u, header := u.hdr, payload := [], cls := cls }]) s.dec }
  else s.arrive u.g (s.flatArrival u)

/-- What a header read's cells are wanted for, as a number, and back. -/
def hdrOfKind (k : SubKind) : Nat :=
  match k with
  | .fill => 1
  | .stream => 2
  | .pfill => 3
  | _ => 4
def kindOfHdr (n : Nat) : SubKind := if n = 1 then .fill else if n = 2 then .stream else if n = 3 then .pfill else .merge

/-- Fetch cells of a SEALED surface whatever updates hold them: headers from the cache, or one read of each header atom missing. -/
def State.fetchCells (s : State) (u : SubReq) (l : List Nat) : State :=
  let t := u.tag
  let s := l.foldl (fun (s : State) c => s.hdrCheck u c) (s.count { ev := 0x06B, n := l.length, grp := some u.g })
  let hit := l.filter fun c => (s.hdrCached t c).isSome
  let s := hit.foldl (fun (s : State) c => ((s.hdrTouch t c).byHeader { u with unit := c } ((s.hdrCached t c).getD 0))) s
  [0, 1].foldl (fun (s : State) half =>
    let cs := l.filter fun c => c / 8 == half && !hit.contains c
    if cs.isEmpty then s
    else (s.count { ev := 0x06C, grp := some u.g }).push
      { u with kind := .hdr, unit := half * 8, units := cs, atoms := 1, charge := 0, hdr := hdrOfKind u.kind }) s

/-- The sub-requests of a streaming read of linear atoms, split at 512 B (R196). -/
def State.streamAtoms (s : State) (u : SubReq) (l : List Nat) : State :=
  (List.range 16).foldl (fun (s : State) b =>
    (atomRuns (fun k => l.contains (16 * b + k)) 16 0).foldl (fun (s : State) (r : Nat × Nat) =>
      s.push { u with unit := 16 * b + r.1, atoms := r.2, charge := 32 * r.2 }) s) s

/-- Fetch the units `l` that `u` describes (R245): linear atoms, cells of a SEALED surface by their headers, or raw cells. A SEALED cell
that an update holds waits (R232). -/
def State.fetch (s : State) (u : SubReq) (l : List Nat) : State :=
  let t := u.tag
  if t.lin then
    if u.kind = .stream then s.streamAtoms u l
    else l.foldl (fun (s : State) n => s.push { u with unit := n, atoms := 1, charge := if u.named.isSome then 0 else 32 }) s
  else if (s.surf t.idx).sealed then
    let wait := l.filter fun c => s.cellHeld t c
    let s := { s with hdrWait := s.hdrWait ++ wait.map fun c => { u with unit := c } }
    s.fetchCells u (l.filter fun c => !s.cellHeld t c)
  else
    let d := (s.surf t.idx).d
    l.foldl (fun (s : State) c => s.push { u with unit := c, atoms := d, charge := if u.named.isSome then 0 else 32 * d }) s

/-! ### Lines -/

/-- The entries of a slice in the order of lookup: array, side buffer, eviction buffer. -/
def entries : List Nat := List.range 76

/-- The entry that holds a line. -/
def State.findLine (s : State) (g : Nat) (t : LTag) : Option Nat :=
  entries.find? fun e => let x := s.line g e; x.valid && x.tag == t

/-- Whether any unit of a line is DIRTY. -/
def Line.dirty (x : Line) : Bool := x.units.any fun u => u.2.dirty
def Line.unit (x : Line) (n : Nat) : HUnit := Tab.get {} x.units n
def Line.setUnit (x : Line) (n : Nat) (u : HUnit) : Line := { x with units := Tab.insert n u x.units }

/-- A line is used (R243). -/
def State.touch (s : State) (g e : Nat) : State :=
  { s.setLine g e { s.line g e with age := s.useCtr + 1 } with useCtr := s.useCtr + 1 }

/-- Whether writes of a line that a slice issued have all entered their front ends (R255, R262). -/
def State.lineSettled (s : State) (g : Nat) (t : LTag) : Bool :=
  !(s.subs.any fun u => u.g == g && u.write && u.tag == t) && !((queueOf s.enc g).any fun j => j.tag == t)

/-- Whether a line is busy: filling, waited on, or with writes in flight under R255. -/
def State.lineBusy (s : State) (g : Nat) (x : Line) : Bool :=
  x.filling || s.waits.any (fun w => w.port / 8 == g && w.lines.contains x.tag) || !s.lineSettled g x.tag ||
    s.snoops.any fun n => n.g == g && n.tag == x.tag

/-- The entry a line takes in the array (R243): an INVALID one, else the least recently used that is not locked and not busy. -/
def State.victim (s : State) (g : Nat) : Option Nat :=
  match (List.range 64).find? fun e => !(s.line g e).valid with
  | some e => some e
  | none =>
    firstBy (fun e => [(s.line g e).age]) ((List.range 64).filter fun e => let x := s.line g e; !x.locked && !s.lineBusy g x)

/-- Whether a request translated before surface `i` was freed is still under way (R125). -/
def State.surfInUse (s : State) (i : Nat) : Bool := s.waits.any fun w => w.surf == some i

/-- A line's surface still names live storage, or storage that requests translated before it was freed still use (R125). -/
def State.lineLive (s : State) (t : LTag) : Bool :=
  let x := s.surf t.idx
  t.lin || x.live && x.gen == t.gen || x.freed && s.surfInUse t.idx

/-- Write back one unit of a line (R247, R250, R258): a whole cell to an encoder, or whole raw or linear data to the crossbar. -/
def State.writeBack (s : State) (g : Nat) (x : Line) (n : Nat) : State :=
  let t := x.tag
  let u : SubReq := { id := 0, g := g, port := 8 * g, flow := x.flow, tag := t, unit := n, kind := .wb, t0 := s.cclk }
  let s := s.count (s.occOf 0x049 1 g u)
  if s.lineLive t = false then s
  else if t.lin then s.writeBytes u ((List.range 32).map fun k => (k, BitVec.ofNat 8 ((x.unit n).data.getD k 0)))
  else if x.prot = 1 then
    let j : EncJob := { wait := none, tag := t, cell := n, samples := (List.range 256).map fun k => (k, (x.unit n).data.getD k 0),
                        flow := x.flow, port := 8 * g, t0 := s.cclk }
    { s with enc := Tab.insert g (queueOf s.enc g ++ [j]) s.enc }
  else
    let d := (s.surf t.idx).d
    let l := packRaw d ((s.surf t.idx).replicate t n (x.unit n).data)
    s.writeBytes u ((List.range l.length).zipWith (fun k b => (k, b)) l)

/-- A Halo error: its event bit and source, its count, and the first-error capture (R274, R276, R277). -/
def State.haloErr (s : State) (g e cause unit : Nat) : State :=
  if s.rd R.HALO_ERR_FIRST_VALID g = 1 then s
  else
    (((s.wr R.HALO_ERR_FIRST_ENTRY g 0 e).wr R.HALO_ERR_FIRST_CAUSE g 0 cause).wr R.HALO_ERR_FIRST_UNIT g 0 unit).wr R.HALO_ERR_FIRST_VALID g 0 1
def State.raiseHalo (s : State) (f : Fld) (g : Nat) : State := (s.setBit f g 0).raise 5 (8 + g)

/-- The location of a Halo detection (R385). -/
def haloLoc (e unit : Nat) : Nat := e + unit * 256

/-- A DIRTY unit that is lost is written back at once in the poisoned form of its class (R274). -/
def State.poisonBack (s : State) (g : Nat) (x : Line) (n : Nat) : State :=
  let u : SubReq := { id := 0, g := g, port := 8 * g, flow := x.flow, tag := x.tag, unit := n, kind := .wb, t0 := s.cclk }
  if x.prot = 1 then (s.writeHdr u hdrPoison)
  else if x.prot = 2 then
    let l := if x.tag.lin then (x.unit n).data.map (BitVec.ofNat 8 ·) else packRaw (s.surf x.tag.idx).d (x.unit n).data
    s.push { u with write := true, atoms := cdiv l.length 32, charge := l.length, scrub := false, raw := true
                    cells := (List.range l.length).zipWith (fun k b => (k, b)) l
                    ccells := (List.range l.length).zipWith (fun k b => (k, poisonCheck b)) l }
  else s

/-- The bytes of an atom as read: the flipped bits of its 64-bit words stand (R241, R274). -/
def HUnit.asRead (u : HUnit) : List Nat :=
  u.errs.foldl (fun (l : List Nat) e => setAt l (e.1 % 4 * 8) (l.getD (e.1 % 4 * 8) 0 ^^^ e.2)) u.data

/-- A read of unit `n` of entry `e` meets its array errors, if it has any: single bits are corrected, a double bit loses the unit (R274). -/
def State.readUnit (s : State) (g e n : Nat) : State :=
  let x := s.line g e
  let u := x.unit n
  if u.errs.isEmpty then s
  else if u.errs.any (fun w => w.2 == 3) = false then
    let k := u.errs.length
    ((s.setLine g e (x.setUnit n { u with errs := [] })).bump R.HALO_ECC_CORRECTED g 0 k).count { ev := 0x058, n := k, grp := some g }
  else
    let s := ((s.raiseHalo R.HALO_STATUS_DATA_UE g).bump R.HALO_ECC_UNCORRECTED g 0 1).count { ev := 0x059, grp := some g }
    let s := s.detect { unit := 0x20 + g, kind := 0x09, loc := haloLoc e n }
    if u.dirty then
      let lost := if x.tag.lin then u.asRead else flat (s.fillOf x.tag)
      let y := x.setUnit n { u with errs := [], dirty := false, st := 3, data := lost, bad := List.range (s.surf x.tag.idx).d }
      let s := ((s.setLine g e y).haloErr g e 4 n).raiseHalo R.HALO_STATUS_DIRTY_LOST g
      (s.detect { unit := 0x20 + g, kind := 0x0A, loc := haloLoc e n }).poisonBack g y n
    else (s.setLine g e (x.setUnit n {})).haloErr g e 3 n

/-- Hand over the next DIRTY unit of entry `e` (R258): it is clean from now on. -/
def State.handOver (s : State) (g e : Nat) : State :=
  let x := s.line g e
  match x.units.find? fun u => u.2.dirty with
  | none => s.setLine g e { x with evb := 0 }
  | some (n, _) =>
    let s := s.readUnit g e n
    let x := s.line g e
    let u := x.unit n
    let s := if u.dirty then s.writeBack g x n else s
    let y := x.setUnit n { u with dirty := false }
    s.setLine g e { y with evb := if y.dirty then 2 else 0 }

/-- Hand over every DIRTY unit of an entry. -/
def State.flushLine (s : State) (g e : Nat) : State :=
  (List.range (((s.line g e).units.filter fun u => u.2.dirty).length)).foldl (fun (s : State) _ => s.handOver g e) s

/-- Empty an entry. -/
def State.dropLine (s : State) (g e : Nat) : State := s.setLine g e {}

/-- A place in the eviction buffer (R261): a free one, else that of the oldest CLEAN line whose writes have all entered their front ends, which is
dropped (R262); none while no line is CLEAN. -/
def State.evbPlace (s : State) (g : Nat) : Option (Nat × State) :=
  match [72, 73, 74, 75].find? fun e => !(s.line g e).valid with
  | some e => some (e, s)
  | none =>
    let clean := [72, 73, 74, 75].filter fun e => (s.line g e).evb == 0 && s.lineSettled g (s.line g e).tag
    (firstBy (fun e => [(s.line g e).ent]) clean).map fun e => (e, s.dropLine g e)

/-- The line of array entry `e` moves to place `p` of the eviction buffer (R258). -/
def State.evictTo (s : State) (g e p : Nat) : State :=
  let x := s.line g e
  if x.valid = false then s
  else
    let s := s.count { ev := 0x04A, grp := some g }
    let s := if x.dirty then s.count { ev := 0x04B, grp := some g } else s
    let s := (s.setLine g p { x with evb := b2n x.dirty, ent := s.useCtr + 1 }).dropLine g e
    { s with useCtr := s.useCtr + 1 }

/-- Take an entry of the array for a new line, its victim evicted; none without a victim, or without a place for it. -/
def State.takeEntry (s : State) (g : Nat) : Option (Nat × State) :=
  match s.victim g with
  | none => none
  | some v => if (s.line g v).valid then (s.evbPlace g).map fun p => (v, p.2.evictTo g v p.1) else some (v, s)

/-- Whether an allocation waits: there is a victim, but no place for it in the eviction buffer (R261). -/
def State.stalled (s : State) (g : Nat) : Bool := (s.victim g).isSome && (s.takeEntry g).isNone

/-- An empty line for a tag. -/
def State.newLine (s : State) (t : LTag) : Line :=
  { valid := true, tag := t, pol := s.policyOf t, prot := s.protOf t, age := s.useCtr + 1 }

/-- A side buffer or eviction buffer line moves into the array (R259, R266): the entry it stands in afterwards. The victim takes the place that a line
leaves in the eviction buffer. Without a victim, or a place for it, the line stays where it is. -/
def State.promote (s : State) (g e : Nat) : Nat × State :=
  if e < 64 then (e, s.touch g e)
  else
    let x := s.line g e
    let put (s : State) (v : Nat) : Nat × State := (v, (s.setLine g v { x with evb := 0 }).touch g v)
    if e < 72 then
      match s.takeEntry g with
      | none => (e, s)
      | some (v, s) => put ((s.dropLine g e).count { ev := 0x04E, grp := some g }) v
    else
      match s.victim g with
      | none => (e, s)
      | some v => put ((s.dropLine g e).evictTo g v e) v

/-! ### Lines that leave -/

/-- A locked line keeps its tag and its lock and loses its units (R271). -/
def Line.emptied (x : Line) : Line :=
  { x with units := [], empty := true, own := false, sole := false, filling := false, inval := false, gone := false, sharing := false, evb := 0 }

/-- The line of entry `e` is invalidated, or made LOCKED_EMPTY (R270, R271). -/
def State.leave (s : State) (g e : Nat) : State :=
  let x := s.line g e
  let s := s.count { ev := 0x057, grp := some g }
  if x.locked then s.setLine g e x.emptied else s.dropLine g e

/-- Whether a range invalidate has taken a line that still waits for its writes to enter their front ends: lookups miss it (R270). -/
def State.lineGone (s : State) (g : Nat) (t : LTag) : Bool := (s.findLine g t).any fun e => (s.line g e).gone

/-- The lines that a range invalidate has taken, and whose writes have all entered their front ends, leave (R262, R270). -/
def State.leaveGone (s : State) : State :=
  (List.range 8).foldl (fun (s : State) g => entries.foldl (fun (s : State) e =>
    let x := s.line g e
    if x.valid && x.gone && s.lineSettled g x.tag then s.leave g e else s) s) s

/-- FILLING clears once every fetched unit is present: OWN is set if no other slice holds the line (R256), and an invalidate or a CLAIM that
reached the line meanwhile takes effect (R272). -/
def State.endFill (s : State) (g e : Nat) : State :=
  let x := s.line g e
  if x.filling = false ∨ (x.units.any fun u => u.2.st == 0 && !u.2.fetch.isEmpty) = true then s
  else
    let s := s.setLine g e { x with filling := false, own := x.own || x.sole, sole := false }
    let s := if e < 64 then s.touch g e else s
    if x.inval then (s.flushLine g e).leave g e else s

/-! ### Array errors (R273, R274) -/

/-- Every tag a lookup or a snoop compares is checked: a line with bad parity leaves (R273). -/
def State.checkTags (s : State) (g : Nat) : State :=
  entries.foldl (fun (s : State) e =>
    let x := s.line g e
    if x.valid = false ∨ x.tagErr = false then s
    else
      let s := (s.dropLine g e).raiseHalo R.HALO_STATUS_TAG_ERR g
      let s := ((s.bump R.HALO_ECC_UNCORRECTED g 0 1).count { ev := 0x059, grp := some g }).detect
        { unit := 0x20 + g, kind := 0x08, loc := haloLoc e 0 }
      if x.dirty then
        ((s.haloErr g e 2 0).raiseHalo R.HALO_STATUS_DIRTY_LOST g).detect { unit := 0x20 + g, kind := 0x0A, loc := haloLoc e 0 }
      else s.haloErr g e 1 0) s

/-! ### Allocation, prefetch, messages -/

/-- Send a snoop message; a prefetch or a fill waits for its acknowledgements (R254, R255). -/
def State.sendSnoop (s : State) (n : Snoop) : State :=
  ({ s with snoops := s.snoops ++ [n] } : State).count { ev := if n.claim then 0x051 else 0x050, grp := some n.g }

/-- The units of a line in the order a fill issues them: those needed first (R245). -/
def fillOrder (need all : List Nat) : List Nat := need ++ all.filter fun n => !need.contains n

/-- Whether a line waits for copy `k` of any of its units. -/
def Line.awaits (x : Line) (k : Nat) : Bool := x.units.any fun u => u.2.fetch.contains k

/-- A further copy of the units `l` of a line is on its way, for a demand or, where `pf` says so, for a prefetch (R245, R266). -/
def Line.expect (x : Line) (l : List Nat) (k : Nat) (pf : Bool) : Line :=
  l.foldl (fun (x : Line) n => x.setUnit n { x.unit n with fetch := (x.unit n).fetch ++ [k], pf := pf }) x

/-- Allocate entry `e` for a line and begin its fill: SHARE is sent, and the units follow its acknowledgements. A locked empty line refills
into its own entry (R245, R271). -/
def State.beginFill (s : State) (g e : Nat) (t : LTag) (need : List Nat) (u : SubReq) : State :=
  let old := s.line g e
  let keep := old.valid && old.tag == t
  let all := s.unitsOf t
  let l := fillOrder need all
  let y : Line := { s.newLine t with locked := keep && old.locked, filling := true, flow := u.flow }
  let s := if keep && old.empty then s.count { ev := 0x056, grp := some g } else s
  let y := y.expect l s.nextId (u.kind == .pfill)
  let k := s.nextId
  let s := ({ s.setLine g e y with useCtr := s.useCtr + 1, nextId := k + 1 } : State)
  s.sendSnoop { g := g, claim := false, tag := t, act := .fill l { u with copy := k } }

/-- Drop a side buffer line, with the sub-requests of its prefetch that have not gone out. -/
def State.dropPrefetch (s : State) (g e : Nat) : State :=
  let t := (s.line g e).tag
  let mine (u : SubReq) : Bool := u.g == g && u.kind == SubKind.pfill && u.tag == t
  (s.subs.filter mine).foldl (fun (s : State) u => s.settle u.own) { s.dropLine g e with subs := s.subs.filter fun u => !mine u }

/-- Drop side buffer lines until at most `n` places are in use, oldest first: those that have finished filling, or any of them (R263). -/
def State.trimSide (s : State) (g n : Nat) (any : Bool) : State :=
  let used := (List.range 8).filter fun k => (s.line g (64 + k)).valid
  let may := sortBy (fun k => [(s.line g (64 + k)).age]) (used.filter fun k => any || !(s.line g (64 + k)).filling)
  (may.take (used.length - n)).foldl (fun (s : State) k => (s.dropPrefetch g (64 + k)).bump R.HALO_PF_UNUSED_COUNT g 0 1 |>.count
    { ev := 0x04F, grp := some g }) s

/-- Prefetch a line into the side buffer, if a usable place can be had (R263). The Bool says that it was made. -/
def State.prefetchLine (s : State) (g : Nat) (t : LTag) (u : SubReq) : State × Bool :=
  let depth := min 8 (s.rd R.HALO_CTL_PREFETCH_DEPTH g)
  if depth = 0 ∨ (s.findLine g t).isSome = true ∨ s.noAlloc t = true then (s, false)
  else
    let s := if ((List.range 8).filter fun k => (s.line g (64 + k)).valid).length < depth then s else s.trimSide g (depth - 1) false
    let used := (List.range 8).filter fun k => (s.line g (64 + k)).valid
    match (List.range 8).find? fun k => !used.contains k with
    | none => (s, false)
    | some k =>
      if depth ≤ used.length then (s, false)
      else ((s.beginFill g (64 + k) t [] u).bump R.HALO_PF_ISSUED_COUNT g 0 1, true)

/-- The line that a demand miss of `t` prompts, by declared shape (R264). `lastLin` is the port's previous linear miss. -/
def State.shapeNext (s : State) (t : LTag) (lastLin : Option Nat) : Option LTag :=
  if t.lin then
    if lastLin = some (t.line - 1) ∧ t.line ≠ 0 then
      match s.regionAt (t.line * 8192), s.regionAt ((t.line + 1) * 8192) with
      | some a, some b => if a.region = b.region then some { t with line := t.line + 1 } else none
      | _, _ => none
    else none
  else
    let x := s.surf t.idx
    let (w, h) := x.tiles t.plane
    if x.shape = 1 then none
    else if x.shape = 2 then if t.ty + 1 < h then some { t with ty := t.ty + 1 } else none
    else if t.tx + 1 < w then some { t with tx := t.tx + 1 }
    else if t.ty + 1 < h then some { t with tx := 0, ty := t.ty + 1 }
    else none

end Sys2Proof.Machine
end

