-- ==== Sys2Proof/Machine/Serve.lean ====
section
/-! DEFINITION. What a slice does for a request: translation, reads, writes, ZERO, PRELOAD and UNLOCK on lines, the part results, and the
response (R121 to R132, R242 to R253, R266 to R272). -/

namespace Sys2Proof.Machine
open Sys2Proof

/-! ### Responses -/

/-- The wait numbered `id`. -/
def State.waitOf (s : State) (id : Nat) : Option Wait := s.waits.find? fun w => w.id == id

/-- The number of `n`-bit values packed low first. -/
def packVals (n : Nat) : List Nat → Nat
  | [] => 0
  | v :: t => v % 2 ^ n + 2 ^ n * packVals n t

/-- Response beats of 64 sample containers, or 128 bytes (R117, R118); `l` holds values of `w` bits with their poison marks. -/
def beatsOf (w : Nat) (mark : Bool) : Nat → List (Nat × Bool) → List RBeat
  | 0, _ => []
  | n + 1, l =>
    let k := 1024 / w
    let b := l.take k
    { data := BitVec.ofNat 1024 (packVals w (b.map (·.1))), poison := mark && b.any (·.2) } :: beatsOf w mark n (l.drop k)

/-- Plane coordinates that sample (i, j) of a block names, clamped into the plane (R126). -/
def clampAt (r : Req) (d : Nat × Nat) (i j : Nat) : Nat × Nat :=
  let c (o : Int) (n : Nat) : Nat := (min (max o 0) ((n : Int) - 1)).toNat
  (c (sext 16 r.x + i) d.1, c (sext 16 r.y + j) d.2)

/-- The line, cell and sample number of plane coordinates. -/
def tagAt (r : Req) (x y : Nat) : LTag × Nat × Nat :=
  ({ idx := r.handle % 65536, gen := r.handle / 65536, plane := r.plane, tx := x / 128, ty := y / 32 },
    y % 32 / 8 * 4 + x % 128 / 32, y % 8 * 32 + x % 32)

/-- The line and atom of a byte address. -/
def linTag (a : Nat) : LTag × Nat := ({ lin := true, line := a / 8192 }, a % 8192 / 32)

/-- A sample of a read out of what was gathered. -/
def Wait.value (w : Wait) (t : LTag) (u n : Nat) : Nat × Bool :=
  match w.got.find? fun g => g.tag == t && g.unit == u with
  | some g => (g.data.getD n 0, g.mark.contains n)
  | none => (0, false)

/-- The data beats of a completed READ. -/
def State.readBeats (s : State) (w : Wait) : List RBeat :=
  let r := w.xf.req
  match w.surf with
  | some i =>
    let d := (s.surf i).dims r.plane
    let l := (List.range (r.h + 1)).flatMap fun j => (List.range (r.w + 1)).map fun k =>
      let c := clampAt r d k j
      let t := tagAt r c.1 c.2
      w.value t.1 t.2.1 t.2.2
    beatsOf 16 (w.code == 2) (cdiv ((r.w + 1) * (r.h + 1)) 64) l
  | none =>
    let l := (List.range ((r.len + 1) * 64)).map fun k =>
      let t := linTag (r.addr + k)
      w.value t.1 t.2 ((r.addr + k) % 32)
    beatsOf 8 (w.code == 2) (cdiv (r.len + 1) 2) l

/-- A trail's record (R438). -/
def trailRecord (t : Trail) : List Byte :=
  let off (k : Nat) : Nat := match Tab.find t.offs k with | some n => min n 0xFFFE | none => 0xFFFF
  let sat := t.offs.any fun e => decide (0xFFFE < e.2)
  leBytes 4 t.t0 ++ (List.range 7).flatMap (fun k => leBytes 2 (off (k + 2))) ++ leBytes 2 t.seq ++ leBytes 3 (t.flow + 2 ^ 20 * t.cls) ++
    leBytes 1 t.port ++ leBytes 2 (t.tag + 1024 * t.op) ++ leBytes 1 t.ch ++
    leBytes 1 (t.rsp + 16 * b2n t.hit + 32 * b2n t.multi + 64 * b2n sat + 128 * b2n t.cut) ++ leBytes 4 t.epoch

/-- CTR_PROD - CTR_CONS, modulo 512 (R439). -/
def State.ctrUsed (s : State) : Nat := (s.meas.prod + 512 - s.rd R.CTR_CONS_CONS) % 512

/-- The trail numbered `id` leaves flight: its record goes to the buffer, which wraps or loses records when it is full (R437, R439). -/
def State.endTrail (s : State) (id : Option Nat) : State :=
  match id with
  | none => s
  | some n =>
    match s.meas.trails.find? fun t => t.id == n with
    | none => s
    | some t =>
      let s := { s with meas := { s.meas with trails := s.meas.trails.filter fun u => u.id != n } }
      let full := s.ctrUsed == 256
      if full && s.rd R.CTR_CTL_WRAP == 0 then s.bump R.CTR_LOSS_LOST 0 0 1
      else
        let s := if full then (s.wr R.CTR_CONS_CONS 0 0 ((s.rd R.CTR_CONS_CONS + 1) % 512)).bump R.CTR_LOSS_LOST 0 0 1 else s
        { s with meas := { s.meas with
            recs := Tab.insert (s.meas.prod % 256) (trailRecord t) s.meas.recs, prod := (s.meas.prod + 1) % 512 } }

/-- Responses are presented with their counts (R120, R430). -/
def State.respond (s : State) (p : Nat) (x : Resp) : State :=
  let late := if s.squall.unlocked then s.rd R.SQ_PORT_DELAY p else 0
  let s := if x.code = 10 then s.bump R.PORT_RESTART_CNT_COUNT (p / 8) (p % 8) 1 else s
  let s := s.setPort p { s.port p with rsps := (s.port p).rsps ++ [{ x with readyAt := s.cclk + late }] }
  let s := ((s.count (s.occAt (0x020 + x.code) 1 x.rq)).count (s.occAt 0x02C 1 x.rq)).count (s.occAt 0x01F (s.cclk - x.t0) x.rq)
  let s := if x.code = 6 then s.count { ev := 0x073, req := some x.rq }
    else if x.code = 4 then s.count { ev := 0x074, req := some x.rq }
    else if x.code = 10 then s.count { ev := 0x035, grp := some (p / 8), req := some x.rq } else s
  (s.stamp x.ctag 8).modTrail x.ctag fun t => { t with rsp := x.code }

/-- A response of one beat of 0, or of one number. -/
def oneBeat (v : Nat) : List RBeat := [{ data := BitVec.ofNat 1024 v }]

/-- Answer transfer `x` of port `p` with a code and one beat (R128). -/
def State.answer (s : State) (p : Nat) (x : Xfer) (code v : Nat) : State :=
  (s.respond p { tag := x.req.tag, code := code, beats := oneBeat v, rq := s.attrOf p x.req, t0 := x.t0, ctag := x.ctag }).settle (some x.id)

/-- Every line of a freed surface is dropped with its lock, its unissued write-backs are cancelled, and its headers leave the cache (R192, R275), once
every request translated before it was freed has completed (R125). -/
def State.dropFreed (s : State) (i : Nat) : State :=
  if (s.surf i).freed = false ∨ s.surfInUse i = true then s
  else
    let gone (l : Line) : Bool := l.valid && !l.tag.lin && l.tag.idx == i
    let lines := s.lines.map fun (e : Nat × Line) => if gone e.2 then (e.1, ({} : Line)) else e
    let enc := s.enc.map fun (e : Nat × List EncJob) => (e.1, e.2.filter fun j => !(j.tag.idx == i && j.wait.isNone))
    let subs := s.subs.filter fun u => !(!u.tag.lin && u.tag.idx == i && u.wait.isNone && u.kind == SubKind.wb)
    ({ s with lines := lines, enc := enc, subs := subs } : State).hdrDrop i

/-- Request `id` is complete: it is answered, unless its port has detached since (R139). -/
def State.finish (s : State) (w : Wait) : State :=
  let s := { s with waits := s.waits.filter fun v => v.id != w.id }
  let s := (match w.surf with | some i => s.dropFreed i | none => s).settle (some w.id)
  if (s.port w.port).gen ≠ w.pgen then
    ((s.setPort w.port { s.port w.port with rrb := (s.port w.port).rrb - w.rrb }).modTrail w.xf.ctag fun t => { t with cut := true }).endTrail w.xf.ctag
  else
    s.respond w.port { tag := w.xf.req.tag, code := w.code, rq := w.rq, t0 := w.xf.t0, rrb := w.rrb, ctag := w.xf.ctag
                       beats := if w.xf.op = 0 then s.readBeats w else oneBeat 0 }

/-! ### Written values -/

/-- Sample `k` of a write (R117) and its mask bit (R113). -/
def Xfer.sample (x : Xfer) (k : Nat) : Option Nat :=
  match x.beats.getD (k / 32) { data := 0, mask := 0 } with
  | b => if bit b.mask.toNat (k % 32) then some (b.data.toNat / 2 ^ (16 * (k % 32)) % 65536) else none

/-- Byte `k` of a write (R118) and its strobe. -/
def Xfer.byte (x : Xfer) (k : Nat) : Option Nat :=
  match x.beats.getD (k / 64) { data := 0, mask := 0 } with
  | b => if bit b.mask.toNat (k % 64) then some (b.data.toNat / 2 ^ (8 * (k % 64)) % 256) else none

/-- One written value: its line, unit and place in the unit. -/
structure Item where
  tag : LTag
  unit : Nat
  n : Nat
  v : Nat
deriving DecidableEq, Repr

/-- The values that a WRITE or a ZERO puts, in order; samples outside the plane are not written (R127). -/
def State.items (s : State) (w : Wait) : List Item :=
  let r := w.xf.req
  match w.surf with
  | some i =>
    let x := s.surf i
    let d := x.dims r.plane
    (List.range (r.h + 1)).flatMap fun (j : Nat) => (List.range (r.w + 1)).filterMap fun (k : Nat) =>
      let px : Int := sext 16 r.x + (k : Nat)
      let py : Int := sext 16 r.y + (j : Nat)
      if px < 0 ∨ py < 0 ∨ (d.1 : Int) ≤ px ∨ (d.2 : Int) ≤ py then none
      else
        let t := tagAt r px.toNat py.toNat
        let v := if w.xf.op = 3 then some (x.fill.getD r.plane 0) else (w.xf.sample (j * (r.w + 1) + k)).map (· % 2 ^ x.d)
        v.map fun v => { tag := t.1, unit := t.2.1, n := t.2.2, v := v }
  | none =>
    (List.range ((r.len + 1) * 64)).filterMap fun k =>
      let t := linTag (r.addr + k)
      let v := if w.xf.op = 3 then some 0 else w.xf.byte k
      v.map fun v => { tag := t.1, unit := t.2, n := (r.addr + k) % 32, v := v }

/-- A list without repeats, first occurrences kept. -/
def dedup {α : Type} [DecidableEq α] : List α → List α
  | [] => []
  | a :: t => a :: (dedup t).filter fun b => b ≠ a

/-- The units a request touches, in the order of its own data: the block's cells, clamped for READ and PREFETCH, or its atoms. -/
def State.unitsTouched (s : State) (op : Nat) (r : Req) (surf : Option Nat) : List (LTag × Nat) :=
  match surf with
  | some i =>
    let d := (s.surf i).dims r.plane
    let inside (o : Int) (n : Nat) : Bool := decide (0 ≤ o ∧ o < (n : Int))
    let cols := (List.range (r.w + 1)).filter fun (k : Nat) => op == 0 || op == 2 || inside (sext 16 r.x + k) d.1
    let rows := (List.range (r.h + 1)).filter fun (j : Nat) => op == 0 || op == 2 || inside (sext 16 r.y + j) d.2
    let xs := dedup (cols.map fun k => (clampAt r d k 0).1 / 32)
    let ys := dedup (rows.map fun j => (clampAt r d 0 j).2 / 8)
    ys.flatMap fun y => xs.map fun x => let t := tagAt r (x * 32) (y * 8); (t.1, t.2.1)
  | none => (List.range ((r.len + 1) * 2)).map fun k => linTag (r.addr + 32 * k)

/-- Ascending line order (R242): plane coordinates or line number. -/
def LTag.key (t : LTag) : List Nat := [t.idx, t.plane, t.ty, t.tx, t.line]

/-! ### Units and waits -/

/-- The part result of a unit (R225, R241, R245, R366). -/
def unitCode (st : Nat) (corr : Bool) : Nat := if st = 3 then 2 else if st = 2 then 3 else if corr then 1 else 0

/-- The samples or bytes of a POISONED unit that carry the poison mark: all of a SEALED cell or a GUARDED atom, those of a GUARDED raw cell with a byte
in one of its uncorrectable atoms `bad`, and none of an OPEN unit (R130). -/
def poisonMarks (prot : Nat) (lin : Bool) (d : Nat) (bad : List Nat) : List Nat :=
  if prot = 0 then []
  else if prot = 1 ∨ lin = true then List.range 256
  else (List.range 256).filter fun n => bad.any fun a => decide (d * n < 256 * a + 256 ∧ 256 * a < d * n + d)

/-- What a unit of line `t` gives a request. -/
def State.gotOf (s : State) (t : LTag) (n : Nat) (u : HUnit) : Got :=
  { tag := t, unit := n, st := u.st, data := u.data
    mark := if u.st = 3 then poisonMarks (s.protOf t) t.lin (s.surf t.idx).d u.bad else [] }

/-- Give a unit to the requests of slice `g` that wait for it, or to one of them. -/
def State.give (s : State) (g : Nat) (a : Got) (only : Option Nat) : State :=
  { s with waits := s.waits.map fun w =>
      if w.port / 8 = g ∧ w.need.contains (a.tag, a.unit) = true ∧ (only = none ∨ only = some w.id) then
        { w with
          need := w.need.filter fun n => n ≠ (a.tag, a.unit)
          got := if w.xf.op = 0 then w.got ++ [a] else w.got
          code := if w.xf.op = 0 ∨ w.xf.op = 4 then worse w.code (unitCode a.st a.corr) else w.code }
      else w }

/-- Request `id` waits for units. -/
def State.addNeed (s : State) (id : Nat) (t : LTag) (l : List Nat) : State :=
  s.modWait id fun w => { w with need := w.need ++ (l.map fun n => (t, n)).filter fun n => !w.need.contains n }

/-- What the sub-requests of a request have in common. -/
def Wait.subOf (w : Wait) (t : LTag) (k : SubKind) : SubReq :=
  { id := 0, wait := some w.id, g := w.port / 8, port := w.port, flow := w.xf.req.flow, colour := w.xf.req.colour, tag := t, kind := k
    t0 := w.xf.t0, sctag := w.xf.ctag, rq := some w.rq }

/-- The counter occurrence of a request at its slice. -/
def State.waitOcc (s : State) (w : Wait) (ev n : Nat) : Occ := s.occAt ev n w.rq

/-! ### Cell writes -/

/-- Present a cell write to the encoders, or a part write of a raw cell to the merge (R250, R251). -/
def State.addJob (s : State) (g : Nat) (j : EncJob) : State :=
  let s := match j.wait with
    | some id => s.modWait id fun w => { w with parts := w.parts + 1 }
    | none => s
  { s with enc := Tab.insert g (queueOf s.enc g ++ [j]) s.enc }

/-- A cell write of request `w`. -/
def Wait.job (w : Wait) (t : LTag) (c : Nat) (l : List (Nat × Nat)) (poison : Bool) : EncJob :=
  { wait := some w.id, tag := t, cell := c, samples := l, poison := poison, flow := w.xf.req.flow, colour := w.xf.req.colour
    port := w.port, t0 := w.xf.t0, rq := some w.rq }

/-- A write of unit `u` that the line does not hold goes to DRAM (R250 to R252). -/
def State.toDram (s : State) (w : Wait) (t : LTag) (u : Nat) (l : List (Nat × Nat)) : State :=
  let b := { w.subOf t .wr with unit := u }
  if t.lin then s.writeBytes b (l.map fun e => (e.1, BitVec.ofNat 8 e.2))
  else
    let x := s.surf t.idx
    if x.sealed = false ∧ s.coversUnit t u l = true then
      s.writeBytes b (rawBytes x.d ((List.range 256).map fun n => (n, 0)) (x.replicate t u (overlay (flat 0) l)))
    else s.addJob (w.port / 8) (w.job t u l false)

/-- Write data of a unit that the line holds also goes to DRAM: a whole SEALED cell, the written bytes of a raw cell or an atom. -/
def State.throughLine (s : State) (w : Wait) (t : LTag) (u : Nat) (l : List (Nat × Nat)) (data : List Nat) : State :=
  let b := { w.subOf t .wr with unit := u }
  if t.lin then s.writeBytes b (l.map fun e => (e.1, BitVec.ofNat 8 e.2))
  else
    let x := s.surf t.idx
    if x.sealed then s.addJob (w.port / 8) (w.job t u ((List.range 256).map fun n => (n, data.getD n 0)) false)
    else s.writeBytes b (rawBytes x.d l (x.replicate t u data))

/-- Units that a demand asks for itself: their sub-requests follow the acknowledgements of the line's SHARE, if those are outstanding (R255,
R266). -/
def State.demand (s : State) (t : LTag) (l : List Nat) (u : SubReq) : State :=
  let waits (n : Snoop) : Bool := n.g == u.g && n.tag == t && match n.act with | .fill _ _ => true | .write _ => false
  if s.snoops.any waits then { s with snoops := s.snoops.map fun n => if waits n then { n with more := n.more ++ [(l, u)] } else n }
  else s.fetch u l

/-- A unit that is written whole is present: the requests that wait for it take it, and the copies of it on their way are discarded. -/
def State.present (s : State) (g : Nat) (t : LTag) (n : Nat) : State :=
  match s.findLine g t with
  | some e => s.give g (s.gotOf t n ((s.line g e).unit n)) none
  | none => s

/-- A write of one unit of a line that stands in entry `e` (R249 to R252). -/
def State.writeInLine (s : State) (w : Wait) (g e : Nat) (t : LTag) (u : Nat) (l : List (Nat × Nat)) : State :=
  let cover := s.coversUnit t u l
  let s := if cover then s.setLine g e ((s.line g e).setUnit u { (s.line g e).unit u with errs := [] }) else s.readUnit g e u
  let x := s.line g e
  let k := x.unit u
  let fresh := overlay (if t.lin then List.replicate 32 0 else flat (s.fillOf t)) l
  let put (s : State) (k : HUnit) : State :=
    s.setLine g e { (s.line g e).setUnit u k with flow := if k.dirty then w.xf.req.flow else (s.line g e).flow }
  let whole (s : State) (k : HUnit) : State := (put s { k with st := 1, data := fresh, fetch := [], pf := false, merge := [], bad := [] }).present g t u
  if k.st = 1 ∨ k.st = 2 then
    let data := overlay k.data l
    if x.pol = 0 then put s { k with st := 1, data := data, dirty := true }
    else (put s { k with st := 1, data := data }).throughLine w t u l data
  else if k.st = 3 then
    if t.lin then (put s {}).toDram w t u l
    else if x.prot = 1 then
      let s := s.addJob g (w.job t u l true)
      if cover then whole s k else s
    else if cover then
      if x.pol = 0 then whole s { k with dirty := true } else (whole s k).toDram w t u l
    else (put s {}).toDram w t u l
  else if x.pol = 0 then
    if cover then whole s { k with dirty := true }
    else
      let s := (put s { k with merge := k.merge ++ l }).addNeed w.id t [u]
      if k.fetch.isEmpty || k.pf then
        let n := s.nextId
        let y := { (s.line g e).expect [u] n false with filling := true }
        ({ s.setLine g e y with nextId := n + 1 } : State).demand t [u] { w.subOf t .fill with copy := n }
      else s
  else
    let s := if cover then whole s k
      else if k.fetch.isEmpty then s else put s { k with merge := k.merge ++ l }
    s.toDram w t u l

/-- Whether the block of a ZERO covers a line whole: its in-plane samples, or all 8 KiB (R267). -/
def State.zeroLine (s : State) (w : Wait) (t : LTag) (l : List Item) : Bool :=
  w.xf.op == 3 && (s.unitsOf t).all fun u =>
    s.coversUnit t u ((l.filter fun i => i.tag == t && i.unit == u).map fun i => (i.n, i.v))

/-- A unit of a zero line (R267): VALID whatever it was, DIRTY under write-back, and presented as a full write under write-through. -/
def State.zeroUnitIn (s : State) (w : Wait) (g e : Nat) (t : LTag) (u : Nat) (l : List (Nat × Nat)) : State :=
  let x := s.line g e
  let k := x.unit u
  let data := overlay (if t.lin then List.replicate 32 0 else flat (s.fillOf t)) l
  let y := x.setUnit u { st := 1, data := data, dirty := x.pol == 0 || k.dirty }
  let s := (s.setLine g e { y with flow := if x.pol = 0 then w.xf.req.flow else x.flow }).present g t u
  if x.pol = 0 then s else s.toDram w t u l

/-- A line allocated by a write, its written units `l` known: FILLING, with the units that the write does not cover whole to be fetched, those it touches
first (R245, R249), as copy `k`. The second part lists them. -/
def State.writeAlloc (s : State) (t : LTag) (l : List (Nat × List (Nat × Nat))) (y : Line) (k : Nat) : Line × List Nat :=
  let whole (n : Nat) : Bool := l.any fun e => e.1 == n && s.coversUnit t n e.2
  let us := (fillOrder (l.map (·.1)) (s.unitsOf t)).filter fun n => !whole n
  (({ y with filling := !us.isEmpty } : Line).expect us k false, us)

/-- The written values of a line, by unit. -/
def lineItems (t : LTag) (l : List Item) : List (Nat × List (Nat × Nat)) :=
  let mine := l.filter fun i => i.tag == t
  (dedup (mine.map (·.unit))).map fun u => (u, (mine.filter fun i => i.unit == u).map fun i => (i.n, i.v))

/-! ### Lookups and misses -/

/-- A lookup of one line: the tags it compares are checked, and what it finds is counted (R242, R273, R430). -/
def State.lookup (s : State) (w : Wait) (t : LTag) : State :=
  let g := w.port / 8
  let s := ((s.checkTags g).count (s.waitOcc w 0x040 1)).stamp w.xf.ctag 3
  match s.findLine g t with
  | some e =>
    if (s.line g e).empty || (s.line g e).gone then s else s.count (s.waitOcc w (if e < 64 then 0x041 else if e < 72 then 0x042 else 0x043) 1)
  | none => s

/-- A request goes on without a victim: each such miss is counted, and the request once (R244). -/
def State.bypass (s : State) (w : Wait) : State :=
  let s := s.count (s.waitOcc w 0x045 1)
  match s.waitOf w.id with
  | some v => if bit v.held 2 then s
    else (s.bump R.HALO_BYPASS_CNT_COUNT (w.port / 8) 0 1).modWait w.id fun v => { v with held := v.held ||| 4 }
  | none => s

/-- A port's previous linear miss, and the record of a new one (R264). -/
def State.lastMiss (s : State) (w : Wait) : Option Nat := Tab.find (s.group (w.port / 8)).lastLin (w.port % 8)
def State.noteMiss (s : State) (w : Wait) (t : LTag) : State :=
  let g := w.port / 8
  if t.lin then s.setGroup g { s.group g with lastLin := Tab.insert (w.port % 8) t.line (s.group g).lastLin } else s

/-- The prefetch that a demand miss which allocates a line prompts (R264); `last` is the port's linear miss before it. -/
def State.prompt (s : State) (w : Wait) (t : LTag) (last : Option Nat) : State :=
  let g := w.port / 8
  let s := s.count (s.waitOcc w 0x044 1)
  match s.shapeNext t last with
  | none => s
  | some n =>
    let r := s.prefetchLine g n { w.subOf n .pfill with wait := none, named := some 15, flow := 0, rq := none }
    if r.2 then r.1.count { ev := 0x04D, grp := some g } else r.1

/-- Whether a lookup of line `t` waits: the line leaves once its writes have entered their front ends (R270), or it moves out of the side buffer and
its victim waits for a place (R261, R266). -/
def State.lineWaits (s : State) (g : Nat) (t : LTag) : Bool :=
  (s.findLine g t).any fun e => (s.line g e).gone || decide (64 ≤ e ∧ e < 72) && s.stalled g

/-- Whether a lookup of line `t` would have to allocate while the allocation waits (R261). -/
def State.allocWaits (s : State) (g : Nat) (t : LTag) (pol : Nat → Bool) : Bool :=
  (s.findLine g t).isNone && pol (s.policyOf t) && s.stalled g

/-! ### Writes -/

/-- A write takes effect in one line whose claim is complete (R249, R253, R256, R267). A line that stays in a buffer, since no victim exists, is
written through. -/
def State.writeLine (s : State) (id : Nat) (t : LTag) : State :=
  match s.waitOf id with
  | none => s
  | some w =>
    let g := w.port / 8
    let all := s.items w
    let l := lineItems t all
    let pol := s.policyOf t
    let zero (s : State) (pol : Nat) : Bool := decide (pol ≤ 1) && s.zeroLine w t all
    let own (s : State) (e : Nat) : State := (s.setLine g e { s.line g e with own := true }).touch g e
    let inLine (s : State) (e : Nat) : State :=
      let z := zero s (s.line g e).pol
      let s := if z then s.count { ev := 0x054, grp := some g } else s
      l.foldl (fun (s : State) (u : Nat × List (Nat × Nat)) =>
        let e := (s.findLine g t).getD e
        if z then s.zeroUnitIn w g e t u.1 u.2 else s.writeInLine w g e t u.1 u.2) (own s e)
    let alloc (s : State) (e : Nat) (y : Line) : State :=
      let k := s.nextId
      let a := s.writeAlloc t l y k
      (inLine ({ s.setLine g e a.1 with nextId := k + 1 } : State) e).fetch { w.subOf t .fill with copy := k } a.2
    let filled (s : State) : State := match s.findLine g t with | some e => s.endFill g e | none => s
    let around (s : State) : State := l.foldl (fun (s : State) (u : Nat × List (Nat × Nat)) => s.toDram w t u.1 u.2) s
    match s.findLine g t with
    | some e =>
      if (s.line g e).empty then
        let s := s.noteMiss w t
        if pol ≤ 1 then alloc (s.count { ev := 0x056, grp := some g }) e { s.newLine t with locked := true } else around s
      else
        let (e, s) := s.promote g e
        let p := (s.line g e).pol
        if e < 64 ∨ p ≠ 0 then filled (inLine s e)
        else
          let s := inLine (s.setLine g e { s.line g e with pol := 1 }) e
          filled (match s.findLine g t with
          | some e => s.setLine g e { s.line g e with pol := p }
          | none => s)
    | none =>
      let last := s.lastMiss w
      let s := s.noteMiss w t
      if pol ≤ 1 then
        match s.takeEntry g with
        | some (e, s) => (alloc s e (s.newLine t)).prompt w t last
        | none => around (s.bypass w)
      else around s

/-- A line of a WRITE or a ZERO: one that a buffer holds moves into the array first (R259, R266); held with OWN it takes the write at once, any other is
claimed (R256). -/
def State.writeStart (s : State) (w : Wait) (t : LTag) : State :=
  let g := w.port / 8
  let s := s.lookup w t
  let claim (s : State) : State := (s.modWait w.id fun v => { v with parts := v.parts + 1 }).sendSnoop { g := g, claim := true, tag := t, act := .write w.id }
  match s.findLine g t with
  | none => claim s
  | some e =>
    let x := s.line g e
    if x.empty then claim s
    else if x.own then s.writeLine w.id t
    else claim (s.promote g e).2

/-- A WRITE or a ZERO goes on, line by line in ascending order; lines whose lookup waits are left for later. -/
def State.writeLines (s : State) (w : Wait) (l : List LTag) : State :=
  l.foldl (fun (s : State) t =>
    if s.lineWaits (w.port / 8) t then s.modWait w.id fun w => { w with later := w.later ++ [t] } else s.writeStart w t) s

/-! ### Reads -/

/-- Serve what a line in entry `e` holds of the units `l`; what it lacks is fetched or awaited, and fetched a second time where only a prefetch
fetches it (R245, R246, R266). -/
def State.readHeld (s : State) (w : Wait) (e : Nat) (t : LTag) (l : List Nat) : State :=
  let g := w.port / 8
  let s := l.foldl (fun (s : State) n => s.readUnit g e n) s
  let x := s.line g e
  let have_ := l.filter fun n => (x.unit n).st != 0
  let miss := l.filter fun n => (x.unit n).st == 0
  let s := s.addNeed w.id t l
  let s := have_.foldl (fun (s : State) n =>
    s.give g (s.gotOf t n (x.unit n)) (some w.id)) s
  if miss.isEmpty then s
  else if x.empty then (s.noteMiss w t).beginFill g e t miss (w.subOf t .fill)
  else
    let s := if miss.any fun n => !(x.unit n).fetch.isEmpty then s.count (s.waitOcc w 0x046 1) else s
    let issue := miss.filter fun n => (x.unit n).fetch.isEmpty || (x.unit n).pf
    let k := s.nextId
    if issue.isEmpty then s
    else ({ s.setLine g e { x.expect issue k false with filling := true } with nextId := k + 1 } : State).demand t issue { w.subOf t .fill with copy := k }

/-- A read of units of one line without allocation (R244, R249). -/
def State.readStream (s : State) (w : Wait) (t : LTag) (l : List Nat) : State :=
  (s.addNeed w.id t l).sendSnoop
    { g := w.port / 8, claim := false, tag := t, act := .fill l (w.subOf t .stream) }

/-- A lookup of one line by a READ (R242, R245, R259, R266). -/
def State.readLine (s : State) (w : Wait) (t : LTag) (l : List Nat) : State :=
  let g := w.port / 8
  let s := s.lookup w t
  match s.findLine g t with
  | some e =>
    let (e, s) := s.promote g e
    s.readHeld w e t l
  | none =>
    let last := s.lastMiss w
    let s := s.noteMiss w t
    if s.policyOf t = 3 then s.readStream w t l
    else
      match s.takeEntry g with
      | none => (s.bypass w).readStream w t l
      | some (e, s) => ((s.addNeed w.id t l).beginFill g e t l (w.subOf t .fill)).prompt w t last

/-- A READ goes on, line by line in ascending order; lines whose allocation waits are left for later. -/
def State.readLines (s : State) (w : Wait) (l : List LTag) : State :=
  let us := s.unitsTouched 0 w.xf.req w.surf
  l.foldl (fun (s : State) t =>
    if s.allocWaits (w.port / 8) t (· != 3) || s.lineWaits (w.port / 8) t then s.modWait w.id fun w => { w with later := w.later ++ [t] }
    else s.readLine w t ((us.filter fun u => u.1 == t).map (·.2))) s

/-- A READ begins. -/
def State.startRead (s : State) (w : Wait) : State := s.readLines w w.lines

/-! ### PREFETCH, PRELOAD, UNLOCK -/

/-- A lookup that finds its line in the eviction buffer pulls it back (R259). -/
def State.pullBack (s : State) (g : Nat) (t : LTag) : State :=
  match s.findLine g t with
  | some e => if 72 ≤ e ∧ (s.line g e).gone = false then (s.promote g e).2 else s
  | none => s

/-- PREFETCH: each line of the block that is not present is prefetched, in the flow's class (R265). -/
def State.prefetchLines (s : State) (w : Wait) (l : List LTag) : State :=
  let g := w.port / 8
  if s.rd R.HALO_CTL_MOTION_HINT_EN g = 0 then s
  else l.foldl (fun (s : State) t =>
    if s.lineGone g t then s.modWait w.id fun w => { w with later := w.later ++ [t] } else
    let r := ((s.lookup w t).pullBack g t).prefetchLine g t { w.subOf t .pfill with wait := none, own := some w.id }
    if r.2 then r.1.count (s.waitOcc w 0x047 1) else r.1) s

/-- Lines that PRELOADs of a slice have locked and that still wait for an entry, each once (R268). -/
def State.lockedLater (s : State) (g : Nat) : List LTag :=
  dedup ((s.waits.filter fun v => v.port / 8 == g && v.xf.op == 4).flatMap fun v => v.later.filter fun t => !v.nolock.contains t)

/-- Locked lines of a slice, LOCKED_EMPTY ones and those that wait for their entry included (R268). -/
def State.lockedLines (s : State) (g : Nat) : Nat :=
  (entries.filter fun e => (s.line g e).valid && (s.line g e).locked).length + (s.lockedLater g).length

/-- Lock one line that a PRELOAD covers, filling what it lacks; the Bool says that no entry was free (R268). -/
def State.preloadLine (s : State) (w : Wait) (t : LTag) : State × Bool :=
  let g := w.port / 8
  if s.lineGone g t then (s, true) else
  if s.noAlloc t then (s, false) else
  let s := s.lookup w t
  let lock (s : State) (e : Nat) : State := if w.nolock.contains t then s else s.setLine g e { s.line g e with locked := true }
  match s.findLine g t with
  | some e =>
    let (e, s) := s.promote g e
    if 64 ≤ e then (s, true)
    else (((lock s e).count { ev := 0x055, grp := some g }).readHeld w e t (s.unitsOf t), false)
  | none =>
    match s.takeEntry g with
    | none => (s, true)
    | some (e, s) =>
      let last := s.lastMiss w
      let s := ((s.noteMiss w t).addNeed w.id t (s.unitsOf t)).beginFill g e t [] (w.subOf t .fill)
      (((lock s e).prompt w t last).count { ev := 0x055, grp := some g }, false)

/-- Lock lines in order; those that find no entry are left for later. -/
def State.preloadLines (s : State) (id : Nat) (l : List LTag) : State :=
  l.foldl (fun (s : State) t =>
    match s.waitOf id with
    | none => s
    | some w =>
      let r := s.preloadLine w t
      if r.2 then r.1.modWait id fun w => { w with later := w.later ++ [t] } else r.1) s

/-- The lines that a transfer's block or range covers, in ascending order (R242). -/
def State.linesOf (s : State) (x : Xfer) (surf : Option Nat) : List LTag :=
  sortBy LTag.key (dedup ((s.unitsTouched x.op x.req surf).map (·.1)))

/-- Whether locking `lines` would take slice `g` over LOCK_MAX (R268). -/
def State.overLock (s : State) (g : Nat) (lines : List LTag) : Bool :=
  let isLocked (t : LTag) : Bool :=
    (match s.findLine g t with | some e => (s.line g e).locked | none => false) || (s.lockedLater g).contains t
  decide (s.rd R.HALO_CTL_LOCK_MAX g < s.lockedLines g + (lines.filter fun t => !isLocked t).length)

/-- PRELOAD begins: all lines or none (R268). -/
def State.startPreload (s : State) (w : Wait) : State :=
  if s.overLock (w.port / 8) (w.lines.filter fun t => !s.noAlloc t) then
    s.modWait w.id fun w => { w with code := 9, lines := [] }
  else s.preloadLines w.id w.lines

/-- Whether the lookup of line `t`, which `w` has left for later, can go on. -/
def State.canGo (s : State) (w : Wait) (t : LTag) : Bool :=
  let g := w.port / 8
  !s.lineWaits g t &&
    (if w.xf.op = 0 then !s.allocWaits g t (· != 3)
     else if w.xf.op = 4 then
       s.noAlloc t || match s.findLine g t with
         | some e => decide (e < 64) || (s.victim g).isSome
         | none => (s.takeEntry g).isSome
     else true)

/-- A request goes on with the lines it left for later. -/
def State.resumeWait (s : State) (w : Wait) : State :=
  let s := s.modWait w.id fun w => { w with later := [] }
  if w.xf.op = 0 then s.readLines w w.later
  else if w.xf.op = 2 then s.prefetchLines w w.later
  else if w.xf.op = 4 then s.preloadLines w.id w.later
  else s.writeLines w w.later

/-- UNLOCK clears the lock of every covered line, that of one which a PRELOAD has yet to allocate among them; a LOCKED_EMPTY line becomes an INVALID
entry (R269). -/
def State.startUnlock (s : State) (w : Wait) : State :=
  let g := w.port / 8
  w.lines.foldl (fun (s : State) t =>
    let s := (s.lookup w t).pullBack g t
    let s := { s with waits := s.waits.map fun (v : Wait) =>
      if v.port / 8 = g ∧ v.xf.op = 4 ∧ v.later.contains t = true then { v with nolock := t :: v.nolock } else v }
    match s.findLine g t with
    | some e =>
      let x := s.line g e
      if x.empty then s.dropLine g e else s.setLine g e { x with locked := false }
    | none => s) s

/-! ### Serving and ordering -/

/-- Whether an operation changes what its lines hold. -/
def writesOp (op : Nat) : Bool := op == 1 || op == 3

/-- Whether two requests of one slice touch a common unit. -/
def State.meetUnits (s : State) (v w : Wait) : Bool :=
  (v.lines.any fun a => w.lines.contains a) &&
    (let us := s.unitsTouched w.xf.op w.xf.req w.surf
     (s.unitsTouched v.xf.op v.xf.req v.surf).any fun u => us.contains u)

/-- Whether an earlier request of the slice stands before `w`: one of the two is a write and they touch a common unit (R24). -/
def State.blockedBy (s : State) (w : Wait) : List Wait → Bool
  | [] => false
  | v :: t =>
    if v.id = w.id then false
    else (v.port / 8 == w.port / 8 && (writesOp v.xf.op || writesOp w.xf.op) && s.meetUnits v w) || State.blockedBy s w t

/-- Whether every unit that a request touches is present in its slice (R438). -/
def State.allPresent (s : State) (w : Wait) : Bool :=
  (s.unitsTouched w.xf.op w.xf.req w.surf).all fun u =>
    match s.findLine (w.port / 8) u.1 with
    | some e => let x := s.line (w.port / 8) e; !x.gone && (x.unit u.2).st != 0
    | none => false

/-- Serve a request. -/
def State.serve (s : State) (w : Wait) : State :=
  let s := (s.modWait w.id fun w => { w with issued := true }).modTrail w.xf.ctag fun r => { r with hit := s.allPresent w }
  if w.xf.op = 0 then s.startRead w
  else if w.xf.op = 2 then s.prefetchLines w w.lines
  else if w.xf.op = 4 then s.startPreload w
  else if w.xf.op = 5 then s.startUnlock w
  else s.writeLines w w.lines

/-! ### Merges (R228, R251) -/

/-- Start the cell writes that wait and whose cell no other update holds (R232). -/
def State.startJob (s : State) (g k : Nat) : State :=
  match (queueOf s.enc g)[k]? with
  | none => s
  | some j =>
    let before := (queueOf s.enc g).take k
    let other := s.enc.any fun e => e.2.any fun i => i.tag == j.tag && i.cell == j.cell && i.phase == 1
    if j.phase ≠ 0 ∨ other = true ∨ (before.any fun i => i.tag == j.tag && i.cell == j.cell) = true then s
    else
      let setPhase (n : Nat) : State := { s with enc := Tab.insert g (setAt (queueOf s.enc g) k { j with phase := n }) s.enc }
      let u : SubReq := { id := 0, g := g, port := j.port, flow := j.flow, colour := j.colour, tag := j.tag, kind := .merge, t0 := j.t0, rq := j.rq }
      if (s.surf j.tag.idx).sealed then
        if s.coversUnit j.tag j.cell j.samples then setPhase 2
        else if j.poison then (setPhase 3).chargeRaw { u with wait := none, unit := j.cell }
        else (setPhase 1).fetchCells u [j.cell]
      else (setPhase 1).fetch u [j.cell]

/-- Start every cell write that can start. -/
def State.startJobs (s : State) : State :=
  (List.range 8).foldl (fun (s : State) g => (List.range (queueOf s.enc g).length).foldl (fun (s : State) k => s.startJob g k) s) s

/-- Reads that waited for a cell's update take its header now (R232). -/
def State.wakeReaders (s : State) : State :=
  let go := s.hdrWait.filter fun u => !s.cellHeld u.tag u.unit
  let s := { s with hdrWait := s.hdrWait.filter fun u => s.cellHeld u.tag u.unit }
  go.foldl (fun (s : State) u => s.fetchCells u [u.unit]) s

/-- One round: finish a request that waits for nothing more, or serve one that nothing stands before, or go on with lines left for
later. -/
def State.round (s : State) : Option State :=
  match s.waits.find? fun w => w.issued && w.need.isEmpty && w.parts == 0 && w.later.isEmpty with
  | some w => some (s.finish w)
  | none =>
    match s.waits.find? fun w => !w.issued && !s.blockedBy w s.waits with
    | some w => some (s.serve w)
    | none =>
      (s.waits.find? fun w => w.later.any (s.canGo w)).map s.resumeWait

/-- Rounds until nothing more happens, at most `n`. -/
def State.rounds : Nat → State → State
  | 0, s => s
  | n + 1, s =>
    match s.round with
    | none => s
    | some s => State.rounds n s

/-- The jobs and reads that may start do, and then the requests that can go on. -/
def State.pumpOnce (s : State) : State := (s.leaveGone.startJobs.wakeReaders).rounds (2 * s.waits.length + 8)

/-- The slices act on what has changed; a second time, for the jobs that the requests served have made. -/
def State.pump (s : State) : State := s.pumpOnce.pumpOnce

end Sys2Proof.Machine
end

