-- ==== Sys2Proof/Machine/Surfaces.lean ====
section
/-! DEFINITION. The surface manager: CREATE, HOLD, DROP, freeing a surface, waiting CREATEs, tile preparation, and the return of extents
(R122, R123, R175 to R194). -/

namespace Sys2Proof.Machine
open Sys2Proof

/-- Byte `n` of a creation descriptor (R175). -/
def descByte (d n : Nat) : Nat := d / 2 ^ (8 * n) % 256
def descHalf (d n : Nat) : Nat := d / 2 ^ (8 * n) % 65536

/-- Whether a creation descriptor keeps the rules of R175. `priv` is the request's privilege. -/
def State.descOk (s : State) (d priv : Nat) : Bool :=
  let depth := descByte d 5
  let f := descByte d 4
  let flags := descByte d 10
  decide (1 ≤ descHalf d 0 ∧ descHalf d 0 ≤ 32767 ∧ 1 ≤ descHalf d 2 ∧ descHalf d 2 ≤ 32767 ∧ f ≤ 4 ∧ depth ≤ 3 ∧
    descByte d 6 ≤ 3 ∧ descByte d 7 ≤ 2 ∧ descByte d 9 ≤ 3 ∧ descByte d 9 ≤ priv ∧ flags < 16 ∧ descByte d 11 = 0) &&
  (s.poolRec (descByte d 8)).isSome &&
  ((List.range 4).all fun n =>
    if n < planesOf f then decide (descHalf d (12 + 2 * n) < 2 ^ depthBits depth) else descHalf d (12 + 2 * n) == 0) &&
  decide (d / 2 ^ 160 % 2 ^ 352 = 0)

/-- The surface that a descriptor asks for, created by port `p` (R175, R248). -/
def State.descSurf (s : State) (d p : Nat) : Surf :=
  let flags := descByte d 10
  let shape := descByte d 6
  { live := true, width := descHalf d 0, height := descHalf d 2, format := descByte d 4, depth := descByte d 5, shape := shape
    prot := descByte d 7, pool := descByte d 8, priv := descByte d 9, init := bit flags 0
    policy := if bit flags 1 then bits flags 2 2 else bits (s.rd R.HALO_CTL_WP_SHAPE (p / 8)) (2 * shape) 2
    fill := (List.range 4).map fun n => descHalf d (12 + 2 * n), holders := [p] }

/-! ### Descriptors in the reserve (R174, R370) -/

/-- Places of the surface descriptor cache: half of the 1,024 KiB that it shares with the placement tables (R31; log entry 160). -/
def descPlaces : Nat := 4096

/-- The places in the reserve of surface `i`'s descriptor and of the two copies of its extent maps, each with its bytes. -/
def descParts (i : Nat) : List (Nat × Nat) := [(rsvDesc + 128 * i, 128), (rsvMaps + 32 * i, 32), (rsvMaps + 0x200000 + 32 * i, 32)]

/-- Write one of those structures as the engine lays it out. -/
def State.descPut (s : State) (i : Nat) (p : Nat × Nat) : State :=
  s.rsvWrite p.1 ((List.range p.2).map fun k => Config.rsvByte (s.surf i).gen (p.1 + k)) 15

/-- The descriptor of surface `i` is the most recently used of the cache. -/
def State.descFront (s : State) (i : Nat) : State :=
  { s with sm := { s.sm with dcache := (i :: s.sm.dcache.filter fun k => k != i).take descPlaces } }

/-- The descriptor of a new surface and its maps are written. -/
def State.descWrite (s : State) (i : Nat) : State := ((descParts i).foldl (fun (s : State) p => s.descPut i p) s).descFront i

/-- Try to create: the handle, or no space (R177, R183, R189; a forced NO_SPACE of R467). -/
def State.tryCreate (s : State) (d p : Nat) : Option (Nat × State) :=
  let x := s.descSurf d p
  if s.squall.unlocked && bit (s.rd R.SQ_NOSPACE_POOLS) x.pool then none
  else
    match s.freeIndex with
    | none => none
    | some (i, s1) =>
      match s1.placeSurf x with
      | none => none
      | some (pos, s2) =>
        let gen := (s.surf i).gen
        let s3 := (s2.setSurf i { x with pos := pos, gen := gen, bsw := s.chooseBsw x.pool }).descWrite i
        let s3 := s3.count { ev := 0x070, req := some { port := p } }
        some (i + 65536 * gen, if s3.tableFull && !s.tableFull then s3.raise 6 8 else s3)

/-- The answer to a request of port `p` that crossed while the port's generation was `gen`: one that a forced detach has cut off is discarded (R139). -/
def State.reply (s : State) (p gen : Nat) (x : Xfer) (code v : Nat) : State :=
  if (s.port p).gen = gen then s.answer p x code v
  else ((s.settle (some x.id)).modTrail x.ctag fun t => { t with cut := true }).endTrail x.ctag

/-- A CREATE finds no space: it is answered NO_SPACE and counted (R191). -/
def State.noSpace (s : State) (p gen : Nat) (x : Xfer) (pool : Nat) : State :=
  (s.reply p gen x 6 0).bump R.SM_POOL_NOSPACE_CNT_COUNT pool 0 1

/-- The creation descriptor of a transfer. -/
def Xfer.desc (x : Xfer) : Nat := (x.beats.map fun b => b.data.toNat).headD 0

/-- The pool a waiting CREATE names. -/
def CreateWait.pool (w : CreateWait) : Nat := descByte w.xf.desc 8

/-- A CREATE joins its pool's queue; what would have the first of an emptied queue tried again is past (R191). -/
def State.joinQueue (s : State) (w : CreateWait) : State :=
  let first := !(s.sm.waits.any fun v => v.pool == w.pool)
  { s with sm := { s.sm with waits := s.sm.waits ++ [w], due := if first then s.sm.due.filter fun n => n != w.pool else s.sm.due } }

/-- The order of R190 between CREATEs: the configured class of the flow, then the port. -/
def State.createKey (s : State) (p : Nat) (x : Xfer) : List Nat := [s.flowClass x.req.flow, p]

/-- The allocator handles an allocation in the cycle in progress (R190). -/
def State.takeAlloc (s : State) : State := { s with sm := { s.sm with allocTo := s.cclk + 1 } }

/-- A CREATE reaches the allocator (R122, R178, R189, R191). A space wait of a port that is detaching ends at once, ABORTED (R138), and one of a port
that has been force-detached unheard (R139). -/
def State.create (s : State) (p gen : Nat) (x : Xfer) : State :=
  let s := s.takeAlloc
  let w : CreateWait := { port := p, xf := x, wid := x.id }
  let waits := x.req.wait && s.rd R.PORT_CFG_WAIT_LIMIT (p / 8) (p % 8) != 0
  if s.descOk x.desc x.req.priv = false then s.reply p gen x 8 0
  else if s.tableFull then s.noSpace p gen x w.pool
  else
    let wait (s : State) : State :=
      if waits = true ∧ ((s.port p).detaching = true ∨ (s.port p).gen ≠ gen) then s.reply p gen x 0xB 0
      else if waits then s.joinQueue w else s.noSpace p gen x w.pool
    if s.sm.waits.any fun v => v.pool == w.pool then wait s
    else
      match s.tryCreate x.desc p with
      | some (h, s) => s.reply p gen x 0 h
      | none => wait s

/-- A waiting CREATE leaves its queue, and the new head is due for a try (R191). -/
def State.dropWait (s : State) (w : CreateWait) : State :=
  ({ s with sm := { s.sm with waits := s.sm.waits.filter fun v => v.wid != w.wid } } : State).retryDue fun r => r.pool == w.pool

/-- The space waits of port `p` end; `tell` says that they are answered ABORTED (R122). -/
def State.endWaits (s : State) (p : Nat) (tell : Bool) : State :=
  (s.sm.waits.filter fun w => w.port == p).foldl (fun (s : State) (w : CreateWait) =>
    let s := s.dropWait w
    if tell then s.answer p w.xf 0xB 0 else (s.settle (some w.xf.id)).endTrail w.xf.ctag) s

/-- Whether a CREATE stands before the allocator ahead of one with key `k` that reaches it in the cycle in progress (R190). -/
def State.allocAhead (s : State) (k : List Nat) : Bool :=
  s.sm.inbox.any fun a =>
    match a.act with
    | .req p _ x => x.op == 8 && (decide (a.at_ < s.cclk) || lexLt (s.createKey p x) k)
    | _ => false

/-- CREATE_RETRY: the head of a pool's queue is tried again, if something has happened since its last try that R191 names and the allocator is free for
it in this cycle (R190); if it succeeds, the next waiter is due in its turn. -/
def execCreateRetry (pool : Nat) (s : State) : Host.Outcome State Fault Refusal :=
  match s.sm.waits.find? fun w => w.pool == pool with
  | none => .next s
  | some w =>
    if s.sm.due.contains pool = false ∨ s.cclk < s.sm.allocTo ∨ s.allocAhead (s.createKey w.port w.xf) = true then .next s
    else
      let s := ({ s with sm := { s.sm with due := s.sm.due.filter fun n => n != pool } } : State).takeAlloc
      match s.tryCreate w.xf.desc w.port with
      | none => .next s
      | some (h, s) => .next ((s.dropWait w).answer w.port w.xf 0 h)

/-- SPACE_WAIT_TIMEOUT: a waiting CREATE reaches WAIT_LIMIT (R122). -/
def execSpaceWaitTimeout (p tag : Nat) (s : State) : Host.Outcome State Fault Refusal :=
  match s.sm.waits.find? fun w => w.port == p && w.xf.req.tag == tag with
  | none => .next s
  | some w => .next ((s.dropWait w).noSpace p (s.port p).gen w.xf w.pool)

/-! ### Freeing (R192) -/

/-- A surface is freed: its generation advances and its lines and headers leave the caches, at once or when the requests translated before have
completed (R125, R192); a move of it stops after the piece in copy (R205). -/
def State.freeSurf (s : State) (i : Nat) : State :=
  let x := s.surf i
  let s := s.setSurf i { x with live := false, freed := true, holders := [], gen := if x.gen = 255 then 1 else x.gen + 1 }
  let s := { s with sm := { s.sm with dcache := s.sm.dcache.filter fun k => k != i } }
  (s.dropFreed i).count { ev := 0x075 }

/-- A lookup of surface `i`'s descriptor: one that the cache does not hold is read from the reserve. If it is uncorrectable there, or both copies of the
extent maps are, the surface is freed; one damaged copy is rewritten from the other (R370). -/
def State.descRead (s : State) (i : Nat) : State :=
  if (s.surf i).live = false then s
  else if s.sm.dcache.contains i then s.descFront i
  else
    let bad (p : Nat × Nat) : Bool := s.rsvReady p.1 && s.rsvLost p.1 p.2
    let s' := (descParts i).foldl (fun (s : State) p => s.engineBytes (s.rsvChan p.1) 15 (2 * p.2)) s
    match (descParts i).map bad with
    | [d, a, b] =>
      if d || a && b then (s'.freeSurf i).detect { unit := 0x31, kind := 0x11, init := 0x40, cls := 15 }
      else ((((descParts i).drop 1).filter bad).foldl (fun (s : State) p => s.descPut i p) s').descFront i
    | _ => s'

/-- Whether the unit that a move has in progress is a position of surface `i`. -/
def Move.ofSurf (m : Move) (i : Nat) : Bool :=
  match m.unit with
  | some (.pos j _) => i == j
  | _ => false

/-- Whether anything that was asked of surface `i` is still under way. -/
def State.surfBusy (s : State) (i : Nat) : Bool :=
  s.surfInUse i || (s.subs.any fun u => !u.tag.lin && u.tag.idx == i && !u.scrub) ||
    (s.enc.any fun e => e.2.any fun j => j.tag.idx == i) ||
    ((s.dec ++ s.retry).any fun e => e.2.any fun j => j.sub.tag.idx == i) || (s.halves.any fun h => h.q.sub.tag.idx == i) ||
    s.chans.any fun c => (c.2.cq ++ c.2.fly ++ c.2.done).any fun q => !q.sub.tag.lin && q.sub.tag.idx == i && !q.sub.scrub

/-- A position of a freed surface whose move has given way to another is moved no further: its destination extents return (R205). -/
def State.unpark (s : State) (i : Nat) : State :=
  let m := s.sm.parked
  let t := s.giveBack m (m.dstMain ++ m.dstComp)
  if m.ofSurf i then { t with sm := { t.sm with parked := {} } } else s

/-- A DROP by port `p` of a surface it holds. -/
def State.dropHold (s : State) (i p : Nat) : State :=
  let x := s.surf i
  let l := x.holders.filter fun q => q != p
  if l.isEmpty then s.freeSurf i else s.setSurf i { x with holders := l }

/-- An arrival reaches the surface manager in the cycle in progress (R193). -/
def State.smArrive (s : State) (slice : Nat) (a : SmAct) : State :=
  { s with sm := { s.sm with inbox := s.sm.inbox ++ [{ at_ := s.cclk, slice := slice, act := a }] } }

/-- The live surfaces that port `p` holds. -/
def State.held (s : State) (p : Nat) : List Nat := (s.sm.surfs.filter fun e => e.2.live && e.2.holders.contains p).map (·.1)

/-- The holds of a detached port are to be dropped, unless KEEP_HOLDS keeps them (R192). -/
def State.dropHolds (s : State) (p : Nat) : State :=
  if s.rd R.PORT_CTL_KEEP_HOLDS (p / 8) (p % 8) = 1 then s else s.smArrive (p / 8) (.release p)

/-- EXTENTS_RETURN: nothing of a freed surface is under way any more; its extents return and its index joins the free list (R192). -/
def execExtentsReturn (i : Nat) (s : State) : Host.Outcome State Fault Refusal :=
  let x := s.surf i
  if x.freed = false ∨ s.surfBusy i = true ∨ s.sm.move.ofSurf i = true then .next s
  else
    let s := s.unpark i
    let s := x.pos.foldl (fun (s : State) (p : Pos) => s.givePool x.pool p.ch (p.exts ++ p.comps)) s
    let s := x.pos.foldl (fun (s : State) (p : Pos) =>
      s.setChan p.ch { s.chan p.ch with lossTodo := (s.chan p.ch).lossTodo.filter fun e => !(p.exts ++ p.comps).contains e }) s
    let s := s.setSurf i { gen := x.gen }
    .next ((({ s with sm := { s.sm with freed := s.sm.freed ++ [i] } } : State).poolUpdate x.pool).retryDue fun _ => true)

/-! ### HOLD and DROP requests -/

/-- Whether a handle names a live surface (R177). -/
def State.handleOk (s : State) (h : Nat) : Bool := (s.surf (h % 65536)).live && (s.surf (h % 65536)).gen == h / 65536

/-- HOLD by port `p` (R123, R193). -/
def State.holdReq (s : State) (p gen : Nat) (x : Xfer) : State :=
  let i := x.req.handle % 65536
  let s := s.descRead i
  let f := s.surf i
  let s := s.count { ev := 0x071, req := some { port := p } }
  if s.handleOk x.req.handle = false then s.reply p gen x 4 0
  else if x.req.priv < f.priv then s.reply p gen x 9 0
  else if f.holders.contains p then s.reply p gen x 0 0
  else if 8 ≤ f.holders.length then s.reply p gen x 9 0
  else (s.setSurf i { f with holders := f.holders ++ [p] }).reply p gen x 0 0

/-- DROP by port `p` (R123, R192). -/
def State.dropReq (s : State) (p gen : Nat) (x : Xfer) : State :=
  let i := x.req.handle % 65536
  let s := s.descRead i
  let f := s.surf i
  let s := s.count { ev := 0x072, req := some { port := p } }
  if s.handleOk x.req.handle = false then s.reply p gen x 4 0
  else if x.req.priv < f.priv then s.reply p gen x 9 0
  else if f.holders.contains p then (s.dropHold i p).reply p gen x 0 0
  else s.reply p gen x 5 0

/-! ### SM_FORCE (R194) -/

/-- A force free of the named surface. -/
def State.forceFree (s : State) (w : Nat) : State :=
  let ok := s.handleOk (bits w 0 24)
  let s := if ok then s.freeSurf (bits w 0 16) else s
  ((s.wr R.SM_FORCE_STATUS_RESULT 0 0 (if ok then 0 else 4)).setBit R.SM_FORCE_STATUS_FORCE_DONE 0 0).raise 6 13

/-- A write of SM_FORCE reaches the surface manager behind the slices' arrivals of its cycle (R193). -/
def State.writeSmForce (s : State) (w _tgt : Nat) : State := if bit w 31 then s.smArrive 8 (.force w) else s

/-! ### One arrival (R193) -/

/-- Whether an arrival is a CREATE. -/
def SmItem.isCreate (a : SmItem) : Bool :=
  match a.act with
  | .req _ _ x => x.op == 8
  | _ => false

/-- The order of R190 among CREATEs that arrive in one cycle. -/
def State.allocKey (s : State) (a : SmItem) : List Nat :=
  match a.act with
  | .req p _ x => s.createKey p x
  | _ => []

/-- The surface manager applies an arrival; a port's holds go one in a cycle, in ascending index order (R192, R193). -/
def State.smApply (s : State) (a : SmItem) : State :=
  let rest : State := { s with sm := { s.sm with inbox := s.sm.inbox.erase a } }
  match a.act with
  | .req p gen x => if x.op = 8 then rest.create p gen x else if x.op = 6 then rest.holdReq p gen x else rest.dropReq p gen x
  | .force w => rest.forceFree w
  | .release p =>
    match sortNat (s.held p) with
    | [] => rest
    | [i] => rest.dropHold i p
    | i :: _ => s.dropHold i p

/-- FORCE_FREE. -/
def execForceFree (w : Word) (tgt : Nat) (s : State) : Host.Outcome State Fault Refusal :=
  .next (s.regAccess 0x20008 (w ||| 0x80000000) tgt fun w s => s.writeSmForce w tgt)

/-! ### Preparation (R179, R489) -/

/-- Move the leading count past tiles prepared out of order. -/
def advance : Nat → Nat → List Nat → Nat × List Nat
  | 0, n, l => (n, l)
  | f + 1, n, l => if l.contains n then advance f (n + 1) (l.filter fun k => k != n) else (n, l)

/-- The class and urgency in which engine work runs that the sub-requests of `p` wait for: those of the first of them, else C15 (R179, R286,
R369). -/
def State.waiterRun (s : State) (p : SubReq → Bool) : Nat × Nat :=
  match s.subs.find? p with
  | none => (15, 0)
  | some u =>
    let f := Tab.get ({} : Flow) s.traffic.flows u.flow
    match u.named with
    | some c => (c, 0)
    | none => (f.workClass, f.urgency)

/-- Write bytes of a cell at a place as preparation does, with their check bytes in GUARDED storage. -/
def State.prepPut (s : State) (x : Surf) (cls : Nat) (l : List Byte) (a : At) : State :=
  let s := (s.cellsFill (memKey a.ch a.a) l).engineBytes a.ch cls l.length
  if x.guarded then (s.cellsFill (memKey a.ch a.ca) (l.map checkByte)).engineBytes a.ch cls l.length else s

/-- Write bytes at a route as preparation does, and at its mirror. -/
def State.prepRoute (s : State) (x : Surf) (cls : Nat) (l : List Byte) (r : Route) : State :=
  let s := if s.inService r.at_.ch then s.prepPut x cls l r.at_ else s
  match r.mirror with
  | some m => s.prepPut x 15 l m
  | none => s

/-- The routes that the preparation of a tile writes: those of its header atoms, or of its cells' parts. -/
def State.prepRoutes (s : State) (x : Surf) (t : LTag) : List Route :=
  if x.sealed then [s.cellRoute t 0 true, s.cellRoute t 8 true]
  else (List.range 16).flatMap fun c => (s.cellParts t c 0 (32 * x.d)).map (·.2.2)

/-- Whether every channel that engine work of class `cls` writes by some routes takes it now, a destination of a move in C15 (R18, R198). -/
def State.routesFree (s : State) (l : List Route) (cls urg : Nat) : Bool :=
  ((l.map fun r => r.at_.ch).eraseDups.all fun ch => s.engineFree ch cls urg) &&
    (l.filterMap fun r => r.mirror.map (·.ch)).eraseDups.all fun ch => s.engineFree ch 15 0

/-- Write one cell of a tile as preparation does: the UNWRITTEN headers of its header atom, or the fill value with its check bytes. -/
def State.prepCell (s : State) (x : Surf) (t : LTag) (cls c : Nat) : State :=
  if x.sealed then
    if c % 8 = 0 then s.prepRoute x cls (List.replicate 32 0) (s.cellRoute t c true) else s
  else
    let l := packRaw x.d (flat (x.fill.getD t.plane 0))
    (s.cellParts t c 0 (32 * x.d)).foldl (fun (s : State) p => s.prepRoute x cls ((l.drop p.1).take p.2.1) p.2.2) s

/-- Whether a sub-request touches tile `k` of surface `i`. -/
def Surf.touchesTile (x : Surf) (i k : Nat) (u : SubReq) : Bool :=
  !u.tag.lin && u.tag.idx == i && x.tileNo u.tag.plane u.tag.tx u.tag.ty == k

/-- TILE_PREP_WRITE: tile `k` of surface `i` is prepared: the next in order, or one that a request waits for; its class must be open on its channels
(R18, R179). -/
def execTilePrepWrite (i k : Nat) (s : State) : Host.Outcome State Fault Refusal :=
  let x := s.surf i
  if (x.live || x.freed && s.subs.any (x.touchesTile i k)) = false ∨ s.power.st ≠ 0 ∨ x.prepares = false ∨ x.tileCount ≤ k ∨ x.tileReady k = true ∨
      (k == x.prep || s.subs.any (x.touchesTile i k)) = false then .next s
  else
    let t := x.tileAt k
    let tag : LTag := { idx := i, gen := x.gen, plane := t.1, tx := t.2.1, ty := t.2.2 }
    let run := s.waiterRun (x.touchesTile i k)
    if s.routesFree (s.prepRoutes x tag) run.1 run.2 = false then .next s
    else
      let s := (List.range 16).foldl (fun (s : State) c => s.prepCell x tag run.1 c) s
      let r := advance (x.prepOut.length + 1) x.prep (sortedInsert k x.prepOut)
      .next (s.setSurf i { x with prep := r.1, prepOut := r.2 })

end Sys2Proof.Machine
end

