-- ==== Sys2Proof/Machine/Links.lean ====
section
/-! DEFINITION. Links and the clock: credit, class and the next owner, grants and crossing, RESTART, what the surface manager applies in a cycle,
and the passing of cclk cycles (R129, R133, R148 to R165, R190, R193). A command that names a cclk count first lets the cycles up to it pass. -/

namespace Sys2Proof.Machine
open Sys2Proof

/-! ### Credit and class (R150 to R152) -/

/-- Link weight of port `i` of a group (R83, R169). -/
def State.weight (s : State) (g i : Nat) : Nat :=
  s.rd ([R.GRP_WEIGHT_LO_WEIGHT0, R.GRP_WEIGHT_LO_WEIGHT1, R.GRP_WEIGHT_LO_WEIGHT2, R.GRP_WEIGHT_LO_WEIGHT3, R.GRP_WEIGHT_HI_WEIGHT4,
    R.GRP_WEIGHT_HI_WEIGHT5, R.GRP_WEIGHT_HI_WEIGHT6, R.GRP_WEIGHT_HI_WEIGHT7].getD i R.GRP_WEIGHT_LO_WEIGHT0) g

/-- A flow's context. -/
def State.flow (s : State) (f : Nat) : Flow := Tab.get {} s.traffic.flows f

/-- The arbitration class that a transfer of flow `f` reads as it enters its port's queue, unknown while the flow's context is not in the cache
(R150). -/
def State.classRead (s : State) (f : Nat) : Option Nat := if s.traffic.fcache.contains f then some (s.flowClass f) else none

/-- Arbitration class of a port: that of its oldest transfer that has not wholly crossed (R150); one whose last beat crosses in the cycle in progress
has not. -/
def State.arbClass (s : State) (p : Nat) : Option Nat :=
  let q := s.port p
  if s.cclk < q.clsTo then q.lastCls else q.queue.head?.bind (·.cls)

/-- Whether a port's queue holds a transfer that has not wholly crossed. -/
def State.asks (s : State) (p : Nat) : Bool := !(s.port p).queue.isEmpty

/-- Whether a port ranks first under rule 1 of R151. -/
def State.first0 (s : State) (p : Nat) : Bool := s.arbClass p == some 0 && bit (s.rd R.GRP_REVOKE_REVOKE_EN (p / 8)) (p % 8)

/-- The order of R151 among the ports of group `g` under credit counters `cr`: class 0 first, then the highest counter, then the turn, which starts
after the last owner, the one that holds the grant now where one does. -/
def State.linkKey (s : State) (g : Nat) (cr : Tab Int) (i : Nat) : List Nat :=
  let x := s.group g
  [b2n (!s.first0 (8 * g + i)), (200000 - Tab.get 0 cr i).toNat, (i + 7 - x.owner.getD x.lastOwner) % 8]

/-- R151: the next owner among the ports of group `g` that ask for the link and that `ok` admits. -/
def State.nextOwner (s : State) (g : Nat) (ok : Nat → Bool) : Option Nat :=
  firstBy (s.linkKey g (s.group g).credit) ((List.range 8).filter fun i => s.asks (8 * g + i) && ok i)

/-- Whether LREQ of port `p` was 1 two cycles ago (R154). -/
def State.askedBefore (s : State) (p : Nat) : Bool :=
  let q := s.port p
  decide (q.lreqFrom + 2 ≤ s.cclk) && (!q.queue.isEmpty || decide (s.cclk < q.lreqTo + 2))

/-- The decision that a free link of group `g` makes in the cycle in progress (R151, R154, R163): none, a grant (`some (some i)`), or in overlapped
style a candidate whose LREQ is 0 by now (`some none`). Overlapped style decides from LREQ and counters of two cycles ago. -/
def State.decide_ (s : State) (g : Nat) : Option (Option Nat) :=
  let x := s.group g
  if s.frozen g ∨ s.cclk < x.freeAt then none
  else if s.rd R.GRP_CTL_STYLE g = 0 then (s.nextOwner g fun _ => true).map some
  else
    let cr := if s.cclk < x.refillAt + 2 then x.creditOld else x.credit
    (firstBy (s.linkKey g cr) ((List.range 8).filter fun i =>
      s.askedBefore (8 * g + i) && (s.asks (8 * g + i) || i != x.lastOwner))).map fun i => if s.asks (8 * g + i) then some i else none

/-! ### Requests at the slice -/

/-- The check of a request in the order of R129: a refusal code, or none. -/
def State.refusal (s : State) (p : Nat) (x : Xfer) : Option Nat :=
  let r := x.req
  if x.proto then some 8
  else if s.portKind p = 2 then
    match s.regionAt r.addr with
    | none => some 7
    | some a =>
      if a.base + a.size < r.addr + (r.len + 1) * 64 then some 7 else if r.priv < a.priv then some 9 else none
  else if s.handleOk r.handle = false then some 4
  else
    let f := s.surf (r.handle % 65536)
    if f.planes ≤ r.plane then some 7
    else if r.priv < f.priv then some 9
    else if x.op = 4 ∧ s.overLock (p / 8) (s.linesOf x (some (r.handle % 65536))) = true then some 9
    else if x.op ∈ [1, 3, 4, 5] ∧ f.holders.contains p = false then some 5
    else none

/-- A transfer that has wholly crossed is translated and served by its slice, or goes to the surface manager (R125, R129, R193). -/
def State.arriveSlice (s : State) (p : Nat) (x : Xfer) : State :=
  if 6 ≤ x.op ∧ x.op ≤ 8 ∧ x.proto = false then s.smArrive (p / 8) (.req p (s.port p).gen x)
  else
    let s := if s.portKind p = 1 ∧ x.proto = false then s.descRead (x.req.handle % 65536) else s
    match s.refusal p x with
    | some c => s.answer p x c 0
    | none =>
      let surf := if s.portKind p = 2 then none else some (x.req.handle % 65536)
      let w : Wait := { id := x.id, port := p, pgen := (s.port p).gen, xf := x, surf := surf, lines := s.linesOf x surf, rq := s.attrOf p x.req }
      ({ s with waits := s.waits ++ [w] } : State).pump

/-- A request beat that crosses is a Contrail candidate (R435): the LFSR advances once, and a selected request is tagged if fewer than 16 are in
flight and the buffer takes records. -/
def State.candidate (s : State) (p : Nat) (x : Xfer) : Xfer × State :=
  if s.rd R.CTR_CTL_EN = 0 then (x, s)
  else
    let l := s.meas.lfsr
    let fb := (bits l 23 1 + bits l 22 1 + bits l 21 1 + bits l 16 1) % 2
    let l := (l * 2 + fb) % 2 ^ 24
    let s := { s with meas := { s.meas with lfsr := l } }
    if l % 2 ^ s.rd R.CTR_CTL_K ≠ 0 then (x, s)
    else if 16 ≤ s.meas.trails.length ∨ (s.ctrUsed = 256 ∧ s.rd R.CTR_CTL_WRAP = 0) then
      (x, (s.bump R.CTR_LOSS_MISSED 0 0 1).count { ev := 0x00A })
    else
      let t : Trail := { id := x.id, seq := s.meas.seqNext, t0 := x.t0 % 2 ^ 32, flow := x.req.flow, port := p, tag := x.req.tag, op := x.op
                         offs := [(2, s.cclk - x.t0)], cls := s.flowClass x.req.flow, epoch := x.epoch % 2 ^ 32 }
      ({ x with ctag := some x.id },
        ({ s with meas := { s.meas with trails := s.meas.trails ++ [t], seqNext := (s.meas.seqNext + 1) % 65536 } } : State).count { ev := 0x009 })

/-- The grant of a link ends, cycle `e` being the first in which its owner no longer holds it: its length joins HOLD_AVG (R165), and same-cycle
style leaves that cycle idle (R154). -/
def State.endGrant (s : State) (g e : Nat) : State :=
  let x := s.group g
  match x.owner with
  | none => s
  | some i =>
    s.setGroup g { x with
      owner := none, lastOwner := i, stuck := 0, holds := ((e - x.grantAt) :: x.holds).take 16
      freeAt := if s.rd R.GRP_CTL_STYLE g = 0 then e + 1 else e }

/-- A port's queue becomes `l`, which drops what it held: its LREQ falls in the cycle in progress if nothing is left. -/
def State.setQueue (s : State) (p : Nat) (l : List Xfer) : State :=
  let q := s.port p
  s.setPort p { q with queue := l, lreqTo := if l.isEmpty ∧ q.queue.isEmpty = false then s.cclk else q.lreqTo }

/-! ### RESTART (R133, R134, R162) -/

/-- A transfer cut without a response leaves flight (R139, R437). -/
def State.cutTrail (s : State) (x : Xfer) (tell : Bool) : State :=
  let s := s.modTrail x.ctag fun t => { t with cut := true }
  if tell then s else s.endTrail x.ctag

/-- What port `p` holds that has not wholly crossed is discarded, each transfer answered RESTART; an open write's answer follows its last
data beat. -/
def State.restart (s : State) (p : Nat) : State :=
  let q := s.port p
  let opened := (q.queue.filter fun x => !x.closed).head?
  let s := (s.setQueue p []).setPort p { (s.setQueue p []).port p with discard := opened.orElse fun _ => q.discard }
  q.queue.foldl (fun (s : State) (x : Xfer) =>
    let s := s.cutTrail x true
    if x.closed then s.answer p x 10 0 else s) s

/-- A frozen link without a grant restarts every port's transfers (R162). -/
def State.freezePorts (s : State) (g : Nat) : State :=
  if s.frozen g = false ∨ (s.group g).owner.isSome = true then s
  else (List.range 8).foldl (fun (s : State) i => s.restart (8 * g + i)) s

/-- The grant of a link ends, cycle `e` being the first without it: same-cycle style has an idle cycle where another port asks for the link (R154, R161),
and a frozen link restarts what its ports hold (R162). -/
def State.passOn (s : State) (g e : Nat) : State :=
  let asked := (List.range 8).any fun i => (s.group g).owner != some i && s.asks (8 * g + i)
  let s := s.endGrant g e
  let s := if s.rd R.GRP_CTL_STYLE g = 0 ∧ asked = true ∧ s.frozen g = false then s.count { ev := 0x037, grp := some g } else s
  s.freezePorts g

/-- A grant whose owner's LREQ has fallen in an earlier cycle, or in this one, has ended (R149). -/
def State.linkNow (s : State) (g : Nat) : State :=
  match (s.group g).owner with
  | none => s
  | some i => if s.lreq (8 * g + i) then s else s.passOn g (s.port (8 * g + i)).lreqTo

/-- The occurrence of a link event of port `p`, with the class of its oldest transfer (R150, R430). -/
def State.linkOcc (s : State) (ev p : Nat) : Occ :=
  match (s.port p).queue with
  | [] => { ev := ev, grp := some (p / 8), req := some { port := p } }
  | x :: _ => s.occAt ev 1 (s.attrOf p x.req)

/-- Make a grant from cycle `t` on. -/
def State.grantTo (s : State) (g i t : Nat) : State :=
  let x := s.group g
  (s.setGroup g { x with owner := some i, grantAt := t, stuck := 0 }).count (s.linkOcc 0x030 (8 * g + i))

/-- One beat of port `p` crosses the link, at most one in a cclk cycle and only where the slice's intake has room (R149, R152); a transfer whose last
beat crosses is served, and the last beat of all takes LREQ to 0 in the next cycle (R148). -/
def State.crossBeat (s : State) (p : Nat) : State :=
  let g := p / 8
  let q := s.port p
  match q.queue with
  | [] => s
  | x :: t =>
    if 1 + x.beats.length ≤ x.crossed ∨ s.cclk < max (s.group g).beatAt (s.group g).grantAt ∨ s.intakeFull p = true then s
    else
      let was := Tab.get 0 (s.group g).credit (p % 8)
      let s := s.setGroup g { s.group g with
        credit := Tab.insert (p % 8) (max (was - 1) (-65536)) (s.group g).credit, beatAt := s.cclk + 1, beatOf := some (p % 8, was)
        stuck := 0 }
      let s := s.count (s.occAt 0x031 1 (s.attrOf p x.req))
      let (x, s) := if x.crossed = 0 then s.candidate p x else (x, s)
      let x := { x with crossed := x.crossed + 1 }
      if x.closed ∧ x.crossed = 1 + x.beats.length then
        (s.setPort p { q with
          queue := t, lreqTo := if t.isEmpty then s.cclk + 1 else q.lreqTo, lastCls := x.cls, clsTo := s.cclk + 1 }).arriveSlice p x
      else s.setPort p { q with queue := x :: t }

/-- A free link makes its decision (R151, R154): an overlapped candidate whose LREQ has gone leaves the link idle and two cycles to a new one. -/
def State.decideLink (s : State) (g : Nat) : State :=
  match (s.group g).owner with
  | some _ => s
  | none =>
    match s.decide_ g with
    | none => s
    | some none => s.setGroup g { s.group g with freeAt := s.cclk + 2 }
    | some (some i) => s.grantTo g i s.cclk

/-- Link `g` in the cycle in progress: an ended grant passes on, a free link decides, and a beat of the owner crosses (R149, R154). -/
def State.moveLink (s : State) (g : Nat) : State :=
  let s := (s.linkNow g).decideLink g
  match (s.group g).owner with
  | none => s
  | some i => s.crossBeat (8 * g + i)

/-! ### The surface manager's cycle (R190, R193) -/

/-- The arrival that the surface manager applies next: by cycle, then by slice; among the CREATEs of one cycle, by R190. -/
def State.smNext (s : State) : Option SmItem :=
  match firstBy (fun a => [a.at_, a.slice]) s.sm.inbox with
  | none => none
  | some a => if a.isCreate then firstBy s.allocKey (s.sm.inbox.filter fun b => b.isCreate && b.at_ == a.at_) else some a

/-- The surface manager applies one arrival in the cycle in progress; a CREATE waits for the allocator. -/
def State.smCycle (s : State) : State :=
  match s.smNext with
  | none => s
  | some a => if a.isCreate = true ∧ s.cclk < s.sm.allocTo then s else s.smApply a

/-! ### The clock -/

/-- What the cycle in progress still does at its end: the links at which a port has taken a beat in it move, and the surface manager applies an
arrival. -/
def State.closeCycle (s : State) : State :=
  ((List.range s.G).foldl (fun (s : State) g => if (s.group g).wake then (s.moveLink g).setGroup g { (s.moveLink g).group g with wake := false } else s) s).smCycle

/-- How many of the next `n` cycles pass with nothing to do between them: up to the end of a grant, one at a time while the surface manager has arrivals
or a gate entry takes over. -/
def State.stretch (s : State) (n : Nat) : Nat :=
  if s.now.turns.isEmpty = false ∨ s.sm.inbox.isEmpty = false then 1
  else
    (List.range s.G).foldl (fun n g =>
      match s.ownerNow g with
      | none => n
      | some i => let q := s.port (8 * g + i); if q.queue.isEmpty then min n (q.lreqTo - s.cclk) else n) n

/-- `n` cclk cycles pass, in at most as many stretches. -/
def State.elapseGo : Nat → Nat → State → State
  | 0, _, s => s
  | _, 0, s => s
  | f + 1, n, s =>
    let s := s.closeCycle
    let k := max 1 (s.stretch n)
    let s := (s.runCycles k).newCycle
    State.elapseGo f (n - k) ((List.range s.G).foldl State.linkNow { s with cclk := s.cclk + k })

/-- `n` cclk cycles pass, the one in progress first. -/
def State.elapse (s : State) (n : Nat) : State := if s.cclkRuns then State.elapseGo n n s else s

/-- The cycles up to cclk count `c` pass; a count already reached changes nothing. -/
def State.atCycle (s : State) (c : Nat) : State := s.elapse (c - s.cclk)

end Sys2Proof.Machine
end

