-- ==== Sys2Proof/Machine/Ports.lean ====
section
/-! DEFINITION. Ports and link commands: request and data beats, grants, revokes, the watchdog, freezes, attach and detach, violations
(R110 to R171). -/

namespace Sys2Proof.Machine
open Sys2Proof

/-! ### Violations (R144, R145) -/

/-- Violations of port `p` by code; the lowest is captured. -/
def State.viol (s : State) (p : Nat) (codes : List Nat) (tag op : Nat) : State :=
  match minOf codes with
  | none => s
  | some c =>
    let g := p / 8
    let i := p % 8
    let s := (s.bump R.PORT_VIOL_CNT_COUNT g i codes.length).count
      { ev := 0x02D, n := codes.length, grp := some g, req := some { port := p } }
    let s := (s.setBit R.PORT_STATUS_VIOL g i).raisePort p
    if s.rd R.PORT_VIOL_FIRST_VALID g i = 1 then s
    else
      (((s.wr R.PORT_VIOL_FIRST_CODE g i c).wr R.PORT_VIOL_FIRST_TAG g i tag).wr R.PORT_VIOL_FIRST_OP g i op).wr R.PORT_VIOL_FIRST_VALID g i 1

/-! ### Taking request beats (R115, R121, R144) -/

/-- Whether a port holds back request beats for RESTART responses not yet taken (R134). -/
def Port.restarting (q : Port) : Bool := q.discard.isSome || q.rsps.any fun r => r.code == 10

/-- The open write of a port, if there is one. -/
def Port.openWrite (q : Port) : Option Xfer :=
  match q.discard with
  | some x => some x
  | none => match q.queue.getLast? with
    | some x => if x.closed then none else some x
    | none => none

/-- Whether request ready may be 1 at a port. -/
def State.takesRequest (s : State) (p : Nat) : Bool :=
  let q := s.port p
  q.attached && !q.detaching && !q.restarting && q.openWrite.isNone && !s.frozen (p / 8)

/-- Data beats a request needs (R116). -/
def needBeats (kind op : Nat) (r : Req) : Nat :=
  if op = 8 then 1 else if op = 1 then (if kind = 2 then r.len + 1 else cdiv ((r.w + 1) * (r.h + 1)) 32) else 0

/-- Whether a field that the opcode does not use is not 0 (R121, FIELD_RESERVED). -/
def unusedField (kind op : Nat) (r : Req) : Bool :=
  kind == 1 && ((op == 6 || op == 7 || op == 8) && (r.plane != 0 || r.x != 0 || r.y != 0 || r.w != 0 || r.h != 0) || op == 8 && r.handle != 0)

/-- The request fields as their widths hold them (R112 to R114), and those the opcode uses. -/
def trimReq (r : Req) (kind op : Nat) : Req :=
  let blk := op ≠ 6 ∧ op ≠ 7 ∧ op ≠ 8
  { tag := r.tag % 1024, flow := r.flow % 2 ^ 20, colour := r.colour % 4, priv := r.priv % 4, wait := r.wait
    handle := if op = 8 then 0 else r.handle % 2 ^ 24, plane := if blk then r.plane % 4 else 0
    x := if blk then r.x % 65536 else 0, y := if blk then r.y % 65536 else 0
    w := if blk then r.w % 128 else 0, h := if blk then r.h % 64 else 0
    addr := if kind = 2 then r.addr % 2 ^ 40 else 0, len := if kind = 2 then r.len % 64 else 0 }

/-- A port of group `g` has taken a beat: the link moves at the end of the cycle, when every request of the cycle is known (R151, R154; log entry
20). -/
def State.wakeLink (s : State) (g : Nat) : State := s.setGroup g { s.group g with wake := true }

/-- A request beat is taken at port `p`, with opcode `op` (R115, R144). A beat whose tag is busy is dropped, also where its opcode is unknown or its
address misaligned (DESIGN CHOICE, log entry 137). -/
def State.takeRequest (s : State) (p op : Nat) (r0 : Req) : State :=
  let kind := s.portKind p
  let q := s.port p
  let r1 : Req := { r0 with x := r0.x % 65536, y := r0.y % 65536 }
  let r := trimReq r0 kind op
  let priv := s.rd R.PORT_CFG_PRIV_MAX (p / 8) (p % 8)
  let unknown := decide (9 ≤ op) || (kind == 2 && decide (6 ≤ op))
  let mis := kind == 2 && r.addr % 64 != 0
  let codes := (if unknown then [1] else []) ++ (if q.tags.contains r.tag then [2] else []) ++ (if mis then [3] else []) ++
    (if r.colour = 3 then [4] else []) ++ (if priv < r.priv then [5] else []) ++
    (if kind = 1 && r.wait && op != 8 then [9] else []) ++ (if unusedField kind op r1 then [13] else [])
  let flow := if r.flow = 0 then s.rd R.PORT_DEFAULT_FLOW_FLOW (p / 8) (p % 8) else r.flow
  let r' := { r with flow := flow, colour := min r.colour 2, priv := min r.priv priv }
  let s := if op ≤ 8 then s.count (s.occAt (0x010 + op) 1 (s.attrOf p r')) else s
  let s := (s.count (s.occAt 0x019 1 (s.attrOf p r'))).viol p codes r.tag (op % 16)
  if q.tags.contains r.tag then s
  else
    let r := r'
    let need := needBeats kind op r
    let x : Xfer := { id := s.nextId, op := op, req := r, need := need, closed := need == 0, proto := unknown || mis, t0 := s.cclk, epoch := s.tick.epoch
                      cls := s.classRead flow }
    let miss := !s.traffic.fcache.contains flow && !s.traffic.fwait.contains flow
    let s := if miss then (s.bump R.TR_FCACHE_MISS_COUNT 0 0 1).count { ev := 0x0AB } else s
    let s := { s.count { ev := 0x0AA } with
      nextId := s.nextId + 1
      traffic := { s.traffic with
        live := Tab.insert x.id (flow, s.cclk) s.traffic.live
        fwait := if s.traffic.fcache.contains flow ∨ s.traffic.fwait.contains flow then s.traffic.fwait else s.traffic.fwait ++ [flow] } }
    let s := s.notePend flow
    let q := s.port p
    let s := s.setPort p { q with
      tags := q.tags ++ [r.tag], queue := q.queue ++ [x], takeAt := s.cclk + 1
      lreqFrom := if q.queue.isEmpty ∧ q.lreqTo ≤ s.cclk then s.cclk else q.lreqFrom }
    s.wakeLink (p / 8)

/-- Whether a port's interface works: the build has the port, and its group clock and cclk run and are out of reset (R3, R11, R400, R409). -/
def State.gclkRuns (s : State) (p : Nat) : Bool :=
  decide (p < 8 * s.G) && s.cclkRuns && !s.power.domains.contains (3 + p / 8)

/-- The cycle in which port `p` takes a beat that is presented from cycle `c` on: it takes one beat in a cycle (R115, R116; log entry 125). -/
def State.beatCycle (s : State) (p c : Nat) : Nat := max c (s.port p).takeAt

/-- A write data beat is presented at port `p` (R116, R133, R144). PORT_VIOL_FIRST names the open write's tag and opcode for a wrong
sp_wd_last_i (DESIGN CHOICE, log entry 126). After a forced detach it is ignored (R139). A port position without a
PORT record counts STRAY_DATA too (DESIGN CHOICE, log entry 127). -/
def State.takeData (s : State) (p : Nat) (b : Beat) (last : Bool) : State :=
  let q := s.port p
  let occ (x : Xfer) : Occ := s.occAt 0x01A 1 (s.attrOf p x.req)
  let ends (x : Xfer) : Bool := last || x.beats.length + 1 == x.need
  let codes (x : Xfer) : List Nat :=
    if last && x.beats.length + 1 != x.need then [7] else if !last && x.beats.length + 1 == x.need then [8] else []
  if q.forced then s
  else
    match q.discard with
    | some x =>
      let s := s.count (occ x)
      let x' := { x with beats := x.beats ++ [b] }
      if ends x then (s.setPort p { q with discard := none }).answer p x' 10 0
      else s.setPort p { q with discard := some x' }
    | none =>
      match q.openWrite with
      | none => (s.count { ev := 0x01A, grp := some (p / 8), req := some { port := p } }).viol p [6] 0 0
      | some x =>
        let s := (s.count (occ x)).viol p (codes x) x.req.tag x.op
        let x' := { x with beats := x.beats ++ [b], closed := ends x, proto := x.proto || !(codes x).isEmpty }
        (s.setPort p { q with queue := q.queue.dropLast ++ [x'], takeAt := s.cclk + 1 }).wakeLink (p / 8)

/-- The data beat of a command: where the interface is not clocked nothing samples it (R400, R409, R414). -/
def State.dataBeat (s : State) (p : Nat) (b : Beat) (last : Bool) (c : Nat) : State :=
  let s := s.atCycle (s.beatCycle p c)
  if s.gclkRuns p then s.takeData p b last else s

/-- The request of a command: its beat is taken if the port takes one (R115). -/
def State.request (s : State) (p op : Nat) (r : Req) (c : Nat) : State :=
  let s := s.atCycle (s.beatCycle p c)
  if s.takesRequest p && s.gclkRuns p then s.takeRequest p op r else s

/-- READ. -/
def execRead (p : Nat) (r : Req) (c : Nat) (s : State) : Host.Outcome State Fault Refusal := .next (s.request p 0 r c)
/-- WRITE: the request beat opens a write transfer. -/
def execWrite (p : Nat) (r : Req) (c : Nat) (s : State) : Host.Outcome State Fault Refusal := .next (s.request p 1 r c)
/-- PREFETCH. -/
def execPrefetch (p : Nat) (r : Req) (c : Nat) (s : State) : Host.Outcome State Fault Refusal := .next (s.request p 2 r c)
/-- ZERO. -/
def execZero (p : Nat) (r : Req) (c : Nat) (s : State) : Host.Outcome State Fault Refusal := .next (s.request p 3 r c)
/-- PRELOAD. -/
def execPreload (p : Nat) (r : Req) (c : Nat) (s : State) : Host.Outcome State Fault Refusal := .next (s.request p 4 r c)
/-- UNLOCK. -/
def execUnlock (p : Nat) (r : Req) (c : Nat) (s : State) : Host.Outcome State Fault Refusal := .next (s.request p 5 r c)
/-- HOLD. -/
def execHold (p : Nat) (r : Req) (c : Nat) (s : State) : Host.Outcome State Fault Refusal := .next (s.request p 6 r c)
/-- DROP. -/
def execDrop (p : Nat) (r : Req) (c : Nat) (s : State) : Host.Outcome State Fault Refusal := .next (s.request p 7 r c)

/-- CREATE, with its descriptor beat if the master presents it at once. -/
def execCreate (p : Nat) (r : Req) (d : Option (BitVec 512)) (c : Nat) (s : State) : Host.Outcome State Fault Refusal :=
  let t := s.request p 8 r c
  match d with
  | none => .next t
  | some d => if (t.port p).openWrite.isSome then .next (t.dataBeat p { data := d, mask := 0 } true c) else .next t

/-- OP_UNKNOWN: a request beat with an opcode that is reserved or not allowed for the port's kind (R121, R144). -/
def execOpUnknown (p op : Nat) (r : Req) (c : Nat) (s : State) : Host.Outcome State Fault Refusal :=
  if 9 ≤ op % 16 ∨ (s.portKind p = 2 ∧ 6 ≤ op % 16) then .next (s.request p (op % 16) r c) else .next s

/-- WRITE_DATA_BEAT. -/
def execWriteDataBeat (p : Nat) (data : BitVec 512) (mask : BitVec 64) (last : Bool) (c : Nat) (s : State) :
    Host.Outcome State Fault Refusal := .next (s.dataBeat p { data := data, mask := mask } last c)

/-! ### Detach -/

/-- A voluntary detach ends once nothing is outstanding (R138). -/
def State.tryDetach (s : State) (p : Nat) : State :=
  let q := s.port p
  if q.detaching = false ∨ q.queue.isEmpty = false ∨ q.discard.isSome = true ∨ q.rsps.isEmpty = false ∨
      (s.waits.any fun w => w.port == p) = true ∨ s.inSm p = true then s
  else
    let s := s.setPort p { q with attached := false, detaching := false, gen := q.gen + 1 }
    ((s.dropHolds p).setBit R.PORT_STATUS_DETACH_EVT (p / 8) (p % 8)).raisePort p

/-- Reorder space that a response still holds once `k` more of its beats have left: it goes with the beats, in equal shares (R20). -/
def Resp.heldFor (r : Resp) (k : Nat) : Nat := r.rrb - r.rrb * (r.sent + k) / max 1 r.beats.length

/-- A forced detach (R139, R161): what has not crossed is discarded, what has crossed completes unheard, and the responses that wait give back the
reorder space they still hold; space waits end, holds go. No response is taken any more, so every tag stays outstanding until the port attaches again
(R119, R137), which it does once its line has been low, or is (R140). -/
def State.forceDetach (s : State) (p cause : Nat) : State :=
  let q := s.port p
  if q.attached = false then s
  else
    let g := p / 8
    let lost := q.queue ++ q.discard.toList
    let s := (s.setQueue p []).setPort p { (s.setQueue p []).port p with
      attached := false, detaching := false, forced := true, discard := none, rsps := [], gen := q.gen + 1, sawLow := !q.pin
      rrb := q.rrb - (q.rsps.map (·.heldFor 0)).sum }
    let s := lost.foldl (fun (s : State) (x : Xfer) => (s.cutTrail x false).settle (some x.id)) s
    let s := q.rsps.foldl (fun (s : State) (r : Resp) => (s.modTrail r.ctag fun t => { t with cut := true }).endTrail r.ctag) s
    let s := s.endWaits p false
    let s := if (s.group g).owner = some (p % 8) then s.passOn g s.cclk else s
    let s := (s.dropHolds p).wr R.PORT_STATUS_FORCE_CAUSE g (p % 8) cause
    (s.setBit R.PORT_STATUS_FORCED g (p % 8)).raisePort p

/-! ### Freeze and drain (R162 to R164) -/

/-- A write of GRP_CTL.FREEZE takes effect: a freeze or its end (R162). -/
def State.freezeChanged (s : State) (g : Nat) : State :=
  let s := s.linkNow g
  if s.frozen g then s.freezePorts g else s.setGroup g { s.group g with drained := false }

/-- Byte address of a group's registers, and of a port's. -/
def grpAddr (g o : Nat) : Nat := 0x80000 + g * 0x10000 + o
def portAddr (p o : Nat) : Nat := 0x88000 + p / 8 * 0x10000 + p % 8 * 0x800 + o

/-- A write of GRP_CTL. -/
def State.writeGrpCtl (s : State) (g w tgt : Nat) : State :=
  if s.G ≤ g then s
  else
    let was := s.frozen g
    let s := s.writeReg [⟨R.GRP_CTL_FREEZE, g, 0⟩, ⟨R.GRP_CTL_STYLE, g, 0⟩, ⟨R.GRP_CTL_GCLASS, g, 0⟩] [] (grpAddr g 0) w tgt
    if s.frozen g = was then s else s.freezeChanged g

/-- LINK_FREEZE: GRP_CTL is written with FREEZE 1. -/
def execLinkFreeze (g : Nat) (w : Word) (tgt : Nat) (s : State) : Host.Outcome State Fault Refusal :=
  .next (s.regAccess (grpAddr g 0) (w ||| 1) tgt fun w s => s.writeGrpCtl g w tgt)

/-- LINK_UNFREEZE: GRP_CTL is written with FREEZE 0. -/
def execLinkUnfreeze (g : Nat) (w : Word) (tgt : Nat) (s : State) : Host.Outcome State Fault Refusal :=
  .next (s.regAccess (grpAddr g 0) (w &&& 0xFFFFFFFE) tgt fun w s => s.writeGrpCtl g w tgt)

/-- LINK_DRAINED: DRAINED rises, and LINK_DRAINED is raised (R164). -/
def execLinkDrained (g : Nat) (s : State) : Host.Outcome State Fault Refusal :=
  if s.isDrained g = false ∨ (s.group g).drained = true then .next s
  else .next (((s.setGroup g { s.group g with drained := true }).setBit R.GRP_STATUS_LINK_DRAINED g 0).raise 5 g)

/-! ### Responses -/

/-- RESPONSE_BEAT: in cycle `c` the master takes the next beat of the port's first response; the last beat frees the tag (R119, R120). -/
def execResponseBeat (p c : Nat) (s : State) : Host.Outcome State Fault Refusal :=
  let s := s.atCycle c
  let q := s.port p
  match q.rsps with
  | [] => .next s
  | r :: t =>
    if s.cclk < r.readyAt then .next s
    else
      let last := r.sent + 1 == r.beats.length
      let b := r.beats.getD r.sent { data := 0 }
      let out : RspOut := { tag := r.tag, code := r.code, data := b.data, first := r.sent == 0, last := last, poison := b.poison }
      let s := s.count (s.occAt 0x01B 1 r.rq)
      if last then
        let s := s.setPort p { q with rsps := t, out := out, rrb := q.rrb - r.heldFor 0, tags := q.tags.filter fun n => n != r.tag }
        .next ((s.endTrail r.ctag).tryDetach p)
      else
        let k := r.heldFor 0 - r.heldFor 1
        .next (s.setPort p { q with rsps := { r with sent := r.sent + 1 } :: t, out := out, rrb := q.rrb - k })

/-! ### Attach -/

/-- Whether the engine has finished the discards and releases of a detach (R140). -/
def State.detachOver (s : State) (p : Nat) : Bool := !(s.waits.any fun w => w.port == p) && !(s.sm.inbox.any fun a => a.port == some p)

/-- ATTACH_REQUEST: sp_attach_i rises. A rise that breaks step 1 of R137 is ATTACH_EARLY, and is ignored until the conditions hold: PORT_ATTACH then
follows without another rise (R144). What R140 has the engine finish first only holds the attach back (log entry 108). At a present port the rise is a
wake edge while the engine enters Dusk and in Dusk (R143, R401). -/
def execAttachRequest (p : Nat) (s : State) : Host.Outcome State Fault Refusal :=
  let q := s.port p
  if q.pin then .next s
  else
    let early := !s.presence p || q.attached || !q.sawLow
    let s := s.setPort p { q with pin := true }
    let s := if early && s.gclkRuns p then s.viol p [12] 0 0 else s
    .next (if s.presence p then s.latchWake 1 else s)

/-- PORT_ATTACH: the engine frees the tags and raises sp_attached_o (R137). -/
def execPortAttach (p : Nat) (s : State) : Host.Outcome State Fault Refusal :=
  let q := s.port p
  if q.pin = false ∨ s.presence p = false ∨ s.gclkRuns p = false ∨ q.attached = true ∨ q.sawLow = false ∨ s.detachOver p = false ∨ s.power.st ≠ 0 then .next s
  else
    let s := s.setPort p { q with
      attached := true, detaching := false, forced := false, sawLow := false, tags := [], rsps := [], queue := [], discard := none }
    .next ((s.setBit R.PORT_STATUS_ATTACH_EVT (p / 8) (p % 8)).raisePort p)

/-- DETACH_REQUEST: sp_attach_i falls (R138); an open write is dropped (R144). -/
def execDetachRequest (p : Nat) (s : State) : Host.Outcome State Fault Refusal :=
  let q := s.port p
  if q.pin = false then .next s
  else
    let s := s.setPort p { q with pin := false, sawLow := true }
    if q.attached = false then .next s
    else
      match q.openWrite with
      | none => .next (((s.setPort p { s.port p with detaching := true }).endWaits p true).tryDetach p)
      | some x =>
        let s := s.viol p [11] x.req.tag x.op
        let queue := q.queue.filter fun y => y.closed
        let s := s.setQueue p queue
        let s := s.setPort p { s.port p with detaching := true, discard := none }
        let s := ((s.cutTrail x false).settle (some x.id)).linkNow (p / 8)
        .next ((s.endWaits p true).tryDetach p)

/-- REQ_DETACHED: sp_req_valid_i rises while the port is detached, but not after a forced detach (R139, R144). It counts at a port without a PORT
record too, and its beat, which is never taken, is captured with TAG and OP 0 (DESIGN CHOICE, log entries 126 and 127). -/
def execReqDetached (p : Nat) (s : State) : Host.Outcome State Fault Refusal :=
  if (s.port p).attached = true ∨ (s.port p).forced = true ∨ s.gclkRuns p = false then .next s else .next (s.viol p [10] 0 0)

/-- A write of PORT_CTL. -/
def State.writePortCtl (s : State) (p w tgt : Nat) : State :=
  if s.G * 8 ≤ p then s
  else
    s.writeReg [⟨R.PORT_CTL_KEEP_HOLDS, p / 8, p % 8⟩]
      [(0, fun s => (s.forceDetach p 1, false)), (1, fun s => ((s.endWaits p true).tryDetach p, false)),
       (2, fun s => (s.wr R.PORT_VIOL_FIRST_VALID (p / 8) (p % 8) 0, false))]
      (portAddr p 0) w tgt

/-- PORT_FORCE_DETACH. -/
def execPortForceDetach (p : Nat) (w : Word) (tgt : Nat) (s : State) : Host.Outcome State Fault Refusal :=
  .next (s.regAccess (portAddr p 0) (w ||| 1) tgt fun w s => s.writePortCtl p w tgt)
/-- CANCEL_WAIT. -/
def execCancelWait (p : Nat) (w : Word) (tgt : Nat) (s : State) : Host.Outcome State Fault Refusal :=
  .next (s.regAccess (portAddr p 0) (w ||| 2) tgt fun w s => s.writePortCtl p w tgt)
/-- VIOL_REARM. -/
def execViolRearm (p : Nat) (w : Word) (tgt : Nat) (s : State) : Host.Outcome State Fault Refusal :=
  .next (s.regAccess (portAddr p 0) (w ||| 4) tgt fun w s => s.writePortCtl p w tgt)

/-! ### Link commands -/

/-- LINK_GRANT: an idle link is granted (R151, R154). -/
def execLinkGrant (g : Nat) (s : State) : Host.Outcome State Fault Refusal := .next ((s.linkNow g).decideLink g)

/-- LINK_BEAT: in cycle `c` a beat of the owner crosses (R149). A grant whose owner has nothing left ends, and a freeze then takes the
other ports' transfers (R162). -/
def execLinkBeat (g c : Nat) (s : State) : Host.Outcome State Fault Refusal :=
  let s := (s.atCycle c).linkNow g
  match (s.group g).owner with
  | none => .next s
  | some i => .next (s.crossBeat (8 * g + i))

/-- Take the grant of the owner `i` of a link from the next cycle on, with the effects of R133. -/
def State.revokeOwner (s : State) (g i : Nat) : State := (s.endGrant g (s.cclk + 1)).restart (8 * g + i)

/-- The ports that may revoke owner `i` (R155). -/
def State.revokers (s : State) (g i : Nat) : Nat → Bool := fun j => j != i && s.first0 (8 * g + j)

/-- A revoke is counted and raised (R155). -/
def State.countRevoke (s : State) (g i : Nat) : State :=
  let s := (s.bump R.GRP_REVOKE_CNT_COUNT g 0 1).count { ev := 0x033, grp := some g, req := some { port := 8 * g + i } }
  (s.setBit R.GRP_STATUS_LINK_REVOKE g 0).raise 5 g

/-- LINK_REVOKE: the conditions of R155 hold in this cycle; from the next one the revoker holds the grant. An owner whose LREQ is 0 by now has given
the link up, and nothing is revoked (R156). -/
def execLinkRevoke (g : Nat) (s : State) : Host.Outcome State Fault Refusal :=
  let s := s.linkNow g
  match (s.group g).owner with
  | none => .next s
  | some i =>
    if s.frozen g ∨ s.arbClass (8 * g + i) = some 0 then .next s
    else
      match s.nextOwner g (s.revokers g i) with
      | none => .next s
      | some j => .next (((s.revokeOwner g i).grantTo g j (s.cclk + 1)).countRevoke g i)

/-- LINK_BITE: the watchdog count of the owner reaches LIMIT × 256 (R158 to R160). -/
def execLinkBite (g : Nat) (s : State) : Host.Outcome State Fault Refusal :=
  let s := s.linkNow g
  match (s.group g).owner with
  | none => .next s
  | some i =>
    let p := 8 * g + i
    if (s.group g).stuck < s.rd R.GRP_WATCHDOG_LIMIT g * 256 then .next s
    else
      let next := if s.frozen g ∨ s.arbClass p = some 0 then none else s.nextOwner g (s.revokers g i)
      let s := ((s.bump R.GRP_BITE_CNT_COUNT g 0 1).setBit R.GRP_STATUS_LINK_BITE g 0).raise 5 g
      let s := s.count { ev := 0x034, grp := some g, req := some { port := p } }
      let v := s.rd R.GRP_BITE_VALID_VALID g
      let s := if bit v i then s.forceDetach p 2
        else ((s.wr R.GRP_BITE_VALID_VALID g 0 (v ||| 2 ^ i)).wr R.GRP_BITE_EPOCH_EPOCH g i s.tick.epoch).revokeOwner g i
      match next with
      | some j => .next (s.grantTo g j (s.cclk + 1))
      | none => .next (s.freezePorts g)

/-- A counter after a refill with link weight `w` (R152). -/
def refilled (w : Nat) (c : Int) : Int := min (c + 16 * w) (32 * w)

/-- CREDIT_REFILL: the refill window of REFILL cycles has passed, and every credit counter is refilled; a beat that crosses in the same cycle is charged
after the refill (R152, R153). -/
def execCreditRefill (g : Nat) (s : State) : Host.Outcome State Fault Refusal :=
  let x := s.group g
  let due := x.refillAt + s.rd R.GRP_REFILL_REFILL g
  if s.conf.isNone ∨ s.cclkRuns = false ∨ s.G ≤ g ∨ s.cclk < due then .next s
  else
    let one (i : Nat) : Int :=
      match x.beatOf with
      | some (p, was) => if p = i ∧ x.beatAt = s.cclk + 1 then max (refilled (s.weight g i) was - 1) (-65536) else refilled (s.weight g i) (Tab.get 0 x.credit i)
      | none => refilled (s.weight g i) (Tab.get 0 x.credit i)
    .next (s.setGroup g { x with credit := (List.range 8).map fun i => (i, one i), creditOld := x.credit, refillAt := due })

/-- SQUALL_REVOKE: the revoke period elapses; each selected link that is not frozen loses its grant, whatever its owner's class (R467). -/
def execSquallRevoke (s : State) : Host.Outcome State Fault Refusal :=
  if s.squall.unlocked = false ∨ s.rd R.SQ_REVOKE_PERIOD = 0 then .next s
  else
    .next ((List.range s.G).foldl (fun (s : State) g =>
      match s.ownerNow g with
      | none => s
      | some i =>
        if bit (s.rd R.SQ_REVOKE_GROUPS) g = false ∨ s.frozen g = true then s
        else
          let next := if s.arbClass (8 * g + i) = some 0 then none else s.nextOwner g (s.revokers g i)
          let s := (s.revokeOwner g i).countRevoke g i
          match next with
          | some j => s.grantTo g j (s.cclk + 1)
          | none => s) s)

end Sys2Proof.Machine
end

