-- ==== Sys2Proof/Machine/Halo.lean ====
section
/-! DEFINITION. The Halo commands: units that arrive, snoop messages, the eviction buffer's write-backs, and range invalidates (R245, R254 to
R262, R266, R270 to R276). -/

namespace Sys2Proof.Machine
open Sys2Proof

/-! ### Arriving units -/

/-- The first request of slice `g` that writes and waits for a unit. -/
def State.writerOf (s : State) (g : Nat) (t : LTag) (n : Nat) : Option Wait :=
  s.waits.find? fun w => w.port / 8 == g && writesOp w.xf.op && w.need.contains (t, n)

/-- Unit `n` of entry `e` that is fetched resolves as lost while written values wait for it (R249, R250, R252): a SEALED cell of a write-back
line is presented with its poison mark, other written values go to DRAM and the unit stays INVALID. -/
def State.lostMerge (s : State) (g e n : Nat) (x : Line) (u : HUnit) : State :=
  match s.writerOf g x.tag n with
  | none => s.setLine g e (x.setUnit n (if x.prot = 1 then { st := 3, data := flat (s.fillOf x.tag) } else {}))
  | some w =>
    if x.prot = 1 then (s.setLine g e (x.setUnit n { st := 3, data := flat (s.fillOf x.tag) })).addJob g (w.job x.tag n u.merge true)
    else (s.setLine g e (x.setUnit n {})).toDram w x.tag n u.merge

/-- A SHARE that waited for written values acts once none of them waits for its unit any more: DIRTY units are written back and OWN clears (R255,
R256). -/
def State.endShare (s : State) (g e : Nat) : State :=
  let x := s.line g e
  if x.sharing = false ∨ (x.units.any fun u => !u.2.merge.isEmpty) = true then s
  else
    let s := s.flushLine g e
    s.setLine g e { s.line g e with own := false, sole := false, sharing := false }

/-- A unit as it is stored from a copy that came back: one that is lost is POISONED, a cell with its plane's fill value, an atom with the bytes as read
(R241). -/
def State.stored (s : State) (a : Arrival) : HUnit :=
  { st := a.st, data := if a.st = 3 ∧ a.sub.tag.lin = false then flat (s.fillOf a.sub.tag) else a.data, bad := a.bad }

/-- Put a copy of a fetched unit into entry `e` (R245, R249), if the line waits for that copy and no other has come first (R266). -/
def State.placeUnit (s : State) (g e : Nat) (a : Arrival) : State :=
  let x := s.line g e
  let n := a.sub.unit
  let u := x.unit n
  if u.st ≠ 0 ∨ u.fetch.contains a.sub.copy = false then s
  else if u.merge.isEmpty then s.setLine g e (x.setUnit n (s.stored a))
  else if a.st = 3 then
    if x.pol = 0 then s.lostMerge g e n x u
    else s.setLine g e (x.setUnit n (if x.prot = 1 then s.stored a else {}))
  else
    let dirty := x.pol == 0 && decide (e < 64)
    let flow := match s.writerOf g x.tag n with | some w => w.xf.req.flow | none => x.flow
    s.setLine g e { x.setUnit n { st := 1, data := overlay a.data u.merge, dirty := dirty } with flow := if dirty then flow else x.flow }

/-- A read cell reaches the merge that asked for it (R228, R251): the merge can be encoded over it, or ends in POISON. The atoms that came back
uncorrectable are `a.bad`. -/
def State.mergeArrives (s : State) (g : Nat) (a : Arrival) : State :=
  { s with enc := Tab.insert g ((queueOf s.enc g).map fun j =>
      if j.tag = a.sub.tag ∧ j.cell = a.sub.unit ∧ j.phase = 1 then
        { j with phase := if a.st = 3 ∧ (s.surf j.tag.idx).sealed = true then 3 else 2, old := a.data, bad := a.bad }
      else j) s.enc }

/-- The part write of a raw cell over its old contents (R251): only atoms that hold written samples; in an atom that could not be read, only
bytes of which every bit is written, and the part result is POISON. -/
def State.finishRaw (s : State) (g : Nat) (j : EncJob) : State :=
  let x := s.surf j.tag.idx
  let l := rawBytes x.d j.samples (x.replicate j.tag j.cell (overlay j.old j.samples))
  let whole := rawWhole x.d j.samples
  let l := l.filter fun e => !j.bad.contains (e.1 / 32) || whole.contains e.1
  let hitBad := (rawBytes x.d j.samples j.old).any fun e => j.bad.contains (e.1 / 32)
  let u : SubReq := { id := 0, wait := j.wait, g := g, port := j.port, flow := j.flow, colour := j.colour, tag := j.tag, unit := j.cell
                      kind := .wr, t0 := j.t0, rq := j.rq }
  (s.writeBytes u l).partDone j.wait (if hitBad then 2 else 0)

/-- Part writes of raw cells that have their old contents leave the encoders' queue. -/
def State.finishRaws (s : State) (g : Nat) : State :=
  let done := (queueOf s.enc g).filter fun j => j.phase == 2 && !(s.surf j.tag.idx).sealed
  let s := { s with enc := Tab.insert g ((queueOf s.enc g).filter fun j => !(j.phase == 2 && !(s.surf j.tag.idx).sealed)) s.enc }
  done.foldl (fun (s : State) j => s.finishRaw g j) s

/-- FILL_UNIT_ARRIVE: arrival `k` of slice `g` reaches its line, the requests that wait for it, or the merge that needs it (R245). -/
def execFillUnitArrive (g k : Nat) (s : State) : Host.Outcome State Fault Refusal :=
  match (queueOf s.arr g)[k]? with
  | none => .next s
  | some a =>
    let s := { s with arr := Tab.insert g (dropAt (queueOf s.arr g) k) s.arr }
    let t := a.sub.tag
    let n := a.sub.unit
    let got : Got := { s.gotOf t n (s.stored a) with data := a.data, corr := a.corr }
    if a.sub.kind = .merge then .next ((s.mergeArrives g a).finishRaws g).pump
    else if a.sub.kind = .stream then .next (s.give g got a.sub.wait).pump
    else
      let s := s.count (s.occOf 0x048 1 g a.sub)
      match s.findLine g t with
      | none => .next (s.give g got none).pump
      | some e =>
        let u := (s.line g e).unit n
        let takes := u.st == 0 && u.fetch.contains a.sub.copy
        let s := s.placeUnit g e a
        let v := (s.line g e).unit n
        let s := if takes && v.merge.isEmpty && (u.merge.isEmpty || v.st == 0) then s.give g got none
          else if v.st != 0 then s.give g (s.gotOf t n v) none
          else if v.fetch.isEmpty then s.give g got none else s
        .next ((s.endShare g e).endFill g e).pump

/-! ### Snoop messages (R254 to R257, R260) -/

/-- The message that takes the bus next: the oldest one waiting in the slice that follows the slice last served (R254). -/
def State.nextSnoop (s : State) : Option Nat :=
  let first (g : Nat) : Option Nat := (List.range s.snoops.length).find? fun k =>
    match s.snoops[k]? with | some n => n.g == g && !n.sent | none => false
  ((List.range 8).map fun i => (s.snoopLast + 1 + i) % 8).findSome? first

/-- The effect of a message in one other slice that holds the line in entry `e` (R255, R260, R271, R272). A SHARE waits for values that wait for their
units; a CLAIM takes a line in the eviction buffer, or one that fills, when its write-back or its fill has ended. -/
def State.snoopAt (s : State) (g e : Nat) (claim : Bool) : State :=
  let s := (s.flushLine g e).count { ev := 0x052, grp := some g }
  let x := s.line g e
  if claim = false then
    if x.units.any fun u => !u.2.merge.isEmpty then s.setLine g e { x with sharing := true }
    else s.setLine g e { x with own := false, sole := false }
  else if x.filling ∨ 72 ≤ e then s.setLine g e { x with inval := true, own := x.own && x.filling, sole := false }
  else if x.locked then s.setLine g e x.emptied
  else s.dropLine g e

/-- The place in the order of the bus of the message that takes it next. -/
def State.busNext (s : State) : Nat := s.snoops.foldl (fun m n => max m (n.bus + 1)) 0

/-- Message `k` takes the bus, and every other slice acts on it. -/
def State.takeBus (s : State) (k : Nat) (n : Snoop) : State :=
  let r := ((List.range s.G).filter fun g => g != n.g).foldl (fun (b : State × Bool) g =>
    let s := b.1.checkTags g
    match s.findLine g n.tag with
    | none => (s, b.2)
    | some e => if (s.line g e).empty || (s.line g e).gone then (s, b.2) else (s.snoopAt g e n.claim, true)) (s, false)
  { r.1 with snoops := setAt r.1.snoops k { n with sent := true, found := r.2, bus := s.busNext }, snoopLast := n.g }

/-- The next message takes the bus if it is of the kind named. -/
def State.snoopStep (s : State) (claim : Bool) : State :=
  match s.nextSnoop with
  | none => s
  | some k =>
    match s.snoops[k]? with
    | none => s
    | some n => if n.claim = claim then (s.takeBus k n).pump else s

/-- SNOOP_SHARE. -/
def execSnoopShare (s : State) : Host.Outcome State Fault Refusal := .next (s.snoopStep false)
/-- SNOOP_CLAIM. -/
def execSnoopClaim (s : State) : Host.Outcome State Fault Refusal := .next (s.snoopStep true)

/-- Whether message `m` took the bus after message `n` of another slice and names the same line. -/
def Snoop.follows (m n : Snoop) : Bool := m.sent && m.tag == n.tag && m.g != n.g && decide (n.bus < m.bus)

/-- The messages that took the bus after a CLAIM act on the copy that its write has made (R257). -/
def State.followUp (s : State) (n : Snoop) : State :=
  (List.range s.snoops.length).foldl (fun (s : State) k =>
    match s.snoops[k]?, s.findLine n.g n.tag with
    | some m, some e =>
      if m.follows n && !(s.line n.g e).empty then
        let s := s.snoopAt n.g e m.claim
        { s with snoops := setAt s.snoops k { m with found := true } }
      else s
    | _, _ => s) s

/-- The action that waited for a message's acknowledgements (R255): the fill's sub-requests, or the write. -/
def State.snoopAct (s : State) (n : Snoop) : State :=
  let asked (s : State) : State := n.more.foldl (fun (s : State) m => s.fetch m.2 m.1) s
  match n.act with
  | .fill l u =>
    match s.findLine n.g n.tag with
    | none => asked (if u.kind = .pfill then s else s.fetch u l)
    | some e =>
      let x := s.line n.g e
      if u.kind = .pfill ∧ x.awaits u.copy = false then asked s else
      let sole := !n.found && !(s.snoops.any fun m => m.follows n)
      asked ((s.setLine n.g e { x with sole := if x.filling then sole else x.sole }).fetch u l)
  | .write id => ((s.writeLine id n.tag).partDone (some id) 0).followUp n

/-- Whether slice `g` has acknowledged message `n`: the writes of the line it has issued have entered their front ends; values that wait for their
units have gone out for a SHARE; and for a CLAIM the line has left once its fill has ended, unless the SHARE of that very fill comes after the CLAIM on
the bus, so that no unit has come yet and all read what is written (R25, R255, R272). -/
def State.acked (s : State) (n : Snoop) (g : Nat) : Bool :=
  let after (x : Line) : Bool := s.snoops.any fun m => m.g == g && m.tag == n.tag && (!m.sent || decide (n.bus < m.bus)) &&
    match m.act with
    | .fill _ u => x.awaits u.copy
    | .write _ => false
  s.lineSettled g n.tag && !entries.any fun e =>
    let x := s.line g e
    x.valid && x.tag == n.tag && (if n.claim then x.inval && x.filling && !after x else x.sharing)

/-- The copies of its line that a CLAIM takes from the eviction buffers of the other slices, their write-back being over (R260), a copy that a lookup has
pulled back meanwhile among them (DEDUCED, log entry 167). -/
def State.dropClaimed (s : State) (n : Snoop) : State :=
  ((List.range s.G).filter fun g => g != n.g).foldl (fun (s : State) g => entries.foldl (fun (s : State) e =>
    let x := s.line g e
    if x.valid && x.tag == n.tag && x.inval && !x.filling then (if x.locked then s.setLine g e x.emptied else s.dropLine g e) else s) s) s

/-- Whether the write that waits for message `n` has to wait at its own slice: its allocation, or the move of its line into the array, waits (R261),
or the line is leaving (R270). -/
def State.writeWaits (s : State) (n : Snoop) : Bool :=
  match n.act with
  | .write _ => s.allocWaits n.g n.tag (· ≤ 1) || s.lineWaits n.g n.tag
  | .fill _ _ => false

/-- SNOOP_ACKS_DONE: every other slice has acknowledged message `k`; a write whose CLAIM took the bus earlier takes effect first (R257). -/
def execSnoopAcksDone (k : Nat) (s : State) : Host.Outcome State Fault Refusal :=
  match s.snoops[k]? with
  | none => .next s
  | some n =>
    let settled := ((List.range s.G).filter fun g => g != n.g).all (s.acked n)
    let after := s.snoops.any fun m => m.claim && n.follows m && m.sent
    if n.sent = false ∨ settled = false ∨ after = true ∨ s.writeWaits n = true then .next s
    else
      let s := { s with snoops := dropAt s.snoops k }
      .next ((if n.claim then s.dropClaimed n else s).snoopAct n).pump

/-! ### Eviction buffer -/

/-- EVICT_WRITEBACK_UNIT: the oldest line being written back hands over its next DIRTY unit (R258). -/
def execEvictWritebackUnit (g : Nat) (s : State) : Host.Outcome State Fault Refusal :=
  match firstBy (fun e => [(s.line g e).ent]) ([72, 73, 74, 75].filter fun e => (s.line g e).valid && (s.line g e).evb != 0) with
  | none => .next s
  | some e => .next (s.handOver g e).pump

/-! ### Range invalidates (R270 to R272) -/

/-- Whether the range that group `g`'s registers name covers a line. -/
def State.invCovers (s : State) (g : Nat) (t : LTag) : Bool :=
  let kind := s.rd R.HALO_INV_CTL_KIND g
  if kind = 2 then true
  else if kind = 1 then
    t.lin && decide (s.rd R.HALO_INV_LINE_FIRST g ≤ t.line ∧ t.line < s.rd R.HALO_INV_LINE_FIRST g + s.rd R.HALO_INV_COUNT_COUNT g)
  else
    !t.lin && t.idx == s.rd R.HALO_INV_SURF_INDEX g && t.gen == s.rd R.HALO_INV_SURF_GEN g &&
      (s.rd R.HALO_INV_SURF_ALL_PLANES g == 1 || t.plane == s.rd R.HALO_INV_SURF_PLANE g) &&
      decide (s.rd R.HALO_INV_TX_TX0 g ≤ t.tx ∧ t.tx ≤ s.rd R.HALO_INV_TX_TX1 g ∧
        s.rd R.HALO_INV_TY_TY0 g ≤ t.ty ∧ t.ty ≤ s.rd R.HALO_INV_TY_TY1 g)

/-- DIRTY units of a line are dropped unwritten. -/
def Line.discarded (x : Line) : Line := { x with units := x.units.map fun u => (u.1, if u.2.dirty then { u.2 with st := 0, dirty := false, data := [] } else u.2) }

/-- Invalidate entry `e` of slice `g`: write back or discard its DIRTY units, then drop it, or leave it LOCKED_EMPTY, once its writes have entered their
front ends (R262, R270), or when its fill ends. -/
def State.invEntry (s : State) (g e : Nat) (discard : Bool) : State :=
  let s := if discard then s.setLine g e (s.line g e).discarded else s.flushLine g e
  let x := s.line g e
  if x.filling then s.setLine g e { x with inval := true }
  else if s.lineSettled g x.tag then s.leave g e
  else s.setLine g e { x with gone := true, own := false }

/-- Invalidate the lines of slice `g` that `cover` names. -/
def State.invSlice (s : State) (g : Nat) (cover : LTag → Bool) (discard : Bool) : State :=
  entries.foldl (fun (s : State) e =>
    if (s.line g e).valid && cover (s.line g e).tag then s.invEntry g e discard else s) s

/-- Whether slice `g` has finished what invalidates asked of it: no line waits for its fill to leave, and no write-back is on its way to
a front end. -/
def State.invSettled (s : State) (g : Nat) : Bool :=
  !(entries.any fun e => (s.line g e).valid && ((s.line g e).inval || (s.line g e).gone)) &&
    !(s.subs.any fun u => u.g == g && u.write && u.wait.isNone && !u.scrub) && !((queueOf s.enc g).any fun j => j.wait.isNone)

/-- GO: the invalidate begins in every slice it covers. -/
def State.invGo (s : State) (g : Nat) : State × Bool :=
  if (s.group g).invBusy then (s, true)
  else
    let l := if s.rd R.HALO_INV_CTL_BCAST g = 1 then List.range s.G else [g]
    let cover := s.invCovers g
    let discard := s.rd R.HALO_INV_CTL_DISCARD g == 1
    let s := l.foldl (fun (s : State) h => s.invSlice h cover discard) s
    ((s.setGroup g { s.group g with invBusy := true, invSlices := l }).pump, false)

/-- HALO_INV_DONE: a range invalidate started in group `g` has finished in every slice it covers. -/
def execHaloInvDone (g : Nat) (s : State) : Host.Outcome State Fault Refusal :=
  let x := s.group g
  if x.invBusy = false ∨ (x.invSlices.all s.invSettled) = false then .next s
  else .next ((s.setGroup g { x with invBusy := false, invSlices := [] }).raiseHalo R.HALO_STATUS_INV_DONE g)

/-! ### Registers -/

/-- Whether a written word changes any of the fields listed. -/
def State.changes (s : State) (w : Nat) (l : List Slot) : Bool :=
  l.any fun x => bits w x.f.lsb x.f.width != s.rd x.f x.i x.j

/-- Parameter fields of an invalidate by register offset. -/
def invSlots (g o : Nat) : List Slot :=
  if o = 0x1008 then [⟨R.HALO_INV_CTL_KIND, g, 0⟩, ⟨R.HALO_INV_CTL_DISCARD, g, 0⟩, ⟨R.HALO_INV_CTL_BCAST, g, 0⟩]
  else if o = 0x100C then
    [⟨R.HALO_INV_SURF_INDEX, g, 0⟩, ⟨R.HALO_INV_SURF_GEN, g, 0⟩, ⟨R.HALO_INV_SURF_PLANE, g, 0⟩, ⟨R.HALO_INV_SURF_ALL_PLANES, g, 0⟩]
  else if o = 0x1010 then [⟨R.HALO_INV_TX_TX0, g, 0⟩, ⟨R.HALO_INV_TX_TX1, g, 0⟩]
  else if o = 0x1014 then [⟨R.HALO_INV_TY_TY0, g, 0⟩, ⟨R.HALO_INV_TY_TY1, g, 0⟩]
  else if o = 0x1018 then [⟨R.HALO_INV_LINE_FIRST, g, 0⟩]
  else [⟨R.HALO_INV_COUNT_COUNT, g, 0⟩]

/-- A write of an invalidate register at offset `o`: while INV_BUSY is 1, a changed parameter or a GO is refused (R276, R487). -/
def State.writeInv (s : State) (g o w tgt : Nat) : State :=
  if s.G ≤ g then s
  else
    let slots := if (s.group g).invBusy && s.changes w (invSlots g o) then [] else invSlots g o
    let refused := (s.group g).invBusy && s.changes w (invSlots g o)
    let acts : List (Nat × Act) := if o = 0x1008 then [(0, fun s => s.invGo g)] else []
    let r := runActs w acts (applySlots s w slots)
    r.1.busyIf (r.2 || refused) (grpAddr g o) tgt

/-- HALO_INVALIDATE. -/
def execHaloInvalidate (g : Nat) (w : Word) (tgt : Nat) (s : State) : Host.Outcome State Fault Refusal :=
  .next (s.regAccess (grpAddr g 0x1008) (w ||| 1) tgt fun w s => s.writeInv g 0x1008 w tgt)

/-- The fields of HALO_CTL. -/
def haloCtlSlots (g : Nat) : List Slot :=
  [⟨R.HALO_CTL_PREFETCH_DEPTH, g, 0⟩, ⟨R.HALO_CTL_MOTION_HINT_EN, g, 0⟩, ⟨R.HALO_CTL_LOCK_MAX, g, 0⟩, ⟨R.HALO_CTL_WP_SHAPE, g, 0⟩]

/-- A write of HALO_CTL. -/
def State.writeHaloCtl (s : State) (g w tgt : Nat) : State :=
  if s.G ≤ g then s
  else s.writeReg (haloCtlSlots g) [(5, fun s => (s.wr R.HALO_ERR_FIRST_VALID g 0 0, false))] (grpAddr g 0x1000) w tgt

/-- HALO_REARM. -/
def execHaloRearm (g : Nat) (w : Word) (tgt : Nat) (s : State) : Host.Outcome State Fault Refusal :=
  .next (s.regAccess (grpAddr g 0x1000) (w ||| 32) tgt fun w s => s.writeHaloCtl g w tgt)

end Sys2Proof.Machine
end

