-- ==== Sys2Proof/Machine/Cirrus.lean ====
section
/-! DEFINITION. The Cirrus commands: the check of a decoded cell, the retry, the encoders (R220 to R232, R237 to R239). -/

namespace Sys2Proof.Machine
open Sys2Proof

/-- The first-failure capture (R238). -/
def State.cirCapture (s : State) (t : LTag) (c cause write retried : Nat) : State :=
  if s.rd R.CIR_FAIL_FIRST_A_VALID = 1 then s
  else
    let o := cellOrigin t c
    let s := ((s.wr R.CIR_FAIL_FIRST_A_INDEX 0 0 t.idx).wr R.CIR_FAIL_FIRST_A_GEN 0 0 t.gen).wr R.CIR_FAIL_FIRST_A_PLANE 0 0 t.plane
    let s := ((s.wr R.CIR_FAIL_FIRST_A_CAUSE 0 0 cause).wr R.CIR_FAIL_FIRST_A_WRITE 0 0 write).wr R.CIR_FAIL_FIRST_A_RETRIED 0 0 retried
    ((s.wr R.CIR_FAIL_FIRST_B_CELL_X 0 0 (o.1 / 32)).wr R.CIR_FAIL_FIRST_B_CELL_Y 0 0 (o.2 / 8)).wr R.CIR_FAIL_FIRST_A_VALID 0 0 1

/-- Raise a Cirrus event: its bit and source `n` of group 7 (R239, R415). -/
def State.raiseCir (s : State) (f : Fld) (n : Nat) : State := (s.setBit f 0 0).raise 7 n

/-- A Cirrus detection of slice `g`. -/
def cirDet (g : Nat) (u : SubReq) (kind cause cls flags : Nat) : Det :=
  { unit := 0x20 + g, kind := kind, loc := cirLoc u.tag u.unit, detail := cause, init := u.port, cls := cls, flags := flags }

/-- Whether a write of a cell is on its way to the front end. -/
def State.cellPending (s : State) (t : LTag) (c : Nat) : Bool :=
  s.subs.any fun u => u.write && u.tag == t && u.unit == c

/-- Whether a cell still stands as the failing read `u` found it: no update holds it, and none has rewritten it since (R226). -/
def State.sameVersion (s : State) (u : SubReq) : Bool :=
  u.stale == 0 && !(s.enc.any fun e => e.2.any fun j => j.tag == u.tag && j.cell == u.unit && j.phase != 0)

/-- A cell passes its check: it goes to its line, its request or its merge. -/
def State.cellOk (s : State) (g : Nat) (u : SubReq) (l : List Nat) : State := s.arrive g { sub := u, st := 1, data := l }

/-- A cell's failure is confirmed (R226): it is captured, counted and logged once for its version, its samples are returned as lost, and the header is
marked POISON where MARK_POISON asks for it; one of a channel out of service is not logged (R366). A merge goes on as a merge over POISON (R228). -/
def State.cellFails (s : State) (g : Nat) (j : DecJob) (cause : Nat) (retried : Bool) : State :=
  let u := j.sub
  let merge := u.kind == SubKind.merge
  let same := s.sameVersion u
  let again := s.failed.contains (u.tag, u.unit, u.stale)
  let s := if again then s else
    let s := (s.cirCapture u.tag u.unit cause (b2n merge) (b2n retried)).bump R.CIR_FAIL_CNT_COUNT 0 0 1
    let s := if cause = 4 then s.raiseCir R.CIR_STATUS_HDR_INVALID 1 else s.raiseCir R.CIR_STATUS_CRC_FAIL 0
    let s := s.count { ev := 0x06D, grp := some g }
    if j.lost then s else s.detect (cirDet g u (if cause = 4 then 5 else 4) cause j.cls (if u.wait.isSome && !merge then 64 else 0))
  let s := if j.lost || again then s else { s with failed := s.failed ++ [(u.tag, u.unit, u.stale)] }
  let s := if same && !merge && !j.lost && !again && s.rd R.CIR_CTL_MARK_POISON == 1 then
      s.writeHdr { u with wait := none, hdr := 0 } hdrPoison else s
  s.arrive g { sub := u, st := 3, data := flat (s.fillOf u.tag), bad := if merge then [1] else [] }

/-- How a decoder judges a cell: the samples, or the CAUSE of R238. A burst that failed on the link fails the check. -/
def State.judge (s : State) (j : DecJob) : CellOut :=
  let d := (s.surf j.sub.tag.idx).d
  if j.fail ∨ j.lost then .bad 1
  else if hdrInvalid d j.header then .bad 4
  else decodeCell d j.header (j.payload.map (BitVec.ofNat 8 ·))

/-- CELL_CHECK: decoder job `k` of slice `g` ends (R225); a failing cell is read again if RETRY_EN is 1 and its channel is in service. -/
def execCellCheck (g k : Nat) (s : State) : Host.Outcome State Fault Refusal :=
  match (queueOf s.dec g)[k]? with
  | none => .next s
  | some j =>
    let s := { s with dec := Tab.insert g (dropAt (queueOf s.dec g) k) s.dec }
    match s.judge j with
    | .ok l => .next (s.cellOk g j.sub l)
    | .bad c =>
      if s.rd R.CIR_CTL_RETRY_EN = 1 ∧ j.lost = false then
        .next { s with retry := Tab.insert g (queueOf s.retry g ++ [j]) s.retry }
      else .next (s.cellFails g j c false)

/-- What a retry finds in DRAM: the header, and the samples or how the cell fails (R226); a header that resolves the cell alone gives no samples. -/
def State.retryRead (s : State) (t : LTag) (c : Nat) : Nat × CellOut :=
  let x := s.surf t.idx
  let h := s.hdrStored t c
  let m := hdrMode h
  let pay := (List.range (hdrGcnt h)).flatMap fun n =>
    let r := (s.cellRoute t c false (32 * n)).at_
    (List.range 32).map fun k => s.cellByte (memKey r.ch (r.a + k))
  (h, if hdrInvalid x.d h then .bad 4 else if m = 2 ∨ m = 3 then decodeCell x.d h pay else .ok [])

/-- Whether the channels of a cell's header and of the payload that it calls for are in service. -/
def State.cellReadable (s : State) (t : LTag) (c : Nat) : Bool :=
  s.inService (s.cellRoute t c true).at_.ch &&
    (List.range (hdrGcnt (s.hdrStored t c))).all fun n => s.inService (s.cellRoute t c false (32 * n)).at_.ch

/-- The header atom that a cell shares, as it stands in force (R232). -/
def State.hdrAtom (s : State) (t : LTag) (half : Nat) : List Nat := (List.range 8).map fun k => s.hdrNow t (half * 8 + k)

/-- The channel and address of each atom that a retry of a cell reads: its header atom, and the payload that the header calls for. -/
def State.retryPlaces (s : State) (t : LTag) (c : Nat) : List (Nat × Nat) :=
  let h := (s.cellRoute t (c / 8 * 8) true).at_
  (h.ch, h.a) :: (List.range (hdrGcnt (s.hdrStored t c))).map fun n => let r := (s.cellRoute t c false (32 * n)).at_; (r.ch, r.a)

/-- Whether a spare word has lost the header or a payload byte that a retry reads (R374). -/
def State.retryGone (s : State) (t : LTag) (c : Nat) : Bool :=
  let h := (s.cellRoute t c true).at_
  s.spareErrs (memKey h.ch h.a) == 2 || ((s.retryPlaces t c).drop 1).any fun p => (List.range 4).any fun k => s.spareErrs (memKey p.1 (p.2 + 8 * k)) == 2

/-- CIR_RETRY_RESULT: the retry of job `k` of slice `g` completes, in the class of its sub-request; it waits while a write of the cell is on its way
to the front end or that class may not pass (R226, R232). A retry that finds a valid POISON header passes (DEDUCED, log entry 169). -/
def execCirRetryResult (g k : Nat) (linkFail : Bool) (s : State) : Host.Outcome State Fault Refusal :=
  match (queueOf s.retry g)[k]? with
  | none => .next s
  | some j =>
    let u := j.sub
    if s.cellPending u.tag u.unit = true ∨ ((s.retryPlaces u.tag u.unit).all fun p => s.engineFree p.1 j.cls 0) = false then .next s
    else
      let gone := s.retryGone u.tag u.unit
      let s := (s.retryPlaces u.tag u.unit).foldl (fun (s : State) p => (s.engineBytes p.1 j.cls 32).spareCheck p.1 p.2 32 u.initiator j.cls) s
      let s := { s with retry := Tab.insert g (dropAt (queueOf s.retry g) k) s.retry }
      let lost := !(s.cellReadable u.tag u.unit)
      let r := s.retryRead u.tag u.unit
      let out := if linkFail ∨ lost ∨ gone then CellOut.bad 1 else r.2
      match out with
      | .bad c => .next (s.cellFails g { j with lost := lost, header := r.1 } c true)
      | .ok l =>
        let s := (s.hdrPut u.tag (u.unit / 8) (s.hdrAtom u.tag (u.unit / 8))).raiseCir R.CIR_STATUS_TRANSIENT 2
        let s := ((s.bump R.CIR_TRANSIENT_CNT_COUNT 0 0 1).count { ev := 0x06E, grp := some g }).detect (cirDet g u 6 0 j.cls 0)
        let m := hdrMode r.1
        if m = 2 ∨ m = 3 then .next (s.cellOk g u l)
        else .next (s.arrive g (s.flatArrival { u with hdr := r.1 }))

/-! ### Encoders -/

/-- A cell write ends in POISON (R229, R230): only the header is written, the cell is charged as a raw write (R234), and the part result is POISON. -/
def State.encodePoison (s : State) (g : Nat) (j : EncJob) (u : SubReq) : State :=
  let s := ((s.chargeRaw u).writeHdr u hdrPoison).raiseCir R.CIR_STATUS_MERGE_POISON 3
  let s := if j.bad.isEmpty then (s.cirCapture j.tag j.cell 5 1 0).bump R.CIR_FAIL_CNT_COUNT 0 0 1 else s
  (s.detect (cirDet g u 7 5 (s.subClass u) 0)).partDone j.wait 2

/-- A cell is encoded over the samples it keeps (R213, R220, R227, R228): its payload goes to the channel, charged at raw size, and its header
follows. -/
def State.encode (s : State) (g : Nat) (j : EncJob) (u : SubReq) : State :=
  let x := s.surf j.tag.idx
  let full := s.coversUnit j.tag j.cell j.samples
  let base := if full then flat 0 else j.old
  let r := encodeCell x.d (x.replicate j.tag j.cell (overlay base j.samples))
  let n := hdrGcnt r.1
  let s := s.count (s.occOf (if full then 0x067 else 0x068) 1 g u)
  let s := (s.count (s.occOf 0x069 n g u)).count (s.occOf 0x06A x.d g u)
  let s := s.push { u with
    write := true, addr := 0, atoms := n, charge := 32 * x.d
    cells := (List.range r.2.length).zipWith (fun k b => (k, b)) r.2 }
  (s.writeHdr u r.1).partDone j.wait 0

/-- CELL_ENCODE_DONE: encoder job `k` of slice `g` completes, unless another update holds its cell (R232). -/
def execCellEncodeDone (g k : Nat) (s : State) : Host.Outcome State Fault Refusal :=
  match (queueOf s.enc g)[k]? with
  | none => .next s
  | some j =>
    let held := s.enc.any fun e => e.2.any fun i => i.tag == j.tag && i.cell == j.cell && i.phase == 1
    if j.phase < 2 ∨ held = true ∨ (s.surf j.tag.idx).sealed = false then .next s
    else
      let s := { s with enc := Tab.insert g (dropAt (queueOf s.enc g) k) s.enc }
      let u : SubReq := { id := 0, wait := j.wait, g := g, port := j.port, flow := j.flow, colour := j.colour, tag := j.tag, unit := j.cell
                          kind := if j.wait.isSome then .wr else .wb, t0 := j.t0, rq := j.rq }
      .next (if j.phase = 3 then (s.encodePoison g j u).pump else (s.encode g j u).pump)

/-! ### CIR_CTL -/

/-- A write of CIR_CTL. -/
def State.writeCirCtl (s : State) (w tgt : Nat) : State :=
  s.writeReg [⟨R.CIR_CTL_RETRY_EN, 0, 0⟩, ⟨R.CIR_CTL_MARK_POISON, 0, 0⟩] [(2, fun s => (s.wr R.CIR_FAIL_FIRST_A_VALID 0 0 0, false))]
    0x23000 w tgt

/-- CIR_REARM. -/
def execCirRearm (w : Word) (tgt : Nat) (s : State) : Host.Outcome State Fault Refusal :=
  .next (s.regAccess 0x23000 (w ||| 4) tgt fun w s => s.writeCirCtl w tgt)

end Sys2Proof.Machine
end

