-- ==== Sys2Proof/Machine/Flow.lean ====
section
/-! DEFINITION. The traffic unit: policers, budget windows, urgency, the context cache, and the entry of a sub-request into a class queue with
its effect on DRAM (R19 to R23, R198, R278 to R294, R310, R368, R374, R382, R468). -/

namespace Sys2Proof.Machine
open Sys2Proof

/-! ### Flow contexts -/

/-- The time base of 64-cclk units (R280). -/
def State.units64 (s : State) : Nat := s.cclk / 64 % 2 ^ 32

/-- What a policer's buckets gain up to time `now` (R288). -/
def Flow.fill (x : Flow) (now : Nat) : Flow :=
  let el := min ((now + 2 ^ 32 - x.tLast) % 2 ^ 32) (2 ^ 28)
  let a := el * x.cir + x.fracC
  let add := a / 16
  let x : Flow := { x with tLast := now, fracC := a % 16 }
  let m := x.policy % 4
  let x : Flow :=
    if m = 1 then
      let b := el * x.pir + x.fracP
      { x with tc := min (x.tc + add) x.cbs, fracP := b % 16, tp := min (x.tp + b / 16) x.pbs }
    else if m = 2 then
      let room := x.cbs - x.tc
      { x with tc := x.tc + min add room, tp := min (x.tp + add - min add room) x.pbs }
    else x
  let x : Flow := if x.tc = x.cbs then { x with fracC := 0 } else x
  if x.tp = x.pbs then { x with fracP := 0 } else x

/-- The colour of a sub-request of charge `b`: 0 green, 1 yellow, 2 red (R288). -/
def Flow.colour (x : Flow) (b colour : Nat) : Nat × Flow :=
  let pre := if bit x.policy 2 then colour else 0
  let m := x.policy % 4
  if m = 0 then (0, x)
  else if m = 1 then
    if pre = 2 ∨ x.tp < b then (2, x)
    else if pre = 1 ∨ x.tc < b then (1, { x with tp := x.tp - b })
    else (0, { x with tp := x.tp - b, tc := x.tc - b })
  else if pre = 0 ∧ b ≤ x.tc then (0, { x with tc := x.tc - b })
  else if pre ≠ 2 ∧ b ≤ x.tp then (1, { x with tp := x.tp - b })
  else (2, x)

/-- Bring a flow's window account up to window `win`, which begins with `carry` (R290). -/
def Flow.account (x : Flow) (win carry : Nat) : Flow :=
  if x.winId = win % 2 ^ 16 then x else { x with winId := win % 2 ^ 16, winUsed := carry, demoted := false }

/-- The budget test and charge (R290). -/
def Flow.charge (x : Flow) (b colour : Nat) : Flow :=
  { x with
    demoted := x.demoted || colour == 2 || decide (0 < x.budget ∧ x.budget < x.winUsed + b)
    winUsed := (x.winUsed + b) % 2 ^ 32 }

/-- The carry with which flow `f` begins the current window (R291). -/
def State.carryOf (s : State) (f : Nat) : Nat := Tab.get 0 s.traffic.carry f

/-- Classes, colour and flow after a sub-request of charge `b` of flow `f` has met the policer and the budget (R287): the service class, the
colour, and the row of R287 that decided. -/
def State.assignFlow (s : State) (f b colour : Nat) : Nat × Nat × Nat × State :=
  let x := Tab.get ({} : Flow) s.traffic.flows f
  if x.defined = false then (15, 0, 1, s)
  else
    let r := (x.fill s.units64).colour b colour
    let y := (r.2.account s.traffic.window (s.carryOf f)).charge b r.1
    let s := s.setFlow f y
    if y.suspended then (15, r.1, 2, s)
    else if y.demoted then (15, r.1, 3, s)
    else (y.cls, r.1, if r.1 = 1 then 4 else 5, s)

/-! ### Remapped blocks (R374) -/

/-- Atoms of the `n` from channel address `a` that remapped blocks hold. -/
def Chan.remapAtoms (x : Chan) (a n : Nat) : Nat := ((List.range n).filter fun k => (x.remapOf ((a + 32 * k) / 64)).isSome).length

/-- Whether `n` atoms from channel address `a` touch one of the blocks listed. -/
def touchesBlock (l : List Nat) (a n : Nat) : Bool := l.any fun b => decide (a < b * 64 + 64 ∧ b * 64 < a + 32 * n)

/-- The checker mode that a sub-request meets (R381). -/
def State.checkerMode (s : State) (u : SubReq) : Nat :=
  if u.tag.lin = false then 0
  else
    match s.subRegion u with
    | some r => if r.region = s.rd R.INT_CHECKER_REGION then s.rd R.INT_CHECKER_MODE else 0
    | none => 0

/-- Whether channels of a full image still run their Dawn (R349). -/
def State.dawning (s : State) : Bool := s.chans.any fun e => e.2.fullImg && e.2.seq != 0

/-! ### Entry -/

/-- The effect of an armed GUARDED injection on a write's data and check bytes (R468). -/
def State.injectG (s : State) (ch a : Nat) (cells ccells : List (Nat × Byte)) : List (Nat × Byte) × List (Nat × Byte) × State :=
  let hit (c : Nat × Byte) : Bool :=
    s.rd R.SQ_GINJ_ADDR_ANY == 1 || (c.1 % 2 ^ 34) / 32 == s.rd R.SQ_GINJ_ADDR_ATOM
  let atom := ((cells.filter hit).map fun c => (c.1 % 2 ^ 34) / 32).head?
  match atom with
  | none => (cells, ccells, s)
  | some k =>
    if s.squall.gArmed = false ∨ s.rd R.SQ_GINJ_CTL_CH ≠ ch then (cells, ccells, s)
    else
      let m := s.rd R.SQ_GINJ_BYTES_BYTES
      let flip (o : Nat) (v : Nat) (c : Nat × Byte) : Nat × Byte :=
        let b := c.1 % 2 ^ 34
        if b / 32 = o ∧ bit m (b % 32) then (c.1, c.2 ^^^ BitVec.ofNat 8 v) else c
      let d := (cells.map fun c => c.1).head?.getD 0
      let shift := match (ccells.map fun c => c.1).head? with | some e => (e % 2 ^ 34) / 32 + k - (d % 2 ^ 34) / 32 | none => a
      (cells.map (flip k (s.rd R.SQ_GINJ_CTL_DFLIP)), ccells.map (flip shift (s.rd R.SQ_GINJ_CTL_CFLIP)),
        ({ s with squall := { s.squall with gArmed := false } } : State).bump R.SQ_INJ_CNT_COUNT 0 0 1)

/-- The effect of an armed SEALED injection on a header write (R468). -/
def State.injectS (s : State) (u : SubReq) : SubReq × State :=
  let b := u.cells.map (·.2)
  let h := leNat b
  let m := hdrMode h
  if u.kind ≠ .hdrWr ∨ s.squall.sArmed = false ∨ (m ≠ 2 ∧ m ≠ 3) ∨
      (s.rd R.SQ_SINJ_CTL_ANY = 0 ∧ s.rd R.SQ_SINJ_CTL_INDEX ≠ u.tag.idx) then (u, s)
  else
    let h' := h ^^^ (s.rd R.SQ_SINJ_XOR_XOR * 65536)
    let s := ({ s with squall := { s.squall with sArmed := false } } : State).bump R.SQ_INJ_CNT_COUNT 0 0 1
    ({ u with cells := u.cells.zipWith (fun c v => (c.1, v)) (leBytes 4 h') }, s.hdrSetCell u.tag u.unit h')

/-- The written bytes of a sub-request at a place, by storage key, with their check bytes under the checker mode (R363, R368, R382). -/
def SubReq.placed (u : SubReq) (p : At) (guarded : Bool) (mode : Nat) : List (Nat × Byte) × List (Nat × Byte) :=
  let main := u.cells.map fun c => (memKey p.ch (p.a + c.1), c.2)
  let chk (f : Byte → Byte) := u.cells.map fun c => (memKey p.ch (p.ca + c.1), f c.2)
  if guarded = false then (main, [])
  else if u.raw then (main, u.ccells.map fun c => (memKey p.ch (p.ca + c.1), c.2))
  else if mode = 1 then (main, [])
  else if mode = 2 then ([], chk fun b => b)
  else (main, chk checkByte)

/-- Bytes of channel `ch` are written: the reads of GUARDED data that found them before, and the detections that these made, note it (R367). -/
def State.noteWritten (s : State) (ch : Nat) (l : List Nat) : State :=
  let hit (q : QEnt) : List Nat := l.filter fun a => decide (q.sub.addr ≤ a ∧ a < q.sub.addr + 32 * q.sub.atoms)
  let seen (q : QEnt) : QEnt := if q.sub.write || !q.sub.guarded then q else { q with wrote := q.wrote ++ hit q }
  let mask (d : Det) : Nat := ((List.range 32).map fun n => if l.contains (d.loc + n) then 2 ^ n else 0).sum
  let x := s.chan ch
  let s := s.setChan ch { x with cq := x.cq.map seen, fly := x.fly.map seen, done := x.done.map seen }
  { s with integ := { s.integ with queue := s.integ.queue.map fun d =>
      if d.unit = ch ∧ (d.kind = 1 ∨ d.kind = 2) then { d with wrote := d.wrote ||| mask d } else d } }

/-- The queue entry of sub-request `u` at place `p`, in the class given, engine work with its age counted from here (R430); a channel out of service
takes none: a read comes back lost at once, a write is discarded (R348). A header write joins one of the same atom that has not been issued yet
(R235). Writes change DRAM here, reads take what it holds here: the order of R317. -/
def State.enqueue (s : State) (u : SubReq) (p : At) (guarded : Bool) (mode cls : Nat) (yellow : Bool) (urg : Nat) : State :=
  let x := s.chan p.ch
  let bsw := if u.scrub then s.bswAt p.ch p.a else if u.tag.lin then 0 else (s.surf u.tag.idx).bsw
  let w := u.placed p guarded mode
  let i := if guarded && u.write && mode == 0 && !u.raw then s.injectG p.ch p.a w.1 w.2 else (w.1, w.2, s)
  let w := (i.1, i.2.1)
  let s := i.2.2
  let u := { u with ch := p.ch, addr := p.a, caddr := p.ca, bsw := bsw, guarded := guarded, cells := w.1, ccells := w.2, raw := u.raw || mode != 0
                    t0 := if u.rq.isSome then u.t0 else s.cclk }
  let n := 32 * u.atoms
  let q : QEnt := { sub := u, cls := cls, yellow := yellow, urg := urg, seq := x.seqNext, charge := u.charge
                    left := blocksOf (u.atoms + 1) (p.a / 32) 0 u.atoms
                    data := if u.write then [] else s.sample p.ch (if mode = 2 then p.ca else p.a) n
                    cdata := if guarded && !u.write then s.sample p.ch p.ca n else [] }
  if s.outOfService p.ch then
    let s := (s.bump R.FE_LOST_CNT_COUNT p.ch 0 1).count { ev := 0x0DF, ch := some p.ch }
    if u.write then s else s.setChan p.ch { s.chan p.ch with done := (s.chan p.ch).done ++ [q.lose] }
  else
    let s := if guarded then s.count { ev := 0x0D7, ch := some p.ch } else s
    let s := if u.write then s else
      let s := s.spareCheck p.ch (if mode = 2 then p.ca else p.a) n u.initiator cls
      if guarded then s.spareCheck p.ch p.ca n u.initiator cls else s
    let hits := x.remapAtoms p.a u.atoms + (if guarded then x.remapAtoms p.ca u.atoms else 0)
    let s := if hits = 0 then s else s.count { ev := 0x0DA, n := hits, ch := some p.ch }
    let y := s.chan p.ch
    let meets (e : QEnt) : Bool := u.kind == SubKind.hdrWr && e.sub.kind == SubKind.hdrWr && e.sub.addr == p.a
    let join (e : QEnt) : QEnt := if meets e then { e with sub := { e.sub with cells := e.sub.cells ++ u.cells } } else e
    let s := s.setChan p.ch (if (y.cq ++ y.fly).any meets then { y with cq := y.cq.map join, fly := y.fly.map join }
      else { y with cq := y.cq ++ [q], seqNext := x.seqNext + 1 })
    let s := if guarded && u.write && !u.scrub then s.noteWritten p.ch (w.1.map fun c => c.1 % 2 ^ 34) else s
    (s.cellsPut w.1).cellsPut w.2

/-- Count an assignment (R287, R288, R306). -/
def State.countAssign (s : State) (u : SubReq) (cls colour row urg : Nat) : State :=
  let occ (ev n : Nat) : Occ := { ev := ev, n := n, req := u.rq, cls := cls }
  let c := (Tab.get ({} : Flow) s.traffic.flows u.flow).cls
  let s := (s.count (occ (0x080 + cls) 1)).count (occ (0x0A9) (cdiv u.charge 32))
  let s := if 2 ≤ row then s.count (occ (0x0A0 + colour) 1) else s
  let s := if row = 1 then s.count (occ 0x0A5 1) else if row = 2 then s.count (occ 0x0A4 1) else if row = 3 then s.count (occ 0x0A3 1) else s
  let s := if row = 2 ∨ row = 3 then s.bump R.CLS_DEMOTE_CNT_COUNT c 0 1 else s
  let s := if colour = 1 ∧ 2 ≤ row then s.bump R.CLS_YELLOW_CNT_COUNT c 0 1 else s
  if urg = 0 then s else s.count (occ (0x0A5 + urg) 1)

/-- A sub-request of a tagged request enters its class queue (R436, R438): the first one gives the record its class and channel and is followed
from here on, a later one sets MULTI and is not followed. -/
def State.trailSub (s : State) (u : SubReq) (cls ch : Nat) : SubReq × State :=
  match s.meas.trails.find? fun t => u.sctag == some t.id with
  | none => (u, s)
  | some t =>
    if u.atoms = 0 then (u, s)
    else if (Tab.find t.offs 4).isNone then (u, (s.stamp u.sctag 4).modTrail u.sctag fun t => { t with cls := cls, ch := ch })
    else ({ u with sctag := none }, s.modTrail u.sctag fun t => { t with multi := true })

/-- Part `p` of sub-request `u` as a queue entry takes it: all of it, or its first or second part, with its atoms, its written bytes and its share
of the charge (R198). -/
def SubReq.part (u : SubReq) (p : Nat × Nat × Route) : SubReq :=
  if p.2.1 = u.atoms then u
  else
    let share (n : Nat) : Nat := u.charge * n / max 1 u.atoms
    let cut (l : List (Nat × Byte)) : List (Nat × Byte) :=
      (l.filter fun c => decide (32 * p.1 ≤ c.1 ∧ c.1 < 32 * (p.1 + p.2.1))).map fun c => (c.1 - 32 * p.1, c.2)
    { u with
      atoms := p.2.1, half := if p.1 = 0 then 1 else 2
      charge := share (p.1 + p.2.1) - share p.1
      cells := cut u.cells, ccells := cut u.ccells
      sctag := if p.1 = 0 then u.sctag else none }

/-- One part of a sub-request enters the front end of its channel, a write to a chunk in copy at the destination too, in C15 (R198). -/
def State.enterPart (s : State) (u : SubReq) (p : Nat × Nat × Route) (guarded : Bool) (cls : Nat) (yellow : Bool) (urg : Nat) : State :=
  let v := u.part p
  let s := s.enqueue v p.2.2.at_ guarded (s.checkerMode u) cls yellow urg
  match p.2.2.mirror with
  | some m =>
    if u.write then
      { (s.enqueue { v with id := s.nextId, wait := none, charge := 0, named := some 15, sctag := none } m guarded (s.checkerMode u) 15 false 0).count
          { ev := 0x07C } with nextId := s.nextId + 1 }
    else s
  | none => s

/-- Classes a sub-request and moves it from the traffic unit to its front end. -/
def State.assignTo (s : State) (u : SubReq) (parts : List (Nat × Nat × Route)) (guarded : Bool) : State :=
  let s := { s with subs := s.subs.filter fun v => v.id != u.id }
  let chs := parts.map fun p => p.2.2.at_.ch
  let f := Tab.get ({} : Flow) s.traffic.flows u.flow
  let a : Nat × Nat × Nat × State :=
    match u.named with
    | some c => (c, 0, 0, s)
    | none => if u.charge = 0 then (f.workClass, 0, 0, s) else s.assignFlow u.flow u.charge u.colour
  let (cls, colour, row, s) := a
  let urg := if u.named.isSome then 0 else f.urgency
  let s := if u.named.isSome then s else s.count { ev := 0x0AA }
  let s := if row = 0 then s.count { ev := 0x080 + cls, req := u.rq, cls := cls } else s.countAssign u cls colour row urg
  let (u, s) := s.trailSub u cls (chs.headD 0)
  let limit := s.rd R.XBAR_ARB_AGE_LIMIT
  let s := if u.atoms ≠ 0 ∧ limit ≠ 0 ∧ u.since + limit ≤ s.cclk then
      s.count { ev := 0x03A, grp := some u.g, req := u.rq, cls := cls } else s
  let i := s.injectS u
  let u := i.1
  let s := i.2
  let s :=
    if u.atoms = 0 then (if u.write then s else s.noPayload u cls)
    else
      let s := parts.foldl (fun (s : State) p => s.enterPart u p guarded cls (row == 4) urg) s
      let n := u.rrbBytes
      if n = 0 then s else s.setPort u.port { s.port u.port with rrb := (s.port u.port).rrb + n }
  let s := if u.write then s.partDone u.wait (if chs.any s.outOfService && u.atoms != 0 then 2 else 0) else s
  (s.settle u.own).pump

/-- A sub-request cannot pass yet: a write that begins to wait on a piece in copy is counted, and a request that begins to wait on a tile's
preparation or on initialisation (R179, R199, R369, R430). -/
def State.noteWait (s : State) (u : SubReq) : State :=
  let s := if u.atoms ≠ 0 ∧ s.meetsPiece u = true ∧ u.held = false then
      ({ s with subs := s.subs.map fun v => if v.id = u.id then { v with held := true } else v } : State).count { ev := 0x07A }
    else s
  let marked := (s.subParts u).any fun p => (s.chan p.2.2.at_.ch).lossTodo.contains (p.2.2.at_.a / extBytes)
  if u.atoms = 0 ∨ s.partsReady u = true ∨ marked = true then s
  else
    let k := b2n u.tag.lin
    match u.wait.bind s.waitOf with
    | none => s
    | some w =>
      if bit w.held k then s
      else (s.modWait w.id fun w => { w with held := w.held ||| 2 ^ k }).count { ev := 0x07D + k }

/-- Whether a part of a sub-request touches no block whose installation read is on its way, or whose removal waits (R376). -/
def State.clearOf (s : State) (guarded : Bool) (p : Nat × Nat × Route) : Bool :=
  let x := s.chan p.2.2.at_.ch
  let l := x.installing ++ x.removing
  !touchesBlock l p.2.2.at_.a p.2.1 && !(guarded && touchesBlock l p.2.2.at_.ca p.2.1)

/-- A sub-request uses flow `f`'s context: it becomes the last used of the cache, and one kept for a single sub-request is gone (R281). -/
def State.touchFlow (s : State) (f : Nat) : State :=
  let t := s.traffic
  { s with traffic := { t with
      fcache := if t.fcache.contains f then f :: t.fcache.filter fun g => g != f else t.fcache
      fpass := t.fpass.filter fun g => g != f } }

/-- Whether the context of a sub-request's flow is there, if it needs one (R281). -/
def State.ctxHere (s : State) (u : SubReq) : Bool := u.named.isSome || s.traffic.fcache.contains u.flow || s.traffic.fpass.contains u.flow

/-- Whether the front end can take sub-request `u` now: its buffers have room, its storage is ready, and nothing of a move or a remap stands before it
(R20 to R22, R179, R198, R369, R376). -/
def State.subFree (s : State) (u : SubReq) : Bool :=
  u.atoms == 0 || (s.rrbRoom u.port u.rrbBytes && s.partsRoom u && !s.meetsPiece u && (s.subParts u).all (s.clearOf (s.subGuarded u)) && s.partsReady u)

/-- Whether sub-request `k` could enter its class queue now: it has its context, no earlier one that concerns the same cells waits, and its front end
can take it. -/
def State.mayEnter (s : State) (k : Nat) : Bool :=
  match s.subs[k]? with
  | none => false
  | some u => s.ctxHere u && !(s.subs.take k).any (fun e => e.meets u) && s.subFree u

/-- The channel at whose input a sub-request stands; none for one that moves no atom. -/
def State.inputOf (s : State) (u : SubReq) : Option Nat := if u.atoms = 0 then none else some (s.subRoute u).at_.ch

/-- The sub-request that R166 chooses at the input of channel `ch`: one that has waited AGE_LIMIT cycles or more, the oldest first; else one of the
lowest group class, the slices of a class in turn after the one last served, each in the order it sent them. -/
def State.inputPick (s : State) (ch : Nat) : Option Nat :=
  let limit := s.rd R.XBAR_ARB_AGE_LIMIT
  let key (k : Nat) : List Nat :=
    match s.subs[k]? with
    | none => []
    | some u =>
      if limit ≠ 0 ∧ u.since + limit ≤ s.cclk then [0, u.since, k]
      else
        let c := s.rd R.GRP_CTL_GCLASS u.g
        [1, c, (u.g + 9 - Tab.get 9 (s.chan ch).inLast c) % 10, k]
  firstBy key ((List.range s.subs.length).filter fun k =>
    (s.subs[k]?.bind s.inputOf) == some ch && s.mayEnter k)

/-- Whether it is sub-request `k`'s turn at its input. -/
def State.isTurn (s : State) (k : Nat) : Bool :=
  match s.subs[k]?.bind s.inputOf with
  | none => true
  | some ch => s.inputPick ch == some k

/-- Initiator `u.g` has been served at its input in its group class (R166). -/
def State.servedAt (s : State) (u : SubReq) : State :=
  match s.inputOf u with
  | none => s
  | some ch => s.setChan ch { s.chan ch with inLast := Tab.insert (s.rd R.GRP_CTL_GCLASS u.g) u.g (s.chan ch).inLast }

/-- SUBREQUEST_ASSIGN: in cycle `c` the traffic unit takes sub-request `k`, and it crosses to its front end. It stays where it is while its flow's
context is missing, while an earlier one that concerns the same cells waits, while its storage is not prepared, while the buffers have no room, while a
write meets the piece in copy or a request meets a block being remapped, and while another is first at its input (R20 to R22, R166, R179, R198, R281,
R349, R369, R376). -/
def execSubrequestAssign (k c : Nat) (s : State) : Host.Outcome State Fault Refusal :=
  let s := s.atCycle c
  match s.subs[k]? with
  | none => .next s
  | some u =>
    if s.ctxHere u = false then
      if s.traffic.fwait.contains u.flow then .next s
      else
        .next (((({ s with traffic := { s.traffic with fwait := s.traffic.fwait ++ [u.flow] } } : State).bump R.TR_FCACHE_MISS_COUNT 0 0 1).count
          { ev := 0x0AA }).count { ev := 0x0AB })
    else if ((s.subs.take k).any fun e => e.meets u) = true ∨ s.dawning = true then .next s
    else if s.subFree u = false then .next (s.noteWait u)
    else if s.isTurn k = false then .next s
    else .next (((if u.named.isNone then s.touchFlow u.flow else s).servedAt u).assignTo u (s.subParts u) (s.subGuarded u))

/-! ### Windows, contexts, urgency -/

/-- Nominal cycles of a budget window. -/
def State.windowCycles (s : State) : Nat := s.nomCclk / max 1 (s.rd R.TR_CTL_WINDOWS)

/-- BUDGET_WINDOW_START: window `i` begins in its programmed cycle (R289). -/
def execBudgetWindowStart (i c : Nat) (s : State) : Host.Outcome State Fault Refusal :=
  let s := s.atCycle c
  if s.conf.isNone ∨ s.rd R.TR_CTL_WINDOWS ≤ i ∨ c ≠ s.tick.lastC + 1 + i * s.windowCycles then .next s
  else
    .next { s with traffic := { s.traffic with
      window := s.tick.epoch * s.rd R.TR_CTL_WINDOWS + i
      carry := if i = 0 then s.traffic.carry else [] } }

/-- The state part of a context set as R280 sets it. -/
def Flow.fresh (x : Flow) (now : Nat) : Flow :=
  { x with
    suspended := x.suspended, demoted := false, urgency := 0, tc := x.cbs, tp := x.pbs, tLast := now, fracC := 0, fracP := 0, winId := 0
    winUsed := 0 }

/-- Bytes of the reserve that flow `f`'s context and its check bytes take on their channel. -/
def ctxBytes : Nat := 128

/-- Bytes 0 to 31 of a context as words (R279). -/
def Flow.configWords (x : Flow) : List Nat :=
  [x.cls + 16 * x.rank + 2 ^ 8 * x.policy + 2 ^ 16 * x.target +
      2 ^ 24 * (b2n x.defined + 2 * b2n x.suspended + 4 * b2n x.demoted + 8 * x.urgency),
    x.guarantee, x.latency, x.cir, x.pir, x.cbs, x.pbs, x.budget]

/-- Bytes 32 to 63 of a context as words (R279). -/
def Flow.stateWords (x : Flow) : List Nat :=
  [x.tc, x.tp, x.tLast, x.fracC + 16 * x.fracP + 2 ^ 16 * x.winId, x.winUsed, x.oldest, x.pending, 0].map fun n => n % 2 ^ 32

/-- Flow `f`'s context is written to the flow table, in C15 (R281). -/
def State.ctxWrite (s : State) (f : Nat) : State :=
  let x := Tab.get ({} : Flow) s.traffic.flows f
  s.rsvWrite (64 * f) ((x.configWords ++ x.stateWords).flatMap (leBytes 4)) 15

/-- What of flow `f`'s context is uncorrectable in the flow table: bit 0 its configuration bytes, bit 1 its state bytes (R370). -/
def State.ctxBad (s : State) (f : Nat) : Nat := b2n (s.rsvLost (64 * f) 32) + 2 * b2n (s.rsvLost (64 * f + 32) 32)

/-- What a read of flow `f`'s context that finds the parts `lost` uncorrectable does to it, in class `cls` (R370). -/
def State.ctxLost (s : State) (f lost cls : Nat) : State :=
  if lost = 0 then s
  else
    let x := Tab.get ({} : Flow) s.traffic.flows f
    let x := if bit lost 1 then x.fresh s.units64 else x
    (s.setFlow f (if bit lost 0 then { x with defined := false } else x)).detect { unit := 0x31, kind := 0x11, loc := f, init := 0x40, cls := cls }

/-- Hold a context in the cache as the most recently used of its set of eight ways; pinned contexts are never replaced (R281). A context that finds
every way pinned is kept for one sub-request only (log entry 133); one that is replaced is written back to the flow table in C15. -/
def State.cacheFlow (s : State) (f : Nat) : State :=
  let t := s.traffic
  let same (g : Nat) : Bool := g % 4096 == f % 4096
  let rest := t.fcache.filter fun g => g != f
  let mine := rest.filter same
  let wait := t.fwait.filter fun g => g != f
  if mine.length < 8 then { s with traffic := { t with fcache := f :: rest, fwait := wait } }
  else
    match (mine.filter fun g => !t.pins.contains g).getLast? with
    | none => { s with traffic := { t with fpass := f :: t.fpass.filter fun g => g != f, fwait := wait } }
    | some g =>
      ({ s with traffic := { t with fcache := f :: rest.filter fun h => h != g, fwait := wait } } : State).ctxWrite g

/-- The transfers of flow `f` in the port queues whose class was not known take that of its context (R150). -/
def State.classKnown (s : State) (f : Nat) : State :=
  let mine (x : Xfer) : Bool := x.cls.isNone && ((Tab.find s.traffic.live x.id).map (·.1)) == some f
  { s with ports := s.ports.map fun e => (e.1, { e.2 with queue := e.2.queue.map fun x => if mine x then { x with cls := some (s.flowClass f) } else x }) }

/-- FLOW_CONTEXT_FILL: a context arrives, its read having passed its channel in C0, once the reserve may be read there. Bit 0 of `lost` says that its
configuration bytes were uncorrectable, bit 1 its state bytes, beside what stands uncorrectable in the flow table (R281, R349, R369, R370). -/
def execFlowContextFill (f lost : Nat) (s : State) : Host.Outcome State Fault Refusal :=
  let ch := s.rsvChan (64 * f)
  if s.traffic.fwait.contains f = false ∨ s.dawning = true ∨ s.rsvReady (64 * f) = false ∨ s.engineFree ch 0 0 = false then .next s
  else .next ((((s.engineBytes ch 0 ctxBytes).cacheFlow f).ctxLost f (lost ||| s.ctxBad f) 0).classKnown f)

/-- Urgency of a latency target and an age (R292). -/
def urgencyOf (lat age : Nat) : Nat :=
  if lat = 0 then 0 else if age * 2 < lat then 0 else if age * 4 < lat * 3 then 1 else if age * 10 < lat * 9 then 2 else 3

/-- URGENCY_UPDATE: in cycle `c` the urgency of a flow is computed again, and its queued entries take it (R292, R293). -/
def execUrgencyUpdate (f c : Nat) (s : State) : Host.Outcome State Fault Refusal :=
  let s := s.atCycle c
  let x := Tab.get ({} : Flow) s.traffic.flows f
  let p := s.pendOf f
  let age := (s.cclk + 2 ^ 32 - p.1 % 2 ^ 32) % 2 ^ 32
  let u := if p.2 = 0 then 0 else urgencyOf x.latency age
  let s := (s.setFlow f { x with urgency := u }).notePend f
  .next { s with chans := s.chans.map fun e => (e.1, { e.2 with cq := e.2.cq.map fun q =>
    if q.sub.flow = f ∧ q.sub.named = none then { q with urg := u } else q }) }

/-- FLOW_SWEEP: in cycle `c` the sweep brings a defined flow's buckets and window account up to date, in the cache if the context is there, else by
a read and a write of the flow table in C15 (R282). -/
def execFlowSweep (f c : Nat) (s : State) : Host.Outcome State Fault Refusal :=
  let s := s.atCycle c
  let x := Tab.get ({} : Flow) s.traffic.flows f
  let ch := s.rsvChan (64 * f)
  let cached := s.traffic.fcache.contains f
  if x.defined = false ∨ (cached || (!s.dawning && s.rsvReady (64 * f) && s.engineFree ch 15 0)) = false then .next s
  else
    let s := if cached then s else (s.engineBytes ch 15 ctxBytes).ctxLost f (s.ctxBad f) 15
    let x := Tab.get ({} : Flow) s.traffic.flows f
    let s := if x.defined then s.setFlow f (((x.fill s.units64).account s.traffic.window (s.carryOf f)).charge 0 0) else s
    .next (if cached then s else s.ctxWrite f)

/-! ### Read data (R130, R131, R358, R364 to R366, R374) -/

/-- A GUARDED atom as the front end decodes it: 0 clean, 1 corrected, 2 uncorrectable; the mask of bytes in error; the bytes. A byte that a spare word
has lost is none of these: its read is lost without a write-back (R374). -/
def decodeAtom (d c : List (Option Byte)) : Nat × Nat × List Byte :=
  let r := (List.range 32).map fun k =>
    match d.getD k none, c.getD k none with
    | some a, some b => decodePair a b
    | _, _ => (0, 0)
  (r.foldl (fun m e => max m e.1) 0,
    ((List.range 32).map fun k => if (r.getD k (0, 0)).1 = 0 then 0 else 2 ^ k).sum, r.map (·.2))

/-- Stored bytes of a read with those of the atoms in `bad` as a failed burst delivers them: free values of occasion `n` (R358, R366; log entry 158). -/
def delivered (n : Nat) (bad : List Nat) (l : List (Option Byte)) : List (Option Byte) :=
  if bad.isEmpty then l
  else (List.range l.length).map fun i => if bad.contains (i / 32) then (l.getD i none).map fun _ => Config.linkByte n i else l.getD i none

/-- The atoms of a returned read: state 0 clean, 1 corrected, 2 lost; and the bytes. Errors found join the handling queue, and an
OPEN burst that failed is logged (R366). -/
def State.readAtoms (s : State) (ch : Nat) (q : QEnt) : List (Nat × List Byte) × State :=
  let u := q.sub
  let sent := if u.wait.isSome && u.kind != SubKind.merge then 64 else 0
  let n := s.freeCtr
  let s := if q.bad.isEmpty && q.cbad.isEmpty then s else (s.fresh.2).fresh.2
  (List.range u.atoms).foldl (fun (b : List (Nat × List Byte) × State) k =>
    let d := ((delivered n q.bad q.data).drop (32 * k)).take 32
    let raw := d.map fun x => x.getD 0
    let a := u.addr + 32 * k
    let e := ((delivered (n + 1) q.cbad q.cdata).drop (32 * k)).take 32
    let gone := (d ++ e).any (·.isNone)
    if q.lost then (b.1 ++ [(2, List.replicate 32 0)], b.2)
    else if u.guarded && !u.raw then
      let r := decodeAtom d e
      if r.1 = 0 then (b.1 ++ [(if gone then 2 else 0, r.2.2)], b.2)
      else
        let s := b.2.count { ev := 0x0DA + r.1, ch := some ch }
        let det : Det := { unit := ch, kind := r.1, loc := a, caddr := u.caddr + 32 * k, detail := r.2.1, init := u.initiator, home := s.homeAt ch a
                           wrote := ((List.range 32).map fun n => if q.wrote.contains (a + n) then 2 ^ n else 0).sum
                           cls := q.cls, flags := (if u.scrub then 32 else 0) + (if r.1 = 2 then sent else 0) }
        (b.1 ++ [(if gone then 2 else r.1, r.2.2)], s.detect det)
    else if q.bad.contains k then
      (b.1 ++ [(2, raw)], if (s.surf u.tag.idx).sealed && !u.tag.lin then b.2
        else b.2.detect { unit := ch, kind := 3, loc := a, init := u.initiator, cls := q.cls, flags := sent })
    else (b.1 ++ [(if gone then 2 else 0, raw)], b.2)) ([], s)

/-- The part state of some atoms for a unit: 3 lost, else 1; and whether one was corrected. -/
def atomsState (l : List (Nat × List Byte)) : Nat × Bool := (if l.any (fun a => a.1 == 2) then 3 else 1, l.any fun a => a.1 == 1)

/-- Returned data go to the slice: headers, with the updates made since, to the header cache, payloads to a decoder, raw cells and atoms to their units;
a cell that a merge holds waits for it (R232). A cell whose header could not be read is charged all the same (R234). A lost raw cell gives
its request the bytes as read and its line the fill value (R131, R241, DEDUCED, log entry 163). -/
def State.deliver (s : State) (q : QEnt) (l : List (Nat × List Byte)) (failed : Bool) : State :=
  let u := q.sub
  let bytes := l.flatMap (·.2)
  let failed := failed || l.any (·.1 == 2)
  let dec (s : State) (v : SubReq) : State :=
    let j : DecJob := { sub := v, header := v.hdr, payload := bytes.map BitVec.toNat, fail := failed, lost := q.lost, cls := q.cls }
    { s with dec := Tab.insert v.g (queueOf s.dec v.g ++ [j]) s.dec }
  let x := s.surf u.tag.idx
  if u.kind = .hdr then
    let t := u.tag
    let hdrs := (List.range 8).map fun k => s.hdrNow t (u.unit + k)
    let want (c : Nat) : SubReq := { u with kind := kindOfHdr u.hdr, unit := c, units := [], hdr := 0, charge := 0, stale := 0 }
    let holds (c : Nat) : Bool := kindOfHdr u.hdr != SubKind.merge && s.enc.any fun e => e.2.any fun j => j.tag == t && j.cell == c && j.phase == 1
    let charged (s : State) (c : Nat) : State := if u.named.isSome then s else s.chargeRaw { want c with wait := none }
    if q.lost ∨ failed then (u.units.foldl (fun (s : State) c => dec (charged s c) (want c)) s).settle u.own
    else
      let s := s.hdrPut t (u.unit / 8) hdrs
      let s := { s with hdrWait := s.hdrWait ++ (u.units.filter holds).map want }
      (u.units.filter fun c => !holds c).foldl (fun (s : State) c => s.byHeader (want c) (hdrs.getD (c % 8) 0)) s
  else if u.tag.lin then
    (List.range l.length).foldl (fun (s : State) k =>
      let a := l.getD k (0, [])
      let t := atomsState [a]
      s.arrive u.g { sub := { u with unit := u.unit + k }, st := t.1, data := a.2.map BitVec.toNat, corr := t.2 }) s
  else if x.sealed then dec s u
  else
    let t := atomsState l
    s.arrive u.g { sub := u, st := t.1, data := unpackRaw x.d bytes, corr := t.2, bad := (List.range l.length).filter fun k => (l.getD k (0, [])).1 == 2 }

/-- Whether a channel's OPTIONS bit is set (R78). -/
def State.option (s : State) (ch n : Nat) : Bool := ((s.chanRec ch).map fun r => bit r.options n).getD false

/-- The link error of a returned burst, 0 none, 1 corrected, 2 uncorrectable, and what that of its reissue is where Squall decides it: an armed
injection stands in for what the wires did (R468). -/
def State.linkOutcome (s : State) (ch : Nat) (again : Bool) (b : CEnt) (link : Nat) : Nat × Nat × State :=
  let n := s.rd R.SQ_LINJ_COUNT
  let k := s.rd R.SQ_LINJ_KIND
  if s.option ch 0 = false then (0, 0, s)
  else if again = true ∧ b.reissue ≠ 0 then (if b.reissue = 2 then 2 else 0, 0, s)
  else if again = false ∧ n ≠ 0 ∧ s.rd R.SQ_LINJ_CH = ch then
    (min k 2, k - 1, ((s.wr R.SQ_LINJ_COUNT 0 0 (n - 1)).bump R.SQ_INJ_CNT_COUNT 0 0 1))
  else (min link 2, 0, s)

/-- Count the link error of a burst; at LECC_THRESH of an epoch, LINK_ECC_HIGH is raised once and a long training of the rank is requested; 0 turns
that off (R358, R359). -/
def State.linkError (s : State) (ch link rank : Nat) (again : Bool) : State :=
  if link = 0 then s
  else
    let s := if link = 1 then (s.bump R.PHY_LINK_ECC_CORRECTED ch 0 1).count { ev := 0x110, ch := some ch }
      else (s.bump R.PHY_LINK_ECC_UNCORRECTED ch 0 1).count { ev := 0x111, ch := some ch }
    let s := if link = 2 ∧ again = false then s.count { ev := 0x112, ch := some ch } else s
    let x := { s.chan ch with lecc := (s.chan ch).lecc + 1 }
    let t := s.rd R.PHY_LECC_THRESH_THRESH ch
    if t ≠ 0 ∧ t ≤ x.lecc ∧ x.leccDone = false then
      let x := { x with leccDone := true }
      ((s.setChan ch (x.setRank rank { x.rankAt rank with long := true })).setBit R.PHY_STATUS_LINK_ECC_HIGH ch 0).raiseChan 11 ch
    else s.setChan ch x

/-- The bursts of a returned read meet their link errors, in the order in which they were issued, `link` what the wires did to each: a burst with an
uncorrectable one is to be reissued once, in its entry's precedence, and its atoms fail if the reissue fails as well (R358). -/
def State.linkBursts (s : State) (ch : Nat) (q : QEnt) (link : List Nat) : QEnt × State :=
  let r := (List.range q.sent.length).foldl (fun (p : (List CEnt × QEnt) × State) i =>
    match q.sent[i]? with
    | none => p
    | some b =>
      let o := p.2.linkOutcome ch q.again b (link.getD i 0)
      let s := o.2.2.linkError ch o.1 b.rank q.again
      let atoms := (List.range b.n).map (b.off + ·)
      if o.1 ≠ 2 then (p.1, s)
      else if q.again = false then ((p.1.1 ++ [{ b with reissue := o.2.1 }], p.1.2), s)
      else if b.check then ((p.1.1, { p.1.2 with cbad := p.1.2.cbad ++ atoms }), s)
      else ((p.1.1, { p.1.2 with bad := p.1.2.bad ++ atoms }), s)) (([], q), s)
  ({ r.1.2 with sent := r.1.1, again := true }, r.2)

/-- A read whose data have come back reaches its slice; a part of a cell waits for the other part (R198). -/
def State.deliverPart (s : State) (q : QEnt) (l : List (Nat × List Byte)) (failed : Bool) : State :=
  if q.sub.half = 0 then s.deliver q l failed
  else
    match s.halves.find? fun h => h.q.sub.id == q.sub.id with
    | none => { s with halves := s.halves ++ [{ q := q, atoms := l, fail := failed }] }
    | some h =>
      let s := { s with halves := s.halves.filter fun h => h.q.sub.id != q.sub.id }
      let first := if q.sub.half = 1 then q else h.q
      let l := if q.sub.half = 1 then l ++ h.atoms else h.atoms ++ l
      s.deliver { first with lost := q.lost || h.q.lost } l (failed || h.fail)

/-- The channel whose data slice `g` takes next: the front ends whose oldest returned read is for it take turns in ascending order, after the one last
served (R167). -/
def State.returnTurn (s : State) (g : Nat) : Option Nat :=
  firstBy (fun c => [(c + 31 - (s.group g).lastRet) % 32]) ((List.range 32).filter fun c => ((s.chan c).done.head?.map fun q => q.sub.g) == some g)

/-- The READ whose response a returned read's data wait for: they keep their reorder space until its beats leave (R20). -/
def State.keeper (s : State) (u : SubReq) : Option Nat :=
  match u.wait.bind s.waitOf with
  | none => none
  | some w =>
    let n := if u.tag.lin then u.atoms else 1
    if w.xf.op = 0 ∧ u.kind ≠ .hdr ∧ u.kind ≠ .merge ∧ (w.need.any fun e => e.1 == u.tag && decide (u.unit ≤ e.2 ∧ e.2 < u.unit + n)) = true then some w.id
    else none

/-- A read returns to the slice, its bursts all delivered or failed. -/
def State.readBack (s : State) (ch : Nat) (q : QEnt) : State :=
  let u := q.sub
  let keep := s.keeper u
  let s := s.setGroup u.g { s.group u.g with lastRet := ch }
  let r := s.readAtoms ch q
  let s := (r.2.stamp u.sctag 7).deliverPart q r.1 (!q.bad.isEmpty)
  let n := u.rrbBytes
  let s := match keep with
    | some id => s.modWait id fun w => { w with rrb := w.rrb + n }
    | none => if n = 0 then s else s.setPort u.port { s.port u.port with rrb := (s.port u.port).rrb - n }
  s.pump

/-- READ_DATA_RETURN: the oldest read whose data have come back leaves the front end of channel `ch`, if it is that channel's turn at the slice; `link`
gives the link errors of its bursts. One with a burst to be reissued goes back to the controller instead (R358). -/
def execReadDataReturn (ch : Nat) (link : List Nat) (s : State) : Host.Outcome State Fault Refusal :=
  match (s.chan ch).done with
  | [] => .next s
  | q :: t =>
    if s.returnTurn q.sub.g ≠ some ch then .next s
    else
      let s := s.setChan ch { s.chan ch with done := t }
      let r := if q.lost then (q, s) else s.linkBursts ch q link
      if q.again = false ∧ q.lost = false ∧ r.1.sent ≠ [] then
        let x := r.2.chan ch
        .next (r.2.setChan ch { x with ctl := x.ctl ++ r.1.sent, fly := x.fly ++ [{ r.1 with sent := [] }] })
      else .next (r.2.readBack ch r.1)

/-- ENTRY_PASS: in cycle `c` the front end of channel `ch` passes the next controller entry, if one may pass (R296). -/
def execEntryPass (ch c : Nat) (s : State) : Host.Outcome State Fault Refusal :=
  let s := s.atCycle c
  if s.mayPass ch = false then .next s
  else
    match s.pick ch with
    | none => .next s
    | some (p, x, turns) => .next ((s.count { ev := 0x0D3, n := turns, ch := some ch }).passEntry ch p x)

end Sys2Proof.Machine
end

