-- ==== Sys2Proof/Machine/Moves.lean ====
section
/-! DEFINITION. Moves of storage between channels: evacuation, lane migration and background re-placement, and retirement (R188, R197 to R208,
R348, R349, R395). -/

namespace Sys2Proof.Machine
open Sys2Proof

def State.setMove (s : State) (m : Move) : State := { s with sm := { s.sm with move := m } }

/-! ### What a channel holds -/

/-- Lanes of a set that lie on a channel, in ascending order. -/
def State.lanesOn (s : State) (set ch : Nat) : List Nat :=
  if !(s.regionsOf set).isEmpty ∨ (s.sm.lanes.any fun e => e.1 / 256 == set) then
    (List.range 256).filter fun l => Tab.find s.sm.lanes (set * 256 + l) == some ch
  else []

/-- Positions of live surfaces that lie on a channel, in ascending surface index. -/
def State.posOn (s : State) (ch : Nat) : List (Nat × Nat) :=
  (s.sm.surfs.filter fun e => e.2.live).flatMap fun e =>
    ((List.range e.2.pos.length).filter fun p => (e.2.pos.getD p {}).ch == ch).map fun p => (e.1, p)

/-- Whether a channel holds no lane, no reserve lane and no surface position (R395). -/
def State.emptyCh (s : State) (ch : Nat) : Bool :=
  ((List.range 9).all fun set => (s.lanesOn set ch).isEmpty) && (s.posOn ch).isEmpty

/-- The next unit of an evacuation of a channel (R197). -/
def State.nextUnit (s : State) (ch : Nat) : Option MoveUnit :=
  match (8 :: List.range 8).findSome? fun set => (s.lanesOn set ch).head?.map fun l => MoveUnit.lane set l with
  | some u => some u
  | none => (s.posOn ch).head?.map fun e => .pos e.1 e.2

/-! ### Destinations (R197) -/

/-- The domain of an interleave set. -/
def State.setDomain (s : State) (set : Nat) : Option Nat :=
  match s.conf with
  | none => none
  | some i => (i.isets.find? fun r => r.set == set).map (·.domain)

/-- Channels that may take a lane of a set. -/
def State.laneDests (s : State) (set ch : Nat) : List Nat :=
  (List.range s.C).filter fun d => d != ch && s.inService d && !s.noNew d && (set == 8 || s.setDomain set == some (s.domainOf d))

/-- The destination channel of a unit of an evacuation. -/
def State.evacDest (s : State) (u : MoveUnit) (ch : Nat) : Option Nat :=
  match u with
  | .lane set _ => firstBy (fun d => [(s.lanesOn set d).length, d]) (s.laneDests set ch)
  | .pos i _ =>
    let n := (s.surf i).pool
    match s.poolRec n with
    | none => none
    | some r =>
      firstBy (fun d => [2 ^ 20 - (s.freeIn n d).length, d])
        ((List.range s.C).filter fun d => bit r.mask d && d != ch && s.inService d && !s.noNew d)

/-- Pools whose free extents a move may take on channel `d`: those that cover it; re-placement takes none from a pool at LOWER or CRITICAL
(R188, R197). -/
def State.movePools (s : State) (d kind : Nat) : List Nat :=
  (List.range 8).filter fun n => match s.poolRec n with
    | none => false
    | some r => bit r.mask d && (kind != 3 || decide (s.poolLevel n < 2))

/-- Take `k` extents on channel `d` for a move, unless it takes no new ones (R204): spare extents first, then free extents of pools, the
lowest-numbered first; those of pools are noted. -/
def State.takeMove (s : State) (d kind k : Nat) : Option (List Nat × State) :=
  let sp := s.spareOf d
  let a := sp.take k
  let pools := s.movePools d kind
  let all := sortBy (fun (e : Nat × Nat) => [e.1]) (pools.flatMap fun n => (s.freeIn n d).map fun x => (x, n))
  let b := all.take (k - a.length)
  if a.length + b.length < k ∨ s.noNew d = true then none
  else
    let s := s.setMove { s.sm.move with pools := s.sm.move.pools ++ b }
    let s := s.setSpare d (sp.drop k)
    let s := b.foldl (fun (s : State) (e : Nat × Nat) =>
      { s with sm := { s.sm with poolFree := Tab.insert (e.2 * 32 + d) ((s.freeIn e.2 d).filter fun x => x != e.1) s.sm.poolFree } }) s
    let s := pools.foldl (fun (s : State) n => s.poolUpdate n) (s.count { ev := 0x077, n := b.length })
    some (a ++ b.map (·.1), s)

/-- Destination extents of the move in progress return where they came from. -/
def State.giveMove (s : State) (l : List Nat) : State :=
  let m := s.sm.move
  (s.giveBack m l).setMove { m with pools := m.pools.filter fun e => !l.contains e.1 }

/-! ### Lost storage -/

/-- Write as lost what the segments of the reserve and their companions hold of extent `e` of channel `ch`, granule by granule (R365, R490). -/
def State.poisonRsv (s : State) (ch e : Nat) : State :=
  ((List.range 256).filter fun l => s.laneCh 8 l == ch).foldl (fun (s : State) l =>
    (List.range (rsvRegion.segBytes / 512)).foldl (fun (s : State) k =>
      let p := s.segAt rsvRegion l (512 * k)
      let s := if p.a / extBytes = e then s.cellsFill (memKey ch p.a) (List.replicate 512 0) else s
      if p.ca / extBytes = e then s.cellsFill (memKey ch p.ca) (List.replicate 512 0xFF) else s) s) s

/-- Write an extent as lost from byte `o` of it on: GUARDED data as 0, its check bytes in poisoned form, the headers of a SEALED surface as POISON (R202,
R365, R490). -/
def State.poisonExt (s : State) (ch : Nat) (e : Nat × Nat × Nat) (o : Nat := 0) : State :=
  let k := memKey ch (e.1 * extBytes + o)
  if e.2.1 = 1 then s.cellsFill k (List.replicate (extBytes - o) 0)
  else if e.2.1 = 2 then s.cellsFill k (List.replicate (extBytes - o) 0xFF)
  else if e.2.1 = 4 then s.poisonRsv ch e.1
  else s.cellsFill k ((List.replicate (e.2.2 / 4) (leBytes 4 hdrPoison)).flatten.drop o)

/-- Bytes that writing an extent as lost from byte `o` on takes. -/
def lostBytes (e : Nat × Nat × Nat) (o : Nat) : Nat := (if e.2.1 = 3 then e.2.2 else extBytes) - o

/-- Write a run of extents as lost from byte `skip` of it on. -/
def State.poisonRun (s : State) (ch role n skip : Nat) (l : List Nat) : State :=
  (List.range l.length).foldl (fun (s : State) i =>
    let e := (l.getD i 0, role, n)
    let o := min extBytes (skip - i * extBytes)
    if o = extBytes then s else (s.poisonExt ch e o).engineBytes ch 15 (lostBytes e o)) s

/-- What is left of a unit whose source cannot be read is written as lost at its destination, from its chunk `c` on (R202). -/
def State.poisonUnit (s : State) (u : MoveUnit) (m : Move) : State :=
  match u with
  | .lane set _ =>
    (s.regionsOf set).foldl (fun (s : State) r =>
      if r.prot ≠ 2 then s
      else
        let n := cdiv r.segBytes extBytes
        let skip := min (m.chunk - (s.laneBase r).1) (chunksOf r.segBytes) * chunkBytes
        (s.poisonRun m.dst 1 0 skip ((m.dstMain.drop (s.laneBase r).2).take n)).poisonRun m.dst 2 0 skip
          ((m.dstComp.drop (s.laneCompBase r)).take n)) s
  | .pos i p =>
    let x := s.surf i
    let skip := m.chunk * chunkBytes
    let hit (t : LTag) (half : Nat) : Bool :=
      let q := s.cellPlace t (half * 8) true 0
      t.idx == i && t.gen == x.gen && q.1 == p && decide (skip ≤ q.2.1 * extBytes + q.2.2)
    if x.sealed then (s.poisonRun m.dst 3 (x.text * 64) skip m.dstMain).hdrsLost hit
    else if x.guarded then (s.poisonRun m.dst 1 0 skip m.dstMain).poisonRun m.dst 2 0 skip m.dstComp
    else s

/-! ### Units -/

/-- A move without a unit in progress. -/
def Move.noUnit (m : Move) : Move :=
  { m with unit := none, dstMain := [], dstComp := [], pools := [], chunk := 0, piece := 0, held := false, stopped := false }

/-- Whether the allocator takes a request of the engine's own in the cycle in progress: after all of ports, as class C15 (R190). -/
def State.allocFree (s : State) : Bool := decide (s.sm.allocTo ≤ s.cclk) && !s.allocAhead [15, 256]

/-- Start unit `u` towards channel `d`; none where space is missing. -/
def State.beginUnit (s : State) (u : MoveUnit) (d : Nat) : Option State :=
  let k := s.unitExts u
  let s := s.setMove { s.sm.move with pools := [] }
  match s.takeMove d s.sm.move.kind (k.1 + k.2) with
  | none => none
  | some (l, s) =>
    some (s.takeAlloc.setMove { s.sm.move with
      unit := some u, dst := d, dstMain := l.take k.1, dstComp := l.drop k.1, chunk := 0, piece := 0, held := false, stopped := false })

/-- A move that finds no destination or no space holds; EVAC_STALLED rises (R203). -/
def State.holdMove (s : State) : State :=
  if s.sm.move.held then s else (s.setMove { s.sm.move with held := true }).raise 6 11

/-- Retire a channel (R395): a sequence that runs on it stops, its front end passes nothing more, its pads and clocks stop once its controller is empty,
and CH_RETIRED is raised. -/
def State.retire (s : State) (ch : Nat) : State :=
  let x := s.chan ch
  let s := (s.seqEnd ch).setChan ch { x with
    retired := true, out := false, pwr := 0, srReq := false, autoEvac := false, seq := 0, step := 0, warm := none
    svc := if x.seq = 0 then x.svc else svcOut }
  let s := s.endRetire ch
  ((s.setBit R.CH_PWR_RETIRED ch 0).raiseChan 15 ch).testInput

/-- Move `m` has ended: EVAC_DONE or MIGRATE_DONE is raised, a cancelled evacuation that leaves something behind keeps the channel closed to new
extents, and RETIRE retires an emptied one (R204, R206, R210). -/
def State.moveEnd (s : State) (m : Move) : State :=
  let s := if m.kind = 1 then s.retryDue fun r => bit r.mask m.ch else s
  if m.kind = 1 then
    let s := (s.setBit R.SM_EVAC_STATUS_EVAC_DONE 0 0).raise 6 9
    if s.emptyCh m.ch then (if m.retire ∧ m.cancel = false then s.retire m.ch else s)
    else { s with sm := { s.sm with partEvac := m.ch :: s.sm.partEvac.filter fun c => c != m.ch } }
  else if m.kind = 2 then (s.setBit R.SM_MIGRATE_STATUS_MIGRATE_DONE 0 0).raise 6 12
  else s

/-- The move in progress ends; a re-placement that gave way to it goes on. -/
def State.endMove (s : State) : State :=
  let m := s.sm.move
  ({ s with sm := { s.sm with move := if m.kind = 3 then {} else s.sm.parked, parked := if m.kind = 3 then s.sm.parked else {} } } : State).moveEnd m

/-- The next unit of the move in progress: of an evacuation, first a unit on its way to the channel that a re-placement left; of a migration, its lane
until it lies on DEST (R197). -/
def State.nextStep (s : State) : Option MoveUnit :=
  let m := s.sm.move
  if m.kind = 1 then
    match s.sm.parked.unit with
    | some u => if s.sm.parked.dst = m.ch then some u else s.nextUnit m.ch
    | none => s.nextUnit m.ch
  else if m.kind = 2 ∧ s.laneCh m.set m.lane ≠ m.dest then some (.lane m.set m.lane)
  else none

/-- The destination channel of the next unit of an evacuation or a migration (R197). -/
def State.stepDest (s : State) (u : MoveUnit) : Option Nat :=
  let m := s.sm.move
  if m.kind = 1 then s.evacDest u m.ch
  else if s.inService m.dest = true ∧ s.setDomain m.set = some (s.domainOf m.dest) then some m.dest
  else none

/-- A unit of which a re-placement has redirected chunks goes on to the destination chosen when its first chunk started (R197). -/
def State.adopt (s : State) : State :=
  let p := s.sm.parked
  ({ s with sm := { s.sm with parked := {} } } : State).setMove { s.sm.move with
    unit := p.unit, dst := p.dst, dstMain := p.dstMain, dstComp := p.dstComp, pools := p.pools, chunk := p.chunk, piece := 0, held := p.held
    stopped := p.stopped }

/-- Begin unit `u`, if it has a destination and space there (R203). -/
def State.tryUnit (s : State) (u : MoveUnit) : Option State :=
  if s.sm.parked.unit = some u then some s.adopt else (s.stepDest u).bind fun d => s.beginUnit u d

/-- Go on with the next unit of an evacuation or migration, hold, or end it; in Dusk the move pauses (R398), and a unit begins in a cycle in which the
allocator is free for it (R190). -/
def State.goOn (s : State) : State :=
  let m := s.sm.move
  if m.kind = 0 then s
  else if m.kind = 3 ∨ m.cancel = true then s.endMove
  else
    match s.nextStep with
    | none => s.endMove
    | some u => if s.power.st ≠ 0 ∨ s.allocFree = false then s else (s.tryUnit u).getD s.holdMove

/-- The unit of a re-placement is given up before a chunk of it is redirected: its destination extents return. -/
def State.dropUnit (s : State) : State := (s.giveMove (s.sm.move.dstMain ++ s.sm.move.dstComp)).setMove {}

/-- Re-placement gives way at a chunk boundary: a unit of which no chunk is redirected is given up, any other stays as it is until it can go on (R207;
log entry 161). -/
def State.park (s : State) : State :=
  let m := s.sm.move
  if m.unit.isNone then s.setMove {}
  else if m.chunk = 0 then s.dropUnit
  else { s with sm := { s.sm with parked := m, move := {} } }

/-- Whether writes mirrored to the destination have not reached it yet. -/
def State.mirrorsPending (s : State) : Bool :=
  let x := s.chan s.sm.move.dst
  (x.cq ++ x.fly).any fun q => q.sub.write && q.sub.named == some 15 && q.sub.wait.isNone

/-- Whether no move runs, or a re-placement that stands at a chunk boundary. -/
def State.moveYields (s : State) : Bool :=
  let m := s.sm.move
  m.kind == 0 || m.kind == 3 && (m.unit.isNone || m.held || m.piece == 0 && !s.mirrorsPending)

/-- An evacuation or migration whose START was accepted begins once no other move stands in its way (R207). -/
def State.handOn (s : State) : State :=
  if s.sm.start.kind = 0 ∨ s.moveYields = false then s
  else
    let m := s.sm.start
    let s := if s.sm.move.kind = 0 then s else s.park
    (({ s with sm := { s.sm with start := {} } } : State).setMove m).goOn

/-- The lane's LANE_CH and segments name channel `d` and the extents given, and source extents that no lane uses any more return as spare. -/
def State.laneMoved (s : State) (set l d : Nat) (main comp : List Nat) : State :=
  let src := s.laneCh set l
  let s := { s with sm := { s.sm with lanes := Tab.insert (set * 256 + l) d s.sm.lanes } }
  (s.regionsOf set).foldl (fun (s : State) r =>
    let old : Seg := Tab.get {} s.sm.segs (r.region * 256 + l)
    let n := cdiv r.segBytes extBytes
    let new : Seg := { exts := (main.drop (s.laneBase r).2).take n
                       comps := if r.prot = 2 then (comp.drop (s.laneCompBase r)).take n else [] }
    let s := { s with sm := { s.sm with segs := Tab.insert (r.region * 256 + l) new s.sm.segs } }
    let used := (s.lanesOn set src).flatMap fun k =>
      let g : Seg := Tab.get {} s.sm.segs (r.region * 256 + k)
      g.exts ++ g.comps
    s.giveSpare src ((old.exts ++ old.comps).eraseDups.filter fun x => !used.contains x)) s

/-- Every chunk of the unit in progress is COPIED: the map names the destination, and the source extents return (R200; to which list is
DEDUCED, log entry 164). -/
def State.finishUnit (s : State) : State :=
  let m := s.sm.move
  let s := match m.unit with
    | none => s
    | some (.lane set l) => s.laneMoved set l m.dst m.dstMain m.dstComp
    | some (.pos i p) =>
      let x := s.surf i
      let old := x.pos.getD p {}
      let s := s.setSurf i { x with pos := setAt x.pos p { ch := m.dst, exts := m.dstMain, comps := m.dstComp } }
      (s.givePool x.pool old.ch (old.exts ++ old.comps)).poolUpdate x.pool
  ((s.setMove s.sm.move.noUnit).testInput).goOn

/-- The unit in progress ends without effect, its surface freed: its destination extents return, and the move goes on with the next unit (R205). -/
def State.stopUnit (s : State) : State :=
  let s := s.giveMove (s.sm.move.dstMain ++ s.sm.move.dstComp)
  (s.setMove s.sm.move.noUnit).goOn

/-- Whether the surface whose position is the unit in progress has been freed, and whether nothing translated before needs its chunks any more (R125,
R205). -/
def State.unitFreed (s : State) : Bool :=
  match s.sm.move.unit with
  | some (.pos i _) => !(s.surf i).live
  | _ => false
def State.unitIdle (s : State) : Bool :=
  match s.sm.move.unit with
  | some (.pos i _) => !s.surfBusy i
  | _ => true

/-- The position of a freed surface stops once that is so. -/
def State.stopFreed (s : State) : State := if s.unitIdle then s.stopUnit else s

/-! ### Copying (R198, R201) -/

/-- Source, destination and length of a 4 KiB piece of the unit in progress, and whether it is GUARDED. -/
def State.pieceOf (s : State) (chunk piece : Nat) : Option (At × At × Nat × Bool) :=
  let m := s.sm.move
  match m.unit with
  | none => none
  | some (.pos i p) =>
    let x := (s.surf i).pos.getD p {}
    let e := chunk / 32
    let o := chunk % 32 * chunkBytes + piece * 4096
    some ({ ch := x.ch, a := x.exts.getD e 0 * extBytes + o, ca := x.comps.getD e 0 * extBytes + o },
      { ch := m.dst, a := m.dstMain.getD e 0 * extBytes + o, ca := m.dstComp.getD e 0 * extBytes + o }, 4096, (s.surf i).guarded)
  | some (.lane set l) =>
    match (s.regionsOf set).find? fun r => decide ((s.laneBase r).1 ≤ chunk ∧ chunk < (s.laneBase r).1 + chunksOf r.segBytes) with
    | none => none
    | some r =>
      let o := (chunk - (s.laneBase r).1) * chunkBytes + piece * 4096
      some (s.segAt r l o, s.segDst m r o, min 4096 (r.segBytes - o), r.prot == 2)

/-- Whether the unit in progress is a lane of a region under the checker, whose atoms nothing decodes (R382). -/
def State.pieceRaw (s : State) (chunk : Nat) : Bool :=
  match s.sm.move.unit with
  | some (.lane set _) => s.rd R.INT_CHECKER_MODE != 0 && (s.regionsOf set).any fun r =>
      r.region == s.rd R.INT_CHECKER_REGION && decide ((s.laneBase r).1 ≤ chunk ∧ chunk < (s.laneBase r).1 + chunksOf r.segBytes)
  | _ => false

/-- Copy one GUARDED atom in class `cls`: corrected bytes with fresh check bytes; an uncorrectable atom, or one with a byte that a spare word has lost,
is written as poisoned, every byte of it (R201, R365, R374). An error found is a detection of the surface manager. -/
def State.copyAtom (s : State) (src dst : At) (o cls : Nat) : State :=
  let out := s.outOfService src.ch
  let s := if out then s else (s.spareCheck src.ch (src.a + o) 32 0x40 cls).spareCheck src.ch (src.ca + o) 32 0x40 cls
  let d := s.sample src.ch (src.a + o) 32
  let c := s.sample src.ch (src.ca + o) 32
  let r := if out then (2, 2 ^ 32 - 1, List.replicate 32 0) else decodeAtom d c
  let lost := r.1 == 2 || (d ++ c).any (·.isNone)
  let s := if r.1 = 0 ∨ out = true then s
    else (s.count { ev := 0x0DA + r.1, ch := some src.ch }).detect
      { unit := src.ch, kind := r.1, loc := src.a + o, caddr := src.ca + o, detail := r.2.1, init := 0x40, cls := cls, home := s.homeAt src.ch (src.a + o) }
  let at_ (f : Nat → Byte → Nat × Byte) := (List.range 32).map fun k => f k (r.2.2.getD k 0)
  (s.cellsPut (at_ fun k b => (memKey dst.ch (dst.a + o + k), b))).cellsPut
    (at_ fun k b => (memKey dst.ch (dst.ca + o + k), if lost then poisonCheck b else checkByte b))

/-- Copy `n` stored bytes from one channel address to another as they stand, a spare word's errors being met on the way (R374). -/
def State.copyRaw (s : State) (sc sa dc da n cls : Nat) : State :=
  let s := s.spareCheck sc sa n 0x40 cls
  s.cellsPut ((List.range n).map fun k => (memKey dc (da + k), s.cellByte (memKey sc (sa + k))))

/-- Copy one piece in class `cls`. -/
def State.copyPiece (s : State) (chunk piece cls : Nat) : State :=
  match s.pieceOf chunk piece with
  | none => s
  | some (src, dst, n, guarded) =>
    if guarded ∧ s.pieceRaw chunk = true then (s.copyRaw src.ch src.a dst.ch dst.a n cls).copyRaw src.ch src.ca dst.ch dst.ca n cls
    else if guarded then (List.range (n / 32)).foldl (fun (s : State) k => s.copyAtom src dst (32 * k) cls) s
    else s.copyRaw src.ch src.a dst.ch dst.a n cls

/-- The source and destination channels of a piece and the bytes it moves on each, with the check bytes of GUARDED data. -/
def State.pieceEnds (s : State) (chunk piece : Nat) : Option (Nat × Nat × Nat) :=
  (s.pieceOf chunk piece).map fun p => (p.1.ch, p.2.1.ch, if p.2.2.2 then 2 * p.2.2.1 else p.2.2.1)

/-- The bytes of a piece pass its source and its destination in class `cls` (R198, R300). -/
def State.pieceBytes (s : State) (chunk piece cls : Nat) : State :=
  match s.pieceEnds chunk piece with
  | none => s
  | some (a, b, n) => (s.engineBytes a cls n).engineBytes b cls n

/-- Whether a write waits on the piece in copy (R199). -/
def State.pieceUrgent (s : State) : Bool := s.subs.any fun u => u.held && s.meetsPiece u

/-- Whether the piece in copy may pass both channels: in C15, or in C0 and past their gates where a write waits on it (R199). -/
def State.pieceFree (s : State) : Bool :=
  match s.pieceEnds s.sm.move.chunk s.sm.move.piece with
  | none => true
  | some (a, b, _) => [a, b].all fun ch =>
      if s.pieceUrgent then s.outOfService ch || s.mayPass ch else s.engineFree ch 15 0

/-- Whether a unit is being copied piece by piece. -/
def State.copying (s : State) : Bool := s.sm.move.unit.isSome && !s.sm.move.held && !s.sm.move.lost

/-- Whether the source of a piece may be read: its extents are not waiting to be marked lost. -/
def State.pieceReady (s : State) : Bool :=
  match s.pieceOf s.sm.move.chunk s.sm.move.piece with
  | none => true
  | some (src, _, _, _) => !(s.chan src.ch).lossTodo.contains (src.a / extBytes) && !(s.chan src.ch).lossTodo.contains (src.ca / extBytes)

/-- PIECE_COPY_DONE: the next 4 KiB piece of the chunk in copy has been written to the destination; a freed surface's position stops there, and a
re-placement that another move waits for gives way before the first piece of a chunk. A move between two units begins the next. -/
def execPieceCopyDone (s : State) : Host.Outcome State Fault Refusal :=
  let m := s.sm.move
  match m.unit with
  | none => .next (if m.held ∨ m.kind = 0 ∨ m.kind = 3 then s.handOn else s.goOn)
  | some u =>
    if s.sm.start.kind ≠ 0 ∧ s.moveYields = true then .next s.handOn
    else if s.copying = false then .next s
    else if s.unitFreed then .next s.stopFreed
    else if (s.power.st ≠ 0 ∧ m.piece = 0) ∨ 16 ≤ m.piece ∨ s.unitChunks u ≤ m.chunk ∨ s.pieceReady = false ∨ s.pieceFree = false then .next s
    else
      let cls := if s.pieceUrgent then 0 else 15
      let s := (s.copyPiece m.chunk m.piece cls).pieceBytes m.chunk m.piece cls
      .next (s.setMove { s.sm.move with piece := m.piece + 1 })

/-- The destination extents, data and companions, that hold a chunk of the unit already COPIED: the first so many of each. -/
def State.unitUsed (s : State) : Nat × Nat :=
  let m := s.sm.move
  match m.unit with
  | some (.lane set _) =>
    (s.regionsOf set).foldl (fun b r =>
      let k := cdiv (min (m.chunk - (s.laneBase r).1) (chunksOf r.segBytes)) 32
      (b.1 + k, b.2 + if r.prot = 2 then k else 0)) (0, 0)
  | _ => (cdiv m.chunk 32, cdiv m.chunk 32)

/-- A pool at LOWER stops a re-placement that took extents of it after its chunk: the unused destination extents return (R188). -/
def State.replaceStops (s : State) : State :=
  let m := s.sm.move
  if m.kind = 3 ∧ (m.pools.any fun e => decide (2 ≤ s.poolLevel e.2)) = true then
    let k := s.unitUsed
    let s := s.giveMove (m.dstMain.drop k.1 ++ m.dstComp.drop k.2)
    s.setMove { s.sm.move with dstMain := m.dstMain.take k.1, dstComp := m.dstComp.take k.2, held := true, stopped := true }
  else s

/-- CHUNK_COPIED: the chunk in copy is COPIED and redirected; the last chunk ends the unit. A unit whose source cannot be read is written as lost, as C15
may at its destination, and ends at once (R202). In Dusk no chunk begins and no unit does (R398). -/
def execChunkCopied (s : State) : Host.Outcome State Fault Refusal :=
  let m := s.sm.move
  match m.unit with
  | none => .next (if m.held ∨ m.kind = 0 ∨ m.kind = 3 then s.handOn else s.goOn)
  | some u =>
    let n := s.unitChunks u
    if m.held then .next s
    else if s.unitFreed then .next s.stopFreed
    else if m.lost then
      if s.power.st ≠ 0 ∨ s.engineFree m.dst 15 0 = false then .next s else .next (s.poisonUnit u m).finishUnit.handOn
    else if n ≤ m.chunk then (if s.power.st ≠ 0 then .next s else .next s.finishUnit.handOn)
    else if m.piece < 16 ∨ s.mirrorsPending = true then .next s
    else
      let s := (s.setMove { m with chunk := m.chunk + 1, piece := 0 }).count { ev := 0x079 }
      if n ≤ m.chunk + 1 then .next s.finishUnit.handOn else .next s.replaceStops.handOn

/-! ### Starting -/

/-- Whether a move other than re-placement runs, or waits for one to give way. -/
def State.moving (s : State) : Bool := s.sm.move.kind == 1 || s.sm.move.kind == 2 || s.sm.start.kind != 0

/-- A move whose START is accepted begins, at once where re-placement stands at a chunk boundary or does not run. -/
def State.startMove (s : State) (m : Move) : State := ({ s with sm := { s.sm with start := m } } : State).handOn

/-- Start evacuating channel `ch` (R197, R202, R204). -/
def State.startEvac (s : State) (ch : Nat) (retire : Bool) : State :=
  let lost := s.outOfService ch
  let s := { s with sm := { s.sm with evacCh := some ch, partEvac := s.sm.partEvac.filter fun c => c != ch } }
  let s := if lost then ((s.setBit R.SM_EVAC_STATUS_EVAC_LOST 0 0).raise 6 10).detect { unit := 0x30, kind := 0x12, init := 0x40, cls := 15 } else s
  s.startMove { kind := 1, ch := ch, retire := retire, lost := lost }

/-- START of SM_EVAC_CTL. -/
def State.evacGo (s : State) : State × Bool :=
  let ch := s.rd R.SM_EVAC_CTL_CH
  if s.moving ∨ s.chPresent ch = false ∨ (s.chan ch).retired = true then (s, true)
  else (s.startEvac ch (s.rd R.SM_EVAC_CTL_RETIRE == 1), false)

/-- CANCEL of SM_EVAC_CTL: the unit in progress ends the move, a held one of which chunks are redirected once it has its space; with none in progress
the move ends at once, held or not (R203, R204). -/
def State.evacCancel (s : State) : State :=
  let m := s.sm.move
  if s.sm.start.kind = 1 then ({ s with sm := { s.sm with start := {} } } : State).moveEnd { s.sm.start with cancel := true }
  else if m.kind ≠ 1 then s
  else
    let s := s.setMove { m with cancel := true }
    if m.unit.isNone then s.endMove else s

/-- A write of SM_EVAC_CTL. -/
def State.writeEvacCtl (s : State) (w tgt : Nat) : State :=
  s.writeReg [⟨R.SM_EVAC_CTL_CH, 0, 0⟩, ⟨R.SM_EVAC_CTL_RETIRE, 0, 0⟩] [(16, fun s => s.evacGo), (17, fun s => (s.evacCancel, false))]
    0x20400 w tgt

/-- EVAC_START. -/
def execEvacStart (w : Word) (tgt : Nat) (s : State) : Host.Outcome State Fault Refusal :=
  .next (s.regAccess 0x20400 (w ||| 0x10000) tgt fun w s => s.writeEvacCtl w tgt)
/-- EVAC_CANCEL. -/
def execEvacCancel (w : Word) (tgt : Nat) (s : State) : Host.Outcome State Fault Refusal :=
  .next (s.regAccess 0x20400 (w ||| 0x20000) tgt fun w s => s.writeEvacCtl w tgt)

/-- START of SM_MIGRATE_CTL (R197, R209). -/
def State.migrateGo (s : State) : State × Bool :=
  let set := s.rd R.SM_MIGRATE_CTL_SET
  let lane := s.rd R.SM_MIGRATE_CTL_LANE
  let d := s.rd R.SM_MIGRATE_CTL_DEST
  if s.moving ∨ s.inService d = false ∨ s.setDomain set ≠ some (s.domainOf d) then (s, true)
  else (s.startMove { kind := 2, set := set, lane := lane, dst := d, dest := d }, false)

/-- A write of SM_MIGRATE_CTL. -/
def State.writeMigrateCtl (s : State) (w tgt : Nat) : State :=
  s.writeReg [⟨R.SM_MIGRATE_CTL_SET, 0, 0⟩, ⟨R.SM_MIGRATE_CTL_LANE, 0, 0⟩, ⟨R.SM_MIGRATE_CTL_DEST, 0, 0⟩] [(24, fun s => s.migrateGo)]
    0x20410 w tgt

/-- MIGRATE_START. -/
def execMigrateStart (w : Word) (tgt : Nat) (s : State) : Host.Outcome State Fault Refusal :=
  .next (s.regAccess 0x20410 (w ||| 0x1000000) tgt fun w s => s.writeMigrateCtl w tgt)

/-- AUTO_EVAC_START: with AUTO_EVAC 1, a channel that went out of service and that holds something is evacuated, once no move other than
re-placement runs (R348). -/
def execAutoEvacStart (ch : Nat) (s : State) : Host.Outcome State Fault Refusal :=
  if s.rd R.PHY_CTL_AUTO_EVAC ch = 0 ∨ (s.chan ch).autoEvac = false ∨ s.power.st ≠ 0 ∨ s.outOfService ch = false ∨ s.moving = true ∨ s.emptyCh ch = true then .next s
  else .next ((s.setChan ch { s.chan ch with autoEvac := false }).startEvac ch false)

/-- Take the destination extents that a stopped re-placement gave back. -/
def State.retake (s : State) (u : MoveUnit) : Option State :=
  let m := s.sm.move
  let k := s.unitExts u
  if m.kind = 3 ∧ (m.pools.any fun e => decide (2 ≤ s.poolLevel e.2)) = true ∨ s.allocFree = false then none
  else
    match s.takeMove m.dst m.kind (k.1 - m.dstMain.length + (k.2 - m.dstComp.length)) with
    | none => none
    | some (l, s) =>
      let a := k.1 - m.dstMain.length
      some (s.takeAlloc.setMove { s.sm.move with dstMain := m.dstMain ++ l.take a, dstComp := m.dstComp ++ l.drop a, held := false, stopped := false })

/-! ### Re-placement (R207) -/

/-- Live surfaces with their positions, in ascending index. -/
def State.liveSurfs (s : State) : List (Nat × Surf) := s.sm.surfs.filter fun e => e.2.live

/-- Pool channels in service that may take a position. -/
def State.poolDests (s : State) (n : Nat) : List Nat :=
  match s.poolRec n with
  | none => []
  | some r => (List.range s.C).filter fun d => bit r.mask d && s.inService d && !s.noNew d

/-- Task 1: a position on a channel that holds two or more of its surface's moves to a pool channel that holds none, the lowest of
each (R207, DESIGN CHOICE, log entry 166). -/
def State.task1 (s : State) : Option (MoveUnit × Nat) :=
  s.liveSurfs.findSome? fun e =>
    if 2 ≤ s.poolLevel e.2.pool then none
    else
      let chs := e.2.pos.map (·.ch)
      match (List.range chs.length).find? fun p => (chs.filter fun c => c == chs.getD p 0).length != 1,
        (s.poolDests e.2.pool).find? fun d => !chs.contains d with
      | some p, some d => some (.pos e.1 p, d)
      | _, _ => none

/-- The home channel of a lane in the image (R80, R207). -/
def State.homeOf (s : State) (set lane : Nat) : Option Nat :=
  match s.conf with
  | none => none
  | some i => (i.isets.find? fun r => r.set == set).bind fun r => r.lanes[lane]?

/-- Task 2: a lane away from its home channel moves home. -/
def State.task2 (s : State) : Option (MoveUnit × Nat) :=
  if s.rd R.SM_CTL_AUTO_HOME = 0 then none
  else (List.range 8).findSome? fun set => (List.range 256).findSome? fun l =>
    match s.homeOf set l with
    | none => none
    | some h => if s.laneCh set l ≠ h ∧ s.inService h = true ∧ s.noNew h = false then some (.lane set l, h) else none

/-- Task 3: a position moves from the pool channel with the fewest free extents to the one with the most. -/
def State.task3 (s : State) : Option (MoveUnit × Nat) :=
  s.liveSurfs.findSome? fun e =>
    let n := e.2.pool
    if 2 ≤ s.poolLevel n then none
    else
      let f (d : Nat) : Nat := (s.freeIn n d).length
      match firstBy (fun d => [f d, d]) (s.poolDests n), firstBy (fun d => [2 ^ 20 - f d, d]) (s.poolDests n) with
      | some lo, some hi =>
        let chs := e.2.pos.map (·.ch)
        if f lo + s.rd R.SM_CTL_BAL_THRESH < f hi ∧ chs.contains hi = false then
          ((List.range chs.length).find? fun p => chs.getD p 0 == lo).map fun p => (.pos e.1 p, hi)
        else none
      | _, _ => none

/-- The task of a round of re-placement. -/
def State.replaceTask (s : State) : Option (MoveUnit × Nat) := (s.task1.orElse fun _ => s.task2).orElse fun _ => s.task3

/-- REPLACE_ROUND: background re-placement takes its first task, and holds where the destination lacks space (R203); a round that finds no task waits
one epoch. -/
def execReplaceRound (s : State) : Host.Outcome State Fault Refusal :=
  if s.rd R.SM_CTL_REPLACE_EN = 0 ∨ s.power.st ≠ 0 ∨ s.sm.move.kind ≠ 0 ∨ s.sm.roundWait = true ∨ s.conf.isNone = true ∨ s.allocFree = false then .next s
  else
    match s.replaceTask with
    | none => .next { s with sm := { s.sm with roundWait := true } }
    | some (u, d) => .next (((s.setMove { kind := 3 }).beginUnit u d).getD ((s.setMove { kind := 3 }).holdMove))

/-- A held move without a unit begins its next one, if that has a destination and space (R203): a migration's DEST must be one still (R197). -/
def State.resumeUnit (s : State) : State :=
  if s.allocFree = false then s
  else if s.sm.move.kind = 3 then
    match s.replaceTask with
    | none => s.setMove {}
    | some (u, d) => (s.beginUnit u d).getD s
  else
    match s.nextStep with
    | none => s.endMove
    | some u => (s.tryUnit u).getD s

/-- MOVE_RESUME: a held move finds its destination or its space (R203), or the pool that stopped it is below LOWER again (R188); a freed surface's
position stops. -/
def execMoveResume (s : State) : Host.Outcome State Fault Refusal :=
  let m := s.sm.move
  if s.power.st ≠ 0 then .next s
  else if s.sm.start.kind ≠ 0 ∧ s.moveYields = true then .next s.handOn
  else if m.held = false then .next (if m.unit.isNone ∧ m.kind ≠ 3 then s.goOn else s)
  else if s.unitFreed then .next s.stopFreed
  else
    match m.unit with
    | some u => .next ((s.retake u).getD s)
    | none => .next s.resumeUnit

/-- The reserve lanes of channels that a full image left out of service move before the reserve is written: each takes a destination of R197 and its
extents there (R202, R349). -/
def State.rehomeReserve (s : State) : State :=
  (List.range s.C).foldl (fun (s : State) ch =>
    if s.outOfService ch = false then s
    else (s.lanesOn 8 ch).foldl (fun (s : State) l =>
      match firstBy (fun d => [(s.lanesOn 8 d).length, d]) (s.laneDests 8 ch) with
      | none => s
      | some d =>
        let m := s.sm.move
        match s.takeMove d 1 2 with
        | none => s
        | some (e, s) => (s.setMove m).laneMoved 8 l d (e.take 1) (e.drop 1)) s) s

end Sys2Proof.Machine
end

