-- ==== Sys2Proof/Machine/Integrity.lean ====
section
/-! DEFINITION. The integrity unit: initialisation, marking of lost contents, the scrub, the handling of detections, remap, repair and the
checker mode (R365 to R389, R490). -/

namespace Sys2Proof.Machine
open Sys2Proof

/-- An integrity event: its bit and source `n` of group 8 (R389, R415). -/
def State.raiseInt (s : State) (f : Fld) (n : Nat) : State := (s.setBit f 0 0).raise 8 n

/-! ### Initialisation (R369, R489) -/

/-- The engine reserve and the GUARDED regions in ascending number: the order of initialisation (R369). -/
def State.guardedRegions (s : State) : List RegionRec :=
  match s.conf with
  | none => []
  | some i => rsvRegion :: sortBy (fun r => [r.region]) (i.regions.filter fun r => r.prot == 2)

/-- Units of a region. -/
def RegionRec.units (r : RegionRec) : Nat := cdiv r.size chunkBytes

/-- Whether a region is initialised, or needs no initialisation. -/
def State.regionDone (s : State) (r : RegionRec) : Bool := r.prot != 2 || decide (r.units ≤ Tab.get 0 s.integ.initDone r.region)

/-- Whether a sub-request touches unit `u` of a region. -/
def State.touchesUnit (s : State) (r : RegionRec) (u : Nat) (v : SubReq) : Bool :=
  v.tag.lin && (s.subRegion v).any (fun q => q.region == r.region) && (v.tag.line * 8192 + v.unit * 32 - r.base) / chunkBytes == u

/-- The class and urgency of what waits for places of the reserve that satisfy `p`: a context or mailbox read, in C0, else the ring entry of the
detection at the head of the handling queue, in C15 (R281, R386, R456). -/
def State.rsvWaiter (s : State) (p : Nat → Bool) : Option (Nat × Nat) :=
  if (s.traffic.fwait.any fun f => p (64 * f)) || (s.mbx.any fun e => e.2.any fun o => o.rsv.any p) then some (0, 0)
  else if !s.integ.queue.isEmpty && p (rsvRing + 32 * (s.integ.prod % 4096)) then some (15, 0)
  else none

/-- Whether a request waits for a unit, and the class and urgency in which it is written then; C15 where none waits (R369). -/
def State.unitWaiter (s : State) (r : RegionRec) (u : Nat) : Option (Nat × Nat) :=
  if r.region = 64 then s.rsvWaiter fun o => o / chunkBytes == u
  else if s.subs.any (s.touchesUnit r u) then some (s.waiterRun (s.touchesUnit r u)) else none

/-- The routes of the granules of unit `u` of a region. -/
def State.unitRoutes (s : State) (r : RegionRec) (u : Nat) : List Route :=
  (List.range (min chunkBytes (r.size - u * chunkBytes) / 512)).map fun k => s.linRoute r (r.base + u * chunkBytes + 512 * k)

/-- Zero data and zero check bytes for unit `u` of a region, granule by granule. -/
def State.zeroUnit (s : State) (r : RegionRec) (u cls : Nat) : State :=
  let one (s : State) (p : At) (cls : Nat) : State :=
    if s.inService p.ch then
      ((s.cellsFill (memKey p.ch p.a) (List.replicate 512 0)).cellsFill (memKey p.ch p.ca) (List.replicate 512 0)).engineBytes p.ch cls 1024
    else s
  (s.unitRoutes r u).foldl (fun (s : State) t =>
    let s := one s t.at_ cls
    match t.mirror with
    | some m => one s m 15
    | none => s) s

/-- The state in which unit `u` of a region is written: the reserve's lanes leave the channels out of service before its first unit is (R202, R349). -/
def State.initHome (s : State) (r : RegionRec) : State :=
  if r.region = 64 ∧ Tab.get 0 s.integ.initDone 64 = 0 ∧ (s.integ.initOut.any fun e => e.1 == 64) = false then s.rehomeReserve else s

/-- Unit `u` of a region is marked done, with the units done out of order that follow it (R369). -/
def State.markUnit (s : State) (r : RegionRec) (u : Nat) : State :=
  let mine := (s.integ.initOut.filter fun e => e.1 == r.region).map (·.2)
  let a := advance (mine.length + 2) (Tab.get 0 s.integ.initDone r.region) (sortedInsert u mine)
  let s := { s with integ := { s.integ with
    initDone := Tab.insert r.region a.1 s.integ.initDone
    initOut := (s.integ.initOut.filter fun e => e.1 != r.region) ++ a.2.map fun k => (r.region, k) } }
  if r.region ≠ 64 ∧ r.units ≤ a.1 then s.raiseInt R.INT_STATUS_INIT_DONE 4 else s

/-- Whether unit `u` of a region is the one to be written now: the next of the first region that is not done, or one that a request waits for. -/
def State.unitNext (s : State) (r : RegionRec) (u : Nat) : Bool :=
  decide (u < r.units) && !s.unitReady r.region (u * chunkBytes) &&
    (((s.guardedRegions.find? fun q => !s.regionDone q).any fun q => q.region == r.region) && u == Tab.get 0 s.integ.initDone r.region ||
      (s.unitWaiter r u).isSome)

/-- INIT_UNIT_WRITE: unit `u` of GUARDED region `r`, or of the reserve where `r` is 64, is initialised; its class must be open on its channels (R18,
R369, R489). -/
def execInitUnitWrite (r u : Nat) (s : State) : Host.Outcome State Fault Refusal :=
  match s.guardedRegions.find? fun q => q.region == r with
  | none => .next s
  | some q =>
    let run := (s.unitWaiter q u).getD (15, 0)
    let t := s.initHome q
    if s.dawning = true ∨ s.power.st ≠ 0 ∨ s.unitNext q u = false ∨ t.routesFree (t.unitRoutes q u) run.1 run.2 = false then .next s
    else
      .next (((t.zeroUnit q u run.1).count { ev := 0x0DE, ch := some (t.linRoute q (q.base + u * chunkBytes)).at_.ch }).markUnit q u)

/-- INITIALISING: work of R369 or R490 remains. -/
def State.initialising (s : State) : Bool :=
  (s.guardedRegions.any fun r => !s.regionDone r) || s.chans.any fun e => !e.2.lossTodo.isEmpty

/-- Whether a sub-request touches extent `u` of channel `ch`, with its data or its check bytes. -/
def State.touchesExt (s : State) (ch u : Nat) (v : SubReq) : Bool :=
  (s.subParts v).any fun p => p.2.2.at_.ch == ch && (p.2.2.at_.a / extBytes == u || s.subGuarded v && p.2.2.at_.ca / extBytes == u)

/-- Whether byte `o` of the reserve lies in extent `u` of channel `ch`, with its data or its check byte. -/
def State.rsvTouches (s : State) (ch u o : Nat) : Bool :=
  let p := (s.rsvRoute o).at_
  p.ch == ch && (p.a / extBytes == u || p.ca / extBytes == u)

/-- The class and urgency in which extent `u` of channel `ch` is marked as lost: those of what waits for it, else C15 (R490). -/
def State.lossRun (s : State) (ch u : Nat) : Nat × Nat :=
  if s.subs.any (s.touchesExt ch u) then s.waiterRun (s.touchesExt ch u) else (s.rsvWaiter (s.rsvTouches ch u)).getD (15, 0)

/-- CONTENT_LOSS_MARK: extent `u` of channel `ch`, whose contents a cold Dawn destroyed, is written as lost, as its class may on the channel (R490). -/
def execContentLossMark (ch u : Nat) (s : State) : Host.Outcome State Fault Refusal :=
  let x := s.chan ch
  let run := s.lossRun ch u
  if x.lossTodo.contains u = false ∨ s.power.st ≠ 0 ∨ s.inService ch = false ∨ s.engineFree ch run.1 run.2 = false then .next s
  else
    let l := (s.heldExts ch).filter fun e => e.1 == u
    let s := l.foldl (fun (s : State) e => (s.poisonExt ch e).engineBytes ch run.1 (lostBytes e 0)) s
    let hit (t : LTag) (half : Nat) : Bool :=
      let r := (s.cellRoute t (half * 8) true).at_
      (s.surf t.idx).gen == t.gen && r.ch == ch && r.a / extBytes == u
    let s := s.hdrsLost hit
    .next (s.setChan ch { s.chan ch with lossTodo := (s.chan ch).lossTodo.filter fun e => e != u })

/-! ### Patrol scrub (R371 to R373) -/

/-- The number of the tile with ordinal `k` at stripe position `pos` of `n` (R182, R183). -/
def Surf.tileOrd (x : Surf) (n pos k : Nat) : Option Nat :=
  (((List.range x.planes).flatMap fun q => (List.range (x.tiles q).2).map fun y => (q, y)).foldl (fun (r : Nat × Option Nat) e =>
    let start := x.skew n e.1 * e.2 % n
    let c := rowCount n (x.tiles e.1).1 start pos
    if r.2.isSome then r
    else if r.1 < c then (r.1, some (x.tileNo e.1 ((pos + n - start) % n + n * r.1) e.2))
    else (r.1 - c, none)) (k, none)).2

/-- Whether byte `o` of stripe position `p` of a surface lies in a tile that is prepared. -/
def Surf.byteReady (x : Surf) (p o : Nat) : Bool :=
  let sl := o % extBytes / x.tileBytes
  decide (sl < x.text) && match x.tileOrd x.pos.length p (o / extBytes * x.text + sl) with
    | some k => x.tileReady k
    | none => false

/-- The check address of the GUARDED data block at address `a` of channel `ch`, and whether the scrub reads it now; none where the block holds no GUARDED
data in force. The scrub passes over what is not initialised or is to be marked as lost, over chunks in copy and over a region under the checker
(R371). -/
def State.scrubPair (s : State) (ch a : Nat) : Option (Nat × Bool) :=
  let of (r : Route) (ready : Bool) : Option (Nat × Bool) :=
    if r.at_.ch ≠ ch ∨ r.at_.a ≠ a then none
    else
      let lost := (s.chan ch).lossTodo.contains (a / extBytes) || (s.chan ch).lossTodo.contains (r.at_.ca / extBytes)
      some (r.at_.ca, ready && r.mirror.isNone && !lost)
  match s.homeAt ch a with
  | .none => none
  | .surf i _ p o =>
    let x := s.surf i
    if x.guarded then of (s.posRoute i p (o / extBytes) (o % extBytes)) (x.live && x.byteReady p o) else none
  | .lin b =>
    match s.regionFor b with
    | none => none
    | some r =>
      let normal := !(s.rd R.INT_CHECKER_MODE != 0 && s.rd R.INT_CHECKER_REGION == r.region)
      if r.prot = 2 then of (s.linRoute r b) (s.unitReady r.region (b - r.base) && normal) else none

/-- Whether a channel is scrubbed now (R371). -/
def State.scrubs (s : State) (ch : Nat) : Bool := s.inService ch && !s.chQuiesced ch && !s.seqRuns ch && (s.chan ch).pwr < 2

/-- The extents of a channel that hold GUARDED data, those of the reserve among them, in ascending order. -/
def State.scrubExts (s : State) (ch : Nat) : List Nat :=
  sortNat ((s.heldExts ch).foldl (fun l e => if (e.2.1 = 1 ∨ e.2.1 = 4) ∧ l.contains e.1 = false then l ++ [e.1] else l) [])

/-- Read one GUARDED block pair: its findings join the handling queue with the SCRUB flag. -/
def State.scrubBlock (s : State) (ch a ca : Nat) : State :=
  (List.range 16).foldl (fun (s : State) k =>
    let s := (s.spareCheck ch (a + 32 * k) 32 0x41 15).spareCheck ch (ca + 32 * k) 32 0x41 15
    let r := decodeAtom (s.sample ch (a + 32 * k) 32) (s.sample ch (ca + 32 * k) 32)
    if r.1 = 0 then s
    else (s.count { ev := 0x0DA + r.1, ch := some ch }).detect
      { unit := ch, kind := r.1, loc := a + 32 * k, caddr := ca + 32 * k, detail := r.2.1, init := 0x41, flags := 32, cls := 15
        home := s.homeAt ch (a + 32 * k) }) s

/-- Begin a scrub pass. -/
def State.startPass (s : State) : State :=
  { s with
    integ := { s.integ with scrubLate := false, scrubWait := false }
    chans := s.chans.map fun e => (e.1, { e.2 with scrubAt := 0, scrubDone := false }) }

/-- A channel has finished the pass; the last one ends it, and a pass that ends late is followed by the next at once. A Retired channel holds nothing
to visit. -/
def State.scrubEnd (s : State) (ch : Nat) : State :=
  let s := s.setChan ch { s.chan ch with scrubDone := true }
  if (List.range s.C).any fun c => s.chPresent c && !(s.chan c).retired && !(s.chan c).scrubDone then s
  else
    let s := (s.raiseInt R.INT_STATUS_SCRUB_PASS 2).bump R.INT_SCRUB_STATUS_PASSES 0 0 1
    if s.integ.scrubLate then s.startPass else { s with integ := { s.integ with scrubWait := true } }

/-- SCRUB_STEP: the scrub reads the next GUARDED block pair of channel `ch` as C15 may, or passes over it, or finds that the channel has none
left. -/
def execScrubStep (ch : Nat) (s : State) : Host.Outcome State Fault Refusal :=
  let x := s.chan ch
  if s.rd R.INT_SCRUB_CTL_EN = 0 ∨ s.power.st ≠ 0 ∨ s.chPresent ch = false ∨ x.scrubDone = true then .next s
  else if x.retired then .next (s.scrubEnd ch)
  else if s.scrubs ch = false then .next s
  else
    match (s.scrubExts ch).find? fun e => decide (x.scrubAt < (e + 1) * extBytes) with
    | none => .next (s.scrubEnd ch)
    | some e =>
      let a := max x.scrubAt (e * extBytes)
      let on := s.setChan ch { x with scrubAt := a + 512 }
      match s.scrubPair ch a with
      | some (ca, true) =>
        if s.engineFree ch 15 0 then .next (((on.count { ev := 0x0DD, ch := some ch }).engineBytes ch 15 1024).scrubBlock ch a ca) else .next s
      | _ => .next on

/-- SCRUB_PERIOD_EXPIRY: the period elapses (R373). -/
def execScrubPeriodExpiry (s : State) : Host.Outcome State Fault Refusal :=
  if s.rd R.INT_SCRUB_CTL_EN = 0 ∨ s.cclkRuns = false ∨ s.conf.isNone = true then .next s
  else if s.integ.scrubWait then .next s.startPass
  else if s.integ.scrubLate then .next s
  else .next (({ s with integ := { s.integ with scrubLate := true } } : State).raiseInt R.INT_STATUS_SCRUB_LATE 3)

/-! ### Remap (R374 to R376) -/

/-- Valid remap entries of a channel, and whether REMAP_FULL holds. -/
def Chan.remapUsed (x : Chan) : Nat := (x.remap.filter fun e => e.2.valid).length
def Chan.remapFull (x : Chan) : Bool := x.remapUsed == 32

/-- Whether a block has an entry, or one on its way. -/
def Chan.remapped (x : Chan) (b : Nat) : Bool := (x.remapOf b).isSome || x.installing.contains b

/-- The lowest entry not in use and not being installed. -/
def Chan.remapFree (x : Chan) : Option Nat := (List.range 32).find? fun k => (Tab.find x.remap k).isNone

/-- The row that a block lies in, under the bank swizzle of the surface it belongs to (R185, R310). -/
def State.rowOf (s : State) (ch b : Nat) : Nat × Nat × Nat :=
  let l := mapAddr (s.densityOf ch) (b * 64) (s.bswAt ch (b * 64))
  (l.rank, l.bank, l.row)

/-- Add a candidate row. A row already listed is not added; a place is free when empty, or, for firmware, when its row is repaired or
failed. The Bool says that it was added. -/
def State.addCand (s : State) (ch : Nat) (row : Nat × Nat × Nat) (firmware : Bool) : State × Bool :=
  let x := s.chan ch
  let at_ (k : Nat) : Cand := Tab.get {} x.cands k
  let listed := (List.range 8).any fun k => let c := at_ k; c.st != 0 && c.rank == row.1 && c.bank == row.2.1 && c.row == row.2.2
  let place := ((List.range 8).find? fun k => (at_ k).st == 0).orElse fun _ =>
    if firmware then (List.range 8).find? fun k => decide (2 ≤ (at_ k).st) else none
  match listed, place with
  | false, some k =>
    let c : Cand := { rank := row.1, bank := row.2.1, row := row.2.2, st := 1 }
    (((s.setChan ch { x with cands := Tab.insert k c x.cands }).setBit R.FE_STATUS_PPR_CANDIDATE ch 0).raiseChan 13 ch, true)
  | _, _ => (s, false)

/-- Row `row` becomes a candidate for repair where PPR_CAND_EN allows it (R378). -/
def State.autoCand (s : State) (ch : Nat) (row : Nat × Nat × Nat) : State × Bool :=
  if s.rd R.INT_CTL_PPR_CAND_EN = 0 then (s, false) else s.addCand ch row false

/-- Begin installing block `b` in entry `k` (R376). -/
def State.beginInstall (s : State) (ch b k : Nat) (manual : Bool) : State :=
  let x := s.chan ch
  s.setChan ch { x with
    remap := Tab.insert k { block := b, manual := manual, valid := false, row := s.rowOf ch b } x.remap, installing := x.installing ++ [b] }

/-- Block `b` is due for installation: its installation begins, or, where no entry is left, its row becomes a candidate (R375, R378). Flags of R385 for
what happened. -/
def State.installDue (s : State) (ch b : Nat) (manual : Bool) : State × Nat :=
  let x := s.chan ch
  if x.remapped b then (s, 0)
  else
    match x.remapFree with
    | none => let r := s.autoCand ch (s.rowOf ch b); (r.1, if r.2 then 16 else 0)
    | some k => (s.beginInstall ch b k manual, 8)

/-- The row of a block installed becomes a candidate if another entry lies in it (R378); the detection in handling that installed the block notes it. -/
def State.secondEntry (s : State) (ch b : Nat) (row : Nat × Nat × Nat) : State :=
  if ((s.chan ch).remap.any fun e => e.2.valid && e.2.block != b && e.2.row == row) = false then s
  else
    let r := s.autoCand ch row
    let mine (d : Det) : Bool := r.2 && d.done && d.unit == ch && d.loc / 64 == b
    { r.1 with integ := { r.1.integ with queue := r.1.integ.queue.map fun d => if mine d then { d with flags := d.flags ||| 16 } else d } }

/-- The installation read of the oldest block completes: the block's bytes, as stored, are its spare word (R376). -/
def State.installed (s : State) (ch : Nat) : State :=
  let x := s.chan ch
  match x.installing with
  | [] => s
  | b :: t =>
    match x.remap.find? fun e => !e.2.valid && e.2.block == b with
    | none => s.setChan ch { x with installing := t }
    | some (k, r) =>
      let word := (List.range 64).map fun n => s.memByte (memKey ch (b * 64 + n))
      let y := { x with remap := Tab.insert k { r with valid := true, word := word } x.remap, installing := t }
      let s := ((s.setChan ch y).setBit R.FE_STATUS_REMAP_ADD ch 0).raiseChan 13 ch
      let s := if y.remapFull then s.raiseChan 13 ch else s
      (s.secondEntry ch b r.row).detect { unit := ch, kind := 0x0D, loc := b * 64, init := 0x41 }

/-- A write that the engine originates in channel `ch`, of the bytes given at offsets from a place, with their check bytes: it uses the reserve of R22
and is charged to no flow. `h` says whose the bytes are, for the bank they lie in (R185). -/
def State.ownWrite (s : State) (p : At) (h : Home) (atoms cls : Nat) (guarded : Bool) (cells ccells : List (Nat × Byte)) : State :=
  let tag : LTag := match h with | .surf i g _ _ => { idx := i, gen := g } | _ => { lin := true }
  let u : SubReq := { id := s.nextId, kind := .wb, write := true, tag := tag, atoms := atoms, raw := true, scrub := true, named := some cls
                      t0 := s.cclk, cells := cells, ccells := ccells }
  ({ s with nextId := s.nextId + 1 } : State).enqueue u p guarded 0 cls false 0

/-- Remove a block: its spare word is written back and the entry is cleared (R376). -/
def State.remapRemove (s : State) (ch b : Nat) : State :=
  let x := s.chan ch
  match x.remapOf b with
  | none => s
  | some k =>
    let w := (Tab.get ({} : Remap) x.remap k).word
    let s := s.setChan ch { x with remap := Tab.erase k x.remap }
    let s := if s.inService ch then s.ownWrite { ch := ch, a := b * 64 } (s.homeAt ch (b * 64)) 2 15 false ((List.range w.length).zip w) []
      else s.memFill (memKey ch (b * 64)) w
    s.detect { unit := ch, kind := 0x0E, loc := b * 64, init := 0x41 }

/-- A removal is made if the reserve of R22 has room for its write, else it waits, and what touches the block with it. -/
def State.askRemove (s : State) (ch b : Nat) : State :=
  let x := s.chan ch
  if x.remapOf b = none ∨ x.removing.contains b = true then s
  else if s.ownRoom ch then s.remapRemove ch b
  else s.setChan ch { x with removing := x.removing ++ [b] }

/-- REMAP_INSTALL: the work on the remap entries of channel `ch` goes on: a removal that waits for room in the write data buffer is made, else the
installation read of the oldest block completes (R22, R376). -/
def execRemapInstall (ch : Nat) (s : State) : Host.Outcome State Fault Refusal :=
  let x := s.chan ch
  match x.removing with
  | [] => .next (s.installed ch)
  | b :: t => if s.ownRoom ch then .next ((s.setChan ch { x with removing := t }).remapRemove ch b) else .next (s.installed ch)

/-! ### Handling (R383 to R386) -/

/-- Where the atom of a detection lies now, and where a write of it is mirrored; none if its surface has been freed since (R200). -/
def State.detRoute (s : State) (d : Det) : Option Route :=
  match d.home with
  | .none => some { at_ := { ch := d.unit, a := d.loc, ca := d.caddr } }
  | .lin a => (s.regionFor a).map fun r => s.linRoute r a
  | .surf i g p o =>
    if (s.surf i).live = true ∧ (s.surf i).gen = g then some (s.posRoute i p (o / extBytes) (o % extBytes)) else none

/-- A detection as it stands when its turn comes: one that names an atom which an entry ahead of it named reads it again; none where that finds it clean
(R384). -/
def State.reread (s : State) (d : Det) : Option Det :=
  match d.again, s.detRoute d with
  | true, some r =>
    let f := decodeAtom (s.sample r.at_.ch r.at_.a 32) (s.sample r.at_.ch r.at_.ca 32)
    if f.1 = 0 then none else some { d with kind := f.1, detail := f.2.1, wrote := 0 }
  | _, _ => some d

/-- The correction write-back of a GUARDED detection: bytes in error are corrected or poisoned, bytes that have been written since the read are left out
(R367); it goes where the atom lies when it is issued, and to the destination of a chunk in copy too (R200). Flags WB_DONE and WB_SKIPPED. -/
def State.correct (s : State) (d : Det) : State × Nat :=
  match s.detRoute d with
  | none => (s, 4)
  | some r =>
    let ch := r.at_.ch
    let data := s.sample ch r.at_.a 32
    let check := s.sample ch r.at_.ca 32
    let pair (n : Nat) : Option (Nat × Nat × Byte) :=
      match data.getD n none, check.getD n none with
      | some x, some y => let p := decodePair x y; if p.1 = 0 then none else some (n, p)
      | _, _ => none
    let skipped := (List.range 32).any fun n => bit d.detail n && bit d.wrote n
    let now := ((List.range 32).filter fun n => bit d.detail n && !bit d.wrote n).filterMap pair
    let s := if skipped then s.count { ev := 0x0D9, ch := some ch } else s
    if now.isEmpty ∨ s.inService ch = false then (s, 4 * b2n skipped)
    else
      let cells := now.map fun e => (e.1, e.2.2)
      let ccells := now.map fun e => (e.1, if e.2.1 = 2 then poisonCheck e.2.2 else checkByte e.2.2)
      let s := s.ownWrite r.at_ d.home 1 d.cls true cells ccells
      let s := match r.mirror with
        | some m => s.ownWrite m d.home 1 15 true cells ccells
        | none => s
      (s.count { ev := 0x0D8, ch := some ch }, 2 + 4 * b2n skipped)

/-- Whether the reserve of R22 has room for a detection's write-back; else it waits. -/
def State.correctRoom (s : State) (d : Det) : Bool :=
  match s.detRoute d with
  | none => true
  | some r => s.ownRoom r.at_.ch && match r.mirror with | some m => s.ownRoom m.ch | none => true

/-- The recent-error table counts a correctable detection of a block; the count it reaches (R375). -/
def State.recentError (s : State) (ch b : Nat) : Nat × State :=
  let x := s.chan ch
  let n := ((x.recent.find? fun e => e.1 == b).map (·.2)).getD 0 + 1
  (n, s.setChan ch { x with recent := ((b, n) :: x.recent.filter fun e => e.1 != b).take 16 })

/-- Steps 2 and 3 of R384: the flags they add. -/
def State.tabulate (s : State) (d : Det) : State × Nat :=
  let b := d.loc / 64
  if d.kind = 1 then
    let r := s.recentError d.unit b
    if s.rd R.INT_CTL_REMAP_AUTO = 1 ∧ s.rd R.INT_CTL_REMAP_CE_THRESH ≤ r.1 then r.2.installDue d.unit b false else (r.2, 0)
  else if d.kind = 2 ∧ s.rd R.INT_CTL_REMAP_UE = 1 then s.installDue d.unit b false
  else (s, 0)

/-- PROD - CONS of the error ring, modulo 8,192 (R386). -/
def State.ringUsed (s : State) : Nat := (s.integ.prod + 8192 - s.rd R.INT_RING_CONS_CONS) % 8192

/-- Write a ring entry to the reserve, in C15, or count it as dropped (R18, R386). -/
def State.ringPut (s : State) (d : Det) : State :=
  if s.ringUsed = 4096 then s.bump R.INT_RING_DROP_COUNT 0 0 1
  else
    let s := s.rsvWrite (rsvRing + 32 * (s.integ.prod % 4096)) d.bytes 15
    let s := { s with integ := { s.integ with ring := Tab.insert (s.integ.prod % 4096) d s.integ.ring, prod := (s.integ.prod + 1) % 8192 } }
    if s.ringUsed = 4096 then s.raise 8 6 else s

/-- The first-error captures of a channel and of the engine (R383). -/
def State.capture (s : State) (d : Det) (logged : Bool) : State :=
  let ch := d.unit
  let s := if d.kind = 0 ∨ 3 < d.kind ∨ s.rd R.FE_ERR_FIRST_B_VALID ch = 1 then s
    else
      (((s.wr R.FE_ERR_FIRST_A_ADDR ch 0 (d.loc % 2 ^ 32)).wr R.FE_ERR_FIRST_B_ADDR32 ch 0 (d.loc / 2 ^ 32 % 2)).wr R.FE_ERR_FIRST_B_KIND ch 0
        d.kind).wr R.FE_ERR_FIRST_BYTES_BYTES ch 0 d.detail |>.wr R.FE_ERR_FIRST_B_VALID ch 0 1
  if logged = false ∨ s.rd R.INT_ERR_FIRST_VALID = 1 then s
  else
    ((s.wr R.INT_ERR_FIRST_KIND 0 0 d.kind).wr R.INT_ERR_FIRST_UNIT 0 0 d.unit).wr R.INT_ERR_FIRST_SEQ_SEQ 0 0 d.seq |>.wr R.INT_ERR_FIRST_VALID 0 0 1

/-- Counters and the event of a detection (R384 step 5). -/
def State.countDet (s : State) (d : Det) : State :=
  if d.kind = 1 then
    ((s.bump R.INT_CE_CNT_COUNT 0 0 1).bump R.FE_CE_CNT_COUNT d.unit 0 1).raiseInt R.INT_STATUS_ECC_CE 0
  else if d.kind = 2 ∨ d.kind = 3 then
    ((s.bump R.INT_UE_CNT_COUNT 0 0 1).bump R.FE_UE_CNT_COUNT d.unit 0 1).raiseInt R.INT_STATUS_ECC_UE 1
  else if d.kind = 0x11 then s.raiseInt R.INT_STATUS_RESERVE_LOSS 5
  else s

/-- Whether a detection is logged in the ring (R384 step 4). -/
def State.logs (s : State) (d : Det) : Bool := d.kind != 1 || s.rd R.INT_CTL_LOG_CE == 1

/-- Whether the ring entry of a detection may be written now, where it is to be written at all: its place in the reserve is ready and C15 may pass there
(R18, R369, R386). -/
def State.ringReady (s : State) (d : Det) : Bool :=
  let o := rsvRing + 32 * (s.integ.prod % 4096)
  !s.logs d || s.ringUsed == 4096 || (!s.dawning && s.rsvReady o && s.engineFree (s.rsvChan o) 15 0)

/-- Steps 4 and 5 of R384: the detection leaves the queue, logged, captured and counted. -/
def State.logDet (s : State) (d : Det) (rest : List Det) : State :=
  let s := { s with integ := { s.integ with queue := rest } }
  let s := if s.logs d then s.ringPut d else s
  (s.capture d (s.logs d)).countDet d

/-- The detection at the head of the queue, its steps 1 to 3 done, is logged once its installation has completed and its entry may be written; until
then it stays (R384). -/
def State.endDet (s : State) (d : Det) (rest : List Det) : State :=
  if (s.chan d.unit).installing.contains (d.loc / 64) = true ∧ bit d.flags 3 = true ∨ s.ringReady d = false then
    { s with integ := { s.integ with queue := d :: rest } }
  else s.logDet d rest

/-- DETECTION_HANDLE: the detection at the head of the handling queue is written back, tabulated, logged and counted. Its write-back waits while the
reserve of R22 is full, and while another installation of its channel runs (R384); nothing is handled while cclk stands. -/
def execDetectionHandle (s : State) : Host.Outcome State Fault Refusal :=
  match s.integ.queue with
  | [] => .next s
  | d :: _ =>
    if s.cclkRuns = false then .next s
    else if d.done then .next (s.endDet d (s.integ.queue.drop 1))
    else if 2 < d.kind then .next (s.endDet { d with done := true } (s.integ.queue.drop 1))
    else if (s.chan d.unit).installing ≠ [] ∨ s.correctRoom d = false then .next s
    else
      match s.reread d with
      | none => .next { s with integ := { s.integ with queue := s.integ.queue.drop 1 } }
      | some d =>
        let a := s.correct d
        let b := a.1.tabulate d
        .next (b.1.endDet { d with flags := d.flags ||| a.2 ||| b.2, done := true } (b.1.integ.queue.drop 1))

/-! ### Register writes -/

/-- A write of FE_REMAP_CMD (R375, R376). -/
def State.writeRemapCmd (s : State) (ch w tgt : Nat) : State :=
  let op := bits w 28 2
  let b := bits w 0 27
  if s.C ≤ ch ∨ bit w 31 = false then s
  else if op = 1 then (s.installDue ch b true).1
  else if op = 2 then s.askRemove ch b
  else s.cfgBusy (chAddr ch 0x2020) tgt

/-- REMAP_CMD_INSTALL: FE_REMAP_CMD is written with OP 1 and GO. -/
def execRemapCmdInstall (ch : Nat) (w : Word) (tgt : Nat) (s : State) : Host.Outcome State Fault Refusal :=
  .next (s.regAccess (chAddr ch 0x2020) ((w &&& 0xCFFFFFFF) ||| 0x90000000) tgt fun w s => s.writeRemapCmd ch w tgt)
/-- REMAP_CMD_REMOVE: FE_REMAP_CMD is written with OP 2 and GO. -/
def execRemapCmdRemove (ch : Nat) (w : Word) (tgt : Nat) (s : State) : Host.Outcome State Fault Refusal :=
  .next (s.regAccess (chAddr ch 0x2020) ((w &&& 0xCFFFFFFF) ||| 0xA0000000) tgt fun w s => s.writeRemapCmd ch w tgt)

/-- A write of FE_CTL. -/
def State.writeFeCtl (s : State) (ch w _tgt : Nat) : State :=
  if s.C ≤ ch ∨ bit w 0 = false then s else s.wr R.FE_ERR_FIRST_B_VALID ch 0 0
/-- FE_REARM. -/
def execFeRearm (ch : Nat) (w : Word) (tgt : Nat) (s : State) : Host.Outcome State Fault Refusal :=
  .next (s.regAccess (chAddr ch 0x2000) (w ||| 1) tgt fun w s => s.writeFeCtl ch w tgt)

/-- A write of INT_CTL. -/
def State.writeIntCtl (s : State) (w tgt : Nat) : State :=
  s.writeReg [⟨R.INT_CTL_LOG_CE, 0, 0⟩, ⟨R.INT_CTL_REMAP_AUTO, 0, 0⟩, ⟨R.INT_CTL_REMAP_UE, 0, 0⟩, ⟨R.INT_CTL_PPR_CAND_EN, 0, 0⟩,
    ⟨R.INT_CTL_REMAP_CE_THRESH, 0, 0⟩] [(4, fun s => (s.wr R.INT_ERR_FIRST_VALID 0 0 0, false))] 0x50000 w tgt
/-- INT_REARM. -/
def execIntRearm (w : Word) (tgt : Nat) (s : State) : Host.Outcome State Fault Refusal :=
  .next (s.regAccess 0x50000 (w ||| 16) tgt fun w s => s.writeIntCtl w tgt)

/-- A write of INT_RING_CONS: an index outside CONS to PROD is refused (R386). -/
def State.writeRingCons (s : State) (w tgt : Nat) : State :=
  let v := bits w 0 13
  if (v + 8192 - s.rd R.INT_RING_CONS_CONS) % 8192 ≤ s.ringUsed then s.wr R.INT_RING_CONS_CONS 0 0 v else s.cfgBusy 0x50024 tgt
/-- RING_CONS_WRITE. -/
def execRingConsWrite (w : Word) (tgt : Nat) (s : State) : Host.Outcome State Fault Refusal :=
  .next (s.regAccess 0x50024 w tgt fun w s => s.writeRingCons w tgt)

/-! ### Repair (R379, R380) -/

/-- Pending candidates of a channel. -/
def Chan.pendingCands (x : Chan) : List Nat := (List.range 8).filter fun k => (Tab.get ({} : Cand) x.cands k).st == 1

/-- A write of INT_PPR_ADD. -/
def State.writePprAdd (s : State) (w _tgt : Nat) : State :=
  let ch := bits w 0 5
  if bit w 31 = false ∨ s.C ≤ ch then s else (s.addCand ch (bits w 5 1, bits w 6 4, bits w 10 17) true).1
/-- PPR_ADD. -/
def execPprAdd (w : Word) (tgt : Nat) (s : State) : Host.Outcome State Fault Refusal :=
  .next (s.regAccess 0x50088 (w ||| 0x80000000) tgt fun w s => s.writePprAdd w tgt)

/-- GO of INT_PPR_CTL. -/
def State.pprGo (s : State) (tgt : Nat) : State × Bool :=
  let ch := s.rd R.INT_PPR_CTL_CH
  let x := s.chan ch
  if s.rd R.INT_PPR_CTL_ARM = 0 ∨ s.option ch 4 = false ∨ s.emptyCh ch = false ∨ s.chQuiesced ch = false ∨ x.pendingCands = [] ∨
      2 ≤ s.integ.pprSt then (s, true)
  else
    let s := s.setChan ch { x with pprHold := true }
    ({ s with integ := { s.integ with pprSt := 2, pprCh := ch, pprTgt := tgt % 8, pprAny := false, pprFail := false } }, false)

/-- A write of INT_PPR_CTL: CH and ARM cannot change while a repair runs (R379, R487). -/
def State.writePprCtl (s : State) (w tgt : Nat) : State :=
  let slots : List Slot := [⟨R.INT_PPR_CTL_CH, 0, 0⟩, ⟨R.INT_PPR_CTL_ARM, 0, 0⟩]
  let refused := decide (2 ≤ s.integ.pprSt) && s.changes w slots
  let r := runActs w [(16, fun s => s.pprGo tgt)] (applySlots s w (if refused then [] else slots))
  r.1.busyIf (r.2 || refused) 0x50080 tgt

/-- PPR_ARM: INT_PPR_CTL is written with ARM 1. -/
def execPprArm (w : Word) (tgt : Nat) (s : State) : Host.Outcome State Fault Refusal :=
  .next (s.regAccess 0x50080 (w ||| 0x100) tgt fun w s => s.writePprCtl w tgt)
/-- PPR_DISARM: INT_PPR_CTL is written with ARM 0. -/
def execPprDisarm (w : Word) (tgt : Nat) (s : State) : Host.Outcome State Fault Refusal :=
  .next (s.regAccess 0x50080 (w &&& 0xFFFFFEFF) tgt fun w s => s.writePprCtl w tgt)
/-- PPR_GO. -/
def execPprGo (w : Word) (tgt : Nat) (s : State) : Host.Outcome State Fault Refusal :=
  .next (s.regAccess 0x50080 (w ||| 0x10000) tgt fun w s => s.writePprCtl w tgt)

/-- A row has been repaired: remap entries in it are cleared without write-back, and the rank's contents become undefined (R380). -/
def State.rowRepaired (s : State) (ch : Nat) (c : Cand) : State :=
  let x := s.chan ch
  let remap := x.remap.filter fun e => !(e.2.valid && e.2.row == (c.rank, c.bank, c.row))
  let lo := memKey ch (c.rank * dieBytes (s.densityOf ch))
  let s := { s with mem := s.mem.filter fun m => !decide (lo ≤ m.1 ∧ m.1 < lo + dieBytes (s.densityOf ch)) }
  s.setChan ch { x with remap := remap, memGen := x.memGen + 1 }

/-- PPR_ROW_DONE: the repair of the first pending candidate ends. After the last, the dies enter self-refresh (R328) and a short retrain runs;
PPR_DONE follows it (R380). -/
def execPprRowDone (ok : Bool) (s : State) : Host.Outcome State Fault Refusal :=
  if s.integ.pprSt ≠ 2 then .next s
  else
    let ch := s.integ.pprCh
    let x := s.chan ch
    match x.pendingCands with
    | [] => .next s
    | k :: t =>
      let c := Tab.get ({} : Cand) x.cands k
      let s := s.setChan ch { x with cands := Tab.insert k { c with st := if ok then 2 else 3 } x.cands }
      let s := if ok then s.rowRepaired ch c else s
      let s := s.detect { unit := ch, kind := if ok then 0x0F else 0x10, init := 0x41 }
      let s := { s with integ := { s.integ with pprAny := s.integ.pprAny || ok, pprFail := s.integ.pprFail || !ok } }
      if t.isEmpty = false then .next s
      else
        let s := { s with integ := { s.integ with pprSt := 3 } }
        if s.inService ch = true ∧ (s.chan ch).pwr < 2 then .next (s.setChan ch { s.chan ch with warm := some 0 })
        else .next (s.startSeq ch 3 none false)

/-! ### Checker mode (R381) -/

/-- Whether PERMIT.CHECKER allows the checker mode (R90). -/
def State.permits (s : State) (n : Nat) : Bool :=
  match s.conf with
  | some { permit := some p, .. } => bit p n
  | _ => false

/-- A write of INT_CHECKER. -/
def State.writeChecker (s : State) (w tgt : Nat) : State :=
  let mode := bits w 0 2
  let reg := bits w 8 6
  if s.changes w [⟨R.INT_CHECKER_MODE, 0, 0⟩, ⟨R.INT_CHECKER_REGION, 0, 0⟩] = false then s
  else if mode = 3 ∨ s.permits 2 = false ∨ s.rd R.INT_CHECKER_BUSY = 1 ∨ (s.guardedRegions.any fun r => r.region == reg) = false then
    s.cfgBusy 0x50060 tgt
  else
    let stays := s.rd R.INT_CHECKER_MODE != 0 && s.rd R.INT_CHECKER_REGION == reg
    let s := s.wr R.INT_CHECKER_REGION 0 0 reg
    if mode = 0 ∨ stays = true then s.wr R.INT_CHECKER_MODE 0 0 mode
    else
      let cover (t : LTag) : Bool := t.lin && (s.regionAt (t.line * 8192)).any fun r => r.region == reg
      let s := { (s.wr R.INT_CHECKER_MODE 0 0 0).wr R.INT_CHECKER_BUSY 0 0 1 with integ := { s.integ with checkBusy := true, checkNext := mode } }
      ((List.range s.G).foldl (fun (s : State) g => s.invSlice g cover false) s).pump

/-- CHECKER_MODE. -/
def execCheckerMode (w : Word) (tgt : Nat) (s : State) : Host.Outcome State Fault Refusal :=
  .next (s.regAccess 0x50060 w tgt fun w s => s.writeChecker w tgt)

/-- CHECKER_FLUSH_DONE: every slice has flushed the region's lines, and the mode takes effect. -/
def execCheckerFlushDone (s : State) : Host.Outcome State Fault Refusal :=
  if s.integ.checkBusy = false ∨ ((List.range s.G).all s.invSettled) = false then .next s
  else
    .next { (s.wr R.INT_CHECKER_MODE 0 0 s.integ.checkNext).wr R.INT_CHECKER_BUSY 0 0 0 with integ := { s.integ with checkBusy := false } }

end Sys2Proof.Machine
end

