-- ==== Sys2Proof/Machine/Capacity.lean ====
section
/-! DEFINITION. The capacity computation of R101, what admission and the run-time test feed it (R98 to R102, R301), suspension and
restoration (R302 to R305) and the admission figures (R462). -/

namespace Sys2Proof.Machine
open Sys2Proof

/-! ### The computation (R99 to R101) -/

/-- A guaranteed flow, or `count` flows alike, as the test counts it: GUARDED traffic is counted twice. -/
structure CapFlow where
  f : Nat
  cls : Nat
  rank : Nat := 0
  double : Bool := false
  pool : Bool := false
  tgt : Nat
  count : Nat := 1
  guar : Nat
deriving DecidableEq, Repr

/-- A channel that the test counts: its domain, its cap per gate unit scaled by 65,536, and the gate lists it is tested under. -/
structure CapChan where
  ch : Nat
  dom : Nat
  cap : Nat
  lists : List GateList
deriving DecidableEq, Repr

/-- What the test runs over: the channels with capacity, the domain of every present channel, emin, the guard times, the counted flows, the
lane maps by set, the channel masks by pool. -/
structure CapIn where
  chans : List CapChan
  doms : Tab Nat
  emin : Nat
  guards : List Nat
  flows : List CapFlow
  sets : Tab (List Nat)
  pools : Tab Nat
deriving DecidableEq, Repr

/-- The channels that a target names, one entry for each lane of a set. -/
def CapIn.members (c : CapIn) (f : CapFlow) : List Nat :=
  if f.pool then (List.range 32).filter fun ch => bit (Tab.get 0 c.pools f.tgt) ch else Tab.get [] c.sets f.tgt

/-- Whether a channel has capacity. -/
def CapIn.has (c : CapIn) (ch : Nat) : Bool := c.chans.any fun x => x.ch == ch

/-- The share of a target that falls on a channel, as a fraction (R99). -/
def CapIn.share (c : CapIn) (f : CapFlow) (ch : Nat) : Nat × Nat :=
  let l := c.members f
  if f.pool then (b2n (l.contains ch && c.has ch), max 1 (l.filter c.has).length)
  else (if c.has ch then (l.filter fun d => d == ch).length else 0, 256)

/-- The channel on which a flow with nowhere to be served is placed: the lowest its target names, or channel 0 (R99). -/
def CapIn.nowhere (c : CapIn) (f : CapFlow) : Option Nat :=
  let l := c.members f
  if l.any c.has then none else some ((minOf l).getD 0)

/-- The demand of class `k` on a channel. -/
def CapIn.demand (c : CapIn) (ch k : Nat) : Nat :=
  (c.flows.map fun f =>
    if f.cls = k then
      let p := c.share f ch
      f.count * cdiv (f.guar * (if f.double then 2 else 1) * p.1) p.2
    else 0).sum

/-- Units of each entry of a list within `left` units, in index order. -/
def segsOf (l : GateList) : Nat → List Nat → List Nat
  | _, [] => []
  | left, n :: t =>
    let d := min (l.ent n).dur left
    d :: segsOf l (left - d) t

/-- The segments of a list within emin: entry, units, mask; those of no time are left out, and the closing entry takes the rest (R53). -/
def segments (l : GateList) (emin : Nat) : List (Nat × Nat × Nat) :=
  let ns := List.range l.len
  let d := segsOf l emin ns
  let rest := emin - d.sum
  let close := l.closing
  (ns.zipWith (fun n u => (n, (if close = some n then u + rest else u), (l.ent n).mask)) d).filter fun e => e.2.1 != 0

/-- Runs of class `k` that end along segments, the last one not counted. -/
def runEnds (k : Nat) : List (Nat × Nat × Nat) → Nat
  | a :: b :: t => b2n (bit a.2.2 k && !bit b.2.2 k) + runEnds k (b :: t)
  | _ => 0

/-- guard_runs of R101. -/
def guardRuns (k : Nat) (l : List (Nat × Nat × Nat)) : Nat :=
  runEnds k l + match l.getLast?, l.head? with
    | some z, some a => b2n (bit z.2.2 k && !bit a.2.2 k)
    | _, _ => 0

/-- Open units of class `k` less its guards; 0 stands for none or fewer. -/
def openUnits (k guard : Nat) (l : List (Nat × Nat × Nat)) : Nat :=
  ((l.filter fun e => bit e.2.2 k).map fun e => e.2.1).sum - guardRuns k l * cdiv guard 64

/-- The load of each window of a list on a channel, and whether a class has demand and no open time. -/
def CapIn.loads (c : CapIn) (ch : Nat) (l : GateList) : Bool × List (Nat × Nat) :=
  let segs := segments l c.emin
  let ks := (List.range 15).map fun k => (k, c.demand ch k, openUnits k (c.guards.getD k 0) segs)
  let used := ks.filter fun e => e.2.1 != 0
  (used.any fun e => e.2.2 == 0,
    segs.map fun s => (s.1, ((used.filter fun e => bit s.2.2 e.1).map fun e => (e.2.1 * 65536 + e.2.2 - 1) / e.2.2).sum))

/-- The first window at which a channel fails under a list. -/
def CapIn.failUnder (c : CapIn) (x : CapChan) (l : GateList) : Option CapFail :=
  let r := c.loads x.ch l
  if r.1 then some { ch := x.ch, dom := x.dom, win := 0xFF }
  else (r.2.find? fun e => decide (x.cap < e.2)).map fun e => { ch := x.ch, dom := x.dom, win := e.1 }

/-- The first window at which a channel fails. -/
def CapIn.failOf (c : CapIn) (x : CapChan) : Option CapFail := x.lists.findSome? (c.failUnder x)

/-- Flows with nowhere to be served, by the channel they are placed on. -/
def CapIn.lost (c : CapIn) : List CapFail :=
  sortBy (fun x => [x.ch]) (c.flows.filterMap fun f => (c.nowhere f).map fun ch => { ch := ch, dom := Tab.get 0 c.doms ch, win := 0xFE })

/-- Every failing channel with its first failing window: flows with nowhere to be served first (R99). -/
def CapIn.fails (c : CapIn) : List CapFail := c.lost ++ c.chans.filterMap c.failOf

/-- LOAD of R462: the largest window load of a channel, with its window. -/
def CapIn.topLoad (c : CapIn) (x : CapChan) : Nat × Nat :=
  (x.lists.flatMap fun l => (c.loads x.ch l).2).foldl (fun b e => if b.1 < e.2 then (e.2, e.1) else b) (0, 0)

/-- A margin in per mille. -/
def marginOf (cap load : Nat) : Nat := if cap = 0 then 0 else (cap - load) * 1000 / cap

/-- The tightest channel and window with their margin: ties go to the lowest channel, then the lowest window (R462). -/
def CapIn.tightest (c : CapIn) : Nat × CapFail :=
  if c.flows.isEmpty then (1000, { ch := 0, dom := 0, win := 0 })
  else
    c.chans.foldl (fun (b : Nat × CapFail) x =>
      let l := (x.lists.flatMap fun l => (c.loads x.ch l).2).map fun e => (marginOf x.cap e.2, { ch := x.ch, dom := x.dom, win := e.1 : CapFail })
      l.foldl (fun (b : Nat × CapFail) e => if e.1 < b.1 then e else b) b) (1001, { ch := 0, dom := 0, win := 0 }) |>
    fun b => if b.1 = 1001 then (1000, b.2) else b

/-! ### The inputs -/

/-- cap of R101 for CK_KHZ `ck`, CCLK_KHZ `cclk`. -/
def capOf (ck cclk : Nat) (hot : Bool) : Nat := if cclk = 0 then 0 else 1024 * ck * (if hot then 760 else 800) * 65536 / (cclk * 1000)

/-- CCLK_KHZ and NOMINAL_CCLK of an image. -/
def Image.cclkKhz (i : Image) : Nat := (i.tick.map (·.cclkKhz)).getD 0
def Image.nomCclk (i : Image) : Nat := (i.tick.map (·.cclk)).getD 0

/-- A CHANNEL record as the test counts it: the ceiling falls where HOT is set or a die reports a raised refresh rate (R100). -/
def State.capChan (s : State) (cclk : Nat) (lists : Nat → List GateList) (r : ChanRec) : CapChan :=
  { ch := r.ch, dom := r.domain, cap := capOf r.ck cclk (bit r.options 3 || s.refRaised r.ch), lists := lists r.domain }

/-- The guaranteed flows of FLOW records. -/
def Image.capFlows (i : Image) : List CapFlow :=
  (i.flows.filter fun r => r.guarantee != 0).map fun r =>
    { f := r.first, cls := r.cls, rank := r.rank, double := bit r.policy 3, pool := bit r.target 7, tgt := r.target % 8, count := r.count
      guar := r.guarantee }

/-- The channel masks of pools. -/
def Image.capPools (i : Image) : Tab Nat := i.pools.map fun r => (r.pool, r.mask)

/-- A context as the test counts it. -/
def Flow.cap (x : Flow) (f : Nat) : CapFlow :=
  { f := f, cls := x.cls, rank := x.rank, double := bit x.policy 3, pool := bit x.target 7, tgt := x.target % 8, guar := x.guarantee }

/-- Defined, guaranteed, unsuspended contexts. -/
def capFlowsOf (t : Tab Flow) : List CapFlow :=
  (t.filter fun e => e.2.defined && e.2.guarantee != 0 && !e.2.suspended).map fun e => e.2.cap e.1

/-- Context `x` with the configuration part of `y`; the buckets are filled where a rate or a burst changed (R283). -/
def Flow.withConfig (x y : Flow) : Flow :=
  let refill := x.cir != y.cir || x.pir != y.pir || x.cbs != y.cbs || x.pbs != y.pbs
  { y with
    suspended := x.suspended, demoted := x.demoted, urgency := x.urgency
    tc := if refill then y.cbs else x.tc, tp := if refill then y.pbs else x.tp
    tLast := x.tLast, fracC := x.fracC, fracP := x.fracP, winId := x.winId, winUsed := x.winUsed, oldest := x.oldest, pending := x.pending }

/-- Contexts with the FLOW_CONFIG writes of `l` applied (R283). -/
def withWrites (flows l : Tab Flow) : Tab Flow :=
  l.foldl (fun (t : Tab Flow) e => Tab.insert e.1 ((Tab.get ({} : Flow) flows e.1).withConfig e.2) t) flows

/-- The contexts with every pending FLOW_CONFIG write applied. -/
def State.flowsPending (s : State) : Tab Flow := withWrites s.traffic.flows s.flowPendAll

/-- The lane maps in force of the sets that the configuration defines. -/
def State.capSets (s : State) (i : Image) : Tab (List Nat) := i.isets.map fun r => (r.set, (List.range 256).map (s.laneCh r.set))

/-- The lists of a domain that admission tests: the active one, and the shadow where it is armed (R98). -/
def State.admLists (s : State) (d : Nat) : List GateList :=
  let g := s.gate d
  if g.armed then [g.active, g.shadow] else [g.active]

/-- The guard times that will be in force after the next tick. -/
def State.admGuards (s : State) : List Nat := (List.range 16).map fun c => s.pendOr R.GATE_GUARD_GUARD c 0

/-- emin of R301, in gate units. -/
def State.eminNow (s : State) : Nat :=
  if s.tick.ic * 1000 < 995 * s.nomCclk then s.tick.ic / 64 else s.nomCclk * 995 / 1000 / 64

/-- Whether a channel counts in the run-time test: it is in service, not held, and no partial image quiesces it (R301, R334). -/
def State.capHas (s : State) (ch : Nat) : Bool :=
  s.inService ch && !s.seqRuns ch && !(s.chan ch).imgHold && s.rd R.CH_CTL_HOLD ch == 0

/-- The inputs of the test over given channels and flows of a configuration in force. -/
def State.capNow (s : State) (i : Image) (has : Nat → Bool) (lists : Nat → List GateList) (guards : List Nat) (flows : List CapFlow) : CapIn :=
  let rs := sortBy (fun (r : ChanRec) => [r.ch]) i.chans
  { chans := (rs.filter fun r => has r.ch).map (s.capChan i.cclkKhz lists)
    doms := rs.map fun r => (r.ch, r.domain)
    emin := s.eminNow, guards := guards, flows := flows, sets := s.capSets i, pools := i.capPools }

/-- The run-time capacity test's inputs, over `flows` (R301). -/
def State.capRun (s : State) (flows : List CapFlow) : CapIn :=
  s.capNow (s.conf.getD {}) s.capHas (fun d => [(s.gate d).active]) ((List.range 16).map fun c => s.rd R.GATE_GUARD_GUARD c) flows

/-- The inputs of the admission of a partial image: the configuration with the unit's records replaced; the channel that the image replaces
has capacity (R98). -/
def State.capPartial (s : State) (img : Image) : CapIn :=
  let cf := s.conf.getD {}
  let mine (ch : Nat) : Bool := img.chans.any fun r => r.ch == ch
  let cf := { cf with chans := cf.chans.map fun r => (img.chans.find? fun q => q.ch == r.ch).getD r }
  s.capNow cf (fun ch => mine ch || s.capHas ch) s.admLists s.admGuards (capFlowsOf s.flowsPending)

/-- The inputs of the admission of a full image: every channel it names, its own lists, guard times, flows and maps (R98). -/
def State.capFull (s : State) (img : Image) : CapIn :=
  let lists (d : Nat) : List GateList :=
    let a : GateList := match img.gates.find? fun r => r.d == d with
      | some r => { len := r.len, ents := (List.range r.len).map fun n => (n, r.ents.getD n {}) }
      | none => {}
    let g := s.gate d
    if g.armed then [a, g.shadow] else [a]
  let guard (c : Nat) : Nat := (Tab.find s.pendAll (R.GATE_GUARD_GUARD.key c 0)).getD
    (match img.classes.find? fun r => r.cls == c with
      | some r => r.guard
      | none => s.rd R.GATE_GUARD_GUARD c)
  let rs := sortBy (fun (r : ChanRec) => [r.ch]) img.chans
  { chans := rs.map (s.capChan img.cclkKhz lists), doms := rs.map fun r => (r.ch, r.domain)
    emin := img.nomCclk * 995 / 1000 / 64, guards := (List.range 16).map guard, flows := img.capFlows
    sets := img.isets.map fun r => (r.set, r.lanes), pools := img.capPools }

/-! ### Figures and records (R462) -/

/-- What an admission finds: its first failure, and the channel and window it names, the tightest where it passes (R102, R462). -/
def CapIn.outcome (c : CapIn) : Adm :=
  let f := c.fails
  { fail := f.head?, at_ := f.headD c.tightest.2 }

/-- Record the outcome of an admission in ADM_LAST: source 1 full image, 2 partial image, 3 FLOW_CONFIG write. -/
def State.admLast (s : State) (source : Nat) (a : Adm) : State :=
  let s := ((s.wr R.ADM_LAST_SOURCE 0 0 source).wr R.ADM_LAST_FAILED 0 0 (b2n a.fail.isSome)).wr R.ADM_LAST_CHANNEL 0 0 a.at_.ch
  (s.wr R.ADM_LAST_DOMAIN 0 0 a.at_.dom).wr R.ADM_LAST_WINDOW 0 0 a.at_.win

/-- Record the figures of a set of flows that passes. -/
def State.figures (s : State) (c : CapIn) : State :=
  let t := c.tightest
  let s := ((s.wr R.ADM_MARGIN_MARGIN 0 0 t.1).wr R.ADM_MARGIN_CHANNEL 0 0 t.2.ch).wr R.ADM_MARGIN_WINDOW 0 0 t.2.win
  let s := (s.wr R.ADM_MARGIN_DOMAIN 0 0 t.2.dom).wr R.ADM_MARGIN_VALID 0 0 1
  (List.range s.C).foldl (fun (s : State) ch =>
    match c.chans.find? fun x => x.ch == ch with
    | none => (s.wr R.ADM_CH_LOAD ch 0 0).wr R.ADM_CH_CAP ch 0 0
    | some x => (s.wr R.ADM_CH_LOAD ch 0 (cdiv (c.topLoad x).1 4096)).wr R.ADM_CH_CAP ch 0 (x.cap / 4096)) s

/-- The figures over the flows in force. -/
def State.figuresNow (s : State) : State := s.figures (s.capRun (capFlowsOf s.traffic.flows))

/-! ### Suspension and restoration (R302 to R305) -/

/-- Whether a flow has a share on one of some channels (R99, R303). -/
def CapIn.loadsOn (c : CapIn) (f : CapFlow) (chs : List Nat) : Bool :=
  match c.nowhere f with
  | some ch => chs.contains ch
  | none => chs.any fun ch => (c.share f ch).1 != 0

/-- The flows that suspension takes, in order: RANK, CLASS and number descending among those with a share on a failing channel, until the
test passes (R303). `n` bounds the rounds by the number of flows. -/
def State.suspendList (s : State) : Nat → List CapFlow → List CapFlow
  | 0, _ => []
  | n + 1, l =>
    let c := s.capRun l
    let f := c.fails
    if f.isEmpty then []
    else
      let chs := f.map (·.ch)
      match firstBy (fun (x : CapFlow) => [15 - x.rank, 15 - x.cls, 2 ^ 20 - x.f]) (l.filter fun x => c.loadsOn x chs) with
      | none => []
      | some x => x :: s.suspendList n (l.filter fun y => y.f != x.f)

/-- Flows that the test leaves unsuspended, if suspension ran now. -/
def State.survivors (s : State) : List CapFlow :=
  let l := capFlowsOf s.traffic.flows
  let gone := (s.suspendList l.length l).map (·.f)
  l.filter fun x => !gone.contains x.f

/-- Set SUSPENDED of a flow. -/
def State.setSusp (s : State) (f : Nat) (b : Bool) : State := s.setFlow f { Tab.get ({} : Flow) s.traffic.flows f with suspended := b }

/-- The suspension list has changed at a tick: its events and TR_OVC_EPOCH (R305, R309). -/
def State.ovcChanged (s : State) (before : List Nat) : State :=
  let now := s.traffic.susp
  if now = before then s
  else
    let s := s.wr R.TR_OVC_EPOCH_EPOCH 0 0 s.tick.epoch
    let s := if before.isEmpty then ((s.setBit R.TR_STATUS_OVC_ENTER 0 0).raise 7 5).raise 7 4 else s
    let s := (s.setBit R.TR_STATUS_OVC_CHANGE 0 0).raise 7 6
    if now.isEmpty then (s.setBit R.TR_STATUS_OVC_CLEAR 0 0).raise 7 7 else s

/-- Suspend what R303 takes. -/
def State.suspendAll (s : State) : State :=
  let l := capFlowsOf s.traffic.flows
  (s.suspendList l.length l).foldl (fun (s : State) x =>
    let s := (s.setSusp x.f true).count { ev := 0x0AE }
    { s with traffic := { s.traffic with susp := s.traffic.susp ++ [x.f] } }) s

/-- Restore flows from the end of the list while the test passes (R304). -/
def State.restoreAll (s : State) : Nat → State
  | 0 => s
  | n + 1 =>
    match s.traffic.susp.getLast? with
    | none => s
    | some f =>
      let x := Tab.get ({} : Flow) s.traffic.flows f
      let l := if x.defined && x.guarantee != 0 then [x.cap f] else []
      if ((s.capRun (capFlowsOf s.traffic.flows ++ l)).fails).isEmpty then
        let s := (s.setSusp f false).count { ev := 0x0AF }
        State.restoreAll { s with traffic := { s.traffic with susp := s.traffic.susp.dropLast } } n
      else s

/-- Whether the outcome of a completed test takes effect at tick cycle `c`: one that follows the cycle in which it completed (R302). -/
def State.testDue (s : State) (c : Nat) : Bool := s.traffic.testDone && decide (s.traffic.testAt < c)

/-- What tick cycle `c` does about Overcast in step 5 of R63: a completed test's outcome, or restoration once OVC_HOLD ticks have passed without a
change; where both would come, the outcome alone, and the hold starts again (R302 to R304). -/
def State.overcastTick (s : State) (c : Nat) : State :=
  let before := s.traffic.susp
  let hold := s.traffic.hold + 1
  let ready := decide (s.rd R.TR_CTL_OVC_HOLD ≤ hold)
  if s.testDue c then
    let fail := s.traffic.testFails
    let s := { s with traffic := { s.traffic with testDone := false, testFails := false, hold := if ready && !before.isEmpty then 0 else hold } }
    if fail then s.suspendAll.ovcChanged before else s
  else
    let s := { s with traffic := { s.traffic with hold := hold } }
    if ready then (s.restoreAll before.length).ovcChanged before else s

/-- CAPACITY_TEST_DONE: the run-time test completes, no sooner than the cycle after it started; its outcome waits for a tick of a later cycle, its figures
stand at once (R302, R305, R462). -/
def execCapacityTestDone (s : State) : Host.Outcome State Fault Refusal :=
  if s.traffic.testing = false ∨ s.conf.isNone = true then .next s
  else
    let f := (s.capRun (capFlowsOf s.traffic.flows)).fails
    let s := s.count { ev := 0x0AD }
    let s := { s with traffic := { s.traffic with testing := false, testDone := true, testFails := !f.isEmpty, testAt := max s.cclk (s.traffic.testFrom + 1) } }
    let s := match f.head? with
      | none => s
      | some x =>
        (((s.wr R.TR_OVC_FAIL_CHANNEL 0 0 x.ch).wr R.TR_OVC_FAIL_DOMAIN 0 0 x.dom).wr R.TR_OVC_FAIL_WINDOW 0 0 x.win).wr R.TR_OVC_FAIL_VALID 0 0 1
    .next (s.figures (s.capRun s.survivors))

end Sys2Proof.Machine
end

