-- ==== Sys2Proof/Machine/Events.lean ====
section
/-! DEFINITION. The event unit: acknowledgement, enabling, moderation, posting and routing (R417 to R424). -/

namespace Sys2Proof.Machine
open Sys2Proof

/-- Sources of a group that are pending, enabled and not posted (R419). -/
def State.unposted (s : State) (g : Nat) : Nat :=
  let e := s.evt g
  let l := e.pending &&& s.rd R.EVT_GRP_EN_ENABLE g
  l ^^^ (l &&& e.posted)

/-- Whether the group's MODE lets it post now (R419). -/
def State.modeAllows (s : State) (g : Nat) : Bool :=
  let e := s.evt g
  match s.rd R.EVT_GRP_CFG_MODE g with
  | 0 => true
  | 1 => decide (s.rd R.EVT_GRP_CFG_COUNT g ≤ e.raises) || e.expired
  | _ => !e.holdoff

/-- Whether a group is due (R419, R421). -/
def State.due (s : State) (g : Nat) : Bool := s.unposted g != 0 && ((s.evt g).bypass || s.modeAllows g)

/-- Whether group `a` goes before group `b`: PRIO, then the lower number (R420). -/
def State.before (s : State) (a b : Nat) : Bool :=
  lexLt [s.rd R.EVT_GRP_CFG_PRIO a, a] [s.rd R.EVT_GRP_CFG_PRIO b, b]

/-- Whether a post to target `t` is in progress (R420). -/
def State.posting (s : State) (t : Nat) : Bool :=
  match Tab.find s.posts t with
  | some (_, p, _) => decide (s.cclk ≤ p + 3)
  | none => false

/-- Whether group `g` may post now: it is due, no post to its target is in progress, and no due group of the target goes before it. -/
def State.mayPost (s : State) (g : Nat) : Bool :=
  let t := s.evtTarget g
  s.power.st < 2 && s.rd R.EVT_CTL_DISABLE == 0 && decide (g < 32) && s.due g && !s.posting t &&
    !((List.range 32).any fun h => s.evtTarget h == t && s.due h && s.before h g)

/-- GROUP_POST: cycle P of a post (R419 to R421). -/
def execGroupPost (g : Nat) (s : State) : Host.Outcome State Fault Refusal :=
  if s.mayPost g = false then .next s
  else
    let e := s.evt g
    let l := s.unposted g
    let s' := s.setEvt g { e with
      posted := e.posted ||| l, fresh := l, raises := 0, timed := false, expired := false, bypass := false, resumed := false
      holdoff := s.rd R.EVT_GRP_CFG_MODE g == 2 }
    .next { s' with posts := Tab.insert (s.evtTarget g) (g, s.cclk, !e.resumed) s.posts }

/-- HOLDOFF_EXPIRY: the timer runs out (R419). -/
def execHoldoffExpiry (g : Nat) (s : State) : Host.Outcome State Fault Refusal :=
  if (s.evt g).holdoff = false ∨ s.cclkRuns = false then .next s else .next (s.setEvt g { s.evt g with holdoff := false })

/-- COALESCE_TIME_EXPIRY: TIME units have passed since the first counted raise after the last post (R419). -/
def execCoalesceTimeExpiry (g : Nat) (s : State) : Host.Outcome State Fault Refusal :=
  if (s.evt g).timed = false ∨ s.rd R.EVT_GRP_CFG_MODE g ≠ 1 ∨ s.cclkRuns = false then .next s
  else .next (s.setEvt g { s.evt g with expired := true })

/-- Clear the bits of `m` in `v`. -/
def clearBits (v m : Nat) : Nat := v ^^^ (v &&& m)

/-- A write of EVT_ACK: pending and posted state of the named sources clears; the raise count and the timers stay (R422; log entry 17). -/
def State.writeEvtAck (s : State) (w : Nat) : State :=
  let g := bits w 0 5
  let m := bits w 16 16
  let e := s.evt g
  s.setEvt g { e with pending := clearBits e.pending m, posted := clearBits e.posted m }

/-- EVT_ACK. -/
def execEvtAck (w : Word) (tgt : Nat) (s : State) : Host.Outcome State Fault Refusal :=
  .next (s.regAccess 0x10008 w tgt fun w s => s.writeEvtAck w)

/-- A write of EVT_CTL: where DISABLE returns to 0, the groups then due post past R421 (R423). -/
def State.writeEvtCtl (s : State) (w tgt : Nat) : State :=
  let was := s.rd R.EVT_CTL_DISABLE
  let s := s.writeReg [⟨R.EVT_CTL_DISABLE, 0, 0⟩] [] 0x10000 w tgt
  if was = 1 ∧ s.rd R.EVT_CTL_DISABLE = 0 then
    (List.range 32).foldl (fun (s : State) g => if s.due g then s.setEvt g { s.evt g with resumed := true } else s) s
  else s

/-- EVT_DISABLE. -/
def execEvtDisable (w : Word) (tgt : Nat) (s : State) : Host.Outcome State Fault Refusal :=
  .next (s.regAccess 0x10000 w tgt fun w s => s.writeEvtCtl w tgt)

/-- A write of EVT_GRP_EN: a pending source that it enables counts as raised (R417). -/
def State.writeEvtEn (s : State) (g w : Nat) : State :=
  let was := s.rd R.EVT_GRP_EN_ENABLE g
  let s := s.wr R.EVT_GRP_EN_ENABLE g 0 w
  (List.range 16).foldl (fun (s : State) n =>
    if bit w n && !bit was n && bit (s.evt g).pending n then s.raise g n else s) s

/-- Byte address of a group's event registers. -/
def evtAddr (g o : Nat) : Nat := 0x10100 + g * 0x10 + o

/-- Whether MODE, COUNT and TIME of a group stay in the ranges of R89, given as they would stand (R425). -/
def evtRangeOk (b : Build) (mode count time : Nat) : Bool :=
  if mode = 0 then true
  else if mode = 1 then b.coalesces && decide (1 ≤ count) && decide (4 ≤ time ∧ time ≤ 40000)
  else mode == 2 && !b.coalesces && count == 0 && decide (1 ≤ time ∧ time ≤ 40000)

/-- A write of EVT_GRP_CFG (`o` 0) or EVT_GRP_TIME (`o` 4): a write out of range is ignored in whole (R425). -/
def State.writeEvtCfg (s : State) (g o w tgt : Nat) : State :=
  let pend (f : Fld) : Nat := s.pendOr f g 0
  let ok := if o = 0 then evtRangeOk s.build (bits w 4 2) (bits w 8 8) (pend R.EVT_GRP_TIME_TIME)
    else evtRangeOk s.build (pend R.EVT_GRP_CFG_MODE) (pend R.EVT_GRP_CFG_COUNT) (bits w 0 16)
  if ok = false then s.cfgBusy (evtAddr g o) tgt
  else if o = 4 then s.writeReg [⟨R.EVT_GRP_TIME_TIME, g, 0⟩] [] (evtAddr g o) w tgt
  else
    let l : List Slot := [⟨R.EVT_GRP_CFG_MODE, g, 0⟩, ⟨R.EVT_GRP_CFG_PRIO, g, 0⟩, ⟨R.EVT_GRP_CFG_COUNT, g, 0⟩]
    s.writeReg (if g < 24 then ⟨R.EVT_GRP_CFG_TARGET, g, 0⟩ :: l else l) [] (evtAddr g o) w tgt

/-- TARGET of group `g` becomes `t` at a tick: what it had posted leaves the old target and is posted to the new one past its moderation
(R418). -/
def State.retarget (s : State) (g t : Nat) : State :=
  if 24 ≤ g ∨ t = s.rd R.EVT_GRP_CFG_TARGET g then s
  else
    let e := s.evt g
    let s := s.wr R.EVT_GRP_CFG_TARGET g 0 t
    if e.posted &&& e.pending = 0 then s else s.setEvt g { e with posted := 0, bypass := true }

end Sys2Proof.Machine
end

