-- ==== Sys2Proof/Machine/ImageParse.lean ====
section
/-! DEFINITION. Reading an image: the header checks, the records with their framing and field checks, and the cross-record rules (R68 to R90,
R96, R97, R174, R325). -/

namespace Sys2Proof.Machine
open Sys2Proof

/-! ### Bytes -/

/-- The little-endian number of a list of byte values. -/
def leNum : List Nat → Nat
  | [] => 0
  | b :: t => b + 256 * leNum t

/-- The `n`-byte field at offset `o`. -/
def fieldAt (l : List Nat) (o n : Nat) : Nat := leNum ((l.drop o).take n)

/-- The bytes of image words, first word first. -/
def wordBytes (l : List Word) : List Nat := l.flatMap fun w => (List.range 4).map fun k => w.toNat / 2 ^ (8 * k) % 256

/-- The CRC of an image: bytes 0x1C to 0x1F count as 0 (R69). -/
def imageCrc (l : List Nat) : Nat := crc32c ((l.take 28 ++ [0, 0, 0, 0] ++ l.drop 32).map (BitVec.ofNat 8))

/-! ### Header (R69, R96 stage 1) -/

/-- Whether a scope code names a unit of the build: 0 global, 1 group, 2 channel, 3 domain (R72). -/
def scopeKind (b : Build) (c : Nat) : Option Nat :=
  if c = 0 then some 0
  else if 0x20 ≤ c ∧ c < 0x20 + b.groups then some 1
  else if 0x40 ≤ c ∧ c < 0x40 + b.channels then some 2
  else if 0x80 ≤ c ∧ c ≤ 0x87 then some 3
  else none

/-- The first check of the header that fails; `configured` says that a configuration is in force (R94, R96). -/
def headerError (b : Build) (configured : Bool) (h : List Nat) : Option ImgErr :=
  let sc := fieldAt h 6 1
  let full := sc == 0xFF
  let len := fieldAt h 12 4
  let kind := scopeKind b sc
  let checks : List (Bool × Nat × Nat) := [
    (fieldAt h 0 4 != 0x49585253, 0x01, 0x0),
    (fieldAt h 5 1 != 1, 0x02, 0x4),
    (fieldAt h 8 2 != b.part, 0x03, 0x8),
    (!full && kind != some 1 && kind != some 2, 0x04, 0x6),
    (decide (2 ≤ fieldAt h 7 1), 0x0B, 0x7),
    (fieldAt h 10 2 != (if bit (fieldAt h 7 1) 0 then 104 else 0), 0x05, 0xA),
    (len % 4 != 0 || decide (len < 36) || decide (0x100000 < len), 0x05, 0xC),
    (fieldAt h 0x14 8 != 0, 0x0B, 0x14),
    (full && configured, 0x13, 0x6),
    (!full && !configured, 0x14, 0x6)]
  (checks.find? fun e => e.1).map fun e => { code := e.2.1, off := e.2.2 }

/-! ### Field checks (R76 to R90, R96 stage 6) -/

/-- A field error of the record of type `ty` at offset `o`: payload offsets above 255 do not fit FIELD (R97). -/
def fieldErr (code o ty f : Nat) : ImgErr :=
  if 255 < f then { code := code, off := o + 4 + f, recType := ty, field := 0xFF } else { code := code, off := o, recType := ty, field := f }

/-- The first failing check of a list of (fails, FIELD), each BAD_FIELD. -/
def firstBad (l : List (Bool × Nat)) : Option (Nat × Nat) := (l.find? fun e => e.1).map fun e => (0x0B, e.2)

/-- Whether a value lies outside a range. -/
def outside (v lo hi : Nat) : Bool := decide (v < lo ∨ hi < v)

/-- Checks of a TICK payload; the rate test and then the consistency test span fields (R76, R77). -/
def tickBad (p : List Nat) : Option (Nat × Nat) :=
  let nt := fieldAt p 0 4
  let nc := fieldAt p 4 4
  let ft := fieldAt p 8 4
  let fc := fieldAt p 12 4
  let d := if nc * ft ≤ nt * fc then nt * fc - nc * ft else nc * ft - nt * fc
  firstBad [(outside ft 10000 250000, 8), (outside fc 1000000 1333334, 12),
    (!(decide (23976 * nt ≤ ft * 1000000) && decide (ft * 1000000 ≤ 240000 * nt)), 8),
    (!decide (d * 1000 ≤ nt * fc), 12)]

/-- MR8 values that call for a byte-mode die or for another organisation than the engine's, 8-bank organisation among them (R6, R78; PRESUMED, log
entry 10). -/
def mr8Unsupported (v : Nat) : Bool := bits v 6 2 != 0

/-- Checks of a CHANNEL payload (R78). -/
def channelBad (p : List Nat) : Option (Nat × Nat) :=
  let a := firstBad [(outside (fieldAt p 0 4) 400000 1333334, 0), (outside (fieldAt p 4 1) 1 2, 4),
    (!([8, 12, 16, 24, 32] : List Nat).contains (fieldAt p 5 1), 5), (outside (fieldAt p 6 1) 0 7, 6), (outside (fieldAt p 7 1) 0 31, 7)]
  match a with
  | some e => some e
  | none => if mr8Unsupported (fieldAt p 10 1) then some (0x0C, 10) else firstBad [(fieldAt p 11 5 != 0, 11)]

/-- Required parameters; tRTRS only with two ranks (R323). -/
def timingCodes : List Nat := (List.range 36).map fun k => k + 1

/-- Entries of a DRAM_TIMING payload: parameter, value, payload offset. -/
def timingEntries (p : List Nat) : List (Nat × Nat × Nat) :=
  (List.range (p.length / 4)).map fun k => (p.getD (4 * k) 0, fieldAt p (4 * k + 2) 2, 4 * k)

/-- The relations of R325 over the parameters of a record: the parameters involved, and whether the relation fails. -/
def timingRelations (t : Nat → Nat) : List (List Nat × Bool) := [
  ([0x05, 0x04, 0x02], decide (t 0x05 < t 0x04 + t 0x02)),
  ([0x04, 0x01], decide (t 0x04 < t 0x01)),
  ([0x11, 0x12], decide (t 0x11 ≤ t 0x12)),
  ([0x11, 0x14], decide (t 0x11 / 32 < t 0x14 + 15)),
  ([0x11, 0x12, 0x03], decide (t 0x11 / 4 < t 0x12 + t 0x03 + 30)),
  ([0x11, 0x04, 0x07, 0x0C, 0x02, 0x03], decide (t 0x11 / 8 ≤ t 0x04 + t 0x07 + t 0x0C + max (t 0x02) (t 0x03) + 49))]

/-- Checks of a DRAM_TIMING payload: entry by entry, then the relations (R79, R325). -/
def timingBad (p : List Nat) : Option (Nat × Nat) :=
  let es := timingEntries p
  let one (e : Nat × Nat × Nat) : Option (Nat × Nat) :=
    if timingCodes.contains e.1 = false then some (0x0B, e.2.2)
    else if p.getD (e.2.2 + 1) 0 ≠ 0 then some (0x0B, e.2.2 + 1)
    else if 2 ^ timingWidth e.1 ≤ e.2.1 then some (0x0B, e.2.2 + 2)
    else if es.any fun d => d.1 == e.1 && decide (d.2.2 < e.2.2) then some (0x0D, e.2.2)
    else none
  match es.findSome? one with
  | some e => some e
  | none =>
    let val (c : Nat) : Nat := ((es.find? fun d => d.1 == c).map fun d => d.2.1).getD 0
    let at_ (c : Nat) : Option Nat := (es.find? fun d => d.1 == c).map fun d => d.2.2
    ((timingRelations val).find? fun r => r.2 && r.1.all fun c => (at_ c).isSome).map fun r =>
      (0x0B, r.1.foldl (fun m c => max m ((at_ c).getD 0)) 0)

/-- Checks of a GATE_LIST payload: LEN, the reserved bits of each entry, and the test of R50 (R87). -/
def gateBad (p : List Nat) : Option (Nat × Nat) :=
  let n := fieldAt p 0 2
  let es := (List.range n).map fun k => (4 + 8 * k, fieldAt p (4 + 8 * k) 4, fieldAt p (8 + 8 * k) 4)
  firstBad ([(outside n 1 256, 0), (fieldAt p 2 2 != 0, 2)] ++
    es.flatMap (fun e => [(decide (2 ^ 20 ≤ e.2.1), e.1), (decide (2 ^ 17 ≤ e.2.2), e.1 + 4)]) ++
    [(es.all fun e => e.2.1 == 0, 0)])

/-- Checks of an EVENT_ROUTE payload under the build's modes and ranges (R89). -/
def routeBad (b : Build) (p : List Nat) : Option (Nat × Nat) :=
  let mode := fieldAt p 2 1
  let count := fieldAt p 3 1
  let time := fieldAt p 4 4
  match firstBad [(outside (fieldAt p 0 1) 0 31, 0), (outside (fieldAt p 1 1) 0 7, 1)] with
  | some e => some e
  | none =>
    if mode ≠ 0 ∧ mode ≠ (if b.coalesces then 1 else 2) then some (0x0C, 2)
    else firstBad [(outside time 0 65535, 4), (mode == 1 && count == 0, 3), (mode == 2 && count != 0, 3),
      (mode == 1 && outside time 4 40000, 4), (mode == 2 && outside time 1 40000, 4)]

/-- Checks of the payloads of the other types. -/
def plainBad (ty : Nat) (p : List Nat) : Option (Nat × Nat) :=
  let f := fieldAt p
  let ext := 2097152
  match ty with
  | 0x04 => firstBad [(outside (f 0 1) 0 7, 0), (outside (f 1 1) 0 7, 1), (f 2 2 != 0, 2)]
  | 0x05 => firstBad [(outside (f 0 1) 0 63, 0), (f 2 1 != 0 && f 2 1 != 2, 2), (outside (f 3 1) 0 3, 3),
      (decide (2 ^ 40 ≤ f 4 8) || f 4 8 % ext != 0, 4), (f 12 8 == 0 || f 12 8 % ext != 0, 12), (outside (f 20 1) 0 3, 20), (f 21 3 != 0, 21),
      (decide (2 ^ 40 < f 4 8 + f 12 8), 12)]
  | 0x06 => firstBad [(outside (f 0 1) 0 7, 0), (f 1 3 != 0, 1), (f 4 4 == 0, 4), (f 8 4 == 0, 8), (f 18 2 != 0, 18),
      (decide (f 12 2 ≤ f 14 2), 14), (decide (f 14 2 ≤ f 16 2), 16)]
  | 0x07 => firstBad [(outside (f 0 1) 0 1, 0), (outside (f 1 1) 0 3, 1), (f 2 2 == 0, 2), (outside (f 4 4) 256 1048576, 4)]
  | 0x08 => firstBad [(outside (f 0 1) 0 7, 0), (outside (f 1 1) 1 2, 1), (outside (f 2 1) 0 3, 2), (f 3 1 != 0, 3),
      (decide (2 ^ 20 ≤ f 4 4), 4), (f 10 2 != 0, 10)]
  | 0x09 => firstBad [(outside (f 0 1) 0 15, 0), (f 1 1 != 0, 1),
      (if 4 ≤ f 0 1 ∧ f 0 1 ≤ 14 then outside (f 16 4) 64 1048576 else f 16 4 != 0, 16)]
  | 0x0A => firstBad [(decide (2 ^ 20 ≤ f 0 4), 0), (f 4 4 == 0, 4), (outside (f 8 1) 0 15, 8), (outside (f 9 1) 0 15, 9),
      (bits (f 10 1) 0 2 == 3 || decide (16 ≤ f 10 1), 10), (bits (f 11 1) 3 4 != 0, 11),
      (decide (2 ^ 20 < f 0 4 + f 4 4), 4), (f 8 1 == 15 && f 12 4 != 0, 12), (bits (f 10 1) 0 2 == 2 && f 24 4 != 0, 24)]
  | 0x0C => firstBad [(outside (f 0 1) 0 8, 0), (outside (f 2 1) 0 56, 2), (outside (f 3 1) 0 1, 3), (f 4 4 != 0, 4)]
  | 0x0E => firstBad [(decide (8 ≤ f 0 4), 0)]
  | _ => none

/-- The first failing check of a payload: result code and FIELD. -/
def payloadBad (b : Build) (ty : Nat) (p : List Nat) : Option (Nat × Nat) :=
  match ty with
  | 0x01 => tickBad p
  | 0x02 => channelBad p
  | 0x03 => timingBad p
  | 0x0B => gateBad p
  | 0x0D => routeBad b p
  | _ => plainBad ty p

/-! ### Records -/

/-- The scope kind a known type takes: 0 global, 1 group, 2 channel, 3 domain (R73). -/
def typeScope (ty : Nat) : Option Nat :=
  if ty ∈ [0x02, 0x03] then some 2
  else if ty ∈ [0x07, 0x08, 0x0C] then some 1
  else if ty = 0x0B then some 3
  else if ty ∈ [0x01, 0x04, 0x05, 0x06, 0x09, 0x0A, 0x0D, 0x0E, 0xFF] then some 0
  else none

/-- Whether a payload length is one that the type has (R73, R87). -/
def lengthOk (ty n : Nat) (p : List Nat) : Bool :=
  match ty with
  | 0x01 | 0x02 | 0x07 => n == 16
  | 0x03 => n % 4 == 0 && decide (4 ≤ n ∧ n ≤ 256)
  | 0x04 => n == 260
  | 0x05 => n == 24
  | 0x06 | 0x09 => n == 20
  | 0x08 => n == 12
  | 0x0A => n == 40
  | 0x0B => decide (4 ≤ n) && n == 4 + 8 * fieldAt p 0 2
  | 0x0C | 0x0D => n == 8
  | 0x0E => n == 4
  | 0xFF => n == 0
  | _ => n % 4 == 0

/-- Add a record to what the image says. -/
def Image.add (i : Image) (ty sc o : Nat) (p : List Nat) : Image :=
  let f := fieldAt p
  match ty with
  | 0x01 => { i with tick := i.tick.orElse fun _ => some { tclk := f 0 4, cclk := f 4 4, tclkKhz := f 8 4, cclkKhz := f 12 4, off := o } }
  | 0x02 => { i with chans := i.chans ++ [{ ch := sc - 0x40, ck := f 0 4, ranks := f 4 1, density := f 5 1, domain := f 6 1, options := f 7 1
                                            mr5 := f 8 1, mr6 := f 9 1, mr8 := f 10 1, off := o }] }
  | 0x03 => { i with tims := i.tims ++ [{ ch := sc - 0x40, params := (timingEntries p).map fun e => (e.1, e.2.1), off := o }] }
  | 0x04 => { i with isets := i.isets ++ [{ set := f 0 1, domain := f 1 1, lanes := (p.drop 4).take 256, off := o }] }
  | 0x05 => { i with regions := i.regions ++ [{ region := f 0 1, set := f 1 1, prot := f 2 1, cache := f 3 1, base := f 4 8, size := f 12 8
                                                priv := f 20 1, off := o }] }
  | 0x06 => { i with pools := i.pools ++ [{ pool := f 0 1, mask := f 4 4, extents := f 8 4, low := f 12 2, lower := f 14 2, critical := f 16 2
                                            off := o }] }
  | 0x07 => { i with groups := i.groups ++ [{ g := sc - 0x20, style := f 0 1, gclass := f 1 1, watchdog := f 2 2, refill := f 4 4
                                              weights := (p.drop 8).take 8, off := o }] }
  | 0x08 => { i with ports := i.ports ++ [{ g := sc - 0x20, port := f 0 1, kind := f 1 1, privMax := f 2 1, flow := f 4 4, wait := f 8 2, off := o }] }
  | 0x09 => { i with classes := i.classes ++ [{ cls := f 0 1, guard := f 2 2, idle := f 4 4, send := f 8 4, limit := f 12 4, quantum := f 16 4
                                                off := o }] }
  | 0x0A => { i with flows := i.flows ++ [{ first := f 0 4, count := f 4 4, cls := f 8 1, rank := f 9 1, policy := f 10 1, target := f 11 1
                                            guarantee := f 12 4, latency := f 16 4, cir := f 20 4, pir := f 24 4, cbs := f 28 4, pbs := f 32 4
                                            budget := f 36 4, off := o }] }
  | 0x0B => { i with gates := i.gates ++ [{ d := sc - 0x80, len := f 0 2, off := o
                                            ents := (List.range (f 0 2)).map fun k => { dur := f (4 + 8 * k) 4, mask := f (8 + 8 * k) 4 } }] }
  | 0x0C => { i with caches := i.caches ++ [{ g := sc - 0x20, depth := f 0 1, wp := f 1 1, lockMax := f 2 1, motion := f 3 1, off := o }] }
  | 0x0D => { i with routes := i.routes ++ [{ sg := f 0 1, target := f 1 1, mode := f 2 1, count := f 3 1, time := f 4 4, off := o }] }
  | 0x0E => { i with permit := i.permit.orElse fun _ => some (f 0 4) }
  | _ => i

/-- What the pass over the records found: the records in order as (type, key, offset) for the occurrence counts, what they say, the first
failure, and the offset of END. -/
structure Parsed where
  img : Image := {}
  seen : List (Nat × Nat × Nat) := []
  err : Option ImgErr := none
  endOff : Nat := 0
deriving DecidableEq, Repr

/-- What distinguishes the occurrences of a type: its scope, its number, or the port within the group. -/
def recKey (ty sc : Nat) (p : List Nat) : Nat :=
  if ty ∈ [0x04, 0x05, 0x06, 0x09, 0x0D] then fieldAt p 0 1 else if ty = 0x08 then sc * 256 + fieldAt p 0 1 else sc

/-- A framing failure of the record at offset `o` whose bytes begin with `l`, in stage 5's order (R96). -/
def frameBad (b : Build) (hs len o : Nat) (l : List Nat) : Option ImgErr :=
  let ty := l.getD 0 0
  let sc := l.getD 1 0
  let n := fieldAt l 2 2
  let skip := decide (0x80 ≤ ty ∧ ty ≤ 0xFE)
  let kind := scopeKind b sc
  if len < o + 4 ∨ len < o + 4 + n then some { code := 0x08, off := o, recType := ty }
  else if skip = false ∧ typeScope ty = none then some { code := 0x09, off := o, recType := ty }
  else if kind = none then some { code := 0x04, off := o + 1, recType := ty }
  else if skip = false ∧ (typeScope ty ≠ kind ∨ (hs ≠ 0xFF ∧ ty ≠ 0xFF ∧ sc ≠ hs)) then some { code := 0x0A, off := o, recType := ty }
  else if lengthOk ty n (l.drop 4) = false ∨ (ty = 0xFF ∧ o + 4 + n ≠ len) then some { code := 0x08, off := o, recType := ty }
  else none

/-- The pass over the records of an image of LENGTH `len` and SCOPE `hs`: framing, then fields, record by record (R96 stages 5 and 6). Where END is
missing no record is there to be named, and REC_TYPE and FIELD are 0 (DESIGN CHOICE, log entry 119). Where a record fails, the skippable records counted
are those before it (DEDUCED, log entry 107). -/
def records (b : Build) (hs len : Nat) : Nat → Nat → List Nat → Parsed → Parsed
  | 0, _, _, a => { a with err := some { code := 0x08, off := len } }
  | fuel + 1, o, l, a =>
    if len ≤ o then { a with err := some { code := 0x08, off := len } }
    else
      match frameBad b hs len o l with
      | some e => { a with err := some e }
      | none =>
        let ty := l.getD 0 0
        let sc := l.getD 1 0
        let n := fieldAt l 2 2
        let p := (l.drop 4).take n
        if ty = 0xFF then { a with endOff := o }
        else if 0x80 ≤ ty then
          records b hs len fuel (o + 4 + n) (l.drop (4 + n)) { a with img := { a.img with skipped := a.img.skipped + 1 } }
        else
          match payloadBad b ty p with
          | some e => { a with err := some (fieldErr e.1 o ty e.2) }
          | none =>
            records b hs len fuel (o + 4 + n) (l.drop (4 + n))
              { a with img := a.img.add ty sc o p, seen := a.seen ++ [(ty, recKey ty sc p, o)] }

/-! ### Cross-record rules (R96 stage 7) -/

/-- The failure with the lowest offset; of equal ones, the first. -/
def lowest (l : List ImgErr) : Option ImgErr :=
  l.foldl (fun b e => match b with
    | none => some e
    | some x => if e.off < x.off then some e else b) none

/-- The types of which an image of a scope must hold one, with their scope code (R73, R74). -/
def needed (b : Build) (hs : Nat) (i : Image) : List (Nat × Nat) :=
  if hs = 0xFF then
    (0x01, 0) :: (if i.chans.isEmpty then [(0x02, 0)] else []) ++ (i.chans.map fun c => (0x03, c.ch + 0x40)) ++
      (List.range b.groups).map fun g => (0x07, g + 0x20)
  else if 0x40 ≤ hs then [(0x02, hs), (0x03, hs)]
  else [(0x07, hs)]

/-- Records that occur too often: a second of one key, or FLOW records past 1,024. -/
def tooMany (l : List (Nat × Nat × Nat)) : List ImgErr :=
  (List.range l.length).filterMap fun k =>
    let e := l.getD k (0, 0, 0)
    let before := l.take k
    let dup := if e.1 = 0x0A then decide (1024 ≤ (before.filter fun d => d.1 == 0x0A).length)
      else before.any fun d => d.1 == e.1 && d.2.1 == e.2.1
    if dup then some { code := 0x0D, off := e.2.2, recType := e.1 } else none

/-- Rule 1: occurrence counts and required parameters. -/
def rule1 (b : Build) (hs : Nat) (conf : Option Image) (a : Parsed) : Option ImgErr :=
  let i := a.img
  let miss := (needed b hs i).filterMap fun n =>
    if a.seen.any (fun d => d.1 == n.1 && (d.2.1 == n.2)) then none else some { code := 0x0E, off := a.endOff, recType := n.1 : ImgErr }
  let ranks (ch : Nat) : Nat := (((i.chans ++ ((conf.map (·.chans)).getD [])).find? fun c => c.ch == ch).map (·.ranks)).getD 1
  let params := i.tims.filterMap fun t =>
    let want := timingCodes.filter fun c => c != 0x24 || ranks t.ch == 2
    (want.find? fun c => !(t.params.any fun e => e.1 == c)).map fun c => { code := 0x0E, off := t.off, recType := 3, field := c : ImgErr }
  lowest (tooMany a.seen ++ miss ++ params)

/-- A CONFLICT at FIELD `f` of the record of type `ty` at `o`. -/
def conflict (o ty f : Nat) : ImgErr := fieldErr 0x0F o ty f

/-- Rule 2: references (R74, R80 to R86). -/
def rule2 (hs : Nat) (conf : Option Image) (i : Image) : Option ImgErr :=
  let has (ch : Nat) : Bool := i.chans.any fun c => c.ch == ch
  let here := if 0x40 ≤ hs ∧ hs ≠ 0xFF then
      (i.chans.filter fun c => !(((conf.map (·.chans)).getD []).any fun d => d.ch == c.ch)).map fun c => conflict c.off 2 0
    else (i.tims.filter fun t => !has t.ch).map fun t => conflict t.off 3 0
  let lanes := i.isets.filterMap fun r => (r.lanes.findIdx? fun ch => !has ch).map fun n => conflict r.off 4 (4 + n)
  let regions := (i.regions.filter fun r => !(i.isets.any fun t => t.set == r.set)).map fun r => conflict r.off 5 1
  let pools := (i.pools.filter fun r => (List.range 32).any fun ch => bit r.mask ch && !has ch).map fun r => conflict r.off 6 4
  let flows := (i.flows.filter fun r =>
    !(if bit r.target 7 then i.pools.any fun t => t.pool == r.target % 8 else i.isets.any fun t => t.set == r.target % 8)).map fun r =>
      conflict r.off 0x0A 11
  let weights := i.groups.flatMap fun r => (List.range 8).filterMap fun p =>
    let q := i.ports.find? fun t => t.g == r.g && t.port == p
    if (r.weights.getD p 0 != 0) == q.isSome then none
    else match q with
      | some t => if r.off < t.off then some (conflict t.off 8 0) else some (conflict r.off 7 (8 + p))
      | none => some (conflict r.off 7 (8 + p))
  lowest (here ++ lanes ++ regions ++ pools ++ flows ++ weights)

/-- Rule 3: a set's lanes lie on channels of its domain (R48, R80). -/
def rule3 (i : Image) : Option ImgErr :=
  lowest (i.isets.flatMap fun r => i.chans.filterMap fun c =>
    if c.domain = r.domain then none
    else (r.lanes.findIdx? fun ch => ch == c.ch).map fun n => if c.off < r.off then conflict r.off 4 (4 + n) else conflict c.off 2 6)

/-- Later records of overlapping ranges, given as (first, past the last, offset). -/
def overlaps (ty : Nat) (l : List (Nat × Nat × Nat)) : List ImgErr :=
  l.flatMap fun a => l.filterMap fun b =>
    if a.2.2 < b.2.2 ∧ a.1 < b.2.1 ∧ b.1 < a.2.1 then some (conflict b.2.2 ty 0) else none

/-- Rule 4: regions and flow ranges do not overlap. -/
def rule4 (i : Image) : Option ImgErr :=
  lowest (overlaps 5 (i.regions.map fun r => (r.base, r.base + r.size, r.off)) ++
    overlaps 0x0A (i.flows.map fun r => (r.first, r.first + r.count, r.off)))

/-- Channels that the engine reserve, the regions and the pools are dealt over, in ascending order. -/
def Image.present (i : Image) : List Nat := sortNat (i.chans.map (·.ch))

/-- RSV_EXT (R173). -/
def Image.rsvExts (i : Image) : Nat := cdiv 80 i.present.length

/-- Lanes of a set on a channel. -/
def Image.lanesOn (i : Image) (set ch : Nat) : List Nat :=
  match i.isets.find? fun r => r.set == set with
  | none => []
  | some r => (List.range 256).filter fun l => r.lanes.getD l 0 == ch

/-- Data extents a region takes on a channel (R173). -/
def Image.regionExts (i : Image) (r : RegionRec) (ch : Nat) : Nat := cdiv (r.size * (i.lanesOn r.set ch).length) (256 * 2097152)

/-- Extents a pool takes on a channel (R173). -/
def poolExts (r : PoolRec) (ch : Nat) : Nat :=
  if bit r.mask ch = false then 0
  else
    let m := ((List.range 32).filter fun c => bit r.mask c).length
    let k := ((List.range ch).filter fun c => bit r.mask c).length
    r.extents / m + (if k < r.extents % m then 1 else 0)

/-- Rule 5: each channel holds its reserve, lane segments and pool extents (R82, R174). -/
def rule5 (i : Image) : Option ImgErr :=
  i.present.findSome? fun ch =>
    match i.chans.find? fun c => c.ch == ch with
    | none => none
    | some c =>
      let rs := i.regions.map fun r => (i.regionExts r ch * (if r.prot = 2 then 2 else 1), r.off, 5)
      let ps := i.pools.map fun r => (poolExts r ch, r.off, 6)
      let l := (rs ++ ps).filter fun e => e.1 != 0
      if i.rsvExts + (l.map (·.1)).sum ≤ c.ranks * c.density * 64 then none
      else
        let last := l.foldl (fun (b : Nat × Nat) e => if b.1 < e.2.1 then e.2 else b) (c.off, 2)
        some { conflict last.1 last.2 0 with channel := ch }

/-- Rule 6: a channel partial image keeps the channel's domain. -/
def rule6 (conf : Option Image) (i : Image) : Option ImgErr :=
  i.chans.findSome? fun c =>
    match ((conf.map (·.chans)).getD []).find? fun d => d.ch == c.ch with
    | none => none
    | some d => if d.domain = c.domain then none else some (conflict c.off 2 6)

/-- The cross-record rules in order. A channel partial image holds no region and no pool, so rule 5 is taken to test full images only (DESIGN CHOICE,
log entry 120). -/
def crossError (b : Build) (conf : Option Image) (hs : Nat) (a : Parsed) : Option ImgErr :=
  match rule1 b hs conf a with
  | some e => some e
  | none =>
    let i := a.img
    match rule2 hs conf i with
    | some e => some e
    | none =>
      if hs = 0xFF then ((rule3 i).orElse fun _ => rule4 i).orElse fun _ => rule5 i
      else rule6 conf i

/-- Stages 5 to 7: what an image of bytes 0 to LENGTH - 1 says, and its first failure. -/
def readImage (b : Build) (conf : Option Image) (l : List Nat) : Image × Option ImgErr :=
  let len := fieldAt l 12 4
  let hs := fieldAt l 6 1
  let a := records b hs len (len / 4 + 1) 32 ((l.take len).drop 32) {}
  let i := { a.img with scope := hs, tag := fieldAt l 16 4, crc := fieldAt l 28 4 }
  (i, a.err.orElse fun _ => crossError b conf hs { a with img := i })

end Sys2Proof.Machine
end

