-- ==== Sys2Proof/Machine/Tick.lean ====
section
/-! DEFINITION. The tick unit (R33 to R47, R461, R488) and the gate list commands (R52, R58, R59). -/

namespace Sys2Proof.Machine
open Sys2Proof

/-- One advance of a PRBS-15 generator, x^15 + x^14 + 1 (R466). -/
def prbs15 (v : Nat) : Nat := (v * 2 + (v / 2 ^ 14 % 2 + v / 2 ^ 13 % 2) % 2) % 2 ^ 15

/-- The tick generator's number among the Squall generators (R466). -/
def tickGen : Nat := 64

/-- The interval of the state's row in R488. -/
def State.tickInterval (s : State) : Nat := if s.tick.st = 1 then s.nomTclk else s.tick.im

/-- The acceptance threshold A of R488. -/
def State.tickA (s : State) : Nat := if s.tick.st ≤ 2 then s.tickInterval / 2 else s.tickInterval / 4

/-- The flywheel delay F of R488. -/
def State.tickF (s : State) : Nat := if s.tick.st ≤ 2 then 3 * s.tickInterval / 2 else s.tickInterval

/-- The mean of up to eight gathered intervals, each missing one counting as the nominal interval (R36). -/
def meanOf (nom : Nat) (l : List Nat) : Nat := (l.sum + (8 - l.length) * nom) / 8

/-- Whether an interval lies in the band from 0.995 to 1.005 of the nominal one, bounds included (R41). -/
def inBand (nom x : Nat) : Bool := decide (995 * nom ≤ 1000 * x ∧ 1000 * x ≤ 1005 * nom)

/-- TICK_ANOMALY: I_m lies outside the band (R41). -/
def State.tickAnomaly (s : State) : Bool := s.tick.st != 0 && !inBand s.nomTclk s.tick.im

/-- TICK_LOST: eight or more flywheel ticks in a row (R43). -/
def State.tickLost (s : State) : Bool := decide (8 ≤ s.tick.flys)

/-- Raise a tick event: its bit in TICK_STATUS and source `n` of group 0 (R44, R415). -/
def State.raiseTick (s : State) (f : Fld) (n : Nat) : State := (s.setBit f 0 0).raise 0 n

/-- Raise TICK_ANOMALY and TICK_LOST where their conditions have risen since state `s0`. -/
def State.tickConditions (s : State) (s0 : State) : State :=
  let s := if s.tickAnomaly && !s0.tickAnomaly then s.raise 0 5 else s
  if s.tickLost && !s0.tickLost then s.raise 0 6 else s

/-- Whether I_c is an input that has changed (R302): it crossed 0.995 × NOMINAL_CCLK, or changed by 64 cycles or more while below it. -/
def State.icChanged (s : State) : Bool :=
  let below (x : Nat) : Bool := decide (x * 1000 < 995 * s.nomCclk)
  let a := s.traffic.icWas
  let b := s.tick.ic
  below a != below b || (below b && decide (64 ≤ max a b - min a b))

/-- The test of R302 starts if I_c has changed enough. -/
def State.noteIc (s : State) : State :=
  if s.icChanged then ({ s with traffic := { s.traffic with icWas := s.tick.ic } } : State).testInput else s

/-- Entry into ACQUIRE in tclk cycle `t`: the nominal intervals return and the gathered ones are discarded, those whose strobe has yet to reach cclk
included (R36, R37). `first` says that the next edge is accepted at once, which holds where no accepted tick made the entry (log entry 12). The count
of flywheel ticks in a row stays: only an accepted real tick ends it (R43; DESIGN CHOICE where the entry is TICK_CTL.RELOCK or the return from
Dusk, log entry 121). -/
def State.acquire (s : State) (t : Nat) (first : Bool) : State :=
  { s with tick := { s.tick with
      st := 1, ref := t, first := first, im := s.nomTclk, ic := s.nomCclk, imList := [], icList := [], inTol := 0
      strobes := s.tick.strobes.map fun _ => Strobe.mk false } }.noteIc

/-- Gather an averaged interval of `x` tclk cycles and test it (R36, R41); in ACQUIRE, the second in tolerance in a row locks (R37). -/
def State.gather (s : State) (x : Nat) : State :=
  let l := (x :: s.tick.imList).take 8
  let ok := inBand s.nomTclk x
  let s := { s with tick := { s.tick with
      interval := x, imList := l, im := meanOf s.nomTclk l, inTol := if ok then s.tick.inTol + 1 else 0 } }
  let s := if ok then s else
    (s.raiseTick R.TICK_STATUS_OUTLIER 4).bump R.TICK_OUTLIER_CNT_COUNT 0 0 1
  if s.tick.st = 1 ∧ 2 ≤ s.tick.inTol then
    { s with tick := { s.tick with st := 2 } }.raiseTick R.TICK_STATUS_LOCKED 0
  else s

/-- An edge in tclk cycle `t` is accepted as a real tick (R35 to R37); `relock` for the third runt of R39. -/
def State.realTick (s : State) (t : Nat) (relock : Bool) : State :=
  let s0 := s
  let avg := s.tick.lastReal && !relock
  let x := t - s.tick.last
  let s := if avg then s.gather x else s
  let st := s.tick.st
  let s := { s with tick := { s.tick with
      ref := t, last := t, first := false, lastReal := !relock, runts := 0, flys := 0
      epochOut := some (t + 2), strobes := s.tick.strobes ++ [Strobe.mk avg]
      st := if st = 3 then 2 else st } }
  let s :=
    if relock then (s.acquire t false).raiseTick R.TICK_STATUS_RELOCK 2
    else if st = 4 then s.acquire t false
    else s
  s.tickConditions s0

/-- A runt is ignored (R38). -/
def State.runt (s : State) : State :=
  let s := { s with tick := { s.tick with runts := s.tick.runts + 1 } }
  ((s.raiseTick R.TICK_STATUS_RUNT 1).bump R.TICK_RUNT_CNT_COUNT 0 0 1).count { ev := 0x003 }

/-- An edge that reaches the tick unit in tclk cycle `t`, its high period `width` cycles long (R34, R37 to R39). -/
def State.edge (s : State) (t width : Nat) : State :=
  if width < 2 then s.bump R.TICK_GLITCH_CNT_COUNT 0 0 1
  else if s.tick.st = 0 then s
  else if s.tick.st = 1 ∧ s.tick.first = true then s.realTick t false
  else if s.tick.ref + s.tickA ≤ t then s.realTick t false
  else if s.tick.runts = 2 then s.realTick t true
  else s.runt

/-- Whether the tick unit works: the device has not left Run for Dusk or is not yet back, is not off, and tclk is out of reset (R43, R47). -/
def State.tclkRuns (s : State) : Bool := s.power.st < 2 && !s.power.domains.contains 2

/-- An edge of zt_tick_i: Squall may hide or delay it (R467); then the tick unit judges it. -/
def State.edgeSeen (s : State) (t width : Nat) : State :=
  if s.tclkRuns = false then s
  else if s.squall.unlocked then
    let v := prbs15 (Tab.get 0 s.squall.gens tickGen)
    let s := { s with squall := { s.squall with gens := Tab.insert tickGen v s.squall.gens } }
    let drop := s.rd R.SQ_TICK_DROP
    if drop ≠ 0 then s.wr R.SQ_TICK_DROP 0 0 (drop - 1)
    else s.edge (t + min (v % (s.rd R.SQ_TICK_JITTER + 1)) (s.nomTclk / 8)) width
  else s.edge t width

/-- TICK_EDGE: the tick unit sees the edge, and while the device enters Dusk, or is in it, the edge is a wake edge (R399, R401). -/
def execTickEdge (t width : Nat) (s : State) : Host.Outcome State Fault Refusal := .next ((s.edgeSeen t width).latchWake 0)

/-- FLYWHEEL_TICK: a flywheel tick is generated in tclk cycle R + F, and at no other time (R37, R40, R43, R488). -/
def execFlywheelTick (t : Nat) (s : State) : Host.Outcome State Fault Refusal :=
  if s.tclkRuns = false ∨ s.tick.st = 0 ∨ t ≠ s.tick.ref + s.tickF then .next s
  else
    let s0 := s
    let n := s.tick.flys + 1
    let st := if s.tick.st = 1 ∨ s.tick.st = 2 then 3 else if s.tick.st = 3 ∧ 8 ≤ n then 4 else s.tick.st
    let s := { s with tick := { s.tick with
        st := st, ref := t, last := t, first := false, lastReal := false, runts := 0, flys := n, inTol := 0
        epochOut := some t, strobes := s.tick.strobes ++ [Strobe.mk false] } }
    let s := ((s.raiseTick R.TICK_STATUS_FLYWHEEL 3).bump R.TICK_FLYWHEEL_CNT_COUNT 0 0 1).count { ev := 0x002 }
    .next (s.tickConditions s0)

/-- GATE_ENTRY_EXPIRY: cycle `c` is the last of the duration of the entry in force; the next entry that runs takes over from the next cycle on, or the
closing entry is held (R52, R53). -/
def execGateEntryExpiry (d c : Nat) (s : State) : Host.Outcome State Fault Refusal :=
  let s := s.atCycle c
  let g := s.gate d
  if g.running = false ∨ g.extended = true ∨ c ≠ g.entStart + (g.active.ent g.entry).dur * 64 then .next s
  else
    match g.active.after g.entry with
    | some n => .next { s with now := { s.now with turns := Tab.insert d n s.now.turns } }
    | none => .next (s.setGate d { g with extended := true })

/-- TICK_CTL.RELOCK in tclk cycle `t` (R461): refused while no configuration is in force. -/
def State.relockWrite (s : State) (t : Nat) : State × Bool :=
  if s.conf.isNone then (s, true)
  else
    let s' := s.acquire t true
    (s'.tickConditions s, false)

/-- A write of TICK_CTL. -/
def State.writeTickCtl (s : State) (t w tgt : Nat) : State := s.writeReg [] [(0, fun s => s.relockWrite t)] 0x328 w tgt

/-- TICK_RELOCK_WRITE. -/
def execTickRelockWrite (t : Nat) (w : Word) (tgt : Nat) (s : State) : Host.Outcome State Fault Refusal :=
  .next (s.regAccess 0x328 (w ||| 1) tgt fun w s => s.writeTickCtl t w tgt)

/-- Byte address of GATE_SHADOW_CTL of domain `d` (R67). -/
def gateCtlAddr (d : Nat) : Nat := 0x34000 + d * 0x40

/-- A write of GATE_SHADOW_CTL. -/
def State.writeShadowCtl (s : State) (d w tgt : Nat) : State :=
  let r := s.shadowCtl d w
  r.1.busyIf r.2 (gateCtlAddr d) tgt

/-- GATE_ARM: GATE_SHADOW_CTL is written with ARM 1. -/
def execGateArm (d : Nat) (w : Word) (tgt : Nat) (s : State) : Host.Outcome State Fault Refusal :=
  .next (s.regAccess (gateCtlAddr d) (w ||| 0x10000) tgt fun w s => s.writeShadowCtl d w tgt)

/-- GATE_DISARM: GATE_SHADOW_CTL is written with ARM 0. -/
def execGateDisarm (d : Nat) (w : Word) (tgt : Nat) (s : State) : Host.Outcome State Fault Refusal :=
  .next (s.regAccess (gateCtlAddr d) (w &&& 0xFFFEFFFF) tgt fun w s => s.writeShadowCtl d w tgt)

end Sys2Proof.Machine
end

