-- ==== Sys2Proof/Machine/Image.lean ====
section
/-! DEFINITION. The image loader: receiving, checking, the verdict, admission, and how full and partial images apply
(R91 to R108, R173, R280, R281, R487). -/

namespace Sys2Proof.Machine
open Sys2Proof

/-! ### IMG_CTL and the words of an image -/

def State.setLoader (s : State) (l : Loader) : State := { s with loader := l }

/-- ABORT (R93). -/
def State.imgAbort (s : State) : State × Bool := (if 1 ≤ s.loader.st ∧ s.loader.st ≤ 5 then s.imgEnd { code := 0x12 } else s, false)

/-- SRC, on the state that ABORT leaves (R93, R487). -/
def State.imgSrc (s : State) (v : Nat) : State × Bool :=
  if v = s.rd R.IMG_CTL_SRC then (s, false)
  else if s.loader.st ≠ 0 then (s, true)
  else (s.wr R.IMG_CTL_SRC 0 0 v, false)

/-- START (R92). -/
def State.imgGo (s : State) (tgt : Nat) : State × Bool :=
  if s.loader.st ≠ 0 then (s, true)
  else (((s.setLoader { st := 1, tgt := tgt % 8 }).wr R.IMG_BYTES_BYTES 0 0 0).wr R.IMG_SKIPPED_COUNT 0 0 0, false)

/-- A write of IMG_CTL: ABORT, SRC, START in this order, with CFG_BUSY at most once (R13, R93). -/
def State.writeImgCtl (s : State) (w tgt : Nat) : State :=
  let a := if bit w 5 then s.imgAbort else (s, false)
  let b := a.1.imgSrc (bits w 0 1)
  let c := if bit w 4 then b.1.imgGo tgt else (b.1, false)
  c.1.busyIf (b.2 || c.2) 0x400 tgt

/-- The loader takes a word in RECEIVING; `last` is img_last_i, none through the FIFO (R91, R92, R96). On the stream, img_last_i on a word before the
final one, or not on the final one, makes the image fail its length check (log entry 91). -/
def State.takeWord (s : State) (w : Word) (last : Option Bool) : State :=
  let l := s.loader
  let fin := last.getD false
  let fifo := last.isNone
  match l.hdrErr with
  | some e =>
    let s := s.wr R.IMG_BYTES_BYTES 0 0 ((s.rd R.IMG_BYTES_BYTES + 4) % 2 ^ 32)
    if fin then s.imgEnd e else s
  | none =>
    let words := w :: l.words
    let n := words.length
    let s := (s.setLoader { l with words := words }).wr R.IMG_BYTES_BYTES 0 0 (4 * n)
    if n < 8 then (if fin then s.imgEnd { code := 0x05, off := 0xC } else s)
    else
      let h := wordBytes (words.drop (n - 8)).reverse
      let bad := if n = 8 then headerError s.build s.conf.isSome h else none
      match bad with
      | some e => if fifo || fin then s.imgEnd e else s.setLoader { s.loader with hdrErr := some e }
      | none =>
        let whole := decide (4 * n = fieldAt h 12 4 + fieldAt h 10 2)
        if fin then s.setLoader { s.loader with st := 2, lastBad := !whole }
        else if whole then s.setLoader { s.loader with st := 2, lastBad := !fifo }
        else s

/-- A write of IMG_FIFO (R91). -/
def State.writeImgFifo (s : State) (w : Word) (tgt : Nat) : State :=
  if s.loader.st ≠ 1 ∨ s.rd R.IMG_CTL_SRC = 1 then s.cfgBusy 0x404 tgt else s.takeWord w none

/-- IMG_START. -/
def execImgStart (w : Word) (tgt : Nat) (s : State) : Host.Outcome State Fault Refusal :=
  .next (s.regAccess 0x400 (w ||| 0x10) tgt fun w s => s.writeImgCtl w tgt)

/-- IMG_ABORT. -/
def execImgAbort (w : Word) (tgt : Nat) (s : State) : Host.Outcome State Fault Refusal :=
  .next (s.regAccess 0x400 (w ||| 0x20) tgt fun w s => s.writeImgCtl w tgt)

/-- IMG_FIFO_WORD. -/
def execImgFifoWord (w : Word) (tgt : Nat) (s : State) : Host.Outcome State Fault Refusal :=
  .next (s.regAccess 0x404 w tgt fun _ s => s.writeImgFifo w tgt)

/-- IMG_STREAM_WORD: a word transfers only in RECEIVING with SRC at 1 (R91). -/
def execImgStreamWord (w : Word) (last : Bool) (s : State) : Host.Outcome State Fault Refusal :=
  if s.cclkRuns = false ∨ s.loader.st ≠ 1 ∨ s.rd R.IMG_CTL_SRC = 0 then .next s else .next (s.takeWord w (some last))

/-! ### Checking and the verdict -/

/-- The image bytes received, first byte first. -/
def Loader.bytes (l : Loader) : List Nat := wordBytes l.words.reverse

/-- Admission of an image over the values in force (R98, R100). -/
def State.admits (s : State) (i : Image) : Adm := (if i.scope = 0xFF then s.capFull i else s.capPartial i).outcome

/-- After the verdict, or where none is asked for: the failure held from stages 5 to 7, or ADMITTING, which tests the image over the values that
stand now (R92, R98). -/
def State.imgChecked (s : State) : State :=
  match s.loader.held with
  | some e => s.imgEnd e
  | none => s.setLoader { s.loader with st := 4, adm := ((s.loader.img).map s.admits).getD {} }

/-- IMG_CHECK_DONE: CHECKING ends (R92, R96). -/
def execImgCheckDone (s : State) : Host.Outcome State Fault Refusal :=
  if s.cclkRuns = false ∨ s.loader.st ≠ 2 then .next s
  else
    let l := s.loader.bytes
    let len := fieldAt l 12 4
    let r := readImage s.build s.conf l
    let s := s.wr R.IMG_SKIPPED_COUNT 0 0 (min r.1.skipped 0xFFFF)
    if s.loader.lastBad ∨ l.length ≠ len + fieldAt l 10 2 then .next (s.imgEnd { code := 0x05, off := 0xC })
    else if imageCrc (l.take len) ≠ fieldAt l 28 4 then .next (s.imgEnd { code := 0x06, off := 0x1C })
    else if s.authReq ∧ bit (fieldAt l 7 1) 0 = false then .next (s.imgEnd { code := 0x07, off := 0x1C })
    else
      let s := s.setLoader { s.loader with img := some r.1, held := r.2 }
      if s.authReq then .next (s.setLoader { s.loader with st := 3 }) else .next s.imgChecked

/-- IMG_AUTH_VERDICT: a verdict strobe, heard only in AUTH_WAIT (R71). -/
def execImgAuthVerdict (ok : Bool) (crc : Word) (s : State) : Host.Outcome State Fault Refusal :=
  if s.cclkRuns = false ∨ s.loader.st ≠ 3 then .next s
  else
    match s.loader.img with
    | none => .next s
    | some i => if ok ∧ crc.toNat = i.crc then .next s.imgChecked else .next (s.imgEnd { code := 0x07, off := 0x1C })

/-! ### The storage of a full image (R173, R174, R195) -/

/-- The lane segments of a region on channel `ch` whose extents start at `next`, and the next free extent. -/
def dealRegion (i : Image) (ch : Nat) (acc : Nat × Tab Seg) (r : RegionRec) : Nat × Tab Seg :=
  let n := i.regionExts r ch
  let data := (List.range n).map fun k => acc.1 + k
  let comp := if r.prot = 2 then (List.range n).map fun k => acc.1 + n + k else []
  let lanes := i.lanesOn r.set ch
  let seg (k : Nat) : Seg :=
    let off := k * r.segBytes
    let a := off / extBytes
    let m := (off + r.segBytes - 1) / extBytes + 1 - a
    { exts := (data.drop a).take m, comps := (comp.drop a).take m, off := off % extBytes, coff := off % extBytes }
  ((acc.1 + n + comp.length),
    (List.range lanes.length).foldl (fun (t : Tab Seg) k => Tab.insert (r.region * 256 + lanes.getD k 0) (seg k) t) acc.2)

/-- The lane segments of the engine reserve on channel `ch`: the data from the first of its extents on, a lane after the other, the companions from the
middle of them on in the same order (R174, R195; log entry 132). -/
def dealReserve (i : Image) (ch : Nat) (t : Tab Seg) : Tab Seg :=
  let lanes := (List.range 256).filter fun l => i.present.getD (l % i.present.length) 0 == ch
  let exts := List.range i.rsvExts
  (List.range lanes.length).foldl (fun (t : Tab Seg) k =>
    let off := k * rsvRegion.segBytes
    Tab.insert (64 * 256 + lanes.getD k 0) { exts := exts, comps := exts, off := off, coff := i.rsvExts * (extBytes / 2) + off } t) t

/-- The extents of a pool on channel `ch`. -/
def dealPool (ch : Nat) (acc : Nat × Tab (List Nat)) (r : PoolRec) : Nat × Tab (List Nat) :=
  let n := poolExts r ch
  (acc.1 + n, Tab.insert (r.pool * 32 + ch) ((List.range n).map fun k => acc.1 + k) acc.2)

/-- Deal the extents of channel `ch`: reserve, regions, pools, spare (R172, R173). -/
def dealChannel (i : Image) (m : SurfMgr) (ch : Nat) : SurfMgr :=
  let cap := ((i.chans.find? fun r => r.ch == ch).map fun r => r.ranks * r.density * 64).getD 0
  let a := (sortBy (fun (r : RegionRec) => [r.region]) i.regions).foldl (dealRegion i ch) (i.rsvExts, dealReserve i ch m.segs)
  let b := (sortBy (fun (r : PoolRec) => [r.pool]) i.pools).foldl (dealPool ch) (a.1, m.poolFree)
  { m with
    segs := a.2, poolFree := b.2
    spare := Tab.insert ch ((List.range (cap - b.1)).map fun k => b.1 + k) m.spare }

/-- The surface manager when a full image applies: the extents of every present channel and the lane maps, the reserve set as set 8. -/
def Image.surfMgr (i : Image) : SurfMgr :=
  let ps := i.present
  let m := ps.foldl (dealChannel i) {}
  let maps := i.isets.map fun r => (r.set, r.lanes)
  let maps := maps ++ [(8, (List.range 256).map fun l => ps.getD (l % ps.length) 0)]
  { m with lanes := maps.foldl (fun (t : Tab Nat) e =>
      (List.range 256).foldl (fun (t : Tab Nat) l => Tab.insert (e.1 * 256 + l) (e.2.getD l 0) t) t) [] }

/-! ### The flows of a full image (R280, R281) -/

/-- The context a FLOW record gives each of its flows at time `now`. -/
def FlowRec.context (r : FlowRec) (now : Nat) : Flow :=
  { cls := r.cls, rank := r.rank, policy := r.policy, target := r.target, defined := true, guarantee := r.guarantee, latency := r.latency
    cir := r.cir, pir := r.pir, cbs := r.cbs, pbs := r.pbs, budget := r.budget, tc := r.cbs, tp := r.pbs, tLast := now }

/-- The flow table of an image. -/
def Image.contexts (i : Image) (now : Nat) : Tab Flow :=
  (sortBy (fun (r : FlowRec) => [r.first]) i.flows).flatMap fun r =>
    let x := r.context now
    (List.range r.count).map fun k => (r.first + k, x)

/-- Guaranteed flows, in ascending order, up to the number that are pinned. -/
def pinnedOf (t : Tab Flow) : List Nat := ((t.filter fun e => e.2.guarantee != 0).map (·.1)).take 16384

/-! ### Register values of an image -/

/-- An image's value of a field takes effect, unless a Tick-class write pending at the image's tick set the field (R63, R103). -/
def State.wrImg (s : State) (f : Fld) (i j v : Nat) : State := s.wr f i j ((Tab.find s.loader.keep (f.key i j)).getD v)

/-- CLASS (R85). -/
def State.applyClass (s : State) (r : ClassRec) : State :=
  let s := (s.wrImg R.GATE_GUARD_GUARD r.cls 0 r.guard).wrImg R.CLS_IDLE_SLOPE_IDLE_SLOPE r.cls 0 r.idle
  let s := (s.wrImg R.CLS_SEND_SLOPE_SEND_SLOPE r.cls 0 r.send).wrImg R.CLS_CREDIT_LIMIT_LIMIT r.cls 0 r.limit
  s.wrImg R.CLS_QUANTUM_QUANTUM r.cls 0 r.quantum

/-- EVENT_ROUTE (R89, R418). -/
def State.applyRoute (s : State) (r : RouteRec) : State :=
  let s := if r.sg < 24 then s.wrImg R.EVT_GRP_CFG_TARGET r.sg 0 r.target else s
  ((s.wrImg R.EVT_GRP_CFG_MODE r.sg 0 r.mode).wrImg R.EVT_GRP_CFG_COUNT r.sg 0 r.count).wrImg R.EVT_GRP_TIME_TIME r.sg 0 r.time

/-- The field that holds WEIGHT of port `p`. -/
def weightFld (p : Nat) : Fld :=
  ([R.GRP_WEIGHT_LO_WEIGHT0, R.GRP_WEIGHT_LO_WEIGHT1, R.GRP_WEIGHT_LO_WEIGHT2, R.GRP_WEIGHT_LO_WEIGHT3,
    R.GRP_WEIGHT_HI_WEIGHT4, R.GRP_WEIGHT_HI_WEIGHT5, R.GRP_WEIGHT_HI_WEIGHT6] : List Fld).getD p R.GRP_WEIGHT_HI_WEIGHT7

/-- GROUP (R83): the register fields, and the credit counters at WEIGHT × 16, with a new refill window (R152, R153). -/
def State.applyGroup (s : State) (r : GroupRec) : State :=
  let s := (s.wrImg R.GRP_CTL_STYLE r.g 0 r.style).wrImg R.GRP_CTL_GCLASS r.g 0 r.gclass
  let s := (s.wrImg R.GRP_WATCHDOG_LIMIT r.g 0 r.watchdog).wrImg R.GRP_REFILL_REFILL r.g 0 r.refill
  let s := (List.range 8).foldl (fun (s : State) p => s.wrImg (weightFld p) r.g 0 (r.weights.getD p 0)) s
  let cr := (List.range 8).map fun p => (p, ((s.rd (weightFld p) r.g * 16 : Nat) : Int))
  s.setGroup r.g { s.group r.g with credit := cr, creditOld := cr, refillAt := s.cclk }

/-- PORT (R84). -/
def State.applyPort (s : State) (r : PortRec) : State :=
  let s := (s.wrImg R.PORT_CFG_KIND r.g r.port r.kind).wrImg R.PORT_CFG_PRIV_MAX r.g r.port r.privMax
  let s := (s.wrImg R.PORT_CFG_WAIT_LIMIT r.g r.port r.wait).wrImg R.PORT_DEFAULT_FLOW_FLOW r.g r.port r.flow
  let p := 8 * r.g + r.port
  s.setPort p { s.port p with present := true }

/-- CACHE, or its defaults (R88). -/
def State.applyCache (s : State) (r : CacheRec) : State :=
  let s := (s.wrImg R.HALO_CTL_PREFETCH_DEPTH r.g 0 r.depth).wrImg R.HALO_CTL_WP_SHAPE r.g 0 r.wp
  (s.wrImg R.HALO_CTL_LOCK_MAX r.g 0 r.lockMax).wrImg R.HALO_CTL_MOTION_HINT_EN r.g 0 r.motion

/-- The CACHE values of group `g`. -/
def Image.cacheOf (i : Image) (g : Nat) : CacheRec := (i.caches.find? fun r => r.g == g).getD { g := g }

/-- The active list of domain `d`. -/
def Image.listOf (i : Image) (d : Nat) : GateList :=
  match i.gates.find? fun r => r.d == d with
  | some r => { len := r.len, ents := (List.range r.len).map fun n => (n, r.ents.getD n {}) }
  | none => {}

/-! ### A full image applies (R94, R95) -/

/-- Everything a full image sets but the sequences: registers, ports, gate lists, storage, flows. -/
def State.configure (s : State) (i : Image) (t : Nat) : State :=
  let s := { s with conf := some i }
  let s := i.classes.foldl State.applyClass s
  let s := i.routes.foldl State.applyRoute s
  let s := i.groups.foldl State.applyGroup s
  let s := i.ports.foldl State.applyPort s
  let s := (List.range s.G).foldl (fun (s : State) g => s.applyCache (i.cacheOf g)) s
  let s := i.tims.foldl State.putTiming s
  let s := s.wr R.PERF_CTL_USER_EN 0 0 (b2n (s.permits 1))
  let s := (s.wr R.IMG_ACTIVE_TAG_TAG 0 0 i.tag).wr R.IMG_ACTIVE_CRC_CRC 0 0 i.crc
  let s := s.acquire t true
  let s := (List.range 8).foldl (fun (s : State) d =>
    s.setGate d { s.gate d with active := i.listOf d, running := false, entry := 0, extended := false }) s
  let fs := i.contexts s.units64
  let s := { s with
    sm := i.surfMgr
    traffic := { flows := fs, pins := pinnedOf fs, fcache := pinnedOf fs, icWas := i.nomCclk }
    integ := { s.integ with initDone := [], initOut := [] }
    chans := s.chans.map fun (e : Nat × Chan) => (e.1, { e.2 with
      credit := [], sendLeft := [], deficit := [], out := false, cands := e.2.cands.filter fun c => c.2.st != 2 && c.2.st != 3 }) }
  let s := s.squallLock
  let s := i.pools.foldl (fun (s : State) r => s.poolUpdate r.pool) s.startPass
  let s := s.wr R.PWR_STATUS_RESTORE_FAIL 0 0 0
  if s.power.lossPending then
    ({ s with power := { s.power with lossPending := false } }.setBit R.PWR_STATUS_RAIL_LOSS 0 0).raise 7 9
  else s

/-- A full image applies in tclk cycle `t`: every present channel starts its cold Dawn, and the load ends. -/
def State.applyFull (s : State) (i : Image) (t : Nat) : State :=
  let s := (s.configure i t).holdChclk ((List.range s.C).filter fun ch => !i.present.contains ch)
  let s := i.present.foldl (fun (s : State) ch => s.startSeq ch 1 none true) s
  s.figuresNow.imgEnd { code := 0 }

/-- What a failing admission reports (R97, R102). -/
def admitError (i : Image) (full : Bool) (x : CapFail) : ImgErr :=
  match if full then i.gates.find? fun r => r.d == x.dom else none with
  | some r => { code := 0x10, off := r.off, recType := 0x0B, window := x.win, channel := x.ch, domain := x.dom }
  | none => { code := 0x10, off := 0xFFFFFFFF, window := x.win, channel := x.ch, domain := x.dom }

/-- IMG_ADMIT_DONE: admission ends in cclk cycle `c`, tclk cycle `t` (R92, R98 to R102; log entry 16). -/
def execImgAdmitDone (c t : Nat) (s : State) : Host.Outcome State Fault Refusal :=
  if s.cclkRuns = false ∨ s.loader.st ≠ 4 then .next s
  else
    match s.loader.img with
    | none => .next s
    | some i =>
      let s := s.atCycle c
      let full := i.scope == 0xFF
      let s := s.admLast (if full then 1 else 2) s.loader.adm
      match s.loader.adm.fail with
      | some x => .next (s.imgEnd (admitError i full x))
      | none => .next (if full then s.applyFull i t else { s.setLoader { s.loader with st := 5 } with now := { s.now with staged := true } })

/-! ### Partial images (R103 to R108) -/

/-- A staged partial image applies in step 3 of R63, in tick cycle `c`, unless it entered STAGED in that cycle or its channel is being repaired (R380): a
retired channel takes its values at
once, any other unit begins to quiesce (R103 to R108). The test that a quiescing channel starts is the tick's own affair. -/
def State.stagedTick (s : State) (c : Nat) : State :=
  match s.loader.img with
  | none => s
  | some i =>
    if s.loader.st ≠ 5 ∨ s.now.staged = true ∨ (0x40 ≤ i.scope ∧ s.repairing (i.scope - 0x40) = true) then s
    else
      let s := s.setLoader { s.loader with st := 6, keep := s.pend, since := c, limit := s.rd R.IMG_QUIESCE_LIMIT_LIMIT * 1024 }
      if 0x40 ≤ i.scope then
        let ch := i.scope - 0x40
        if (s.chan ch).retired then ((s.takeChanImage ch).1.figuresNow).imgEnd { code := 0 }
        else s.setChan ch { s.chan ch with imgStop := true, imgHold := true }
      else
        let g := i.scope - 0x20
        ((s.linkNow g).setGroup g { (s.linkNow g).group g with frozenImg := true }).freezePorts g

/-- The channel under a partial image whose values have not yet taken effect. -/
def State.imgChannel (s : State) : Option Nat := (List.range s.C).find? s.chanImgWaits

/-- CHANNEL_IMAGE_QUIESCED: the channel has drained and entered self-refresh, takes the new values and starts its Dawn (R105); the figures are
computed again (R462). -/
def execChannelImageQuiesced (s : State) : Host.Outcome State Fault Refusal :=
  match s.imgChannel with
  | none => .next s
  | some ch =>
    if s.outOfService ch = false ∧ (s.drainedCh ch = false ∨ (s.chan ch).ranks.any (fun e => decide (0 < e.2.debt))) then .next s
    else .next (s.applyChanImage ch).figuresNow

/-- The group under a partial image. -/
def State.imgGroup (s : State) : Option Nat :=
  if s.loader.st = 6 then (List.range s.G).find? fun g => (s.group g).frozenImg else none

/-- The freeze of a group partial image lifts (R107). -/
def State.thaw (s : State) (g : Nat) : State :=
  let s := s.setGroup g { s.group g with frozenImg := false }
  if s.frozen g then s else s.setGroup g { s.group g with drained := false }

/-- Step 3 of R107: the slice writes back its DIRTY units, invalidates every entry and clears every lock. -/
def State.emptySlice (s : State) (g : Nat) : State :=
  entries.foldl (fun (s : State) e =>
    let s := s.setLine g e { s.line g e with locked := false }
    s.invEntry g e false) s

/-- Port `p` of group `g` has no record any more: it is absent, and its fields return to their reset values (R107, R146). -/
def State.removePort (s : State) (g p : Nat) : State :=
  let s := ((s.wr R.PORT_CFG_KIND g p 0).wr R.PORT_CFG_PRIV_MAX g p 0).wr R.PORT_CFG_WAIT_LIMIT g p R.PORT_CFG_WAIT_LIMIT.rst
  (s.wr R.PORT_DEFAULT_FLOW_FLOW g p 0).setPort (8 * g + p) { s.port (8 * g + p) with present := false }

/-- Step 4 of R107: ports whose KIND changes or that have no record are force-detached, then the new values take effect. -/
def State.takeGroupImage (s : State) (g : Nat) (i : Image) : State :=
  let recOf (p : Nat) : Option PortRec := i.ports.find? fun r => r.port == p
  let s := (List.range 8).foldl (fun (s : State) p =>
    match recOf p with
    | some r => if r.kind ≠ s.portKind (8 * g + p) then s.forceDetach (8 * g + p) 3 else s
    | none => s.forceDetach (8 * g + p) 3) s
  let s := (List.range 8).foldl (fun (s : State) p =>
    if (recOf p).isSome then s.setPort (8 * g + p) { s.port (8 * g + p) with present := true } else s.removePort g p) s
  let s := (i.groups.foldl State.applyGroup s)
  let s := (i.ports.foldl State.applyPort s).applyCache (i.cacheOf g)
  match s.conf with
  | none => s
  | some cf => { s with conf := some { cf with
      groups := (cf.groups.filter fun r => r.g != g) ++ i.groups
      ports := (cf.ports.filter fun r => r.g != g) ++ i.ports
      caches := (cf.caches.filter fun r => r.g != g) ++ i.caches } }

/-- GROUP_QUIESCE_DONE: in cycle `c` the quiesce is complete, and steps 3 to 5 of R107 follow. -/
def execGroupQuiesceDone (c : Nat) (s : State) : Host.Outcome State Fault Refusal :=
  match s.imgGroup, s.loader.img with
  | some g, some i =>
    let s := s.atCycle c
    if s.groupEmpty g = false then .next s
    else
      let s := ((s.emptySlice g).takeGroupImage g i).wr R.IMG_ACTIVE_CRC_CRC 0 0 i.crc
      .next ((s.thaw g).figuresNow.imgEnd { code := 0 })
  | _, _ => .next s

/-- QUIESCE_TIMEOUT: the limit passes with the group not drained, and the load fails with nothing applied (R107). -/
def execQuiesceTimeout (c : Nat) (s : State) : Host.Outcome State Fault Refusal :=
  match s.imgGroup with
  | none => .next s
  | some g =>
    let s := s.atCycle c
    if s.groupEmpty g = true ∨ c < s.loader.since + s.loader.limit then .next s
    else .next ((s.thaw g).imgEnd { code := 0x11 })

end Sys2Proof.Machine
end

