-- ==== Sys2Proof/Machine/TickCycle.lean ====
section
/-! DEFINITION. What a tick does in its tick cycle, in the order of R63. -/

namespace Sys2Proof.Machine
open Sys2Proof

/-- I_c takes the interval that ends at cycle `c`, where it is an averaged one (R36). -/
def State.tickIntervals (s : State) (c : Nat) (avg : Bool) : State :=
  let l := if avg then ((c - s.tick.lastC) :: s.tick.icList).take 8 else s.tick.icList
  { s with tick := { s.tick with icList := l, ic := meanOf s.nomCclk l, lastC := c } }

/-- Step 1: EPOCH advances, or takes the seed (R45, R46). -/
def State.tickEpoch (s : State) : State := { s with tick := { s.tick with epoch := s.nextEpoch, seed := none } }

/-- The gate of domain `d` as it stood at the start of the cycle, before any write of its ARM in it (R61, R62). -/
def State.gateWas (s : State) (d : Nat) : Gate := (Tab.find s.now.gates d).getD (s.gate d)

/-- A shadow armed in the tick cycle is tested against the new epoch number only (R61): what the test against the old one found is taken back. -/
def State.rearmTest (s : State) (d : Nat) : State :=
  let s := if (s.gate d).late then s.unraiseLate d else s
  (s.setGate d { s.gate d with late := false, lateEpoch := (s.gateWas d).lateEpoch }).armTest d

/-- Step 2 for domain `d`: a shadow that was due at the start of the cycle swaps in, whatever is written to ARM in the cycle; one armed in the cycle is
tested against the new epoch number; after a seed, one that is still armed is tested again (R46, R60 to R62). -/
def State.tickGate (seeded : Bool) (s : State) (d : Nat) : State :=
  let e := s.tick.epoch
  let g := s.gate d
  let was := s.gateWas d
  if was.dueAt e then (s.setGate d (g.swap e)).raiseGate R.GATE_STATUS_GATE_SWAP d
  else if g.armed = false then s
  else if was.armed = false then s.rearmTest d
  else if seeded then s.armTest d
  else s

/-- Step 4 for one field: a pending Tick-class value applies (R447); a lower PREFETCH_DEPTH drops side buffer lines (R263), a new TARGET
moves what is posted (R418). -/
def State.applyTick (s : State) (k v : Nat) : State :=
  let i := k / 1024 % 1024
  if k / 2 ^ 20 = R.EVT_GRP_CFG_TARGET.ix then s.retarget i v
  else
    let low := k / 2 ^ 20 = R.HALO_CTL_PREFETCH_DEPTH.ix ∧ v < s.rd R.HALO_CTL_PREFETCH_DEPTH i
    let s := { s with regs := Tab.insert k v s.regs }
    if low then s.trimSide i v true else s

/-- Step 4: every Tick-class write that was pending when the cycle began applies, of registers and of flow contexts; the writes of the tick cycle itself
wait for the next tick (R64, R283, R447). -/
def State.applyPending (s : State) : State :=
  let l := s.pend
  let w := s.traffic.flowPend
  let s := { s with pend := [], traffic := { s.traffic with flows := withWrites s.traffic.flows w, flowPend := [] } }
  let s := l.foldl (fun (s : State) e => s.applyTick e.1 e.2) s
  if w.isEmpty then s else s.figuresNow

/-- The contract charge of a queue entry that is spill (R66). -/
def QEnt.spill (q : QEnt) : Nat := if q.spilled then 0 else cdiv (q.charge * (q.left.map (·.2)).sum) (max 1 q.sub.atoms)

/-- The spill of channel `ch`: charges move, classes are marked and counted (R66, R430). -/
def State.spillChannel (s : State) (ch : Nat) : State :=
  let x := s.chan ch
  let d := s.domainOf ch
  let l := x.cq.filter fun q => q.spill != 0
  let s := s.setChan ch { x with cq := x.cq.map fun q => { q with spilled := true } }
  l.foldl (fun (s : State) q =>
    let s := { s with traffic := { s.traffic with carry := Tab.insert q.sub.flow (s.carryOf q.sub.flow + q.spill) s.traffic.carry } }
    let s := s.wr R.GATE_SPILL_SPILL_CLASSES d 0 (s.rd R.GATE_SPILL_SPILL_CLASSES d ||| 2 ^ q.cls)
    s.count { ev := 0x090 + q.cls, n := cdiv q.spill 32, ch := some ch, req := q.sub.rq, cls := q.cls }) s

/-- The domains that hold spill. -/
def State.spillDomains (s : State) : List Nat :=
  (List.range 8).filter fun d => (List.range s.C).any fun ch =>
    s.chPresent ch && s.domainOf ch == d && (s.chan ch).cq.any fun q => q.spill != 0

/-- Step 5: spill leaves the account of the window that ends and becomes the carry (R66, R291). -/
def State.tickSpill (s : State) : State :=
  let win := s.traffic.window % 2 ^ 16
  let s := { s with traffic := { s.traffic with carry := [] } }
  let s := (List.range s.C).foldl State.spillChannel s
  s.traffic.carry.foldl (fun (s : State) e =>
    let x := Tab.get ({} : Flow) s.traffic.flows e.1
    if x.winId = win then s.setFlow e.1 { x with winUsed := x.winUsed - e.2 } else s) s

/-- Step 5: the byte counters of the epoch are latched (R300), and its link error counts start again (R358). -/
def Chan.tick (x : Chan) : Chan :=
  { x with
    bytesLast := (List.range 16).map fun c => (c, (Tab.get 0 x.bytesCur c :: Tab.get [] x.bytesLast c).take 255)
    bytesCur := [], lecc := 0, leccDone := false }

/-- Step 6 and the GATE_TRUNC of step 7 for domain `d` at tick cycle `c` (R52, R54). -/
def State.restartGate (c : Nat) (s : State) (d : Nat) : State :=
  s.setGate d ((s.gate d).restart c)

/-- GATE_TRUNC of a domain (R54). -/
def State.truncate (s : State) (d : Nat) : State :=
  let s := (s.raiseGate R.GATE_STATUS_GATE_TRUNC d).bump R.GATE_TRUNC_CNT_TRUNC_CNT d 0 1
  (s.count { ev := 0x004 }).count { ev := 0x140 + d }

/-- SPILL of a domain (R66). -/
def State.raiseSpill (s : State) (d : Nat) : State :=
  ((s.raiseGate R.GATE_STATUS_SPILL d).count { ev := 0x005 }).count { ev := 0x148 + d }

/-- A snapshot of counter group `G` (R432). -/
def State.snapshot (s : State) (G : Nat) : State :=
  let snaps := (List.range 8).foldl (fun (t : Tab Nat) i => Tab.insert (8 * G + i) (Tab.get 0 s.meas.ctrs (8 * G + i)) t) s.meas.snaps
  { s with meas := { s.meas with snaps := snaps } }.wr R.PF_SNAP_EPOCH_EPOCH G 0 s.tick.epoch

/-- The counters of group `G` become 0 (R433). -/
def State.clearGroup (s : State) (G : Nat) : State :=
  { s with meas := { s.meas with ctrs := s.meas.ctrs.filter fun e => e.1 / 8 != G } }

/-- The tick snapshots, and the clears that follow them (R432). -/
def State.tickSnaps (s : State) : State :=
  (List.range 32).foldl (fun (s : State) G =>
    if s.rd R.PF_GRP_CTL_TICK_SNAP G = 0 then s
    else
      let s := s.snapshot G
      if s.rd R.PF_GRP_CTL_TICK_CLEAR G = 1 then s.clearGroup G else s) s

/-- Step 5's Overcast work at tick cycle `c`: the outcome of a completed test, or restoration where no input has changed; then the tests that this tick starts
(R302 to R304). -/
def State.tickOvercast (s : State) (c : Nat) (changed : Bool) : State :=
  let s := if s.testDue c || !changed then s.overcastTick c else s
  if changed then s.testInput else s

/-- The ranks, by channel, whose next refresh is forced (R327). -/
def State.forcedRanks (s : State) : List (Nat × Nat) :=
  (List.range s.C).flatMap fun ch => if s.inService ch || s.dawnAccrues ch then ((List.range (s.ranksOf ch)).filter (s.refForced ch)).map fun r => (ch, r) else []

/-- The boundary actions at tick cycle `c` for the strobe `b` (R63); the wait of a round that moved nothing ends here (R207, DEDUCED, log entry 165). -/
def State.boundary (s : State) (c : Nat) (b : Strobe) : State :=
  let doms := List.range 8
  let trunc := doms.filter fun d => (s.gate d).truncatedBy c
  let swaps := doms.any fun d => (s.gateWas d).dueAt s.nextEpoch
  let seeded := s.tick.seed.isSome
  let s := s.tickIntervals c b.avg
  let s := s.tickEpoch
  let s := doms.foldl (State.tickGate seeded) s
  let held := s.imgChannel
  let s := s.stagedTick c
  let chan := s.imgChannel != held
  let writes := s.pend.any (fun e => e.1 / 2 ^ 20 == R.GATE_GUARD_GUARD.ix) || !s.traffic.flowPend.isEmpty
  let owed := s.forcedRanks
  let s := s.applyPending
  let s := (s.forcedRanks.filter fun e => !owed.contains e).foldl (fun (s : State) e => s.debtMax e.1 e.2) s
  let spill := s.spillDomains
  let s := s.tickSpill
  let s := { s with chans := s.chans.map fun (e : Nat × Chan) => (e.1, e.2.tick), sm := { s.sm with roundWait := false } }
  let ic := s.icChanged
  let s := if ic then { s with traffic := { s.traffic with icWas := s.tick.ic } } else s
  let s := s.tickOvercast c (swaps || chan || writes || ic)
  let s := doms.foldl (State.restartGate c) { s with now := { s.now with turns := [] } }
  let s := trunc.foldl State.truncate s
  let s := spill.foldl State.raiseSpill s
  let s := (List.range s.G).foldl (fun (s : State) g => s.wr R.GRP_BITE_VALID_VALID g 0 0) s
  (s.count { ev := 0x001 }).tickSnaps

/-- TICK_CYCLE: the strobe of the oldest accepted tick reaches cclk in cycle `c`, and is the last thing of that cycle: what stands before it in the queue
belongs to the cycle or to an earlier one, and the next command finds cycle `c` + 1 (R30, R63 to R65; DESIGN CHOICE, log entry 19). -/
def execTickCycle (c : Nat) (s : State) : Host.Outcome State Fault Refusal :=
  if s.cclkRuns = false then .next s
  else
    match s.tick.strobes with
    | [] => .next s
    | b :: t =>
      let s := (s.atCycle c).closeCycle
      let n := s.cclk
      let s := ({ s.runCycles 1 with tick := { s.tick with strobes := t } } : State).boundary n b
      .next ((List.range s.G).foldl State.linkNow { s.newCycle with cclk := n + 1 })

end Sys2Proof.Machine
end

