-- ==== Sys2Proof/Machine/Power.lean ====
section
/-! DEFINITION. Power: Dusk and its abort, wake sources, channel self-refresh, retirement and reinstatement, resets and rails
(R390 to R413). -/

namespace Sys2Proof.Machine
open Sys2Proof

/-! ### Dusk (R397 to R399) -/

/-- Whether any port is attached. -/
def State.anyAttached (s : State) : Bool := s.ports.any fun e => e.2.attached

/-- DUSK: refused outside Run, with a port attached, or with no wake source (R397). Squall locks (R463). -/
def State.duskGo (s : State) (tgt : Nat) : State × Bool :=
  if s.power.st ≠ 0 ∨ s.anyAttached = true ∨ s.rd R.PWR_WAKE_EN_EN = 0 then (s, true)
  else
    let s := s.squallLock
    ({ s with
      power := { s.power with st := 1, latches := 0, duskTgt := tgt % 8, prepared := false, aborting := false, duskChans := [], duskAll := [] } }, false)

/-- Step 1 of R398: the loader is not applying, no repair, range invalidate, checker flush or mailbox operation runs (R455), and no chunk is half
copied; the model also waits for a running sequence to end (log entry 18). -/
def State.duskReady (s : State) : Bool :=
  s.loader.st != 6 && s.integ.pprSt < 2 && !s.integ.checkBusy && (List.range 8).all (fun g => !(s.group g).invBusy) &&
    (s.sm.move.unit.isNone || s.sm.move.held || s.sm.move.piece == 0) && s.chans.all (fun e => e.2.seq == 0) &&
    s.mbx.all fun e => e.2.isNone

/-- Step 3 of R398: each slice writes back its DIRTY units, and the flow context cache its contexts. -/
def State.flushAll (s : State) : State :=
  let s := (List.range s.G).foldl (fun (s : State) g => entries.foldl (fun (s : State) e => s.flushLine g e) s) s
  s.traffic.fcache.foldl State.ctxWrite s

/-- Whether the write-backs have reached DRAM, every channel in service is in self-refresh or deep sleep (R392, R398), and no accepted tick is still
on its way to cclk, nor an arrival at the surface manager unapplied: ticks are accepted, and apply, through every step. -/
def State.duskDrained (s : State) : Bool :=
  s.flushed && s.tick.strobes.isEmpty && s.sm.inbox.isEmpty &&
    (List.range s.C).all fun ch => !s.inService ch || decide (2 ≤ (s.chan ch).pwr)

/-- Cycle S: the channels are in self-refresh, or in deep sleep where DUSK_DEEP asks for it, and the clocks stop (R398, R399). -/
def State.clockStop (s : State) : State :=
  let lines := s.irqLines
  let s := s.wr R.PWR_STATUS_CORE_LOST 0 0 0
  { s with
    hdrs := [], irq := lines
    power := { s.power with st := 2, evtDusk := true, prepared := false, coreGone := false, abandon := false, recordValid := true } }

/-- DUSK_CLOCK_STOP: once step 1 of R398 is over, the dirty data is written back; once that is done and the controllers have placed their channels in
self-refresh, the clocks stop. -/
def execDuskClockStop (s : State) : Host.Outcome State Fault Refusal :=
  if s.power.st ≠ 1 ∨ s.power.aborting = true ∨ s.duskReady = false then .next s
  else
    let s := if s.power.prepared then s else { s.flushAll.pump with power := { s.power with prepared := true } }
    .next (if s.duskDrained then s.clockStop else s.endFlush)

/-- Whether the presence output of some port is 1 (R141). -/
def State.anyPresent (s : State) : Bool := s.ports.any fun e => s.presence e.1

/-- WAKE_LATCH: the wake sources of mask `srcs` show an edge in one cycle; in Dusk `n` aonclk cycles after S. Register access
wakes only while VDD_CORE is good, port attach only at a port whose presence output is 1, the timer only in Dusk, LOAD aonclk cycles after S
(R143, R401, R411). -/
def execWakeLatch (srcs n : Nat) (s : State) : Host.Outcome State Fault Refusal :=
  let m := if bit s.power.rails 0 then srcs else srcs &&& 0x1B
  let m := if s.anyPresent then m else m &&& 0x1D
  let m := if s.power.st = 2 ∧ s.rd R.PWR_TIMER_LOAD ≠ 0 ∧ n = s.rd R.PWR_TIMER_LOAD then m else m &&& 0x17
  .next (s.latchMask m n)

/-- DUSK_TIMER_EXPIRY: the always-on timer reaches LOAD in Dusk; LOAD 0 never fires (R401, R411). -/
def execDuskTimerExpiry (s : State) : Host.Outcome State Fault Refusal :=
  let n := s.rd R.PWR_TIMER_LOAD
  if s.power.st ≠ 2 ∨ n = 0 then .next s else .next (s.latchMask 8 n)

/-- TEMP_ALERT: in Run an MR4 read falls due on every rank of every in-service channel; while the device enters Dusk, and in Dusk, the edge is a
wake edge (R401). -/
def execTempAlert (s : State) : Host.Outcome State Fault Refusal :=
  if s.power.st = 1 ∨ s.power.st = 2 then .next (s.latchWake 4)
  else if s.power.st ≠ 0 ∨ s.cclkRuns = false then .next s
  else
    let s := (s.setBit R.PWR_STATUS_TEMP_ALERT 0 0).raise 7 8
    .next ((List.range s.C).foldl (fun (s : State) ch =>
      if s.inService ch then
        s.setChan ch ((List.range (s.ranksOf ch)).foldl (fun (x : Chan) r => x.setRank r { x.rankAt r with mr4 := 2 }) (s.chan ch))
      else s) s)

/-! ### Channel power (R394 to R396, R412) -/

/-- A REQ write has taken effect on a present channel: the controller is to enter self-refresh or deep sleep, a channel that is in one of them goes
to the other, or leaves it through a short retrain; where a sequence runs or the channel is out of service, what REQ asks for comes once it is in
service (R392 to R394). -/
def State.reqChanged (s : State) (ch was : Nat) : State :=
  let v := s.rd R.CH_PWR_REQ ch
  let x := s.chan ch
  if v = was then s
  else if s.inService ch = false then
    let s := s.setChan ch { x with srReq := v != 0 }
    if x.seq = 0 then s.unquiesce ch else s
  else if v = 0 then
    if 2 ≤ x.pwr then s.startSeq ch 3 none false else (s.setChan ch { x with srReq := false }).unquiesce ch
  else s.setChan ch { x with pwr := if 2 ≤ x.pwr then reqState v else x.pwr, srReq := true }

/-- RETIRE (R395). -/
def State.retireGo (s : State) (ch : Nat) : State × Bool :=
  if s.chPresent ch = false ∨ (s.chan ch).retired = true ∨ s.emptyCh ch = false ∨ (s.chQuiesced ch = false ∧ s.outOfService ch = false) then (s, true)
  else (s.retire ch, false)

/-- REINSTATE (R396). -/
def State.reinstateGo (s : State) (ch : Nat) : State × Bool :=
  if (s.chan ch).retired = false then (s, true)
  else
    let s := s.startSeq ch 1 none false
    (s.setChan ch { s.chan ch with reinst := true }, false)

/-- A write of CH_PWR: refused whole outside Run (R412, R487). -/
def State.writeChPwr (s : State) (ch w tgt : Nat) : State :=
  let a := chAddr ch 0x3000
  if s.C ≤ ch then s
  else if s.power.st ≠ 0 then s.busyIf (s.carries w [⟨R.CH_PWR_REQ, ch, 0⟩, ⟨R.CH_PWR_DSM_EXIT, ch, 0⟩] [16, 17]) a tgt
  else
    let was := s.rd R.CH_PWR_REQ ch
    let r := applySlots s w [⟨R.CH_PWR_REQ, ch, 0⟩, ⟨R.CH_PWR_DSM_EXIT, ch, 0⟩]
    let r := runActs w [(16, fun s => s.retireGo ch), (17, fun s => s.reinstateGo ch)] (r.1.reqChanged ch was, r.2)
    r.1.busyIf r.2 a tgt

/-- CH_SELF_REFRESH_REQ. -/
def execChSelfRefreshReq (ch : Nat) (w : Word) (tgt : Nat) (s : State) : Host.Outcome State Fault Refusal :=
  .next (s.regAccess (chAddr ch 0x3000) w tgt fun w s => s.writeChPwr ch w tgt)
/-- CH_RETIRE. -/
def execChRetire (ch : Nat) (w : Word) (tgt : Nat) (s : State) : Host.Outcome State Fault Refusal :=
  .next (s.regAccess (chAddr ch 0x3000) (w ||| 0x10000) tgt fun w s => s.writeChPwr ch w tgt)
/-- CH_REINSTATE. -/
def execChReinstate (ch : Nat) (w : Word) (tgt : Nat) (s : State) : Host.Outcome State Fault Refusal :=
  .next (s.regAccess (chAddr ch 0x3000) (w ||| 0x20000) tgt fun w s => s.writeChPwr ch w tgt)

/-! ### Resets (R407 to R410) -/

/-- Whether a field lies in the power registers (R411). -/
def Fld.isPower (f : Fld) : Bool := isPowerReg f.base

/-- What a reset of a channel keeps: the training retention, unless that is reset too; its DRAM contents are lost (R408). -/
def Chan.afterReset (keep : Bool) (x : Chan) : Chan := { retainedSt := if keep then x.retainedSt else {}, memGen := x.memGen + 1 }

/-- The domains of the build but aonclk: cclk, regclk, tclk, gclk of each group, chclk of each channel (R1, R28). -/
def State.coreDomains (s : State) : List Nat := [0, 1, 2] ++ (List.range s.G).map (· + 3) ++ (List.range s.C).map (· + 12)

/-- Every domain but aonclk is reset and held in reset, and the block holds no configuration: the pads take the state of R339 and the contents
are lost. The levels of input pins, the build and the model's own counters stay, and aonclk if it is held; the register port's outputs are 0
(R407, R408, R409). -/
def State.coreReset (s : State) : State :=
  { build := s.build, authReq := s.authReq, pending := s.pending, freeCtr := s.freeCtr, nextId := s.nextId
    regs := (s.resetRegs Fld.isPower).regs
    ports := s.ports.map fun (e : Nat × Port) => (e.1, { pin := e.2.pin, sawLow := !e.2.pin, gen := e.2.gen + 1 })
    chans := s.chans.map fun (e : Nat × Chan) => (e.1, e.2.afterReset true)
    power := { rails := s.power.rails, st := if s.power.rails = 0x1F then 0 else 4, domains := sortNat (s.power.domains.filter (· == 11) ++ s.coreDomains)
               lossPending := s.power.lossPending } }

/-- A reset of every domain, the power registers and the training retention (R408). -/
def State.fullReset (s : State) : State :=
  let s := s.coreReset
  { s with
    regs := []
    chans := s.chans.map fun (e : Nat × Chan) => (e.1, e.2.afterReset false)
    power := { s.power with domains := sortNat (11 :: s.coreDomains), lossPending := false } }

/-- SOFT_RESET: accepted in Run, with no port attached and the loader in IDLE (R410). -/
def State.softGo (s : State) : State × Bool :=
  if s.power.st ≠ 0 ∨ s.anyAttached = true ∨ s.loader.st ≠ 0 then (s, true) else (s.coreReset, false)

/-- A write of PWR_CTL. -/
def State.writePwrCtl (s : State) (w tgt : Nat) : State :=
  s.writeReg [⟨R.PWR_CTL_DUSK_DEEP, 0, 0⟩] [(0, fun s => s.duskGo tgt), (2, fun s => s.softGo)] 0x800 w tgt

/-- DUSK_REQUEST. -/
def execDuskRequest (w : Word) (tgt : Nat) (s : State) : Host.Outcome State Fault Refusal :=
  .next (s.regAccess 0x800 (w ||| 1) tgt fun w s => s.writePwrCtl w tgt)
/-- SOFT_RESET. -/
def execSoftReset (w : Word) (tgt : Nat) (s : State) : Host.Outcome State Fault Refusal :=
  .next (s.regAccess 0x800 (w ||| 4) tgt fun w s => s.writePwrCtl w tgt)

/-- POWER_ON_RESET: cfg_por_n_i asserts (R408). -/
def execPowerOnReset (s : State) : Host.Outcome State Fault Refusal := .next s.fullReset
/-- CORE_RESET: cfg_rst_n_i asserts (R408). -/
def execCoreReset (s : State) : Host.Outcome State Fault Refusal := .next s.coreReset

/-- Whether every cause that holds a domain in reset has ended, the reset inputs having returned high: within R403, in Dusk and while waking, a
core domain needs VDD_CORE only (R409). -/
def State.mayRelease (s : State) (dom : Nat) : Bool :=
  if dom = 11 then bit s.power.rails 1
  else !s.power.domains.contains 11 &&
    (if s.power.st = 2 ∨ s.power.st = 3 then bit s.power.rails 0 else s.power.rails == 0x1F)

/-- Reset values apply as a domain leaves reset: those of the power registers with aonclk; with cclk those of every other register and of the event
unit, where the engine does not restore itself (R11, R403, R409). -/
def State.releaseValues (s : State) (dom : Nat) : State :=
  if dom = 11 then { s with regs := (s.resetRegs fun f => !f.isPower).regs }
  else if dom = 0 ∧ s.power.st ≠ 2 ∧ s.power.st ≠ 3 then { s with regs := (s.resetRegs Fld.isPower).regs, evts := [], posts := [], now := {} }
  else s

/-- DOMAIN_RESET_RELEASE (R409). chclk is released by step CLOCK of a Dawn, where its PLL locks (R341). -/
def execDomainResetRelease (dom : Nat) (s : State) : Host.Outcome State Fault Refusal :=
  if s.mayRelease dom = false ∨ s.power.domains.contains dom = false ∨ 12 ≤ dom then .next s
  else
    let s := s.releaseValues dom
    .next { s with power := { s.power with domains := s.power.domains.filter fun d => d != dom } }

/-! ### Rails (R404 to R407) -/

/-- While a supply is absent, every port's outputs are isolated to 0: presence is 0, and once it returns a port attaches only after a new rise (R137,
R141, R142). -/
def State.dropPresence (s : State) : State :=
  { s with ports := s.ports.map fun (e : Nat × Port) => (e.1, { e.2 with sawLow := !e.2.pin }) }

/-- RAIL_ABSENT: a rail falls below its absent level. VDD_AON takes everything with it; VDD_CORE, VDD_PHY and VAA_PHY may go while
evt_dusk_o is 1; any other loss powers the block off and is recorded where VDD_AON stayed good (R403, R406, R407). -/
def execRailAbsent (rail : Nat) (s : State) : Host.Outcome State Fault Refusal :=
  if 5 ≤ rail ∨ bit s.power.rails rail = false then .next s
  else
    let s := { s with power := { s.power with rails := s.power.rails - 2 ^ rail } }
    if rail = 1 then .next s.fullReset
    else if s.power.evtDusk ∧ rail ≠ 3 then
      let s := s.dropPresence.holdChclk (List.range s.C)
      if rail = 0 then
        .next { s.wr R.PWR_STATUS_CORE_LOST 0 0 1 with power := { s.power with coreGone := true, domains := s.coreDomains }, rdata := 0 }
      else .next s
    else if bit s.power.rails 1 then
      let s := s.wr R.PWR_LOSS_RAILS 0 0 (s.rd R.PWR_LOSS_RAILS ||| 2 ^ rail)
      .next { s with power := { s.power with lossPending := true } }.coreReset
    else .next s.coreReset

/-- RAIL_GOOD: a rail has been at its good level for 100 µs (R404). With every rail good, a block that was off waits for its domains, and a
Waking one starts its channels (R402, R407). -/
def execRailGood (rail : Nat) (s : State) : Host.Outcome State Fault Refusal :=
  if 5 ≤ rail ∨ bit s.power.rails rail = true then .next s
  else
    let r := s.power.rails + 2 ^ rail
    let s := { s with power := { s.power with rails := r, st := if s.power.st = 4 ∧ r = 0x1F then 0 else s.power.st } }
    .next s.startWake

end Sys2Proof.Machine
end

