-- ==== Sys2Proof/Machine/Counters.lean ====
section
/-! DEFINITION. Register writes of the counter groups and of Contrail (R432 to R441). -/

namespace Sys2Proof.Machine
open Sys2Proof

/-- Byte address of a register of counter group `G`. -/
def pfAddr (G o : Nat) : Nat := 0x41000 + G * 0x40 + o

/-- SNAP: a snapshot of the group; a tick of the same cycle takes its own over it, and that one stands (R432). -/
def State.snapGo (s : State) (G : Nat) : State × Bool := (s.snapshot G, false)

/-- A write of PF_GRP_CTL: SNAP is taken before CLEAR (log entry 25). -/
def State.writePfCtl (s : State) (G w tgt : Nat) : State :=
  if 32 ≤ G then s
  else
    s.writeReg [⟨R.PF_GRP_CTL_EN, G, 0⟩, ⟨R.PF_GRP_CTL_TICK_SNAP, G, 0⟩, ⟨R.PF_GRP_CTL_TICK_CLEAR, G, 0⟩]
      [(1, fun s => s.snapGo G), (2, fun s => (s.clearGroup G, false))] (pfAddr G 0x24) w tgt

/-- COUNTER_SNAP. -/
def execCounterSnap (g : Nat) (w : Word) (tgt : Nat) (s : State) : Host.Outcome State Fault Refusal :=
  .next (s.regAccess (pfAddr g 0x24) (w ||| 2) tgt fun w s => s.writePfCtl g w tgt)

/-- COUNTER_CLEAR. -/
def execCounterClear (g : Nat) (w : Word) (tgt : Nat) (s : State) : Host.Outcome State Fault Refusal :=
  .next (s.regAccess (pfAddr g 0x24) (w ||| 4) tgt fun w s => s.writePfCtl g w tgt)

/-- FLUSH: CONS becomes PROD (R439). -/
def State.ctrFlush (s : State) : State := s.wr R.CTR_CONS_CONS 0 0 s.meas.prod

/-- A write of CTR_CTL. -/
def State.writeCtrCtl (s : State) (w tgt : Nat) : State :=
  s.writeReg [⟨R.CTR_CTL_EN, 0, 0⟩, ⟨R.CTR_CTL_K, 0, 0⟩, ⟨R.CTR_CTL_WRAP, 0, 0⟩] [(7, fun s => (s.ctrFlush, false))] 0x40810 w tgt

/-- CONTRAIL_FLUSH. -/
def execContrailFlush (w : Word) (tgt : Nat) (s : State) : Host.Outcome State Fault Refusal :=
  .next (s.regAccess 0x40810 (w ||| 0x80) tgt fun w s => s.writeCtrCtl w tgt)

/-- A write of CTR_SEED loads the LFSR while Contrail is off; a seed of 0 loads 1 (R435, R441). -/
def State.writeCtrSeed (s : State) (w tgt : Nat) : State :=
  let v := bits w 0 24
  if s.rd R.CTR_CTL_EN = 1 then s.busyIf (v != s.rd R.CTR_SEED_SEED) 0x40814 tgt
  else { s.wr R.CTR_SEED_SEED 0 0 v with meas := { s.meas with lfsr := max 1 v } }

/-- A write of CTR_CONS: an index outside CONS to PROD is refused (R439). -/
def State.writeCtrCons (s : State) (w tgt : Nat) : State :=
  let v := bits w 0 9
  if (v + 512 - s.rd R.CTR_CONS_CONS) % 512 ≤ s.ctrUsed then s.wr R.CTR_CONS_CONS 0 0 v else s.cfgBusy 0x40820 tgt

/-- CONTRAIL_CONS_WRITE. -/
def execContrailConsWrite (w : Word) (tgt : Nat) (s : State) : Host.Outcome State Fault Refusal :=
  .next (s.regAccess 0x40820 w tgt fun w s => s.writeCtrCons w tgt)

end Sys2Proof.Machine
end

