-- ==== Sys2Proof/Machine/Mailbox.lean ====
section
/-! DEFINITION. The mailboxes and the objects they reach (R440, R453 to R458). -/

namespace Sys2Proof.Machine
open Sys2Proof

/-- Whether an operation runs in mailbox `m`. -/
def State.mbxBusy (s : State) (m : Nat) : Bool := (Tab.get none s.mbx m).isSome

/-- Data word `k` of mailbox `m`. -/
def State.mbxWord (s : State) (m k : Nat) : Nat := s.rd R.MBX_D_DATA m k

/-- Eight words of a list of bytes. -/
def wordsOf (l : List Byte) : List Nat := (List.range 8).map fun k => leNat ((l.drop (4 * k)).take 4)

/-- The 32 bytes of the mailbox's data words. -/
def State.mbxBytes (s : State) (m : Nat) : List Byte := (List.range 8).flatMap fun k => leBytes 4 (s.mbxWord m k)

/-! ### Objects -/

/-- The highest index of an object, for the build; none for a code that is no object (R440, R456). -/
def State.objMax (s : State) (obj : Nat) : Option Nat :=
  if 1 ≤ obj ∧ obj ≤ 4 then some 0
  else if obj = 0x10 ∨ obj = 0x11 then some (2 ^ 20 - 1)
  else if obj = 0x18 then some (16 * s.C - 1)
  else if obj = 0x19 then some 4095
  else if obj = 0x20 ∨ obj = 0x22 then some 255
  else if obj = 0x21 then some 63
  else none

/-- Whether an object needs a configuration (R456). -/
def objNeedsConf (obj : Nat) : Bool := obj == 2 || (decide (0x10 ≤ obj) && decide (obj ≤ 0x19))

/-- Whether an object has no write (R440, R456). -/
def objReadOnly (obj : Nat) : Bool := [1, 3, 4, 0x19, 0x21, 0x22].contains obj

/-- The context that the words of a FLOW_CONFIG write name; reserved bits read 0. -/
def Flow.ofWords (d : Nat → Nat) : Flow :=
  { cls := bits (d 0) 0 4, rank := bits (d 0) 4 4, policy := bits (d 0) 8 4, target := bits (d 0) 16 8 &&& 0x87, defined := bit (d 0) 24
    guarantee := d 1, latency := d 2, cir := d 3, pir := d 4, cbs := d 5, pbs := d 6, budget := d 7 }

/-- Whether a FLOW_CONFIG write that changes `a` into `b` touches what the capacity test counts (R283). -/
def Flow.testable (a b : Flow) : Bool :=
  (a.guarantee != 0 || b.guarantee != 0) &&
    (a.defined != b.defined || a.cls != b.cls || a.guarantee != b.guarantee || bit a.policy 3 != bit b.policy 3 || a.target != b.target)

/-- FLOW_CONFIG write: tested where it touches a guarantee, then pending for the next tick (R283). -/
def State.flowConfigWrite (s : State) (f : Nat) (d : Nat → Nat) : State × MbxEnd :=
  let new := Flow.ofWords d
  let old := Tab.get ({} : Flow) s.traffic.flows f
  let was := Tab.get old s.flowsPending f
  let put (s : State) : State := { s with now := { s.now with flows := Tab.insert f new s.now.flows } }
  if old.testable new || was.testable new then
    let c := s.capRun (capFlowsOf (withWrites s.flowsPending [(f, new)]))
    let a := c.outcome
    let s := s.admLast 3 a
    if a.fail.isNone then (put s, .wrote) else (s, .err 0x10)
  else (put s, .wrote)

/-- TRAINING_STATE read: part `k` of the saved copy; the bytes of a copy that is not valid are free values (R351, R370; log entry 5). An
uncorrectable byte marks the copy not valid. -/
def State.trainingRead (s : State) (ch k : Nat) (lost : Bool) : State × MbxEnd :=
  if lost then (s.setChan ch { s.chan ch with copy := [] }, .err 6)
  else
    match (s.chan ch).copy with
    | [] =>
      let (n, s) := s.fresh
      (s, .read (wordsOf ((List.range 32).map fun i => Config.copyByte n (32 * k + i))))
    | l => (s, .read (wordsOf (l.drop (32 * k))))

/-- The 512 B of a staging buffer. -/
def Chan.stagedBytes (x : Chan) : List Byte := (List.range 512).map fun i => Tab.get 0 x.staging i

/-- Whether the CRC of a training state matches (R458). -/
def trainCrcOk (l : List Byte) : Bool := crc32c (l.take 12 ++ leBytes 4 0 ++ l.drop 16) == leNat ((l.drop 12).take 4)

/-- The retained state that a training state names, with the trained values that it holds (R350, R458). -/
def Retained.ofBytes (l : List Byte) (vals : List Int) : Retained :=
  let b (i : Nat) : Nat := (l.getD i 0).toNat
  { valid := true, ck := leNat (l.take 4), ranks := b 4, density := b 5, mr5 := b 6, mr6 := b 7, mr8 := b 8, bytes := l, vals := vals }

/-- The trained values that written bytes hold: those of the saved copy or of the retained state where the bytes are its own, else what the engine's
layout makes of them (R351, R458; log entry 5). -/
def Chan.valsOf (x : Chan) (l : List Byte) : List Int :=
  if l = x.copy then x.copyVals else if l = x.retainedSt.bytes then x.retainedSt.vals else Config.trainedVals l

/-- TRAINING_STATE write: part `k` is staged; part 15 also commits (R458). -/
def State.trainingWrite (s : State) (ch k : Nat) (l : List Byte) : State × MbxEnd :=
  if s.phyQuiesced ch = false then (s, .err 4)
  else
    let x := s.chan ch
    let st := (List.range 32).foldl (fun (t : Tab Byte) i => Tab.insert (32 * k + i) (l.getD i 0) t) x.staging
    let x := { x with staging := st }
    if k ≠ 15 then (s.setChan ch x, .wrote)
    else
      let all := x.stagedBytes
      if trainCrcOk all then (s.setChan ch { x with retainedSt := .ofBytes all (x.valsOf all), staging := [] }, .wrote)
      else (s.setChan ch x, .err 7)

/-- ERROR_RING read: slots outside CONS to PROD hold no unread entry (R386, R456). -/
def State.ringRead (s : State) (ix : Nat) (lost : Bool) : MbxEnd :=
  if s.ringUsed ≤ (ix + 4096 - s.rd R.INT_RING_CONS_CONS % 4096) % 4096 then .err 5
  else if lost || s.rsvLost (rsvRing + 32 * ix) 32 then .err 6
  else .read (wordsOf (Tab.get {} s.integ.ring ix).bytes)

/-- CONTRAIL_RECORD read (R440). -/
def State.recordRead (s : State) (ix : Nat) : MbxEnd :=
  if s.ctrUsed ≤ (ix + 256 - s.rd R.CTR_CONS_CONS % 256) % 256 then .err 5 else .read (wordsOf (Tab.get [] s.meas.recs ix))

/-- A counter's two words. -/
def ctrWords (v : Nat) : List Nat := [v % 2 ^ 32, v / 2 ^ 32 % 2 ^ 16]

/-- PERF_COUNTER write: only while the group's EN is 0 (R433). -/
def State.counterWrite (s : State) (n v : Nat) : State × MbxEnd :=
  if s.rd R.PF_GRP_CTL_EN (n / 8) = 1 then (s, .err 4)
  else ({ s with meas := { s.meas with ctrs := Tab.insert n (v % 2 ^ 48) s.meas.ctrs } }, .wrote)

/-- A read of a context that the cache does not hold finds what is uncorrectable of it in the flow table (R370, R456). -/
def State.ctxSeen (s : State) (f : Nat) : State := if s.traffic.fcache.contains f || !s.rsvReady (64 * f) then s else s.ctxLost f (s.ctxBad f) 0

/-- What a read of object `obj` at index `ix` does and gives. -/
def State.objRead (s : State) (obj ix : Nat) (lost : Bool) : State × MbxEnd :=
  if obj = 1 then (s, .read [s.tick.epoch % 2 ^ 32, s.tick.epoch / 2 ^ 32])
  else if obj = 2 then
    let w := s.now.seed.or s.tick.seed
    let v := w.getD 0
    (s, .read [v % 2 ^ 32, v / 2 ^ 32, b2n w.isSome])
  else if obj = 3 then (s, .read ([s.tick.im, s.tick.ic] ++ padTo 6 s.tick.imList))
  else if obj = 4 then (s, .read [s.cclk % 2 ^ 32, s.cclk / 2 ^ 32 % 2 ^ 32, s.tick.last % 2 ^ 32])
  else if obj = 0x10 then let s := s.ctxSeen ix; (s, .read (Tab.get ({} : Flow) s.traffic.flows ix).configWords)
  else if obj = 0x11 then let s := s.ctxSeen ix; (s, .read (Tab.get ({} : Flow) s.traffic.flows ix).stateWords)
  else if obj = 0x18 then s.trainingRead (ix / 16) (ix % 16) lost
  else if obj = 0x19 then (s, s.ringRead ix lost)
  else if obj = 0x20 then (s, .read (ctrWords (Tab.get 0 s.meas.ctrs ix)))
  else if obj = 0x21 then (s, .read ((List.range 4).flatMap fun i => ctrWords (Tab.get 0 s.meas.snaps (4 * ix + i))))
  else (s, s.recordRead ix)

/-- What a write of object `obj` at index `ix` from mailbox `m` does. -/
def State.objWrite (s : State) (obj ix m : Nat) : State × MbxEnd :=
  if obj = 2 then ({ s with now := { s.now with seed := some (s.mbxWord m 0 + 2 ^ 32 * s.mbxWord m 1) } }, .wrote)
  else if obj = 0x10 then s.flowConfigWrite ix (s.mbxWord m)
  else if obj = 0x18 then s.trainingWrite (ix / 16) (ix % 16) (s.mbxBytes m)
  else if obj = 0x20 then s.counterWrite ix (s.mbxWord m 0 + 2 ^ 32 * (s.mbxWord m 1 % 2 ^ 16))
  else (s, .wrote)

/-- The operation that MBX_SEL of mailbox `m` names: an unknown object, a missing configuration, an index out of range and a write of an object
that has none come first, in that order (R456, R457; log entry 26). -/
def State.mbxOp (s : State) (m : Nat) (lost : Bool) : State × MbxEnd :=
  let obj := s.rd R.MBX_SEL_OBJ m
  let ix := s.rd R.MBX_SEL_INDEX m
  match s.objMax obj with
  | none => (s, .err 1)
  | some n =>
    if objNeedsConf obj && s.conf.isNone then (s, .err 5)
    else if n < ix then (s, .err 2)
    else if s.rd R.MBX_SEL_WRITE m = 0 then s.objRead obj ix lost
    else if objReadOnly obj then (s, .err 3)
    else s.objWrite obj ix m

/-- The byte of the engine reserve that the operation of mailbox `m` reads, if it reads there: a context that the cache does not hold, a part of a
saved training state, or a ring entry (R456). -/
def State.mbxReserve (s : State) (m : Nat) : Option Nat :=
  let obj := s.rd R.MBX_SEL_OBJ m
  let ix := s.rd R.MBX_SEL_INDEX m
  if s.rd R.MBX_SEL_WRITE m ≠ 0 then none
  else if (obj = 0x10 ∨ obj = 0x11) ∧ s.traffic.fcache.contains ix = false then some (64 * ix + (if obj = 0x11 then 32 else 0))
  else if obj = 0x18 then some (rsvTraining + 32 * ix)
  else if obj = 0x19 then some (rsvRing + 32 * ix)
  else none

/-- Whether an operation ends in what a read found, good or lost. -/
def MbxEnd.hasRead (e : MbxEnd) : Bool :=
  match e with
  | .read _ => true
  | .wrote => false
  | .err c => c == 6

/-- An operation starts in mailbox `m` (R454). -/
def State.mbxStart (s : State) (m tgt : Nat) (lost : Bool) : State :=
  let r := s.mbxOp m lost
  let s := ((r.1.wr R.MBX_CTL_VALID m 0 0).wr R.MBX_CTL_ERR m 0 0).wr R.MBX_CTL_CODE m 0 0
  { s with mbx := Tab.insert m (some { writer := tgt % 8, res := r.2, rsv := if r.2.hasRead then s.mbxReserve m else none }) s.mbx }

/-- Byte address of a register of mailbox `m`. -/
def mbxAddr (m o : Nat) : Nat := 0x100 + m * 0x40 + o

/-- A write of MBX_SEL starts the operation it names (R454, R455). -/
def State.writeMbxSel (s : State) (m w tgt : Nat) (lost : Bool) : State :=
  if 8 ≤ m then s
  else if s.mbxBusy m then s.cfgBusy (mbxAddr m 0) tgt
  else
    let s := ((s.wr R.MBX_SEL_INDEX m 0 (bits w 0 20)).wr R.MBX_SEL_OBJ m 0 (bits w 20 8)).wr R.MBX_SEL_WRITE m 0 (bits w 28 1)
    s.mbxStart m tgt lost

/-- A write of MBX_CTL: GO runs the named operation again (R453, R455). -/
def State.writeMbxCtl (s : State) (m w tgt : Nat) : State :=
  if 8 ≤ m ∨ bit w 0 = false then s
  else if s.mbxBusy m then s.cfgBusy (mbxAddr m 4) tgt
  else s.mbxStart m tgt false

/-- A write of MBX_Dk (R455). -/
def State.writeMbxData (s : State) (m k w tgt : Nat) : State :=
  if 8 ≤ m ∨ 8 ≤ k then s
  else if s.mbxBusy m then s.cfgBusy (mbxAddr m (0x20 + 4 * k)) tgt
  else s.wr R.MBX_D_DATA m k w

/-- MBX_GO. -/
def execMbxGo (m : Nat) (w : Word) (tgt : Nat) (s : State) : Host.Outcome State Fault Refusal :=
  .next (s.regAccess (mbxAddr m 4) (w ||| 1) tgt fun w s => s.writeMbxCtl m w tgt)

/-- The word of MBX_SEL that names an object, an index and a direction (R453). -/
def selWord (obj ix wr : Nat) : Word := BitVec.ofNat 32 (ix % 2 ^ 20 + 2 ^ 20 * obj + 2 ^ 28 * wr)

/-- A write of MBX_SEL that names object `obj`. -/
def State.mbxSelect (s : State) (m obj ix wr tgt : Nat) (lost : Bool) : State :=
  s.regAccess (mbxAddr m 0) (selWord obj ix wr) tgt fun w s => s.writeMbxSel m w tgt lost

/-- EPOCH_READ. -/
def execEpochRead (m ix tgt : Nat) (s : State) : Host.Outcome State Fault Refusal := .next (s.mbxSelect m 1 ix 0 tgt false)
/-- EPOCH_SEED_READ. -/
def execEpochSeedRead (m ix tgt : Nat) (s : State) : Host.Outcome State Fault Refusal := .next (s.mbxSelect m 2 ix 0 tgt false)
/-- EPOCH_SEED_WRITE. -/
def execEpochSeedWrite (m ix tgt : Nat) (s : State) : Host.Outcome State Fault Refusal := .next (s.mbxSelect m 2 ix 1 tgt false)
/-- TICK_INTERVALS_READ. -/
def execTickIntervalsRead (m ix tgt : Nat) (s : State) : Host.Outcome State Fault Refusal := .next (s.mbxSelect m 3 ix 0 tgt false)
/-- CYCLE_READ. -/
def execCycleRead (m ix tgt : Nat) (s : State) : Host.Outcome State Fault Refusal := .next (s.mbxSelect m 4 ix 0 tgt false)
/-- FLOW_CONFIG_READ. -/
def execFlowConfigRead (m ix tgt : Nat) (s : State) : Host.Outcome State Fault Refusal := .next (s.mbxSelect m 0x10 ix 0 tgt false)
/-- FLOW_CONFIG_WRITE. -/
def execFlowConfigWrite (m ix tgt : Nat) (s : State) : Host.Outcome State Fault Refusal := .next (s.mbxSelect m 0x10 ix 1 tgt false)
/-- FLOW_STATE_READ. -/
def execFlowStateRead (m ix tgt : Nat) (s : State) : Host.Outcome State Fault Refusal := .next (s.mbxSelect m 0x11 ix 0 tgt false)
/-- FLOW_STATE_WRITE. -/
def execFlowStateWrite (m ix tgt : Nat) (s : State) : Host.Outcome State Fault Refusal := .next (s.mbxSelect m 0x11 ix 1 tgt false)
/-- TRAINING_STATE_READ. -/
def execTrainingStateRead (m ix tgt : Nat) (lost : Bool) (s : State) : Host.Outcome State Fault Refusal :=
  .next (s.mbxSelect m 0x18 ix 0 tgt lost)
/-- TRAINING_STATE_WRITE. -/
def execTrainingStateWrite (m ix tgt : Nat) (s : State) : Host.Outcome State Fault Refusal := .next (s.mbxSelect m 0x18 ix 1 tgt false)
/-- ERROR_RING_READ. -/
def execErrorRingRead (m ix tgt : Nat) (lost : Bool) (s : State) : Host.Outcome State Fault Refusal :=
  .next (s.mbxSelect m 0x19 ix 0 tgt lost)
/-- PERF_COUNTER_READ. -/
def execPerfCounterRead (m ix tgt : Nat) (s : State) : Host.Outcome State Fault Refusal := .next (s.mbxSelect m 0x20 ix 0 tgt false)
/-- PERF_COUNTER_WRITE. -/
def execPerfCounterWrite (m ix tgt : Nat) (s : State) : Host.Outcome State Fault Refusal := .next (s.mbxSelect m 0x20 ix 1 tgt false)
/-- PERF_SNAPSHOT_READ. -/
def execPerfSnapshotRead (m ix tgt : Nat) (s : State) : Host.Outcome State Fault Refusal := .next (s.mbxSelect m 0x21 ix 0 tgt false)
/-- CONTRAIL_RECORD_READ. -/
def execContrailRecordRead (m ix tgt : Nat) (s : State) : Host.Outcome State Fault Refusal := .next (s.mbxSelect m 0x22 ix 0 tgt false)

/-- What the end of an operation leaves in the mailbox's registers (R454). -/
def State.mbxLoad (s : State) (m : Nat) : MbxEnd → State
  | .read d => ((List.range 8).foldl (fun (s : State) k => s.wr R.MBX_D_DATA m k (d.getD k 0)) s).wr R.MBX_CTL_VALID m 0 1
  | .wrote => s.wr R.MBX_CTL_VALID m 0 1
  | .err c => (s.wr R.MBX_CTL_ERR m 0 1).wr R.MBX_CTL_CODE m 0 c

/-- The reserve read of an operation passes its channel in C0 (R349, R369, R456): whether it can now, and the state after it. -/
def State.mbxFree (s : State) (o : MbxOp) : Bool := match o.rsv with | some a => !s.dawning && s.rsvReady a && s.engineFree (s.rsvChan a) 0 0 | none => true
def State.mbxCharge (s : State) (o : MbxOp) : State := match o.rsv with | some a => s.engineBytes (s.rsvChan a) 0 64 | none => s

/-- MBX_DONE: the operation of mailbox `m` ends; one that reads the reserve waits for its channel (R454, R456). -/
def execMbxDone (m : Nat) (s : State) : Host.Outcome State Fault Refusal :=
  match Tab.get none s.mbx m with
  | none => .next s
  | some o =>
    if s.cclkRuns = false ∨ s.mbxFree o = false then .next s
    else
      let s := (((s.mbxCharge o).mbxLoad m o.res).raisePriv o.writer 0).count { ev := 0x007 }
      .next { s with mbx := Tab.insert m none s.mbx }

end Sys2Proof.Machine
end

