-- ==== Sys2Proof/Machine/Squall.lean ====
section
/-! DEFINITION. Squall: the lock, the generators and the injections (R463 to R470). The perturbations act where they bear. -/

namespace Sys2Proof.Machine
open Sys2Proof

/-- Generator `i` as SEED loads it (R466). -/
def genLoad (seed i : Nat) : Nat := if seed ^^^ (i + 1) = 0 then 1 else seed ^^^ (i + 1)

/-- Load every generator (R466). -/
def State.loadGens (s : State) : State :=
  let seed := s.rd R.SQ_SEED_SEED
  { s with squall := { s.squall with gens := (List.range 65).map fun i => (i, genLoad seed i) } }

/-- Target `t`'s pending KEY_A: the cclk count at which it arrived. -/
def State.keyOf (s : State) (t : Nat) : Option Nat := (Tab.find s.squall.keys t).join

/-- Set target `t`'s pending KEY_A. -/
def State.setKey (s : State) (t : Nat) (k : Option Nat) : State :=
  { s with squall := { s.squall with keys := match k with
      | none => Tab.erase t s.squall.keys
      | some c => Tab.insert t (some c) s.squall.keys } }

/-- A write of TEST_KEY (R463). -/
def State.writeTestKey (s : State) (w tgt : Nat) : State :=
  let t := tgt % 8
  if s.permits 0 = false then s.cfgBusy 0x60000 tgt
  else if w = 0 ∧ s.squall.unlocked = true then s.squallLock
  else if w = 0x5351 then s.setKey t (some s.cclk)
  else if w = 0xACAE then
    match s.keyOf t with
    | none => s.cfgBusy 0x60000 tgt
    | some c =>
      let s := s.setKey t none
      if s.cclk ≤ c + 65536 then ({ s with squall := { s.squall with unlocked := true } } : State).loadGens else s
  else s.setKey t none

/-- SQUALL_KEY: the write reaches the engine in cclk cycle `c`. -/
def execSquallKey (w : Word) (tgt c : Nat) (s : State) : Host.Outcome State Fault Refusal :=
  .next (s.regAccess 0x60000 w tgt fun w s => (s.atCycle c).writeTestKey w tgt)

/-- A write of a Squall register other than TEST_KEY, refused while Squall is locked (R465, R487). -/
def State.squallWrite (s : State) (a w tgt : Nat) (acts : List (Nat × Act)) : State :=
  if s.squall.unlocked = false then s.busyIf (s.carries w (slotsAt a) (acts.map (·.1))) a tgt
  else s.writeReg (slotsAt a) acts a w tgt

/-- A write of SQ_SEED loads the generators (R466). -/
def State.writeSqSeed (s : State) (w tgt : Nat) : State :=
  let s' := s.squallWrite 0x60008 w tgt []
  if s.squall.unlocked then s'.loadGens else s'

/-- SQUALL_SEED. -/
def execSquallSeed (w : Word) (tgt : Nat) (s : State) : Host.Outcome State Fault Refusal :=
  .next (s.regAccess 0x60008 w tgt fun w s => s.writeSqSeed w tgt)

/-- A write of SQ_GINJ_CTL: GO arms, unless it is armed (R468). -/
def State.writeGinj (s : State) (w tgt : Nat) : State :=
  s.squallWrite 0x60204 w tgt [(24, fun s =>
    if s.squall.gArmed then (s, true) else ({ s with squall := { s.squall with gArmed := true } }, false))]

/-- GUARDED_INJECT. -/
def execGuardedInject (w : Word) (tgt : Nat) (s : State) : Host.Outcome State Fault Refusal :=
  .next (s.regAccess 0x60204 (w ||| 0x1000000) tgt fun w s => s.writeGinj w tgt)

/-- A write of SQ_SINJ_CTL: GO arms, unless it is armed (R468). -/
def State.writeSinj (s : State) (w tgt : Nat) : State :=
  s.squallWrite 0x60210 w tgt [(24, fun s =>
    if s.squall.sArmed then (s, true) else ({ s with squall := { s.squall with sArmed := true } }, false))]

/-- SEALED_INJECT. -/
def execSealedInject (w : Word) (tgt : Nat) (s : State) : Host.Outcome State Fault Refusal :=
  .next (s.regAccess 0x60210 (w ||| 0x1000000) tgt fun w s => s.writeSinj w tgt)

/-- Flip bits `m` of word `w` of a line's unit. -/
def HUnit.flip (u : HUnit) (w m : Nat) : HUnit :=
  let v := Tab.get 0 u.errs w ^^^ m
  { u with errs := if v = 0 then Tab.erase w u.errs else Tab.insert w v u.errs }

/-- The Halo injection that SQ_HINJ names, applied at once: the parity of a tag, or one or two bits of a data word of an entry that holds
data (R468; log entry 27). -/
def State.haloGo (s : State) : State :=
  let g := s.rd R.SQ_HINJ_GROUP
  let e := s.rd R.SQ_HINJ_ENTRY
  let w := s.rd R.SQ_HINJ_WORD
  let kind := s.rd R.SQ_HINJ_KIND
  if s.G ≤ g ∨ 76 ≤ e ∨ kind = 0 then s
  else
    let x := s.line g e
    let n := if x.tag.lin then w / 4 else w / 64
    let y := if kind = 1 then { x with tagErr := !x.tagErr } else x.setUnit n ((x.unit n).flip w (if kind = 2 then 1 else 3))
    let s := s.bump R.SQ_INJ_CNT_COUNT 0 0 1
    if x.valid = false ∨ (kind ≠ 1 ∧ (x.unit n).st = 0) then s else s.setLine g e y

/-- A write of SQ_HINJ. -/
def State.writeHinj (s : State) (w tgt : Nat) : State := s.squallWrite 0x60220 w tgt [(31, fun s => (s.haloGo, false))]

/-- HALO_INJECT. -/
def execHaloInject (w : Word) (tgt : Nat) (s : State) : Host.Outcome State Fault Refusal :=
  .next (s.regAccess 0x60220 (w ||| 0x80000000) tgt fun w s => s.writeHinj w tgt)

/-- A write of SQ_LINJ: an injection into a channel without LINK_ECC is refused (R468). -/
def State.writeLinj (s : State) (w tgt : Nat) : State :=
  if s.squall.unlocked ∧ bits w 16 8 ≠ 0 ∧ s.option (bits w 0 5) 0 = false then s.cfgBusy 0x60230 tgt
  else s.squallWrite 0x60230 w tgt []

/-- LINK_INJECT. -/
def execLinkInject (w : Word) (tgt : Nat) (s : State) : Host.Outcome State Fault Refusal :=
  .next (s.regAccess 0x60230 w tgt fun w s => s.writeLinj w tgt)

end Sys2Proof.Machine
end

