-- ==== Sys2Proof/Machine/Views.lean ====
section
/-! DEFINITION. What the read-only register fields show of the units' own state, from the register tables of the spec. A field that is
in no list here holds its value in the register table. -/

namespace Sys2Proof.Machine
open Sys2Proof

/-- A list of fields with what each shows. -/
abbrev Shown := List (Fld × (Unit → Nat))

/-- What a list shows for a field, if it has the field. -/
def inList (f : Fld) (l : Shown) : Option Nat := (l.find? fun e => e.1.ix == f.ix).map fun e => e.2 ()

/-- A mask with bit `n` set for each number below `k` that satisfies `p`. -/
def maskOf (k : Nat) (p : Nat → Bool) : Nat := ((List.range k).map fun n => if p n then 2 ^ n else 0).sum

/-- The tick unit, the configuration and admission (R109, R459, R460, R462). -/
def State.showTick (s : State) : Shown := [
  (R.TICK_STATUS_STATE, fun _ => s.tick.st), (R.TICK_STATUS_ANOMALY, fun _ => b2n s.tickAnomaly), (R.TICK_STATUS_LOST, fun _ => b2n s.tickLost),
  (R.TICK_STATUS_RUNTS, fun _ => s.tick.runts), (R.TICK_STATUS_FLYWHEELS, fun _ => min 15 s.tick.flys),
  (R.TICK_EPOCH_EPOCH, fun _ => s.tick.epoch), (R.TICK_IM_IM, fun _ => s.tick.im), (R.TICK_IC_IC, fun _ => s.tick.ic),
  (R.TICK_LAST_TCLK, fun _ => s.tick.last), (R.TICK_INTERVAL_TCLK, fun _ => s.tick.interval),
  (R.TICK_NOMINAL_TCLK_TCLK, fun _ => s.nomTclk), (R.TICK_NOMINAL_CCLK_CCLK, fun _ => s.nomCclk),
  (R.IMG_STATUS_STATE, fun _ => s.loader.st), (R.IMG_STATUS_CONFIGURED, fun _ => b2n s.conf.isSome),
  (R.GLB_STATUS_CONFIGURED, fun _ => b2n s.conf.isSome),
  (R.ADM_MARGIN_TIGHT, fun _ => b2n (decide (s.rd R.ADM_MARGIN_MARGIN < s.rd R.ADM_CTL_WARN)))]

/-- The gate lists of domain `d` (R67); `n` is an entry. -/
def State.showGate (s : State) (d n : Nat) : Shown :=
  let g := s.gate d
  [(R.GATE_STATUS_ACTIVE_LEN, fun _ => g.active.len), (R.GATE_STATUS_ENTRY, fun _ => g.entry), (R.GATE_STATUS_ARMED, fun _ => b2n g.armed),
    (R.GATE_STATUS_EXTENDED, fun _ => b2n g.extended), (R.GATE_SWAP_EPOCH_SWAP_EPOCH, fun _ => g.swapEpoch),
    (R.GATE_LATE_EPOCH_LATE_EPOCH, fun _ => g.lateEpoch),
    (R.GATE_CHANNELS_CHANNELS, fun _ => maskOf 32 fun ch => s.chPresent ch && s.domainOf ch == d),
    (R.GATE_SHADOW_CTL_LEN, fun _ => g.shadow.len), (R.GATE_SHADOW_CTL_ARM, fun _ => b2n g.armed),
    (R.GATE_ACT_EPOCH_ACT_EPOCH, fun _ => g.act),
    (R.GATE_SHADOW_DURATION, fun _ => (g.shadow.ent n).dur), (R.GATE_SHADOW_MASK, fun _ => (g.shadow.ent n).mask),
    (R.GATE_ACTIVE_DURATION, fun _ => (g.active.ent n).dur), (R.GATE_ACTIVE_MASK, fun _ => (g.active.ent n).mask)]

/-- HOLD_AVG of a link: the mean of its last grants, 16 before the first (R165; log entry 28). -/
def Group.holdAvg (x : Group) : Nat := if x.holds.isEmpty then 16 else x.holds.sum / x.holds.length

/-- Whether port `i` of group `g` would be able to revoke the owner if it requested (R155). -/
def State.couldRevoke (s : State) (g i : Nat) : Bool :=
  match s.ownerNow g with
  | none => false
  | some o => s.first0 (8 * g + i) && s.arbClass (8 * g + o) != some 0

/-- The estimate E of port `i` of group `g` (R165). -/
def State.hintE (s : State) (g i : Nat) : Nat :=
  let x := s.group g
  if s.ownerNow g = some i then 0
  else if s.couldRevoke g i then 1
  else
    let avg := x.holdAvg
    let r := if (s.ownerNow g).isNone then 0 else max 1 (avg - (s.cclk - x.grantAt))
    let key := s.linkKey g x.credit
    let n := ((List.range 8).filter fun k => k != i && s.ownerNow g != some k && s.lreq (8 * g + k) && lexLt (key k) (key i)).length
    r + (if s.rd R.GRP_CTL_STYLE g = 1 then 2 else 0) + n * avg

/-- The number of bits of a number, up to `k`. -/
def bitLen : Nat → Nat → Nat
  | 0, _ => 0
  | k + 1, n => if n = 0 then 0 else 1 + bitLen k (n / 2)

/-- sp_turn_hint_o; a port without a PORT record holds its outputs at 0 (R110, R135, R165), and 63 before a configuration is in force (DESIGN CHOICE, log
entry 162). -/
def State.hint (s : State) (g i : Nat) : Nat :=
  if (s.port (8 * g + i)).present = false ∧ s.conf.isSome = true then 0
  else if (s.port (8 * g + i)).attached = false ∨ s.frozen g = true then 63 else bitLen 62 (s.hintE g i)

/-- sp_space_warn_o: the highest level among the selected pools; 0 at a port without a PORT record (R110, R136). -/
def State.warnLevel (s : State) (g i : Nat) : Nat :=
  if (s.port (8 * g + i)).present = false then 0
  else (List.range 8).foldl (fun m n => if bit (s.rd R.PORT_WARN_POOLS g i) n then max m (s.poolLevel n) else m) 0

/-- Port `i` of group `g`, and the group's link (R146, R169). OWNER reads 0 while no grant is held (DESIGN CHOICE, log entry 129). -/
def State.showPort (s : State) (g i : Nat) : Shown :=
  let p := s.port (8 * g + i)
  let x := s.group g
  [(R.PORT_STATUS_PRESENT, fun _ => b2n (s.presence (8 * g + i))), (R.PORT_STATUS_ATTACHED, fun _ => b2n p.attached),
    (R.PORT_STATUS_DETACHING, fun _ => b2n p.detaching), (R.PORT_STATUS_GRANTED, fun _ => b2n (s.ownerNow g == some i)),
    (R.PORT_STATUS_WAITING, fun _ => b2n (s.sm.waits.any fun w => w.port == 8 * g + i)),
    (R.PORT_STATUS_RESTARTING, fun _ => b2n p.restarting), (R.PORT_STATUS_OUTSTANDING, fun _ => p.tags.length),
    (R.PORT_WARN_LEVEL, fun _ => s.warnLevel g i), (R.PORT_HINT_HINT, fun _ => s.hint g i),
    (R.GRP_STATUS_OWNER, fun _ => (s.ownerNow g).getD 0), (R.GRP_STATUS_OWNED, fun _ => b2n (s.ownerNow g).isSome),
    (R.GRP_STATUS_DRAINED, fun _ => b2n (s.isDrained g)), (R.GRP_STATUS_LREQ, fun _ => maskOf 8 fun k => s.lreq (8 * g + k)),
    (R.GRP_STATUS_CLASS0, fun _ => maskOf 8 fun k => s.arbClass (8 * g + k) == some 0),
    (R.GRP_HOLD_AVG_AVG, fun _ => min 65535 x.holdAvg), (R.GRP_CREDIT_CREDIT, fun _ => toTwos 18 (Tab.get 0 x.credit i))]

/-- The evacuation or migration that runs, or that waits for re-placement to give way to it (R207). -/
def State.mainMove (s : State) : Move := if s.sm.start.kind = 0 then s.sm.move else s.sm.start

/-- The chunks that an evacuation has not yet COPIED (R209): those of the units on the channel, and of one on its way there. -/
def State.evacLeft (s : State) : Nat :=
  let m := s.mainMove
  if m.kind ≠ 1 then 0
  else
    let lanes := (List.range 9).flatMap fun set => (s.lanesOn set m.ch).map fun l => MoveUnit.lane set l
    let coming := [s.sm.move, s.sm.parked].filterMap fun p => if p.dst = m.ch then p.unit else none
    let us := lanes ++ ((s.posOn m.ch).map fun e => MoveUnit.pos e.1 e.2) ++ coming
    (us.map fun u => s.unitChunks u - ((s.moveOf u).map (·.chunk)).getD 0).sum

/-- A lane's channel and its MOVING bit: while it moves, CH names the destination (R209). -/
def State.laneShown (s : State) (set lane : Nat) : Nat × Nat :=
  match s.moveOf (.lane set lane) with
  | some m => (m.dst, 1)
  | none => (s.laneCh set lane, 0)

/-- The surface manager (R209); `i`, `j` are the field's unit numbers. -/
def State.showSurf (s : State) (i j : Nat) : Shown :=
  let m := s.mainMove
  [(R.SM_STATUS_SURFACES, fun _ => s.liveCount), (R.SM_STATUS_TABLE_FULL, fun _ => b2n s.tableFull),
    (R.SM_STATUS_REPLACING, fun _ => b2n (s.sm.move.kind == 3 && s.sm.move.unit.isSome || s.sm.parked.unit.isSome)),
    (R.SM_POOL_FREE_FREE, fun _ => s.poolFree i),
    (R.SM_POOL_TOTAL_TOTAL, fun _ => match s.poolRec i with
      | none => 0
      | some r => (((List.range s.C).filter s.inService).map (poolExts r)).sum),
    (R.SM_POOL_LEVEL_LEVEL, fun _ => s.poolLevel i), (R.SM_POOL_LEVEL_LOW, fun _ => bits (Tab.get 0 s.sm.poolIn i) 0 1),
    (R.SM_POOL_LEVEL_LOWER, fun _ => bits (Tab.get 0 s.sm.poolIn i) 1 1), (R.SM_POOL_LEVEL_CRITICAL, fun _ => bits (Tab.get 0 s.sm.poolIn i) 2 1),
    (R.SM_POOL_WAITERS_WAITERS, fun _ => (s.sm.waits.filter fun w => w.pool == i).length),
    (R.SM_POOL_CHANNELS_CHANNELS, fun _ => maskOf 32 fun ch => (s.chList i).contains ch),
    (R.SM_EVAC_STATUS_STATE, fun _ => if m.kind ≠ 1 then 0 else if m.cancel then 3 else if m.held then 2 else 1),
    (R.SM_EVAC_STATUS_CH, fun _ => s.sm.evacCh.getD 0), (R.SM_EVAC_STATUS_STALLED, fun _ => b2n (m.held && !m.stopped)),
    (R.SM_EVAC_LEFT_CHUNKS, fun _ => s.evacLeft),
    (R.SM_MIGRATE_STATUS_STATE, fun _ => if m.kind ≠ 2 then 0 else if m.held then 2 else 1),
    (R.SM_LANE_CH0, fun _ => (s.laneShown i (4 * j)).1), (R.SM_LANE_MOVING0, fun _ => (s.laneShown i (4 * j)).2),
    (R.SM_LANE_CH1, fun _ => (s.laneShown i (4 * j + 1)).1), (R.SM_LANE_MOVING1, fun _ => (s.laneShown i (4 * j + 1)).2),
    (R.SM_LANE_CH2, fun _ => (s.laneShown i (4 * j + 2)).1), (R.SM_LANE_MOVING2, fun _ => (s.laneShown i (4 * j + 2)).2),
    (R.SM_LANE_CH3, fun _ => (s.laneShown i (4 * j + 3)).1), (R.SM_LANE_MOVING3, fun _ => (s.laneShown i (4 * j + 3)).2),
    (R.SM_CH_LOAD_LOAD, fun _ => s.chLoad i / s.rd R.SM_CTL_LOAD_EPOCHS / 65536), (R.SM_CH_SPARE_SPARE, fun _ => (s.spareOf i).length)]

/-- Slice `g` and its entry `e` (R276). -/
def State.showHalo (s : State) (g e : Nat) : Shown :=
  let x := s.line g e
  let held (p : Line → Bool) : Nat := ((List.range 64).filter fun k => p (s.line g k)).length
  [(R.HALO_STATUS_LOCKED, fun _ => held fun l => l.valid && l.locked), (R.HALO_STATUS_VALID, fun _ => held fun l => l.valid),
    (R.HALO_STATUS_INV_BUSY, fun _ => b2n (s.group g).invBusy),
    (R.HALO_ENT_A_VALID, fun _ => b2n x.valid), (R.HALO_ENT_A_LOCKED, fun _ => b2n x.locked), (R.HALO_ENT_A_EMPTY, fun _ => b2n x.empty),
    (R.HALO_ENT_A_DIRTY, fun _ => b2n x.dirty), (R.HALO_ENT_A_OWN, fun _ => b2n x.own), (R.HALO_ENT_A_FILLING, fun _ => b2n x.filling),
    (R.HALO_ENT_A_EVB, fun _ => x.evb), (R.HALO_ENT_A_KIND, fun _ => b2n x.tag.lin), (R.HALO_ENT_A_PLANE, fun _ => x.tag.plane),
    (R.HALO_ENT_A_INDEX, fun _ => x.tag.idx),
    (R.HALO_ENT_B_TAG, fun _ => if x.tag.lin then x.tag.line else x.tag.gen + 2 ^ 8 * x.tag.tx + 2 ^ 16 * x.tag.ty)]

/-- The traffic unit (R306 to R309); the class registers show channel TR_VIEW.CH. -/
def State.showTraffic (s : State) (i j : Nat) : Shown :=
  let t := s.traffic
  let x := s.chan (s.rd R.TR_VIEW_CH)
  let f := t.susp.getD i 0
  [(R.TR_STATUS_OVERCAST, fun _ => b2n (!t.susp.isEmpty)), (R.TR_STATUS_TESTING, fun _ => b2n t.testing),
    (R.TR_STATUS_HOLDING, fun _ => b2n (!t.susp.isEmpty && decide (t.hold < s.rd R.TR_CTL_OVC_HOLD))),
    (R.TR_STATUS_LIST_OVERFLOW, fun _ => b2n (decide (1024 < t.susp.length))), (R.TR_STATUS_SUSPENDED, fun _ => t.susp.length),
    (R.TR_FCACHE_PINNED, fun _ => t.pins.length),
    (R.TR_FCACHE_UNPINNED, fun _ => min 65535
      ((t.flows.filter fun e => e.2.defined && e.2.guarantee != 0 && !t.pins.contains e.1).length)),
    (R.TR_WINDOW_INDEX, fun _ => t.window % max 1 (s.rd R.TR_CTL_WINDOWS)),
    (R.CLS_CREDIT_CREDIT, fun _ => toTwos 32 (Tab.get 0 x.credit i / 1024)),
    (R.CLS_DEFICIT_DEFICIT, fun _ => if 4 ≤ i ∧ i ≤ 14 then Tab.get 0 x.deficit i else 0),
    (R.TR_BYTES_LAST_COUNT, fun _ => (Tab.get [] (s.chan i).bytesLast j).headD 0), (R.TR_BYTES_CUR_COUNT, fun _ => Tab.get 0 (s.chan i).bytesCur j),
    (R.TR_OVC_LIST_FLOW, fun _ => f), (R.TR_OVC_LIST_RANK, fun _ => if i < t.susp.length then (s.flow f).rank else 0),
    (R.TR_OVC_LIST_CLASS, fun _ => if i < t.susp.length then (s.flow f).cls else 0),
    (R.TR_OVC_LIST_VALID, fun _ => b2n (decide (i < t.susp.length)))]

/-- CH_PWR.STATE (R391): 7 for a channel that is absent, has never trained, or is out of service. -/
def State.pwrState (s : State) (ch : Nat) : Nat :=
  let x := s.chan ch
  if x.retired then 4
  else if s.inService ch then
    if 2 ≤ x.pwr then x.pwr
    else if s.ranksOf ch ≠ 0 ∧ (List.range (s.ranksOf ch)).all (fun r => (x.rankAt r).pd) = true then 1 else 0
  else if x.svc = 2 ∨ x.svc = 3 ∨ x.svc = 4 then 0
  else 7

/-- Channel `ch`: scheduler, PHY and power (R336, R359, R412); `j` is a rank, or a bank of a rank. -/
def State.showChan (s : State) (ch j : Nat) : Shown :=
  let x := s.chan ch
  let r (k : Nat) : Rank := x.rankAt k
  [(R.CH_STATUS_QUIESCED, fun _ => b2n x.quiesced), (R.CH_STATUS_PD0, fun _ => b2n (r 0).pd), (R.CH_STATUS_PD1, fun _ => b2n (r 1).pd),
    (R.CH_STATUS_DIR, fun _ => b2n x.dir), (R.CH_STATUS_BG_MODE, fun _ => b2n (s.bgMode ch)), (R.CH_STATUS_RATE0, fun _ => (r 0).rate),
    (R.CH_STATUS_RATE1, fun _ => (r 1).rate), (R.CH_STATUS_REF_RAISED, fun _ => b2n (s.refRaised ch)),
    (R.CH_REF_DEBT_DEBT0, fun _ => toTwos 8 (r 0).debt), (R.CH_REF_DEBT_DEBT1, fun _ => toTwos 8 (r 1).debt),
    (R.CH_QUEUE_ENTRIES, fun _ => x.ctl.length), (R.CH_QUEUE_WRITES, fun _ => (x.ctl.filter fun e => e.write).length),
    (R.CH_OPEN_OPEN0, fun _ => maskOf 16 fun b => (x.bankAt 0 b).row.isSome), (R.CH_OPEN_OPEN1, fun _ => maskOf 16 fun b => (x.bankAt 1 b).row.isSome),
    (R.CH_RAA_RAA, fun _ => (x.bankAt (j / 16) (j % 16)).raa),
    (R.PHY_STATUS_STATE, fun _ => x.svc), (R.PHY_STATUS_STEP, fun _ => x.step), (R.PHY_STATUS_OUT_OF_SERVICE, fun _ => b2n (s.outOfService ch)),
    (R.PHY_STATUS_RETAINED, fun _ => b2n (s.retainedOk ch)), (R.PHY_STATUS_LONG_PENDING, fun _ => b2n (x.ranks.any fun e => e.2.long)),
    (R.PHY_STATUS_CORR_PENDING, fun _ => b2n (x.ranks.any fun e => e.2.wrPend != 0 || e.2.rdLargest != 0)),
    (R.PHY_DRIFT_WR_PEND, fun _ => toTwos 8 (r j).wrPend), (R.PHY_DRIFT_RD_PEND, fun _ => toTwos 8 (r j).rdLargest),
    (R.CH_PWR_STATE, fun _ => s.pwrState ch)]

/-- Progress of the slowest channel in the scrub pass, per mille (R387). -/
def State.scrubProgress (s : State) : Nat :=
  let one (ch : Nat) : Nat :=
    let x := s.chan ch
    let l := s.scrubExts ch
    if x.scrubDone ∨ l.isEmpty then 1000
    else (l.map fun e => min extBytes (x.scrubAt - e * extBytes)).sum * 1000 / (l.length * extBytes)
  (minOf (((List.range s.C).filter s.chPresent).map one)).getD 0

/-- Integrity and front ends (R387, R388); `i` a channel or a region, `j` a remap entry or a candidate. -/
def State.showInt (s : State) (i j : Nat) : Shown :=
  let n := s.integ
  let x := s.chan i
  let e := Tab.get ({} : Remap) x.remap j
  let c := Tab.get ({} : Cand) x.cands j
  let reg := (s.conf.getD {}).regions.find? fun r => r.region == i
  [(R.INT_STATUS_RING_FULL, fun _ => b2n (s.ringUsed == 4096)), (R.INT_STATUS_INITIALISING, fun _ => b2n s.initialising),
    (R.INT_RING_PROD_PROD, fun _ => n.prod), (R.INT_RING_SEQ_NEXT, fun _ => n.seqNext), (R.INT_HANDLE_DEPTH, fun _ => n.queue.length),
    (R.INT_SCRUB_STATUS_PROGRESS, fun _ => s.scrubProgress),
    (R.INT_PPR_STATUS_STATE, fun _ => if 2 ≤ n.pprSt then n.pprSt else s.rd R.INT_PPR_CTL_ARM), (R.INT_PPR_STATUS_CH, fun _ => n.pprCh),
    (R.INT_INIT_WM, fun _ => Tab.get 0 n.initDone i), (R.INT_INIT_DONE, fun _ => b2n (reg.any s.regionDone)),
    (R.FE_STATUS_REMAP_FULL, fun _ => b2n x.remapFull), (R.FE_STATUS_USED, fun _ => x.remapUsed),
    (R.FE_REMAP_BLOCK, fun _ => e.block), (R.FE_REMAP_MANUAL, fun _ => b2n e.manual), (R.FE_REMAP_VALID, fun _ => b2n e.valid),
    (R.FE_PPR_RANK, fun _ => c.rank), (R.FE_PPR_BANK, fun _ => c.bank), (R.FE_PPR_ROW, fun _ => c.row), (R.FE_PPR_STATE, fun _ => c.st)]

/-- Power and events (R411, R425); `i` is a target or a source group. -/
def State.showEvt (s : State) (i : Nat) : Shown := [
  (R.PWR_STATUS_STATE, fun _ => s.power.st), (R.PWR_STATUS_RAILS, fun _ => s.power.rails),
  (R.EVT_STATUS_LINES, fun _ => s.irqLines),
  (R.EVT_TGT_CAUSE, fun _ =>
    (firstBy (fun g => [s.rd R.EVT_GRP_CFG_PRIO g, g]) (s.postedTo i 2)).getD 0),
  (R.EVT_TGT_VALID, fun _ => b2n (!(s.postedTo i 0).isEmpty)), (R.EVT_TGT_POSTING, fun _ => b2n (s.posting i)),
  (R.EVT_GRP_PEND_PENDING, fun _ => (s.evt i).pending), (R.EVT_GRP_PEND_POSTED, fun _ => (s.evt i).posted &&& (s.evt i).pending)]

/-- Counters, Contrail, the user window, mailboxes and Squall (R434, R441, R453, R470). -/
def State.showMeas (s : State) (i : Nat) : Shown :=
  let m := s.meas
  let on := s.rd R.PERF_CTL_USER_EN
  let grp := s.rd R.PERF_CTL_USER_GRP
  let q := s.squall
  [(R.PERF_CTR_LOW, fun _ => Tab.get 0 m.ctrs i), (R.CTR_STATUS_INFLIGHT, fun _ => m.trails.length), (R.CTR_STATUS_FULL, fun _ => b2n (s.ctrUsed == 256)),
    (R.CTR_PROD_PROD, fun _ => m.prod), (R.CTR_LFSR_L, fun _ => m.lfsr), (R.PF_GRP_STATUS_OVF, fun _ => Tab.get 0 m.ovf i),
    (R.PERF_USER_LOW, fun _ => on * Tab.get 0 m.ctrs (8 * grp + i)), (R.PERF_USER_INFO_GROUP, fun _ => on * grp),
    (R.PERF_USER_INFO_GRP_EN, fun _ => on * s.rd R.PF_GRP_CTL_EN grp), (R.PERF_USER_INFO_ON, fun _ => on),
    (R.PERF_USER_EPOCH_EPOCH, fun _ => on * s.tick.epoch), (R.MBX_CTL_BUSY, fun _ => b2n (s.mbxBusy i)),
    (R.SQ_STATUS_UNLOCKED, fun _ => b2n q.unlocked), (R.SQ_STATUS_PERMITTED, fun _ => b2n (q.unlocked && s.permits 0)),
    (R.SQ_STATUS_KEY_PENDING, fun _ => b2n (q.unlocked && !q.keys.isEmpty)),
    (R.SQ_GINJ_CTL_ARMED, fun _ => b2n q.gArmed), (R.SQ_SINJ_CTL_ARMED, fun _ => b2n q.sArmed)]

/-- The value of a field as a read shows it, cut to the field's width. -/
def State.shown (s : State) (f : Fld) (i j : Nat) : Nat :=
  let v := (inList f s.showTick).orElse fun _ => (inList f (s.showGate i j)).orElse fun _ => (inList f (s.showPort i j)).orElse fun _ =>
    (inList f (s.showSurf i j)).orElse fun _ => (inList f (s.showHalo i j)).orElse fun _ => (inList f (s.showTraffic i j)).orElse fun _ =>
    (inList f (s.showChan i j)).orElse fun _ => (inList f (s.showInt i j)).orElse fun _ => (inList f (s.showEvt i)).orElse fun _ =>
    inList f (s.showMeas i)
  v.getD (s.rd f i j) % 2 ^ f.width

/-! ### Pads -/

/-- The pads of channel `ch`: unpowered without VDDQ; in retention in Dusk, and while a wake waits for a rail, if the dies keep their contents; at work
with every rail good and the channel in service or in a Dawn; else held low (R339, R403, R405). -/
def State.pads (s : State) (ch : Nat) : Pads :=
  let x := s.chan ch
  if bit s.power.rails 3 = false then .unpowered
  else if (x.retired = true ∧ x.ctl.isEmpty = true) ∨ (x.retired = false ∧ s.inService ch = false ∧ x.seq = 0) then .low
  else if s.power.st = 2 ∨ (s.power.st = 3 ∧ (s.power.rails ≠ 0x1F ∨ (2 ≤ x.pwr ∧ x.seq = 0))) then .retained
  else if s.power.st = 4 ∨ s.power.rails ≠ 0x1F then .low
  else .live

end Sys2Proof.Machine
end

