-- ==== Sys2Proof/Machine/RegPort.lean ====
section
/-! DEFINITION. The register port: a write to any address and a read of any address (R9 to R13, R442 to R452). -/

namespace Sys2Proof.Machine
open Sys2Proof

/-! ### Writes -/

/-- Whether address `a` is a Squall register (R470). -/
def isSquallReg (a : Nat) : Bool := decide (0x60000 ≤ a ∧ a < 0x70000)

/-- BUSY_REARM frees the capture of refused writes (R451). -/
def State.writeGlbCtl (s : State) (w : Nat) : State := if bit w 0 then s.wr R.GLB_BUSY_FIRST_VALID 0 0 0 else s

/-- BUSY_REARM. -/
def execBusyRearm (w : Word) (tgt : Nat) (s : State) : Host.Outcome State Fault Refusal :=
  .next (s.regAccess 0x10 (w ||| 1) tgt fun w s => s.writeGlbCtl w)

/-- A write to a gate list register: its state, and whether it is refused (R67). -/
def State.writeGate (s : State) (f : Fld) (d n w : Nat) : State × Bool :=
  if f.ix = R.GATE_SHADOW_CTL_LEN.ix then s.shadowCtl d w
  else if f.ix = R.GATE_ACT_EPOCH_ACT_EPOCH.ix then s.actEpochWrite d w
  else s.shadowEntWrite d n w (f.ix == R.GATE_SHADOW_MASK.ix)

/-- Whether a field's register is one of a shadow list. -/
def Fld.ofGate (f : Fld) : Bool :=
  [R.GATE_SHADOW_CTL_LEN.ix, R.GATE_ACT_EPOCH_ACT_EPOCH.ix, R.GATE_SHADOW_DURATION.ix, R.GATE_SHADOW_MASK.ix].contains f.ix

/-- The registers whose writes do more than give their fields values, by their first field: the effect of a write of word `w` to the register of
units `i`, `j` by target `tgt`. -/
def State.special (s : State) (i j : Nat) (w : Word) (tgt : Nat) : List (Fld × (Unit → State)) :=
  let n := w.toNat
  [(R.GLB_CTL_BUSY_REARM, fun _ => s.writeGlbCtl n), (R.TICK_CTL_RELOCK, fun _ => s.writeTickCtl s.tick.ref n tgt),
    (R.IMG_CTL_SRC, fun _ => s.writeImgCtl n tgt), (R.IMG_FIFO_DATA, fun _ => s.writeImgFifo w tgt),
    (R.CH_CTL_HOLD, fun _ => s.writeChCtl i n tgt), (R.PHY_CTL_COLD, fun _ => s.writePhyCtl i n tgt),
    (R.CH_PWR_REQ, fun _ => s.writeChPwr i n tgt), (R.FE_CTL_REARM, fun _ => s.writeFeCtl i n tgt),
    (R.FE_REMAP_CMD_BLOCK, fun _ => s.writeRemapCmd i n tgt), (R.PWR_CTL_DUSK, fun _ => s.writePwrCtl n tgt),
    (R.SM_FORCE_INDEX, fun _ => s.writeSmForce n tgt), (R.GRP_CTL_FREEZE, fun _ => s.writeGrpCtl i n tgt),
    (R.PORT_CTL_DETACH, fun _ => s.writePortCtl (8 * i + j) n tgt), (R.HALO_CTL_PREFETCH_DEPTH, fun _ => s.writeHaloCtl i n tgt),
    (R.HALO_INV_CTL_GO, fun _ => s.writeInv i 0x1008 n tgt), (R.HALO_INV_SURF_INDEX, fun _ => s.writeInv i 0x100C n tgt),
    (R.HALO_INV_TX_TX0, fun _ => s.writeInv i 0x1010 n tgt), (R.HALO_INV_TY_TY0, fun _ => s.writeInv i 0x1014 n tgt),
    (R.HALO_INV_LINE_FIRST, fun _ => s.writeInv i 0x1018 n tgt), (R.HALO_INV_COUNT_COUNT, fun _ => s.writeInv i 0x101C n tgt),
    (R.CIR_CTL_RETRY_EN, fun _ => s.writeCirCtl n tgt), (R.SM_EVAC_CTL_CH, fun _ => s.writeEvacCtl n tgt),
    (R.SM_MIGRATE_CTL_SET, fun _ => s.writeMigrateCtl n tgt), (R.INT_CTL_LOG_CE, fun _ => s.writeIntCtl n tgt),
    (R.INT_RING_CONS_CONS, fun _ => s.writeRingCons n tgt), (R.INT_PPR_ADD_CH, fun _ => s.writePprAdd n tgt),
    (R.INT_PPR_CTL_CH, fun _ => s.writePprCtl n tgt), (R.INT_CHECKER_MODE, fun _ => s.writeChecker n tgt),
    (R.EVT_CTL_DISABLE, fun _ => s.writeEvtCtl n tgt), (R.EVT_ACK_GROUP, fun _ => s.writeEvtAck n),
    (R.EVT_GRP_CFG_TARGET, fun _ => s.writeEvtCfg i 0 n tgt), (R.EVT_GRP_TIME_TIME, fun _ => s.writeEvtCfg i 4 n tgt),
    (R.EVT_GRP_EN_ENABLE, fun _ => s.writeEvtEn i n), (R.PF_GRP_CTL_EN, fun _ => s.writePfCtl i n tgt),
    (R.CTR_CTL_EN, fun _ => s.writeCtrCtl n tgt), (R.CTR_SEED_SEED, fun _ => s.writeCtrSeed n tgt),
    (R.CTR_CONS_CONS, fun _ => s.writeCtrCons n tgt), (R.MBX_SEL_INDEX, fun _ => s.writeMbxSel i n tgt false),
    (R.MBX_CTL_GO, fun _ => s.writeMbxCtl i n tgt), (R.MBX_D_DATA, fun _ => s.writeMbxData i j n tgt),
    (R.TEST_KEY_KEY, fun _ => s.writeTestKey n tgt), (R.SQ_SEED_SEED, fun _ => s.writeSqSeed n tgt),
    (R.SQ_GINJ_CTL_CH, fun _ => s.writeGinj n tgt), (R.SQ_SINJ_CTL_INDEX, fun _ => s.writeSinj n tgt),
    (R.SQ_HINJ_GROUP, fun _ => s.writeHinj n tgt), (R.SQ_LINJ_CH, fun _ => s.writeLinj n tgt),
    (R.PERF_USER_LOW, fun _ => s), (R.PERF_USER_INFO_GROUP, fun _ => s), (R.PERF_USER_EPOCH_EPOCH, fun _ => s)]

/-- A write of word `w` to byte address `a` by target `tgt`, in a state in which the unit takes it. An offset that no table assigns, and a
unit that the build lacks, takes nothing (R3, R445). -/
def State.writeAt (s : State) (a : Nat) (w : Word) (tgt : Nat) : State :=
  let a := a / 4 * 4
  match slotsAt a with
  | [] => s
  | x :: xs =>
    if x.f.present s.build x.i = false then s
    else if x.f.ofGate then
      let r := s.writeGate x.f x.i x.j w.toNat
      r.1.busyIf r.2 a tgt
    else
      match (s.special x.i x.j w tgt).find? fun e => e.1.ix == x.f.ix with
      | some e => e.2 ()
      | none => if isSquallReg a then s.squallWrite a w.toNat tgt [] else s.writeReg (x :: xs) [] a w.toNat tgt

/-- REGISTER_WRITE: a write to a register, those with rows of their own included. -/
def execRegisterWrite (a : Nat) (w : Word) (tgt : Nat) (s : State) : Host.Outcome State Fault Refusal :=
  .next (s.regAccess a w tgt fun n s => s.writeAt a (BitVec.ofNat 32 n) tgt)

/-! ### Reads -/

/-- The value of a field as the register port returns it (R9). -/
def State.readSlot (s : State) (x : Slot) : Nat :=
  if x.f.present s.build x.i = false then 0
  else
    match x.f.acc with
    | .rw => s.shown x.f x.i x.j
    | .ro => s.shown x.f x.i x.j
    | .rc => s.shown x.f x.i x.j
    | .wo => 0
    | .w1t => 0

/-- The word that a read of the fields of one register returns; reserved bits read 0 (R10). -/
def State.readWord (s : State) (xs : List Slot) : Nat := (xs.map fun x => s.readSlot x * 2 ^ x.f.lsb).sum

/-- A read clears an RC field to its reset value (R9), but leaves an event bit that was set in the cycle of the read (R16). -/
def State.clearRc (s : State) (x : Slot) : State :=
  if x.f.acc ≠ .rc ∨ x.f.present s.build x.i = false ∨ s.bitsNow.contains (x.f.key x.i x.j) = true then s
  else if x.f.ix = R.PF_GRP_STATUS_OVF.ix then { s with meas := { s.meas with ovf := Tab.erase x.i s.meas.ovf } }
  else { s with regs := Tab.erase (x.f.key x.i x.j) s.regs }

/-- A read of byte address `a`: cfg_rdata_o shows the word, and the RC fields clear. -/
def State.readAt (s : State) (a : Nat) : State :=
  let xs := slotsAt a
  let v := s.readWord xs
  { xs.foldl State.clearRc s with rdata := BitVec.ofNat 32 v }

/-- REGISTER_READ. -/
def execRegisterRead (a tgt : Nat) (s : State) : Host.Outcome State Fault Refusal :=
  .next (s.access (false, a, 0, tgt) fun s => s.readAt a)

end Sys2Proof.Machine
end

