-- ==== Sys2Proof/Machine/Wake.lean ====
section
/-! DEFINITION. The return to Run after Dusk, with the restore where VDD_CORE was absent (R402, R403, R424). -/

namespace Sys2Proof.Machine
open Sys2Proof

/-- Condition sources of a source group as they would be raised now: group and source numbers (R415, R424). -/
def State.heldSources (s : State) : List (Nat × Nat) :=
  let one (b : Bool) (g n : Nat) : List (Nat × Nat) := if b then [(g, n)] else []
  let chans (base : Nat) (p : Nat → Bool) : List (Nat × Nat) :=
    ((List.range s.C).filter p).map fun ch => (base + ch / 16, ch % 16)
  one s.tickAnomaly 0 5 ++ one s.tickLost 0 6 ++ ((List.range 8).filter fun n => s.poolLevel n != 0).map (fun n => (6, n)) ++
    one s.tableFull 6 8 ++ one (s.sm.move.kind == 1 && s.sm.move.held) 6 11 ++ one (!s.traffic.susp.isEmpty) 7 4 ++
    one (s.ringUsed == 4096) 8 6 ++ chans 9 (fun ch => s.refRaised ch || s.chQuiesced ch) ++ chans 11 s.outOfService ++
    chans 13 fun ch => (s.chan ch).remapFull

/-- Whether the restore of R403 succeeds: the record is valid and passes its check, every channel had valid retained state, and no channel
with a reserve lane failed its retrain. -/
def State.restores (s : State) (recordOk : Bool) : Bool :=
  recordOk && s.power.recordValid && !s.power.abandon &&
    s.power.duskAll.all fun ch => !(s.outOfService ch && !(s.lanesOn 8 ch).isEmpty)

/-- The restore: what the context record holds stands; the Halo entries, the header cache and the descriptor cache start empty, the pinned contexts are loaded, and the
event unit's pending and posted state, counts and timers start again, with the condition sources that hold pending (R403, R424; log
entry 29). -/
def State.restore (s : State) : State :=
  let s := { s with
    lines := [], hdrs := [], evts := [], posts := [], irq := 0
    traffic := { s.traffic with fcache := s.traffic.pins, fwait := [] }, sm := { s.sm with dcache := [] } }
  s.heldSources.foldl (fun (s : State) e => s.raise e.1 e.2) s

/-- The restore is abandoned: no configuration, no event, RESTORE_FAIL (R403). -/
def State.abandonRestore (s : State) : State :=
  let s := s.coreReset
  ({ s with power := { s.power with domains := (List.range s.C).map (· + 12) } } : State).wr R.PWR_STATUS_RESTORE_FAIL 0 0 1

/-- Run is reached: the tick unit enters ACQUIRE where a configuration is in force, PWR_WAKE is raised to the target that wrote DUSK (R47,
R402). The last real tick is kept, so the interval that spans Dusk is averaged (DESIGN CHOICE, log entry 106). -/
def State.reachRun (s : State) (t : Nat) : State :=
  let s := { s with power := { s.power with st := 0 } }
  let s := if s.conf.isSome then s.acquire t true else s
  (s.setBit R.PWR_STATUS_PWR_WAKE 0 0).raisePriv s.power.duskTgt 9

/-- Perform a register access that was held until Run (R400). -/
def State.heldAccess (s : State) (h : Option (Bool × Nat × Word × Nat)) : State :=
  match h with
  | none => s
  | some (true, a, w, tgt) => s.regAccess a w tgt fun n s => s.writeAt a (BitVec.ofNat 32 n) tgt
  | some (false, a, w, tgt) => s.access (false, a, w, tgt) fun s => s.readAt a

/-- PWR_WAKE: every rail is good, every domain but the channels' released and every channel that Dusk placed in self-refresh has ended its retrain;
`recordOk` says whether the context record passes its check, `t` is the tclk count. -/
def execPwrWake (recordOk : Bool) (t : Nat) (s : State) : Host.Outcome State Fault Refusal :=
  if s.power.st ≠ 3 ∨ s.power.rails ≠ 0x1F ∨ s.power.domains.any (· < 12) = true ∨ s.power.duskChans ≠ [] then .next s
  else
    let held := s.power.heldReg
    let lost := s.power.coreGone
    let ok := !lost || s.restores recordOk
    let s := (s.wr R.PWR_WAKE_CAUSE_CAUSE 0 0 s.power.latches).wr R.PWR_WAKE_CAUSE_ABORT 0 0 0
    let s := { s with power := { s.power with latches := 0, heldReg := none, coreGone := false, abandon := false } }
    let s := if ok then ((if lost then s.restore else s).reachRun t) else s.abandonRestore
    .next (s.heldAccess held)

end Sys2Proof.Machine
end

