-- ==== Sys2Proof/Machine/Dispatch.lean ====
section
/-! DEFINITION. The dispatch: every command has one arm, a direct call of its meaning. -/

namespace Sys2Proof.Machine
open Sys2Proof

def exec (i : Instr) (s : State) : Host.Outcome State Fault Refusal :=
  match i with
  | .tickEdge t width => Sys2Proof.Machine.execTickEdge t width s
  | .flywheelTick t => Sys2Proof.Machine.execFlywheelTick t s
  | .tickCycle c => Sys2Proof.Machine.execTickCycle c s
  | .gateEntryExpiry d c => Sys2Proof.Machine.execGateEntryExpiry d c s
  | .budgetWindowStart win c => Sys2Proof.Machine.execBudgetWindowStart win c s
  | .tickRelockWrite t w tgt => Sys2Proof.Machine.execTickRelockWrite t w tgt s
  | .gateArm d w tgt => Sys2Proof.Machine.execGateArm d w tgt s
  | .gateDisarm d w tgt => Sys2Proof.Machine.execGateDisarm d w tgt s
  | .registerWrite a w tgt => Sys2Proof.Machine.execRegisterWrite a w tgt s
  | .busyRearm w tgt => Sys2Proof.Machine.execBusyRearm w tgt s
  | .imgStart w tgt => Sys2Proof.Machine.execImgStart w tgt s
  | .imgAbort w tgt => Sys2Proof.Machine.execImgAbort w tgt s
  | .imgFifoWord w tgt => Sys2Proof.Machine.execImgFifoWord w tgt s
  | .imgStreamWord w last => Sys2Proof.Machine.execImgStreamWord w last s
  | .imgCheckDone => Sys2Proof.Machine.execImgCheckDone s
  | .imgAuthVerdict ok crc => Sys2Proof.Machine.execImgAuthVerdict ok crc s
  | .imgAdmitDone c t => Sys2Proof.Machine.execImgAdmitDone c t s
  | .channelImageQuiesced => Sys2Proof.Machine.execChannelImageQuiesced s
  | .groupQuiesceDone c => Sys2Proof.Machine.execGroupQuiesceDone c s
  | .quiesceTimeout c => Sys2Proof.Machine.execQuiesceTimeout c s
  | .read p r c => Sys2Proof.Machine.execRead p r c s
  | .write p r c => Sys2Proof.Machine.execWrite p r c s
  | .prefetch p r c => Sys2Proof.Machine.execPrefetch p r c s
  | .zero p r c => Sys2Proof.Machine.execZero p r c s
  | .preload p r c => Sys2Proof.Machine.execPreload p r c s
  | .unlock p r c => Sys2Proof.Machine.execUnlock p r c s
  | .hold p r c => Sys2Proof.Machine.execHold p r c s
  | .drop p r c => Sys2Proof.Machine.execDrop p r c s
  | .create p r d c => Sys2Proof.Machine.execCreate p r d c s
  | .writeDataBeat p data mask last c => Sys2Proof.Machine.execWriteDataBeat p data mask last c s
  | .responseBeat p c => Sys2Proof.Machine.execResponseBeat p c s
  | .attachRequest p => Sys2Proof.Machine.execAttachRequest p s
  | .portAttach p => Sys2Proof.Machine.execPortAttach p s
  | .detachRequest p => Sys2Proof.Machine.execDetachRequest p s
  | .portForceDetach p w tgt => Sys2Proof.Machine.execPortForceDetach p w tgt s
  | .cancelWait p w tgt => Sys2Proof.Machine.execCancelWait p w tgt s
  | .violRearm p w tgt => Sys2Proof.Machine.execViolRearm p w tgt s
  | .spaceWaitTimeout p tag => Sys2Proof.Machine.execSpaceWaitTimeout p tag s
  | .createRetry pool => Sys2Proof.Machine.execCreateRetry pool s
  | .linkGrant g => Sys2Proof.Machine.execLinkGrant g s
  | .linkBeat g c => Sys2Proof.Machine.execLinkBeat g c s
  | .linkRevoke g => Sys2Proof.Machine.execLinkRevoke g s
  | .linkBite g => Sys2Proof.Machine.execLinkBite g s
  | .creditRefill g => Sys2Proof.Machine.execCreditRefill g s
  | .linkFreeze g w tgt => Sys2Proof.Machine.execLinkFreeze g w tgt s
  | .linkUnfreeze g w tgt => Sys2Proof.Machine.execLinkUnfreeze g w tgt s
  | .linkDrained g => Sys2Proof.Machine.execLinkDrained g s
  | .fillUnitArrive g k => Sys2Proof.Machine.execFillUnitArrive g k s
  | .cellCheck g k => Sys2Proof.Machine.execCellCheck g k s
  | .cirRetryResult g k linkFail => Sys2Proof.Machine.execCirRetryResult g k linkFail s
  | .cellEncodeDone g k => Sys2Proof.Machine.execCellEncodeDone g k s
  | .snoopShare => Sys2Proof.Machine.execSnoopShare s
  | .snoopClaim => Sys2Proof.Machine.execSnoopClaim s
  | .snoopAcksDone k => Sys2Proof.Machine.execSnoopAcksDone k s
  | .evictWritebackUnit g => Sys2Proof.Machine.execEvictWritebackUnit g s
  | .haloInvalidate g w tgt => Sys2Proof.Machine.execHaloInvalidate g w tgt s
  | .haloInvDone g => Sys2Proof.Machine.execHaloInvDone g s
  | .haloRearm g w tgt => Sys2Proof.Machine.execHaloRearm g w tgt s
  | .cirRearm w tgt => Sys2Proof.Machine.execCirRearm w tgt s
  | .subrequestAssign k c => Sys2Proof.Machine.execSubrequestAssign k c s
  | .flowContextFill f lost => Sys2Proof.Machine.execFlowContextFill f lost s
  | .urgencyUpdate f c => Sys2Proof.Machine.execUrgencyUpdate f c s
  | .flowSweep f c => Sys2Proof.Machine.execFlowSweep f c s
  | .capacityTestDone => Sys2Proof.Machine.execCapacityTestDone s
  | .entryPass ch c => Sys2Proof.Machine.execEntryPass ch c s
  | .dramCommandIssue ch ck mr => Sys2Proof.Machine.execDramCommandIssue ch ck mr s
  | .readDataReturn ch link => Sys2Proof.Machine.execReadDataReturn ch link s
  | .refreshAccrual ch r ck => Sys2Proof.Machine.execRefreshAccrual ch r ck s
  | .mr4ReadDue ch r => Sys2Proof.Machine.execMr4ReadDue ch r s
  | .oscDue ch => Sys2Proof.Machine.execOscDue ch s
  | .eyeSweepDone ch r b left right => Sys2Proof.Machine.execEyeSweepDone ch r b left right s
  | .zqDue ch r => Sys2Proof.Machine.execZqDue ch r s
  | .longTrainingDue ch r => Sys2Proof.Machine.execLongTrainingDue ch r s
  | .maintenanceDone ch r => Sys2Proof.Machine.execMaintenanceDone ch r s
  | .maintStarved ch => Sys2Proof.Machine.execMaintStarved ch s
  | .powerDownEntry ch r ck => Sys2Proof.Machine.execPowerDownEntry ch r ck s
  | .channelHold ch w tgt => Sys2Proof.Machine.execChannelHold ch w tgt s
  | .chQuiesced ch => Sys2Proof.Machine.execChQuiesced ch s
  | .dawnStepDone ch us out => Sys2Proof.Machine.execDawnStepDone ch us out s
  | .phyCold ch w tgt => Sys2Proof.Machine.execPhyCold ch w tgt s
  | .phyWarm ch w tgt => Sys2Proof.Machine.execPhyWarm ch w tgt s
  | .phyLong ch w tgt => Sys2Proof.Machine.execPhyLong ch w tgt s
  | .phyRearm ch w tgt => Sys2Proof.Machine.execPhyRearm ch w tgt s
  | .autoEvacStart ch => Sys2Proof.Machine.execAutoEvacStart ch s
  | .contentLossMark ch u => Sys2Proof.Machine.execContentLossMark ch u s
  | .tilePrepWrite idx tile => Sys2Proof.Machine.execTilePrepWrite idx tile s
  | .extentsReturn idx => Sys2Proof.Machine.execExtentsReturn idx s
  | .forceFree w tgt => Sys2Proof.Machine.execForceFree w tgt s
  | .evacStart w tgt => Sys2Proof.Machine.execEvacStart w tgt s
  | .evacCancel w tgt => Sys2Proof.Machine.execEvacCancel w tgt s
  | .migrateStart w tgt => Sys2Proof.Machine.execMigrateStart w tgt s
  | .pieceCopyDone => Sys2Proof.Machine.execPieceCopyDone s
  | .chunkCopied => Sys2Proof.Machine.execChunkCopied s
  | .moveResume => Sys2Proof.Machine.execMoveResume s
  | .replaceRound => Sys2Proof.Machine.execReplaceRound s
  | .initUnitWrite r u => Sys2Proof.Machine.execInitUnitWrite r u s
  | .scrubStep ch => Sys2Proof.Machine.execScrubStep ch s
  | .scrubPeriodExpiry => Sys2Proof.Machine.execScrubPeriodExpiry s
  | .detectionHandle => Sys2Proof.Machine.execDetectionHandle s
  | .remapInstall ch => Sys2Proof.Machine.execRemapInstall ch s
  | .remapCmdInstall ch w tgt => Sys2Proof.Machine.execRemapCmdInstall ch w tgt s
  | .remapCmdRemove ch w tgt => Sys2Proof.Machine.execRemapCmdRemove ch w tgt s
  | .feRearm ch w tgt => Sys2Proof.Machine.execFeRearm ch w tgt s
  | .intRearm w tgt => Sys2Proof.Machine.execIntRearm w tgt s
  | .ringConsWrite w tgt => Sys2Proof.Machine.execRingConsWrite w tgt s
  | .pprAdd w tgt => Sys2Proof.Machine.execPprAdd w tgt s
  | .pprArm w tgt => Sys2Proof.Machine.execPprArm w tgt s
  | .pprGo w tgt => Sys2Proof.Machine.execPprGo w tgt s
  | .pprRowDone ok => Sys2Proof.Machine.execPprRowDone ok s
  | .checkerMode w tgt => Sys2Proof.Machine.execCheckerMode w tgt s
  | .checkerFlushDone => Sys2Proof.Machine.execCheckerFlushDone s
  | .duskRequest w tgt => Sys2Proof.Machine.execDuskRequest w tgt s
  | .duskClockStop => Sys2Proof.Machine.execDuskClockStop s
  | .wakeLatch srcs n => Sys2Proof.Machine.execWakeLatch srcs n s
  | .duskTimerExpiry => Sys2Proof.Machine.execDuskTimerExpiry s
  | .pwrWake recordOk t => Sys2Proof.Machine.execPwrWake recordOk t s
  | .tempAlert => Sys2Proof.Machine.execTempAlert s
  | .chSelfRefreshReq ch w tgt => Sys2Proof.Machine.execChSelfRefreshReq ch w tgt s
  | .chRetire ch w tgt => Sys2Proof.Machine.execChRetire ch w tgt s
  | .chReinstate ch w tgt => Sys2Proof.Machine.execChReinstate ch w tgt s
  | .softReset w tgt => Sys2Proof.Machine.execSoftReset w tgt s
  | .powerOnReset => Sys2Proof.Machine.execPowerOnReset s
  | .coreReset => Sys2Proof.Machine.execCoreReset s
  | .domainResetRelease dom => Sys2Proof.Machine.execDomainResetRelease dom s
  | .railAbsent rail => Sys2Proof.Machine.execRailAbsent rail s
  | .railGood rail => Sys2Proof.Machine.execRailGood rail s
  | .evtAck w tgt => Sys2Proof.Machine.execEvtAck w tgt s
  | .evtDisable w tgt => Sys2Proof.Machine.execEvtDisable w tgt s
  | .groupPost g => Sys2Proof.Machine.execGroupPost g s
  | .holdoffExpiry g => Sys2Proof.Machine.execHoldoffExpiry g s
  | .coalesceTimeExpiry g => Sys2Proof.Machine.execCoalesceTimeExpiry g s
  | .counterSnap g w tgt => Sys2Proof.Machine.execCounterSnap g w tgt s
  | .counterClear g w tgt => Sys2Proof.Machine.execCounterClear g w tgt s
  | .contrailFlush w tgt => Sys2Proof.Machine.execContrailFlush w tgt s
  | .contrailConsWrite w tgt => Sys2Proof.Machine.execContrailConsWrite w tgt s
  | .mbxGo m w tgt => Sys2Proof.Machine.execMbxGo m w tgt s
  | .epochRead m ix tgt => Sys2Proof.Machine.execEpochRead m ix tgt s
  | .epochSeedRead m ix tgt => Sys2Proof.Machine.execEpochSeedRead m ix tgt s
  | .epochSeedWrite m ix tgt => Sys2Proof.Machine.execEpochSeedWrite m ix tgt s
  | .tickIntervalsRead m ix tgt => Sys2Proof.Machine.execTickIntervalsRead m ix tgt s
  | .cycleRead m ix tgt => Sys2Proof.Machine.execCycleRead m ix tgt s
  | .flowConfigRead m ix tgt => Sys2Proof.Machine.execFlowConfigRead m ix tgt s
  | .flowConfigWrite m ix tgt => Sys2Proof.Machine.execFlowConfigWrite m ix tgt s
  | .flowStateRead m ix tgt => Sys2Proof.Machine.execFlowStateRead m ix tgt s
  | .flowStateWrite m ix tgt => Sys2Proof.Machine.execFlowStateWrite m ix tgt s
  | .trainingStateRead m ix tgt lost => Sys2Proof.Machine.execTrainingStateRead m ix tgt lost s
  | .trainingStateWrite m ix tgt => Sys2Proof.Machine.execTrainingStateWrite m ix tgt s
  | .errorRingRead m ix tgt lost => Sys2Proof.Machine.execErrorRingRead m ix tgt lost s
  | .perfCounterRead m ix tgt => Sys2Proof.Machine.execPerfCounterRead m ix tgt s
  | .perfCounterWrite m ix tgt => Sys2Proof.Machine.execPerfCounterWrite m ix tgt s
  | .perfSnapshotRead m ix tgt => Sys2Proof.Machine.execPerfSnapshotRead m ix tgt s
  | .contrailRecordRead m ix tgt => Sys2Proof.Machine.execContrailRecordRead m ix tgt s
  | .mbxDone m => Sys2Proof.Machine.execMbxDone m s
  | .squallKey w tgt c => Sys2Proof.Machine.execSquallKey w tgt c s
  | .squallSeed w tgt => Sys2Proof.Machine.execSquallSeed w tgt s
  | .squallRevoke => Sys2Proof.Machine.execSquallRevoke s
  | .guardedInject w tgt => Sys2Proof.Machine.execGuardedInject w tgt s
  | .sealedInject w tgt => Sys2Proof.Machine.execSealedInject w tgt s
  | .haloInject w tgt => Sys2Proof.Machine.execHaloInject w tgt s
  | .linkInject w tgt => Sys2Proof.Machine.execLinkInject w tgt s
  | .registerRead a tgt => Sys2Proof.Machine.execRegisterRead a tgt s
  | .reqDetached p => Sys2Proof.Machine.execReqDetached p s
  | .opUnknown p op r c => Sys2Proof.Machine.execOpUnknown p op r c s
  | .chHoldClear ch w tgt => Sys2Proof.Machine.execChHoldClear ch w tgt s
  | .pprDisarm w tgt => Sys2Proof.Machine.execPprDisarm w tgt s

end Sys2Proof.Machine
end

