-- ==== Sys2Proof/Safety.lean ====
section
/-! DEFINITION. What counts as a safe run, in the terms the statements use. -/

namespace Sys2Proof.Machine
open Sys2Proof

/-- The command runs to a next state. -/
def Completes (i : Instr) (s : State) : Prop := ∃ t, exec i s = .next t

/-- The command runs to a next state that `p` describes. -/
def Runs (i : Instr) (s : State) (p : State → Prop) : Prop := ∃ t, exec i s = .next t ∧ p t

/-- No slice has anything to go on with: no request waits, no cell write is with an encoder, no reader waits for one. -/
def State.quiet (s : State) : Prop := s.waits = [] ∧ s.hdrWait = [] ∧ ∀ g, queueOf s.enc g = []

/-- The flow contexts of `t` are those of `s` but for OLDEST and PENDING, which follow the pending requests (R279, R293). -/
def State.flowsKept (s t : State) : Prop :=
  ∀ f, let x := Tab.get ({} : Flow) t.traffic.flows f
    x = { Tab.get ({} : Flow) s.traffic.flows f with oldest := x.oldest, pending := x.pending }

/-- The device states of R390, with 4 for a block powered off. -/
def State.legalPower (s : State) : Prop := s.power.st ≤ 4

/-- The register port answers and the device is in Run, so that a register access has its effect at once (R400, R407). -/
def State.portOpen (s : State) : Prop := s.portUp = true ∧ s.power.st = 0

/-- The DRAM contents are in canonical form. -/
def State.memOk (s : State) : Prop := Memory.wf s.mem = true

/-- What every step keeps: the DRAM contents in canonical form and a device state that R390 names. -/
def State.inv (s : State) : Prop := s.memOk ∧ s.legalPower

/-! ### Which registers a command writes -/

/-- Every register field of `t` but those listed holds what it held in `s`. -/
def State.regsKept (s t : State) (l : List Slot) : Prop :=
  ∀ f i j, (∀ x ∈ l, x.f.key x.i x.j ≠ f.key i j) → t.rd f i j = s.rd f i j

/-- The fields that a refused register write changes (R451). -/
def busySlots : List Slot :=
  [⟨R.GLB_STATUS_CFG_BUSY, 0, 0⟩, ⟨R.GLB_BUSY_CNT_COUNT, 0, 0⟩, ⟨R.GLB_BUSY_FIRST_ADDR, 0, 0⟩, ⟨R.GLB_BUSY_FIRST_TARGET, 0, 0⟩,
    ⟨R.GLB_BUSY_FIRST_VALID, 0, 0⟩]

/-- The fields that a violation of port `p` changes (R144, R145). -/
def violSlots (p : Nat) : List Slot :=
  [R.PORT_VIOL_CNT_COUNT, R.PORT_STATUS_VIOL, R.PORT_VIOL_FIRST_CODE, R.PORT_VIOL_FIRST_TAG, R.PORT_VIOL_FIRST_OP,
    R.PORT_VIOL_FIRST_VALID].map fun f => ⟨f, p / 8, p % 8⟩

/-- The fields that the end of an image load changes (R92, R96). -/
def imgEndSlots : List Slot :=
  [R.IMG_STATUS_RESULT, R.IMG_ERR_OFFSET_OFFSET, R.IMG_ERR_DETAIL_REC_TYPE, R.IMG_ERR_DETAIL_FIELD, R.IMG_ERR_DETAIL_WINDOW,
    R.IMG_ERR_DETAIL_CHANNEL, R.IMG_ERR_DETAIL_DOMAIN, R.IMG_STATUS_IMG_DONE, R.IMG_STATUS_IMG_FAIL].map fun f => ⟨f, 0, 0⟩

/-- The fields that the start of an operation in mailbox `m` writes (R453, R454). -/
def mbxSlots (m : Nat) : List Slot :=
  [R.MBX_SEL_INDEX, R.MBX_SEL_OBJ, R.MBX_SEL_WRITE, R.MBX_CTL_VALID, R.MBX_CTL_ERR, R.MBX_CTL_CODE].map fun f => ⟨f, m, 0⟩

/-- The fields in which a capacity test leaves its failure and its figures, in a build of `n` channels (R302). -/
def capSlots (n : Nat) : List Slot :=
  ([R.TR_OVC_FAIL_CHANNEL, R.TR_OVC_FAIL_DOMAIN, R.TR_OVC_FAIL_WINDOW, R.TR_OVC_FAIL_VALID, R.ADM_MARGIN_MARGIN, R.ADM_MARGIN_CHANNEL,
    R.ADM_MARGIN_WINDOW, R.ADM_MARGIN_DOMAIN, R.ADM_MARGIN_VALID].map fun f => ⟨f, 0, 0⟩) ++
  (List.range n).flatMap fun ch => [⟨R.ADM_CH_LOAD, ch, 0⟩, ⟨R.ADM_CH_CAP, ch, 0⟩]

/-- The fields that a detection which needs no correction changes (R383, R384). -/
def detSlots (d : Det) : List Slot :=
  ([R.INT_ERR_FIRST_KIND, R.INT_ERR_FIRST_UNIT, R.INT_ERR_FIRST_SEQ_SEQ, R.INT_ERR_FIRST_VALID, R.INT_UE_CNT_COUNT, R.INT_STATUS_ECC_UE,
    R.INT_STATUS_RESERVE_LOSS].map fun f => ⟨f, 0, 0⟩) ++
  ([R.FE_ERR_FIRST_A_ADDR, R.FE_ERR_FIRST_B_ADDR32, R.FE_ERR_FIRST_B_KIND, R.FE_ERR_FIRST_B_VALID, R.FE_ERR_FIRST_BYTES_BYTES,
    R.FE_UE_CNT_COUNT].map fun f => ⟨f, d.unit, 0⟩)

/-- Between `s` and `t` the traffic unit differs at most by a run-time capacity test that has started (R302). -/
def State.onlyTest (s t : State) : Prop :=
  t.traffic = { s.traffic with
    icWas := t.traffic.icWas, testing := t.traffic.testing, testFrom := t.traffic.testFrom, testDone := t.traffic.testDone, testFails := t.traffic.testFails
    hold := t.traffic.hold }

/-- The queue after a step holds what stood behind its front. -/
def QueueKept (s t : State) : Prop := t.pending = s.pending

end Sys2Proof.Machine
end

