-- ==== Sys2Proof/Certificates/Slice0/Obligations.lean ====
section
/-! DEFINITION. The statements for the provers. Where a statement says that a state differs from another in some fields only, it writes the
new state as the old one with those fields replaced, so that every other register, buffer, counter and byte of memory is as before. -/

open Sys2Proof Sys2Proof.Machine

/-! ### The step -/

/-- The step takes the command at the front of the queue and runs it with the rest of the queue, whatever command and state. -/
def Obligations.StepRunsFront : Prop :=
  ∀ (c : Instr) (rest : List Instr) (s : State),
    step { s with pending := c :: rest } = exec c { s with pending := rest }

/-- An idle cclk cycle: on an empty queue the count advances by 1 while cclk runs, else the block stands still. Where no port has taken a beat in the
cycle, nothing waits before the surface manager and every port that holds a link's grant has more to send, the writes of the cycle that ends wait for
the next tick like those before them, the event bits set in it may be cleared, and no command, register, port, surface or byte of memory changes (the
model's choice, log entry 8). -/
def Obligations.IdleCycle : Prop :=
  ∀ s : State, s.pending = [] →
    (s.cclkRuns = false → step s = .next s) ∧
    (s.cclkRuns = true → ∃ t, step s = .next t ∧ t.cclk = s.cclk + 1 ∧
      ((∀ g, g < s.G → (s.group g).wake = false ∧ ∀ i, (s.group g).owner = some i → (s.port (8 * g + i)).queue ≠ []) → s.sm.inbox = [] →
        (∀ g, t.group g = { s.group g with stuck := (t.group g).stuck }) ∧
        t = { s.newCycle with cclk := s.cclk + 1, chans := t.chans, groups := t.groups, meas := t.meas }))

/-! ### Registers -/

/-- A register of a channel or a port group that the build does not have reads as 0, and a write to it has no effect (R3); the same holds of an
address that no register stands at (R445). -/
def Obligations.AbsentUnitRegisters : Prop :=
  ∀ (s : State) (a : Nat) (w : Word) (tgt : Nat), s.portOpen →
    (∀ x ∈ slotsAt a, x.f.present s.build x.i = false) →
    exec (.registerRead a tgt) s = .next { s with rdata := 0 } ∧ exec (.registerWrite a w tgt) s = .next s

/-- A read returns the fields of the register, with 0 in every bit that no readable field holds, clears the RC fields it returns to their reset
values, unless they were set in the cycle of the read, and changes nothing else (R9, R10, R16). -/
def Obligations.RegisterReadClears : Prop :=
  ∀ (s : State) (a tgt : Nat), s.portOpen →
    ∃ t, exec (.registerRead a tgt) s = .next t ∧ t = { s with rdata := t.rdata, regs := t.regs, meas := { s.meas with ovf := t.meas.ovf } } ∧
      t.rdata = BitVec.ofNat 32 ((slotsAt a).map fun x => s.readSlot x * 2 ^ x.f.lsb).sum ∧
      (∀ x ∈ slotsAt a, (x.f.acc = .wo ∨ x.f.acc = .w1t) → s.readSlot x = 0) ∧
      (∀ x ∈ slotsAt a, x.f.acc = .rc → s.bitsNow.contains (x.f.key x.i x.j) = true → t.rd x.f x.i x.j = s.rd x.f x.i x.j) ∧
      (∀ x ∈ slotsAt a, x.f.acc = .rc → x.f.present s.build x.i = true → s.bitsNow.contains (x.f.key x.i x.j) = false →
        x.f.ix ≠ R.PF_GRP_STATUS_OVF.ix → (s.regs.map (·.1)).Nodup → t.rd x.f x.i x.j = x.f.reset s.build x.i) ∧
      (∀ f i j, (∀ x ∈ slotsAt a, x.f.key x.i x.j ≠ f.key i j) → t.rd f i j = s.rd f i j)

/-- A write to the scratch register gives it the word and changes nothing else; BUSY_REARM frees the capture of refused writes (R451, R459). -/
def Obligations.ScratchAndRearm : Prop :=
  ∀ (s : State) (w : Word) (tgt : Nat), s.portOpen →
    (∃ t, exec (.registerWrite 0xC w tgt) s = .next t ∧ t.rd R.GLB_SCRATCH_VALUE = w.toNat ∧ t = { s with regs := t.regs } ∧
      ∀ f i j, f.ix ≠ R.GLB_SCRATCH_VALUE.ix → t.rd f i j = s.rd f i j) ∧
    (∃ t, exec (.busyRearm w tgt) s = .next t ∧ t.rd R.GLB_BUSY_FIRST_VALID = 0 ∧ t = { s with regs := t.regs } ∧
      ∀ f i j, f.ix ≠ R.GLB_BUSY_FIRST_VALID.ix → t.rd f i j = s.rd f i j)

/-- Each write refused with CFG_BUSY raises CFG_BUSY in the writer's private bank, sets GLB_STATUS.CFG_BUSY and adds 1 to GLB_BUSY_CNT; the first
after BUSY_REARM is captured with its address and target, and later ones leave the capture unchanged (R451). `State.cfgBusy` is what every
refused write answers; GO on a busy mailbox is one (R455). -/
def Obligations.RefusedWrite : Prop :=
  (∀ (s : State) (a tgt : Nat), a < 2 ^ 21 →
    let t := s.cfgBusy a tgt
    bit (t.evt (24 + tgt % 8)).pending 1 = true ∧ t.rd R.GLB_STATUS_CFG_BUSY = 1 ∧
    t.rd R.GLB_BUSY_CNT_COUNT = satAdd 16 (s.rd R.GLB_BUSY_CNT_COUNT) 1 ∧
    (s.rd R.GLB_BUSY_FIRST_VALID ≠ 1 → t.rd R.GLB_BUSY_FIRST_VALID = 1 ∧ t.rd R.GLB_BUSY_FIRST_ADDR = a / 4 * 4 ∧
      t.rd R.GLB_BUSY_FIRST_TARGET = tgt % 8) ∧
    (s.rd R.GLB_BUSY_FIRST_VALID = 1 → t.rd R.GLB_BUSY_FIRST_VALID = 1 ∧ t.rd R.GLB_BUSY_FIRST_ADDR = s.rd R.GLB_BUSY_FIRST_ADDR ∧
      t.rd R.GLB_BUSY_FIRST_TARGET = s.rd R.GLB_BUSY_FIRST_TARGET) ∧
    t = { s with regs := t.regs, bitsNow := t.bitsNow, evts := t.evts, meas := t.meas } ∧ s.regsKept t busySlots) ∧
  (∀ (s : State) (m : Nat) (w : Word) (tgt : Nat), s.portOpen → m < 8 → s.mbxBusy m = true →
    exec (.mbxGo m w tgt) s = .next (s.cfgBusy (mbxAddr m 4) tgt))

/-! ### The tick -/

/-- An edge earlier than the acceptance threshold, not the third of a row, is a runt: it is ignored as a tick, TICK_RUNT is raised and the epoch
stays (R38). While the device enters Dusk with the tick as a wake source, the edge also aborts the entry (R399). -/
def Obligations.RuntIgnored : Prop :=
  ∀ (s : State) (t width : Nat), s.tclkRuns = true → (s.power.st = 0 ∨ s.wakeEn 0 = false) → s.squall.unlocked = false → 2 ≤ width → s.tick.st ≠ 0 →
    ¬ (s.tick.st = 1 ∧ s.tick.first = true) → t < s.tick.ref + s.tickA → s.tick.runts ≠ 2 →
    ∃ u, exec (.tickEdge t width) s = .next u ∧ u.tick = { s.tick with runts := s.tick.runts + 1 } ∧
      u.rd R.TICK_STATUS_RUNT = 1 ∧ bit (u.evt 0).pending 1 = true ∧ u.rd R.TICK_RUNT_CNT_COUNT = satAdd 16 (s.rd R.TICK_RUNT_CNT_COUNT) 1 ∧
      u = { s with tick := u.tick, regs := u.regs, bitsNow := u.bitsNow, evts := u.evts, meas := u.meas } ∧
        s.regsKept u [⟨R.TICK_STATUS_RUNT, 0, 0⟩, ⟨R.TICK_RUNT_CNT_COUNT, 0, 0⟩]

/-- The third runt with no tick accepted since the first is a re-lock tick: it ends the epoch as a real tick does, I_m and I_c take their nominal
values, the gathered intervals go, those on their way to cclk included, the tick unit enters ACQUIRE, and TICK_RELOCK is raised instead of
TICK_RUNT (R36, R39). I_c may change with it, which the run-time capacity test may take as an input (R302). -/
def Obligations.RelockTick : Prop :=
  ∀ (s : State) (t width : Nat), s.tclkRuns = true → (s.power.st = 0 ∨ s.wakeEn 0 = false) → s.squall.unlocked = false → 2 ≤ width → s.tick.st ≠ 0 →
    ¬ (s.tick.st = 1 ∧ s.tick.first = true) → t < s.tick.ref + s.tickA → s.tick.runts = 2 →
    ∃ u, exec (.tickEdge t width) s = .next u ∧ u.tick.st = 1 ∧ u.tick.im = s.nomTclk ∧ u.tick.ic = s.nomCclk ∧ u.tick.imList = [] ∧
      u.tick.icList = [] ∧ u.tick.strobes = (s.tick.strobes.map fun _ => { avg := false }) ++ [{ avg := false }] ∧
      u.tick.epochOut = some (t + 2) ∧ u.tick.runts = 0 ∧
      u.rd R.TICK_STATUS_RELOCK = 1 ∧ bit (u.evt 0).pending 2 = true ∧ u.rd R.TICK_STATUS_RUNT = s.rd R.TICK_STATUS_RUNT ∧
      u.rd R.TICK_RUNT_CNT_COUNT = s.rd R.TICK_RUNT_CNT_COUNT ∧ s.onlyTest u ∧
      u = { s with tick := u.tick, regs := u.regs, bitsNow := u.bitsNow, evts := u.evts, traffic := u.traffic } ∧ s.regsKept u [⟨R.TICK_STATUS_RELOCK, 0, 0⟩]

/-- An edge at or after the acceptance threshold, and the first edge of ACQUIRE, is a real tick: it is the reference for the next, zt_epoch_o
pulses 2 tclk cycles later, FLYWHEEL returns to LOCKED and FREE to ACQUIRE, and an interval between two real ticks is gathered (R35 to R37). The
entry into ACQUIRE discards the intervals on their way to cclk (R36). -/
def Obligations.RealTick : Prop :=
  ∀ (s : State) (t width : Nat), s.tclkRuns = true → (s.power.st = 0 ∨ s.wakeEn 0 = false) → s.squall.unlocked = false → 2 ≤ width → s.tick.st ≠ 0 →
    ((s.tick.st = 1 ∧ s.tick.first = true) ∨ s.tick.ref + s.tickA ≤ t) →
    ∃ u, exec (.tickEdge t width) s = .next u ∧ u.tick.ref = t ∧ u.tick.last = t ∧ u.tick.first = false ∧ u.tick.lastReal = true ∧
      u.tick.runts = 0 ∧ u.tick.flys = 0 ∧ u.tick.epochOut = some (t + 2) ∧
      (s.tick.st ≠ 4 → u.tick.strobes = s.tick.strobes ++ [{ avg := s.tick.lastReal }]) ∧
      (s.tick.st = 4 → u.tick.strobes = (s.tick.strobes.map fun _ => { avg := false }) ++ [{ avg := false }]) ∧
      (s.tick.st = 2 → u.tick.st = 2) ∧ (s.tick.st = 3 → u.tick.st = 2) ∧ (s.tick.st = 4 → u.tick.st = 1) ∧
      (s.tick.st = 1 → s.tick.lastReal = false → u.tick.st = 1) ∧
      (s.tick.st ≠ 4 → s.tick.lastReal = true → u.tick.interval = t - s.tick.last ∧ u.tick.imList = ((t - s.tick.last) :: s.tick.imList).take 8 ∧
        u.tick.im = meanOf s.nomTclk u.tick.imList) ∧
      u.tick.epoch = s.tick.epoch ∧ s.onlyTest u ∧ (s.tick.st ≠ 4 → u.traffic = s.traffic) ∧
      u = { s with tick := u.tick, regs := u.regs, bitsNow := u.bitsNow, evts := u.evts, traffic := u.traffic } ∧
        s.regsKept u [⟨R.TICK_STATUS_OUTLIER, 0, 0⟩, ⟨R.TICK_OUTLIER_CNT_COUNT, 0, 0⟩, ⟨R.TICK_STATUS_LOCKED, 0, 0⟩]

/-- A flywheel tick falls at R + F and nowhere else: it counts as an accepted tick whose interval is not averaged, moves ACQUIRE and LOCKED to
FLYWHEEL and, as the eighth in a row, FLYWHEEL to FREE, and raises TICK_FLYWHEEL (R35, R37, R40, R43). -/
def Obligations.FlywheelTick : Prop :=
  ∀ (s : State) (t : Nat), s.tclkRuns = true → s.tick.st ≠ 0 →
    (t ≠ s.tick.ref + s.tickF → exec (.flywheelTick t) s = .next s) ∧
    (t = s.tick.ref + s.tickF →
      ∃ u, exec (.flywheelTick t) s = .next u ∧ u.tick.ref = t ∧ u.tick.last = t ∧ u.tick.lastReal = false ∧ u.tick.flys = s.tick.flys + 1 ∧
        u.tick.runts = 0 ∧ u.tick.epochOut = some t ∧ u.tick.strobes = s.tick.strobes ++ [{ avg := false }] ∧
        ((s.tick.st = 1 ∨ s.tick.st = 2) → u.tick.st = 3) ∧ (s.tick.st = 3 → u.tick.st = if s.tick.flys < 7 then 3 else 4) ∧
        (s.tick.st = 4 → u.tick.st = 4) ∧ u.rd R.TICK_STATUS_FLYWHEEL = 1 ∧ bit (u.evt 0).pending 3 = true ∧
        u.rd R.TICK_FLYWHEEL_CNT_COUNT = satAdd 16 (s.rd R.TICK_FLYWHEEL_CNT_COUNT) 1 ∧ u.tick.im = s.tick.im ∧ u.tick.imList = s.tick.imList ∧
        u = { s with tick := u.tick, regs := u.regs, bitsNow := u.bitsNow, evts := u.evts, meas := u.meas } ∧
          s.regsKept u [⟨R.TICK_STATUS_FLYWHEEL, 0, 0⟩, ⟨R.TICK_FLYWHEEL_CNT_COUNT, 0, 0⟩])

/-- Squall's tick perturbations: while it is unlocked, an edge is hidden as long as DROP is not 0, and DROP counts down; the tick generator advances
with every edge (R466, R467). -/
def Obligations.SquallTickLoss : Prop :=
  ∀ (s : State) (t width : Nat), s.tclkRuns = true → (s.power.st = 0 ∨ s.wakeEn 0 = false) → s.squall.unlocked = true → s.rd R.SQ_TICK_DROP ≠ 0 → s.rd R.SQ_TICK_DROP < 256 →
    ∃ u, exec (.tickEdge t width) s = .next u ∧ u.tick = s.tick ∧ u.rd R.SQ_TICK_DROP + 1 = s.rd R.SQ_TICK_DROP ∧
      Tab.get 0 u.squall.gens tickGen = prbs15 (Tab.get 0 s.squall.gens tickGen) ∧ u = { s with regs := u.regs, squall := u.squall } ∧
        s.regsKept u [⟨R.SQ_TICK_DROP, 0, 0⟩]

/-- TICK_CTL.RELOCK while a configuration is in force: the tick unit enters ACQUIRE with nominal intervals and takes the next edge at once; the
epoch number stays. Without a configuration the write is refused (R37, R461). That `first` takes the next edge is the model's reading (log entry 12). -/
def Obligations.RelockWrite : Prop :=
  ∀ (s : State) (t : Nat) (w : Word) (tgt : Nat), s.portOpen →
    (s.conf.isSome = true → ∃ u, exec (.tickRelockWrite t w tgt) s = .next u ∧
      u.tick = { s.tick with
        st := 1, ref := t, first := true, im := s.nomTclk, ic := s.nomCclk, imList := [], icList := [], inTol := 0
        strobes := s.tick.strobes.map fun _ => { avg := false } } ∧
      s.onlyTest u ∧ u = { s with tick := u.tick, evts := u.evts, traffic := u.traffic }) ∧
    (s.conf = none → exec (.tickRelockWrite t w tgt) s = .next (s.cfgBusy 0x328 tgt))

/-- In its tick cycle a tick advances EPOCH by 1, or sets it to a pending seed, takes the strobe off the crossing and starts every domain's active list at
its first entry that runs; a shadow that was armed and due when the cycle began has become active, the former active list is the shadow,
unarmed and unchanged, and GATE_SWAP_EPOCH holds the low 32 bits of the new epoch (R45, R46, R52, R60 to R62). What was written in the tick
cycle waits for the next tick (R64). That the next command finds the cycle after it is the model's choice (log entry 19). -/
def Obligations.TickCycle : Prop :=
  ∀ (s : State) (c : Nat) (b : Strobe) (rest : List Strobe), s.cclkRuns = true → s.tick.strobes = b :: rest →
    let v := s.atCycle c
    ∃ u, exec (.tickCycle c) s = .next u ∧ u.tick.strobes = rest ∧ u.tick.epoch = v.nextEpoch ∧ u.tick.seed = v.now.seed ∧
      u.tick.lastC = max c s.cclk ∧ u.cclk = max c s.cclk + 1 ∧ u.now = {} ∧ u.pend = Tab.over [] v.now.pend ∧
      ∀ d, d < 8 → (u.gate d).running = true ∧ (u.gate d).start = max c s.cclk ∧ (u.gate d).entStart = max c s.cclk ∧
        (u.gate d).extended = false ∧ (u.gate d).entry = (u.gate d).active.first ∧
        (if (v.gateWas d).dueAt v.nextEpoch then (u.gate d).active = (s.gate d).shadow ∧ (u.gate d).shadow = (s.gate d).active ∧
          (u.gate d).armed = false ∧ (u.gate d).swapEpoch = v.nextEpoch % 2 ^ 32
        else (u.gate d).active = (s.gate d).active ∧ (u.gate d).shadow = (s.gate d).shadow ∧ (u.gate d).armed = (s.gate d).armed)

/-- The duration of the entry in force elapses with the cycle that ends: the next entry that runs takes over from the next cycle on, or the closing entry
stays in force (R52, R53). -/
def Obligations.GateEntryExpiry : Prop :=
  ∀ (s : State) (d c : Nat), s.cclk = c → (s.gate d).running = true → (s.gate d).extended = false →
    c = (s.gate d).entStart + ((s.gate d).active.ent (s.gate d).entry).dur * 64 →
    (∀ n, (s.gate d).active.after (s.gate d).entry = some n → s.now.turns = [] → ∃ t, exec (.gateEntryExpiry d c) s = .next t ∧
      t = { s with now := { s.now with turns := [(d, n)] } } ∧ t.newCycle.gate d = { s.gate d with entry := n, entStart := c } ∧
      ∀ e, e ≠ d → t.newCycle.gate e = s.gate e) ∧
    ((s.gate d).active.after (s.gate d).entry = none →
      exec (.gateEntryExpiry d c) s = .next (s.setGate d { s.gate d with extended := true }))

/-- Arming a shadow list whose LEN the write leaves and that has an entry that runs: it is armed, and an epoch already begun makes it late, which raises
GATE_LATE. Disarming clears ARM. A tick of the same cycle still finds the gate as it stood (R50, R58, R59, R61, R62). -/
def Obligations.GateArming : Prop :=
  ∀ (s : State) (d : Nat) (w : Word) (tgt : Nat), s.portOpen → bits w.toNat 0 9 = (s.gate d).shadow.len →
    ((s.gate d).armed = false → (s.gate d).shadow.running.isEmpty = false →
      ∃ t, exec (.gateArm d w tgt) s = .next t ∧ (t.gate d).armed = true ∧ (t.gate d).shadow = (s.gate d).shadow ∧
        (t.gate d).active = (s.gate d).active ∧ (∀ e, e ≠ d → t.gate e = s.gate e) ∧
        ((s.gate d).isLate s.tick.epoch = true → (t.gate d).late = true ∧ (t.gate d).lateEpoch = s.tick.epoch % 2 ^ 32 ∧
          t.rd R.GATE_STATUS_GATE_LATE d = 1) ∧
        t.gateWas d = s.gateWas d ∧ t = { s with gates := t.gates, regs := t.regs, bitsNow := t.bitsNow, evts := t.evts, now := { s.now with gates := t.now.gates, late := t.now.late } } ∧ s.regsKept t [⟨R.GATE_STATUS_GATE_LATE, d, 0⟩]) ∧
    exec (.gateDisarm d w tgt) s = .next ((s.noteGate d).setGate d { s.gate d with armed := false, late := false })

/-- A budget window begins at its own cycle of the epoch: the window number changes and the carry of the tick's spill ends after window 0 (R289, R291).
That the number changes in this cycle is the model's choice (log entry 31). -/
def Obligations.BudgetWindow : Prop :=
  ∀ (s : State) (i c : Nat), s.cclk = c → s.conf.isSome = true → i < s.rd R.TR_CTL_WINDOWS → c = s.tick.lastC + 1 + i * s.windowCycles →
    ∃ t, exec (.budgetWindowStart i c) s = .next t ∧ t.traffic.window = s.tick.epoch * s.rd R.TR_CTL_WINDOWS + i ∧
      (0 < i → t.traffic.carry = []) ∧ (i = 0 → t.traffic.carry = s.traffic.carry) ∧
      t = { s with traffic := { s.traffic with window := t.traffic.window, carry := t.traffic.carry } }

/-! ### Events -/

/-- EVT_ACK clears PENDING and the posted state of the named sources and of no others, and leaves the raise count and the timers of the group
and everything else as they were (R417, R419, R422). Of the two sentences of R419 on the raise count it follows the general one (log entry 17). -/
def Obligations.EventAckClears : Prop :=
  ∀ (s : State) (w : Word) (tgt : Nat), s.portOpen →
    ∃ t, exec (.evtAck w tgt) s = .next t ∧ t = { s with evts := t.evts } ∧
      (∀ g, g ≠ bits w.toNat 0 5 → t.evt g = s.evt g) ∧
      (∀ n, n < 16 → bit w.toNat (16 + n) = true →
        bit (t.evt (bits w.toNat 0 5)).pending n = false ∧ bit (t.evt (bits w.toNat 0 5)).posted n = false) ∧
      (∀ n, ¬ (n < 16 ∧ bit w.toNat (16 + n) = true) →
        bit (t.evt (bits w.toNat 0 5)).pending n = bit (s.evt (bits w.toNat 0 5)).pending n ∧
        bit (t.evt (bits w.toNat 0 5)).posted n = bit (s.evt (bits w.toNat 0 5)).posted n) ∧
      (t.evt (bits w.toNat 0 5)).raises = (s.evt (bits w.toNat 0 5)).raises ∧
      (t.evt (bits w.toNat 0 5)).holdoff = (s.evt (bits w.toNat 0 5)).holdoff

/-- A group that may post posts every pending, enabled source it holds, starts its raise count again, loads its hold-off timer in MODE 2 and
occupies its target from this cycle (R419, R420). -/
def Obligations.EventPost : Prop :=
  ∀ (s : State) (g : Nat), s.mayPost g = true →
    ∃ t, exec (.groupPost g) s = .next t ∧ t = { s with evts := t.evts, posts := t.posts } ∧
      (∀ h, h ≠ g → t.evt h = s.evt h) ∧
      (∀ n, bit (s.evt g).pending n = true → bit (s.rd R.EVT_GRP_EN_ENABLE g) n = true → bit (t.evt g).posted n = true) ∧
      (∀ n, bit (s.evt g).posted n = true → bit (t.evt g).posted n = true) ∧
      (∀ n, bit (t.evt g).posted n = true → bit (s.evt g).posted n = false →
        bit (s.evt g).pending n = true ∧ bit (s.rd R.EVT_GRP_EN_ENABLE g) n = true) ∧
      (t.evt g).pending = (s.evt g).pending ∧ (t.evt g).raises = 0 ∧
      ((t.evt g).holdoff = true ↔ s.rd R.EVT_GRP_CFG_MODE g = 2) ∧
      (Tab.find t.posts (s.evtTarget g)).map (fun x => (x.1, x.2.1)) = some (g, s.cclk) ∧
      (∀ u, u ≠ s.evtTarget g → Tab.find t.posts u = Tab.find s.posts u)

/-- The moderation timers: a running hold-off ends, and a coalescing time that is running in MODE 1 is noted; nothing else changes (R419).
EVT_DISABLE gives EVT_CTL.DISABLE its value: while it is 1 no group may post and every interrupt line is 0; sources stay pending and posted
(R423). -/
def Obligations.EventControl : Prop :=
  (∀ (s : State) (g : Nat), s.cclkRuns = true →
      ((s.evt g).holdoff = true → exec (.holdoffExpiry g) s = .next (s.setEvt g { s.evt g with holdoff := false })) ∧
      ((s.evt g).timed = true → s.rd R.EVT_GRP_CFG_MODE g = 1 →
        exec (.coalesceTimeExpiry g) s = .next (s.setEvt g { s.evt g with expired := true }))) ∧
  (∀ (s : State) (w : Word) (tgt : Nat), s.portOpen →
      ∃ t, exec (.evtDisable w tgt) s = .next t ∧ t.rd R.EVT_CTL_DISABLE = bits w.toNat 0 1 ∧
        t = { s with regs := t.regs, bitsNow := t.bitsNow, evts := t.evts } ∧ s.regsKept t [⟨R.EVT_CTL_DISABLE, 0, 0⟩] ∧
        (bits w.toNat 0 1 = 1 → t.irqLines = 0 ∧ ∀ g, t.mayPost g = false) ∧
        ∀ g, (t.evt g).pending = (s.evt g).pending ∧ (t.evt g).posted = (s.evt g).posted ∧ (t.evt g).raises = (s.evt g).raises)

/-! ### Counters and Contrail -/

/-- SNAP copies the eight counters of the group as they stand and records the epoch; CLEAR makes them 0. The counters of other groups stay
(R432, R433). SNAP with CLEAR copies first: the order is the model's choice (log entry 25). -/
def Obligations.CounterSnapAndClear : Prop :=
  ∀ (s : State) (g : Nat) (w : Word) (tgt : Nat), s.portOpen → g < 32 →
    (∃ t, exec (.counterSnap g w tgt) s = .next t ∧
      (∀ k, k < 8 → Tab.get 0 t.meas.snaps (8 * g + k) = Tab.get 0 s.meas.ctrs (8 * g + k)) ∧
      t.rd R.PF_SNAP_EPOCH_EPOCH g = s.tick.epoch % 2 ^ 32 ∧
      (∀ k, k / 8 ≠ g → Tab.get 0 t.meas.ctrs k = Tab.get 0 s.meas.ctrs k) ∧
      t = { s with regs := t.regs, now := t.now, meas := t.meas } ∧ s.regsKept t [⟨R.PF_GRP_CTL_EN, g, 0⟩, ⟨R.PF_SNAP_EPOCH_EPOCH, g, 0⟩]) ∧
    (∃ t, exec (.counterClear g w tgt) s = .next t ∧
      (∀ k, k < 8 → Tab.get 0 t.meas.ctrs (8 * g + k) = 0) ∧
      (∀ k, k / 8 ≠ g → Tab.get 0 t.meas.ctrs k = Tab.get 0 s.meas.ctrs k) ∧
      t = { s with regs := t.regs, now := t.now, meas := t.meas } ∧ s.regsKept t [⟨R.PF_GRP_CTL_EN, g, 0⟩, ⟨R.PF_SNAP_EPOCH_EPOCH, g, 0⟩])

/-- FLUSH sets CONS to PROD; a write of CTR_CONS within the range CONS to PROD takes effect, and one outside it is ignored and raises CFG_BUSY
(R439). -/
def Obligations.ContrailCons : Prop :=
  ∀ (s : State) (w : Word) (tgt : Nat), s.portOpen →
    (∃ t, exec (.contrailFlush w tgt) s = .next t ∧
      (bits w.toNat 1 5 ≤ 23 → t.rd R.CTR_CONS_CONS = s.meas.prod % 512 ∧ t = { s with regs := t.regs } ∧
        s.regsKept t [⟨R.CTR_CTL_EN, 0, 0⟩, ⟨R.CTR_CTL_K, 0, 0⟩, ⟨R.CTR_CTL_WRAP, 0, 0⟩, ⟨R.CTR_CONS_CONS, 0, 0⟩])) ∧
    ((bits w.toNat 0 9 + 512 - s.rd R.CTR_CONS_CONS) % 512 ≤ s.ctrUsed →
      ∃ t, exec (.contrailConsWrite w tgt) s = .next t ∧ t.rd R.CTR_CONS_CONS = bits w.toNat 0 9 ∧ t = { s with regs := t.regs } ∧
        s.regsKept t [⟨R.CTR_CONS_CONS, 0, 0⟩]) ∧
    (s.ctrUsed < (bits w.toNat 0 9 + 512 - s.rd R.CTR_CONS_CONS) % 512 →
      ∃ t, exec (.contrailConsWrite w tgt) s = .next t ∧ t.rd R.CTR_CONS_CONS = s.rd R.CTR_CONS_CONS ∧
        t.rd R.GLB_STATUS_CFG_BUSY = 1 ∧ t = { s with regs := t.regs, bitsNow := t.bitsNow, evts := t.evts, meas := t.meas } ∧ s.regsKept t busySlots)

/-! ### Mailboxes -/

/-- The read commands of the counter and global objects start in a mailbox that is not busy: BUSY rises, VALID, ERR and CODE clear, the writer is
recorded, and the words the read will load are those of the object; a context that the flow cache does not hold is read from the engine reserve
(R440, R454, R456), here with nothing of it lost there. -/
def Obligations.MailboxReads : Prop :=
  ∀ (s : State) (m ix tgt : Nat), s.portOpen → m < 8 → s.mbxBusy m = false →
    let runs (i : Instr) (d : List Nat) (rsv : Option Nat) : Prop :=
      ∃ t, exec i s = .next t ∧ Tab.get none t.mbx m = some { writer := tgt % 8, res := .read d, rsv := rsv } ∧
        t.rd R.MBX_CTL_VALID m = 0 ∧ t.rd R.MBX_CTL_ERR m = 0 ∧ t.rd R.MBX_CTL_CODE m = 0 ∧
        (∀ k, t.mbxWord m k = s.mbxWord m k) ∧ (∀ n, n ≠ m → t.mbxBusy n = s.mbxBusy n) ∧
        t = { s with regs := t.regs, mbx := t.mbx } ∧ s.regsKept t (mbxSlots m)
    let seed := s.now.seed.or s.tick.seed
    let out (a : Nat) : Option Nat := if s.traffic.fcache.contains ix then none else some a
    runs (.epochRead m 0 tgt) [s.tick.epoch % 2 ^ 32, s.tick.epoch / 2 ^ 32] none ∧
    runs (.tickIntervalsRead m 0 tgt) ([s.tick.im, s.tick.ic] ++ padTo 6 s.tick.imList) none ∧
    runs (.cycleRead m 0 tgt) [s.cclk % 2 ^ 32, s.cclk / 2 ^ 32 % 2 ^ 32, s.tick.last % 2 ^ 32] none ∧
    (s.conf.isSome = true →
      runs (.epochSeedRead m 0 tgt) [seed.getD 0 % 2 ^ 32, seed.getD 0 / 2 ^ 32, b2n seed.isSome] none ∧
      (ix < 2 ^ 20 → (s.traffic.fcache.contains ix = true ∨ s.rsvReady (64 * ix) = false ∨ s.ctxBad ix = 0) →
        runs (.flowConfigRead m ix tgt) (Tab.get ({} : Flow) s.traffic.flows ix).configWords (out (64 * ix)) ∧
        runs (.flowStateRead m ix tgt) (Tab.get ({} : Flow) s.traffic.flows ix).stateWords (out (64 * ix + 32)))) ∧
    (ix < 256 → runs (.perfCounterRead m ix tgt) (ctrWords (Tab.get 0 s.meas.ctrs ix)) none) ∧
    (ix < 64 → runs (.perfSnapshotRead m ix tgt) ((List.range 4).flatMap fun i => ctrWords (Tab.get 0 s.meas.snaps (4 * ix + i))) none) ∧
    (ix < 256 → (ix + 256 - s.rd R.CTR_CONS_CONS % 256) % 256 < s.ctrUsed →
      runs (.contrailRecordRead m ix tgt) (wordsOf (Tab.get [] s.meas.recs ix)) none)

/-- The reads of the reserve objects: a part of a valid saved copy of a channel's training state, and an unread entry of the error ring, each unless
an uncorrectable byte is met, which ends the read with DATA_LOST (R456, R457). -/
def Obligations.MailboxReserveReads : Prop :=
  ∀ (s : State) (m ix tgt : Nat) (lost : Bool), s.portOpen → m < 8 → s.mbxBusy m = false → s.conf.isSome = true →
    (ix < 16 * s.C → (s.chan (ix / 16)).copy ≠ [] →
      ∃ t, exec (.trainingStateRead m ix tgt lost) s = .next t ∧
        Tab.get none t.mbx m = some { writer := tgt % 8, rsv := some (rsvTraining + 32 * ix), res :=
          (if lost then .err 6 else .read (wordsOf ((s.chan (ix / 16)).copy.drop (32 * (ix % 16))))) } ∧
        (lost = false → t = { s with regs := t.regs, mbx := t.mbx } ∧ s.regsKept t (mbxSlots m))) ∧
    (ix < 4096 → (ix + 4096 - s.rd R.INT_RING_CONS_CONS % 4096) % 4096 < s.ringUsed →
      ∃ t, exec (.errorRingRead m ix tgt lost) s = .next t ∧
        Tab.get none t.mbx m = some { writer := tgt % 8, rsv := some (rsvRing + 32 * ix), res :=
          (if lost || s.rsvLost (rsvRing + 32 * ix) 32 then .err 6 else .read (wordsOf (Tab.get {} s.integ.ring ix).bytes)) } ∧
        t = { s with regs := t.regs, mbx := t.mbx } ∧ s.regsKept t (mbxSlots m))

/-- The mailbox writes: a seed becomes pending; a flow context that touches no guarantee becomes pending for the next tick; FLOW_STATE ends without
effect; parts 0 to 14 of a training state are staged while the PHY is quiesced; a counter of a group that does not count takes its value
(R46, R283, R433, R456, R458). -/
def Obligations.MailboxWrites : Prop :=
  ∀ (s : State) (m ix tgt : Nat), s.portOpen → m < 8 → s.mbxBusy m = false →
    let runs (i : Instr) (p : State → Prop) : Prop :=
      ∃ t, exec i s = .next t ∧ Tab.get none t.mbx m = some { writer := tgt % 8, res := .wrote } ∧ p t
    (s.conf.isSome = true →
      runs (.epochSeedWrite m 0 tgt) (fun t => t.now.seed = some (s.mbxWord m 0 + 2 ^ 32 * s.mbxWord m 1) ∧
        t = { s with regs := t.regs, mbx := t.mbx, now := { s.now with seed := t.now.seed } } ∧ s.regsKept t (mbxSlots m)) ∧
      (ix < 2 ^ 20 →
        runs (.flowStateWrite m ix tgt) (fun t => t = { s with regs := t.regs, mbx := t.mbx } ∧ s.regsKept t (mbxSlots m)) ∧
        ((Tab.get ({} : Flow) s.traffic.flows ix).testable (Flow.ofWords (s.mbxWord m)) = false →
          Tab.find s.flowPendAll ix = none →
          runs (.flowConfigWrite m ix tgt) (fun t =>
            Tab.find t.now.flows ix = some (Flow.ofWords (s.mbxWord m)) ∧ t.traffic = s.traffic ∧
            t = { s with regs := t.regs, mbx := t.mbx, now := { s.now with flows := t.now.flows } } ∧
              s.regsKept t (mbxSlots m)))) ∧
      (ix < 16 * s.C → ix % 16 ≠ 15 → s.phyQuiesced (ix / 16) = true →
        runs (.trainingStateWrite m ix tgt) (fun t =>
          (∀ i, i < 32 → Tab.get 0 (t.chan (ix / 16)).staging (32 * (ix % 16) + i) = (s.mbxBytes m).getD i 0) ∧
          (t.chan (ix / 16)).retainedSt = (s.chan (ix / 16)).retainedSt ∧ ∀ c, c ≠ ix / 16 → t.chan c = s.chan c))) ∧
    (ix < 256 → s.rd R.PF_GRP_CTL_EN (ix / 8) = 0 →
      runs (.perfCounterWrite m ix tgt) (fun t =>
        Tab.get 0 t.meas.ctrs ix = (s.mbxWord m 0 + 2 ^ 32 * (s.mbxWord m 1 % 2 ^ 16)) % 2 ^ 48 ∧
        (∀ k, k ≠ ix → Tab.get 0 t.meas.ctrs k = Tab.get 0 s.meas.ctrs k)))

/-- The end of a mailbox operation whose reserve read, if it has one, may pass: a read loads the data words, an error loads none, then exactly one of
VALID and ERR is set, BUSY falls and MBX_DONE is pending in the private bank of the writer (R454). Only a read of the reserve is charged to a
channel (R456). -/
def Obligations.MailboxEnds : Prop :=
  ∀ (s : State) (m : Nat) (o : MbxOp), m < 8 → s.cclkRuns = true → Tab.get none s.mbx m = some o → o.writer < 8 → s.mbxFree o = true →
    s.rd R.MBX_CTL_VALID m = 0 → s.rd R.MBX_CTL_ERR m = 0 →
    ∃ t, exec (.mbxDone m) s = .next t ∧ t.mbxBusy m = false ∧ bit (t.evt (24 + o.writer)).pending 0 = true ∧
      t.rd R.MBX_CTL_VALID m + t.rd R.MBX_CTL_ERR m = 1 ∧
      (∀ d, o.res = .read d → t.rd R.MBX_CTL_VALID m = 1 ∧ ∀ k, k < 8 → t.mbxWord m k = d.getD k 0 % 2 ^ 32) ∧
      (∀ c, o.res = .err c → t.rd R.MBX_CTL_CODE m = c % 2 ^ 8 ∧ ∀ k, t.mbxWord m k = s.mbxWord m k) ∧
      (o.rsv = none → t.chans = s.chans) ∧
      t = { s with regs := t.regs, bitsNow := t.bitsNow, evts := t.evts, meas := t.meas, mbx := t.mbx, chans := t.chans } ∧
        s.regsKept t ([⟨R.MBX_CTL_VALID, m, 0⟩, ⟨R.MBX_CTL_ERR, m, 0⟩, ⟨R.MBX_CTL_CODE, m, 0⟩] ++ (List.range 8).map fun k => ⟨R.MBX_D_DATA, m, k⟩)

/-- GO on a mailbox that is not busy starts the operation that MBX_SEL names; on a busy one it is ignored and raises CFG_BUSY (R454, R455). -/
def Obligations.MailboxGo : Prop :=
  ∀ (s : State) (m : Nat) (w : Word) (tgt : Nat), s.portOpen → m < 8 →
    (s.mbxBusy m = false →
      ∃ t o, exec (.mbxGo m w tgt) s = .next t ∧ Tab.get none t.mbx m = some o ∧ o.writer = tgt % 8 ∧ o.res = (s.mbxOp m false).2 ∧
        (o.rsv = none ∨ o.rsv = s.mbxReserve m) ∧
        t.rd R.MBX_CTL_VALID m = 0 ∧ t.rd R.MBX_CTL_ERR m = 0 ∧ t.rd R.MBX_CTL_CODE m = 0) ∧
    (s.mbxBusy m = true →
      ∃ t, exec (.mbxGo m w tgt) s = .next t ∧ t.mbx = s.mbx ∧ t.rd R.GLB_STATUS_CFG_BUSY = 1 ∧
        t = { s with regs := t.regs, bitsNow := t.bitsNow, evts := t.evts, meas := t.meas } ∧ s.regsKept t busySlots)

/-! ### Squall -/

/-- The unlock sequence: while the image permits it, KEY_A is recorded for its target, and KEY_B of the same target within 65,536 cclk cycles
unlocks Squall and loads every generator; a late KEY_B ends the sequence and unlocks nothing (R463, R466). `c` is the cclk cycle in which the
write arrives. -/
def Obligations.SquallUnlock : Prop :=
  ∀ (s : State) (tgt c : Nat), s.portOpen → s.permits 0 = true → s.cclk = c →
    (∃ t, exec (.squallKey 0x5351#32 tgt c) s = .next t ∧ t.keyOf (tgt % 8) = some c ∧
      t.squall.unlocked = s.squall.unlocked ∧ t = { s with squall := t.squall }) ∧
    (∀ k, s.keyOf (tgt % 8) = some k → c ≤ k + 65536 →
      ∃ t, exec (.squallKey 0xACAE#32 tgt c) s = .next t ∧ t.squall.unlocked = true ∧
        (∀ i, i ≤ 64 → Tab.find t.squall.gens i = some (genLoad (s.rd R.SQ_SEED_SEED) i)) ∧ t = { s with squall := t.squall }) ∧
    (∀ k, s.keyOf (tgt % 8) = some k → k + 65536 < c →
      ∃ t, exec (.squallKey 0xACAE#32 tgt c) s = .next t ∧ t.squall.unlocked = s.squall.unlocked ∧
        t = { s with squall := t.squall })

/-- While Squall is locked, a write of any of its registers but TEST_KEY is ignored and raises CFG_BUSY (R465), unless it carries nothing: the values
the fields hold and no action (R487). While it is unlocked, SEED loads the
generators, with 1 in place of a result of 0; GO arms the GUARDED and the SEALED injection; SQ_LINJ takes its channel, kind and count where
the channel has LINK_ECC (R466, R468). -/
def Obligations.SquallRegisters : Prop :=
  (∀ (s : State) (i : Instr) (w : Word) (tgt : Nat), s.portOpen → s.squall.unlocked = false →
      let seed := bits w.toNat 0 15 = s.rd R.SQ_SEED_SEED
      let link := bits w.toNat 0 5 = s.rd R.SQ_LINJ_CH ∧ bits w.toNat 8 2 = s.rd R.SQ_LINJ_KIND ∧ bits w.toNat 16 8 = s.rd R.SQ_LINJ_COUNT
      (i ∈ [Instr.guardedInject w tgt, .sealedInject w tgt, .haloInject w tgt] ∨ (i = .squallSeed w tgt ∧ ¬ seed) ∨
          (i = .linkInject w tgt ∧ ¬ link) →
        ∃ t, exec i s = .next t ∧ t.squall = s.squall ∧ t.lines = s.lines ∧ t.rd R.GLB_STATUS_CFG_BUSY = 1 ∧
          t.rd R.SQ_SEED_SEED = s.rd R.SQ_SEED_SEED ∧ t.rd R.SQ_LINJ_COUNT = s.rd R.SQ_LINJ_COUNT ∧
          t = { s with regs := t.regs, bitsNow := t.bitsNow, evts := t.evts, meas := t.meas } ∧ s.regsKept t busySlots) ∧
      ((i = .squallSeed w tgt ∧ seed) ∨ (i = .linkInject w tgt ∧ link) → exec i s = .next s)) ∧
  (∀ (s : State) (w : Word) (tgt : Nat), s.portOpen → s.squall.unlocked = true →
      (∃ t, exec (.squallSeed w tgt) s = .next t ∧ t.rd R.SQ_SEED_SEED = bits w.toNat 0 15 ∧
        (∀ i, i ≤ 64 → Tab.find t.squall.gens i =
          some (if bits w.toNat 0 15 ^^^ (i + 1) = 0 then 1 else bits w.toNat 0 15 ^^^ (i + 1))) ∧
        t = { s with regs := t.regs, squall := { s.squall with gens := t.squall.gens } } ∧ s.regsKept t [⟨R.SQ_SEED_SEED, 0, 0⟩]) ∧
      (s.squall.gArmed = false →
        ∃ t, exec (.guardedInject w tgt) s = .next t ∧ t.squall.gArmed = true ∧ t.rd R.SQ_GINJ_CTL_CH = bits w.toNat 0 5 ∧
          t.rd R.SQ_GINJ_CTL_DFLIP = bits w.toNat 8 8 ∧ t.rd R.SQ_GINJ_CTL_CFLIP = bits w.toNat 16 8 ∧
          t = { s with regs := t.regs, squall := { s.squall with gArmed := true } } ∧
            s.regsKept t [⟨R.SQ_GINJ_CTL_CH, 0, 0⟩, ⟨R.SQ_GINJ_CTL_DFLIP, 0, 0⟩, ⟨R.SQ_GINJ_CTL_CFLIP, 0, 0⟩]) ∧
      (s.squall.sArmed = false →
        ∃ t, exec (.sealedInject w tgt) s = .next t ∧ t.squall.sArmed = true ∧ t.rd R.SQ_SINJ_CTL_INDEX = bits w.toNat 0 16 ∧
          t.rd R.SQ_SINJ_CTL_ANY = bits w.toNat 16 1 ∧ t = { s with regs := t.regs, squall := { s.squall with sArmed := true } } ∧
            s.regsKept t [⟨R.SQ_SINJ_CTL_INDEX, 0, 0⟩, ⟨R.SQ_SINJ_CTL_ANY, 0, 0⟩]) ∧
      (s.option (bits w.toNat 0 5) 0 = true →
        ∃ t, exec (.linkInject w tgt) s = .next t ∧ t.rd R.SQ_LINJ_CH = bits w.toNat 0 5 ∧ t.rd R.SQ_LINJ_KIND = bits w.toNat 8 2 ∧
          t.rd R.SQ_LINJ_COUNT = bits w.toNat 16 8 ∧ t = { s with regs := t.regs } ∧
            s.regsKept t [⟨R.SQ_LINJ_CH, 0, 0⟩, ⟨R.SQ_LINJ_KIND, 0, 0⟩, ⟨R.SQ_LINJ_COUNT, 0, 0⟩]))

/-- HALO_INJECT of KIND 1 into an entry that holds a line flips that line's tag parity at once, counts the injection and touches no other entry
(R468; log entry 27). -/
def Obligations.HaloInject : Prop :=
  ∀ (s : State) (w : Word) (tgt : Nat), s.portOpen → s.squall.unlocked = true →
    bits w.toNat 21 2 = 1 → bits w.toNat 0 3 < s.G → bits w.toNat 4 7 < 76 →
    (s.line (bits w.toNat 0 3) (bits w.toNat 4 7)).valid = true →
    ∃ t, exec (.haloInject w tgt) s = .next t ∧
      t.line (bits w.toNat 0 3) (bits w.toNat 4 7) = { s.line (bits w.toNat 0 3) (bits w.toNat 4 7) with
        tagErr := !(s.line (bits w.toNat 0 3) (bits w.toNat 4 7)).tagErr } ∧
      (∀ g e, e < 128 → (g, e) ≠ (bits w.toNat 0 3, bits w.toNat 4 7) → t.line g e = s.line g e) ∧
      t.rd R.SQ_INJ_CNT_COUNT = satAdd 16 (s.rd R.SQ_INJ_CNT_COUNT) 1 ∧ t = { s with regs := t.regs, lines := t.lines } ∧
        s.regsKept t [⟨R.SQ_HINJ_GROUP, 0, 0⟩, ⟨R.SQ_HINJ_ENTRY, 0, 0⟩, ⟨R.SQ_HINJ_WORD, 0, 0⟩, ⟨R.SQ_HINJ_KIND, 0, 0⟩, ⟨R.SQ_INJ_CNT_COUNT, 0, 0⟩]


/-! ### Images -/

/-- START in IDLE begins a load: the loader is RECEIVING, remembers its requester and has taken no byte; START in any other state is refused and
raises CFG_BUSY. ABORT in states 1 to 5 ends the load with RESULT 0x12 and raises IMG_FAIL to the requester; nothing is applied (R92, R93). -/
def Obligations.ImageStartAbort : Prop :=
  ∀ (s : State) (w : Word) (tgt : Nat), s.portOpen → bits w.toNat 0 1 = s.rd R.IMG_CTL_SRC →
    (s.loader.st = 0 → bit w.toNat 5 = false → Runs (.imgStart w tgt) s fun t =>
      t.loader = { st := 1, tgt := tgt % 8 } ∧ t.rd R.IMG_BYTES_BYTES = 0 ∧ t.rd R.IMG_SKIPPED_COUNT = 0 ∧
      t.rd R.IMG_CTL_SRC = s.rd R.IMG_CTL_SRC ∧ t = { s with loader := t.loader, regs := t.regs } ∧
        s.regsKept t [⟨R.IMG_BYTES_BYTES, 0, 0⟩, ⟨R.IMG_SKIPPED_COUNT, 0, 0⟩]) ∧
    (s.loader.st ≠ 0 → bit w.toNat 5 = false → exec (.imgStart w tgt) s = .next (s.cfgBusy 0x400 tgt)) ∧
    (1 ≤ s.loader.st → s.loader.st ≤ 5 → bit w.toNat 4 = false → Runs (.imgAbort w tgt) s fun t =>
      t.loader.st = 0 ∧ t.rd R.IMG_STATUS_RESULT = 0x12 ∧ t.rd R.IMG_STATUS_IMG_FAIL = 1 ∧
      bit (t.evt (24 + s.loader.tgt % 8)).pending 3 = true ∧ t = { s with loader := t.loader, regs := t.regs, bitsNow := t.bitsNow, evts := t.evts } ∧
        s.regsKept t imgEndSlots)

/-- A word of an image is added to those received and counted in IMG_BYTES. The word that completes the length the header gives moves the loader to
CHECKING, and so does img_last_i on the stream; there the two must fall together, or the image is remembered as one of a wrong length. The
eighth word brings the header: one that the build cannot take ends a FIFO load at once, and a stream's with its last word, up to which the
words are taken and counted (R91, R92, R96). -/
def Obligations.ImageWords : Prop :=
  ∀ (s : State) (w : Word) (tgt : Nat), s.portOpen → s.loader.st = 1 → s.loader.words.length < 2 ^ 24 →
    let words := w :: s.loader.words
    let h := wordBytes (words.drop (words.length - 8)).reverse
    let whole : Bool := decide (8 ≤ words.length) && decide (4 * words.length = fieldAt h 12 4 + fieldAt h 10 2)
    let bad := if words.length = 8 then headerError s.build s.conf.isSome h else none
    let takes (i : Instr) (l : Loader) : Prop := Runs i s fun t =>
      t.loader = l ∧ t.rd R.IMG_BYTES_BYTES = 4 * words.length ∧ t = { s with loader := t.loader, regs := t.regs } ∧
        s.regsKept t [⟨R.IMG_BYTES_BYTES, 0, 0⟩]
    let fails (i : Instr) (code : Nat) : Prop := Runs i s fun t =>
      t.loader.st = 0 ∧ t.rd R.IMG_STATUS_RESULT = code % 256 ∧ t.rd R.IMG_STATUS_IMG_FAIL = 1 ∧ t.conf = s.conf ∧
        t = { s with loader := t.loader, regs := t.regs, bitsNow := t.bitsNow, evts := t.evts } ∧ s.regsKept t (⟨R.IMG_BYTES_BYTES, 0, 0⟩ :: imgEndSlots)
    (s.loader.hdrErr = none → s.rd R.IMG_CTL_SRC = 0 →
      (bad = none → takes (.imgFifoWord w tgt) (if whole then { s.loader with words := words, st := 2, lastBad := false }
        else { s.loader with words := words })) ∧
      (∀ e, bad = some e → e.code ≠ 0 → fails (.imgFifoWord w tgt) e.code)) ∧
    (s.loader.hdrErr = none → s.rd R.IMG_CTL_SRC = 1 → s.cclkRuns = true →
      (bad = none →
        takes (.imgStreamWord w false) (if whole then { s.loader with words := words, st := 2, lastBad := true }
          else { s.loader with words := words }) ∧
        (8 ≤ words.length → takes (.imgStreamWord w true) { s.loader with words := words, st := 2, lastBad := !whole }) ∧
        (words.length < 8 → fails (.imgStreamWord w true) 0x05)) ∧
      (∀ e, bad = some e → takes (.imgStreamWord w false) { s.loader with words := words, hdrErr := some e } ∧
        (e.code ≠ 0 → fails (.imgStreamWord w true) e.code))) ∧
    (∀ e, s.loader.hdrErr = some e → s.rd R.IMG_CTL_SRC = 1 → s.cclkRuns = true →
      (Runs (.imgStreamWord w false) s fun t => t.loader = s.loader ∧
        t.rd R.IMG_BYTES_BYTES = (s.rd R.IMG_BYTES_BYTES + 4) % 2 ^ 32 ∧ t = { s with regs := t.regs } ∧
          s.regsKept t [⟨R.IMG_BYTES_BYTES, 0, 0⟩]) ∧
      (e.code ≠ 0 → fails (.imgStreamWord w true) e.code))

/-- The end of CHECKING: the length comes first, then the CRC, then the signature where authentication is required; an image that passes them
waits for the verdict in AUTH_WAIT, or goes to ADMITTING or to the failure of its records at once (R92, R96). ADMITTING tests the image over
the values that stand as it begins (R98). The verdict of an authentic image leads to ADMITTING or to the failure held; any other ends the
load with AUTH_FAIL, and nothing is applied (R71, R96). -/
def Obligations.ImageCheck : Prop :=
  ∀ s : State, s.cclkRuns = true →
    let l := s.loader.bytes
    let len := fieldAt l 12 4
    let r := readImage s.build s.conf l
    let v := s.wr R.IMG_SKIPPED_COUNT 0 0 (min r.1.skipped 0xFFFF)
    (s.loader.st = 2 →
      ((s.loader.lastBad = true ∨ l.length ≠ len + fieldAt l 10 2) →
        exec .imgCheckDone s = .next (v.imgEnd { code := 0x05, off := 0xC })) ∧
      (s.loader.lastBad = false → l.length = len + fieldAt l 10 2 →
        (imageCrc (l.take len) ≠ fieldAt l 28 4 → exec .imgCheckDone s = .next (v.imgEnd { code := 0x06, off := 0x1C })) ∧
        (imageCrc (l.take len) = fieldAt l 28 4 →
          (s.authReq = true → bit (fieldAt l 7 1) 0 = false → exec .imgCheckDone s = .next (v.imgEnd { code := 0x07, off := 0x1C })) ∧
          (s.authReq = true → bit (fieldAt l 7 1) 0 = true →
            exec .imgCheckDone s = .next { v with loader := { s.loader with img := some r.1, held := r.2, st := 3 } }) ∧
          (s.authReq = false → r.2 = none →
            exec .imgCheckDone s = .next { v with loader := { s.loader with img := some r.1, held := none, st := 4, adm := v.admits r.1 } }) ∧
          (s.authReq = false → ∀ e, r.2 = some e → e.code ≠ 0 → Runs .imgCheckDone s fun t =>
            t.loader.st = 0 ∧ t.rd R.IMG_STATUS_RESULT = e.code % 256 ∧ t.rd R.IMG_STATUS_IMG_FAIL = 1 ∧
            t = { s with loader := t.loader, regs := t.regs, bitsNow := t.bitsNow, evts := t.evts } ∧ s.regsKept t (⟨R.IMG_SKIPPED_COUNT, 0, 0⟩ :: imgEndSlots))))) ∧
    (∀ (i : Image) (ok : Bool) (crc : Word), s.loader.st = 3 → s.loader.img = some i →
      (ok = true → crc.toNat = i.crc →
        (s.loader.held = none → exec (.imgAuthVerdict ok crc) s = .next { s with loader := { s.loader with st := 4, adm := s.admits i } }) ∧
        (∀ e, s.loader.held = some e → exec (.imgAuthVerdict ok crc) s = .next (s.imgEnd e))) ∧
      ((ok = false ∨ crc.toNat ≠ i.crc) → Runs (.imgAuthVerdict ok crc) s fun t =>
        t.loader.st = 0 ∧ t.rd R.IMG_STATUS_RESULT = 7 ∧ t = { s with loader := t.loader, regs := t.regs, bitsNow := t.bitsNow, evts := t.evts } ∧
          s.regsKept t imgEndSlots))

/-- The end of ADMITTING: an image whose capacity test failed ends with RESULT 0x10 and leaves the configuration and the ports as they are; a partial
image that passed is STAGED (R92, R97, R98). A full image that passed is in force with RESULT 0 and IMG_DONE; the tick unit is in ACQUIRE
and every present channel runs its cold Dawn (R94, R95): that it applies in this cycle is the model's choice (log entry 16). -/
def Obligations.ImageAdmit : Prop :=
  ∀ (s : State) (i : Image) (c u : Nat), s.cclkRuns = true → s.loader.st = 4 → s.loader.img = some i →
    (s.loader.adm.fail = none → i.scope = 0xFF → Runs (.imgAdmitDone c u) s fun t =>
      t.conf = some i ∧ t.loader.st = 0 ∧ t.rd R.IMG_STATUS_RESULT = 0 ∧ t.rd R.IMG_STATUS_IMG_DONE = 1 ∧ t.tick.st = 1 ∧
      ∀ ch, ch ∈ i.present → (t.chan ch).seq = 1 ∧ (t.chan ch).svc = 1 ∧ (t.chan ch).step = 1 ∧ (t.chan ch).fullImg = true) ∧
    (s.loader.adm.fail = none → i.scope ≠ 0xFF → Runs (.imgAdmitDone c u) s fun t =>
      t.loader = { s.loader with st := 5 } ∧ t.now.staged = true ∧ t.rd R.ADM_LAST_FAILED = 0 ∧ t.conf = s.conf ∧
      t.ports = (s.atCycle c).ports ∧ t.groups = (s.atCycle c).groups) ∧
    (∀ x, s.loader.adm.fail = some x → Runs (.imgAdmitDone c u) s fun t =>
      t.loader.st = 0 ∧ t.rd R.IMG_STATUS_RESULT = 0x10 ∧ t.rd R.IMG_STATUS_IMG_FAIL = 1 ∧ t.rd R.ADM_LAST_FAILED = 1 ∧
      t.conf = s.conf ∧ t.tick = (s.atCycle c).tick ∧ t.ports = (s.atCycle c).ports ∧ t.groups = (s.atCycle c).groups)

/-- A partial image takes effect once its unit is quiet: a channel that has drained takes its records and starts a cold Dawn if its clock, ranks,
density or mode registers changed, a warm one otherwise; a group that has emptied has the image's ports and no others, no freeze and RESULT
0; the limit passing first ends the load with RESULT 0x11 and nothing applied (R105, R107). -/
def Obligations.PartialImage : Prop :=
  (∀ (s : State) (ch : Nat) (i cf : Image), s.imgChannel = some ch → s.loader.img = some i → s.conf = some cf →
    (s.outOfService ch = true ∨ (s.drainedCh ch = true ∧ (s.chan ch).ranks.any (fun e => decide (0 < e.2.debt)) = false)) →
    Runs .channelImageQuiesced s fun t =>
      t.loader = { s.loader with applied := true } ∧ t.rd R.IMG_ACTIVE_CRC_CRC = i.crc % 2 ^ 32 ∧
      ((s.takeChanImage ch).2 = true → (t.chan ch).seq = 1) ∧
      ((s.takeChanImage ch).2 = false → (s.takeChanImage ch).1.retainedOk ch = true → (s.chan ch).wasCold = false → (t.chan ch).seq = 2) ∧
      (∀ r, t.conf = some r → r.groups = cf.groups ∧ r.ports = cf.ports ∧ r.flows = cf.flows)) ∧
  (∀ (s : State) (g c : Nat) (i : Image), s.imgGroup = some g → s.loader.img = some i → (s.atCycle c).groupEmpty g = true →
    (∀ r ∈ i.ports, r.g = g ∧ r.port < 8) →
    Runs (.groupQuiesceDone c) s fun t =>
      t.loader.st = 0 ∧ t.rd R.IMG_STATUS_RESULT = 0 ∧ t.rd R.IMG_STATUS_IMG_DONE = 1 ∧ t.rd R.IMG_ACTIVE_CRC_CRC = i.crc % 2 ^ 32 ∧
      (t.group g).frozenImg = false ∧
      ∀ p, p < 8 → ((t.port (8 * g + p)).present = true ↔ ∃ r ∈ i.ports, r.port = p) ∧
        ((∀ r ∈ i.ports, r.port ≠ p) → t.rd R.PORT_CFG_KIND g p = 0)) ∧
  (∀ (s : State) (g c : Nat), s.imgGroup = some g → (s.atCycle c).groupEmpty g = false → s.loader.since + s.loader.limit ≤ c →
    Runs (.quiesceTimeout c) s fun t =>
      t.loader.st = 0 ∧ t.rd R.IMG_STATUS_RESULT = 0x11 ∧ t.rd R.IMG_STATUS_IMG_FAIL = 1 ∧ (t.group g).frozenImg = false ∧
      t.conf = s.conf ∧ t.ports = (s.atCycle c).ports)

/-! ### Ports -/

/-- A request beat that the port takes: its tag is outstanding and one transfer joins the queue, with the fields cut to their widths, the port's default
flow for flow 0, at most the port's privilege, and the data beats its form needs. A transfer whose opcode or address the port cannot serve
is marked as a protocol error; its class is read as it enters the queue, where the flow's context is in the cache (R114 to R118, R121, R144,
R150). A beat whose tag is outstanding is dropped as a violation (R144). The port takes one beat in a cycle, and its link moves at the end of the
cycle (the model's reading, log entries 20 and 125). A CREATE that comes with its data beat is its request beat followed by that beat (R116). -/
def Obligations.RequestTaken : Prop :=
  (∀ (s : State) (p op c : Nat) (r : Req) (i : Instr), s.cclk = c → (s.port p).takeAt ≤ c → s.takesRequest p = true → s.gclkRuns p = true →
    (op, i) ∈ [(0, Instr.read p r c), (1, .write p r c), (2, .prefetch p r c), (3, .zero p r c), (4, .preload p r c), (5, .unlock p r c),
      (6, .hold p r c), (7, .drop p r c), (8, .create p r none c)] ∨ (9 ≤ op ∧ op < 16 ∧ i = .opUnknown p op r c) →
    let kind := s.portKind p
    let unknown := 9 ≤ op ∨ (kind = 2 ∧ 6 ≤ op)
    (r.tag % 1024 ∉ (s.port p).tags → Runs i s fun t =>
      ∃ x, (t.port p).queue = (s.port p).queue ++ [x] ∧ (t.port p).tags = (s.port p).tags ++ [r.tag % 1024] ∧
        x.id = s.nextId ∧ x.op = op ∧ x.t0 = c ∧ x.crossed = 0 ∧ x.beats = [] ∧ (x.closed = true ↔ x.need = 0) ∧
        x.req.tag = r.tag % 1024 ∧ x.req.colour = min (r.colour % 4) 2 ∧
        x.req.priv = min (r.priv % 4) (s.rd R.PORT_CFG_PRIV_MAX (p / 8) (p % 8)) ∧
        x.req.flow = (if r.flow % 2 ^ 20 = 0 then s.rd R.PORT_DEFAULT_FLOW_FLOW (p / 8) (p % 8) else r.flow % 2 ^ 20) ∧
        (kind = 2 → x.req.addr = r.addr % 2 ^ 40 ∧ x.req.len = r.len % 64) ∧ (op ≠ 8 → x.req.handle = r.handle % 2 ^ 24) ∧
        (op ≤ 5 → x.req.x = r.x % 65536 ∧ x.req.y = r.y % 65536 ∧ x.req.w = r.w % 128 ∧ x.req.h = r.h % 64 ∧ x.req.plane = r.plane % 4) ∧
        (¬ unknown → x.need = if op = 8 then 1 else if op ≠ 1 then 0 else if kind = 2 then r.len % 64 + 1
          else cdiv ((r.w % 128 + 1) * (r.h % 64 + 1)) 32) ∧
        (x.proto = true ↔ unknown ∨ (kind = 2 ∧ r.addr % 64 ≠ 0)) ∧
        x.cls = s.classRead x.req.flow ∧ x.epoch = s.tick.epoch ∧ (t.port p).takeAt = c + 1 ∧
        (∀ q, q ≠ p → t.port q = s.port q) ∧ t.nextId = s.nextId + 1 ∧ s.flowsKept t ∧
        t.group (p / 8) = { s.group (p / 8) with wake := true } ∧ (∀ h, h ≠ p / 8 → t.group h = s.group h) ∧
        t = { s with regs := t.regs, bitsNow := t.bitsNow, evts := t.evts, meas := t.meas, nextId := t.nextId, ports := t.ports, groups := t.groups
                     traffic := { s.traffic with live := t.traffic.live, fwait := t.traffic.fwait, flows := t.traffic.flows } } ∧
          s.regsKept t (⟨R.TR_FCACHE_MISS_COUNT, 0, 0⟩ :: violSlots p)) ∧
    (r.tag % 1024 ∈ (s.port p).tags → Runs i s fun t =>
      t.rd R.PORT_STATUS_VIOL (p / 8) (p % 8) = 1 ∧ t = { s with regs := t.regs, bitsNow := t.bitsNow, evts := t.evts, meas := t.meas } ∧ s.regsKept t (violSlots p))) ∧
  (∀ (s : State) (p c : Nat) (r : Req) (d : BitVec 512), ∃ t, exec (.create p r none c) s = .next t ∧
    exec (.create p r (some d) c) s = if (t.port p).openWrite.isSome then exec (.writeDataBeat p d 0 true c) t else .next t)

/-- A write data beat joins the port's open write, which closes with the beat that its request needs; one with no open write is a violation, and one
after a forced detach is ignored (R116, R117, R139, R144).
The master takes response beats in order: the port shows the beat with its code, marks the first and the last, and the last frees the tag
and removes the response (R119, R120). The reorder space of a read goes as its beats leave (R20). -/
def Obligations.PortBeats : Prop :=
  (∀ (s : State) (p c : Nat) (d : BitVec 512) (m : BitVec 64) (last : Bool) (l : List Xfer) (x : Xfer), s.cclk = c → (s.port p).takeAt ≤ c →
      s.gclkRuns p = true →
      ((s.port p).forced = true → exec (.writeDataBeat p d m last c) s = .next s) ∧
      ((s.port p).forced = false → (s.port p).openWrite = none → Runs (.writeDataBeat p d m last c) s fun t =>
        t.rd R.PORT_STATUS_VIOL (p / 8) (p % 8) = 1 ∧ t = { s with regs := t.regs, bitsNow := t.bitsNow, evts := t.evts, meas := t.meas } ∧
          s.regsKept t (violSlots p)) ∧
      ((s.port p).forced = false → (s.port p).discard = none → (s.port p).queue = l ++ [x] → x.closed = false →
        (last = true ↔ x.beats.length + 1 = x.need) →
        Runs (.writeDataBeat p d m last c) s fun t =>
          t.port p = { s.port p with queue := l ++ [{ x with beats := x.beats ++ [{ data := d, mask := m }], closed := last }], takeAt := c + 1 } ∧
          (∀ q, q ≠ p → t.port q = s.port q) ∧ t.group (p / 8) = { s.group (p / 8) with wake := true } ∧ (∀ h, h ≠ p / 8 → t.group h = s.group h) ∧
          t = { s with meas := t.meas, ports := t.ports, groups := t.groups })) ∧
  (∀ (s : State) (p c : Nat) (r : Resp) (l : List Resp) (b : RBeat), s.cclk = c → (s.port p).rsps = r :: l → r.readyAt ≤ c →
      r.beats[r.sent]? = some b → (s.port p).detaching = false →
      Runs (.responseBeat p c) s fun t =>
        (t.port p).out = { tag := r.tag, code := r.code, data := b.data, first := r.sent == 0, last := r.sent + 1 == r.beats.length
                           poison := b.poison } ∧
        (r.sent + 1 = r.beats.length → (t.port p).rsps = l ∧ r.tag ∉ (t.port p).tags ∧
          ∀ n, n ≠ r.tag → (n ∈ (t.port p).tags ↔ n ∈ (s.port p).tags)) ∧
        (r.sent + 1 ≠ r.beats.length → (t.port p).rsps = { r with sent := r.sent + 1 } :: l ∧ (t.port p).tags = (s.port p).tags) ∧
        (t.port p).rrb = (s.port p).rrb - (if r.sent + 1 = r.beats.length then r.heldFor 0 else r.heldFor 0 - r.heldFor 1) ∧
        (t.port p).queue = (s.port p).queue ∧ (t.port p).attached = (s.port p).attached ∧ (∀ q, q ≠ p → t.port q = s.port q) ∧
        t = { s with regs := t.regs, meas := t.meas, ports := t.ports } ∧ s.regsKept t [⟨R.CTR_LOSS_LOST, 0, 0⟩, ⟨R.CTR_CONS_CONS, 0, 0⟩])

/-- Attach and detach. A rise of sp_attach_i is noted, and a present port that may attach does so with every tag free. A fall begins the detach,
which ends once nothing of the port is outstanding: the port is then detached, PORT_DETACH is raised, and its holds are to be dropped unless KEEP_HOLDS
keeps them (R137, R138, R192). A request valid at a
detached port is a violation, unless a forced detach left it so: it is counted and raises PORT_VIOL, and the first is captured with its code;
nothing is taken (R139, R144, R145). -/
def Obligations.AttachDetach : Prop :=
  (∀ (s : State) (p : Nat), s.power.st = 0 → s.gclkRuns p = true → s.detachOver p = true →
      ((s.port p).pin = false → s.presence p = true → (s.port p).attached = false → (s.port p).sawLow = true →
        exec (.attachRequest p) s = .next (s.setPort p { s.port p with pin := true })) ∧
      ((s.port p).pin = true → s.presence p = true → (s.port p).attached = false → (s.port p).sawLow = true →
        Runs (.portAttach p) s fun t =>
          (t.port p).attached = true ∧ (t.port p).tags = [] ∧ (t.port p).queue = [] ∧ (t.port p).rsps = [] ∧
          t.rd R.PORT_STATUS_ATTACH_EVT (p / 8) (p % 8) = 1 ∧ bit (t.evt (1 + p / 16)).pending (p % 16) = true ∧
          (∀ q, q ≠ p → t.port q = s.port q) ∧ t = { s with ports := t.ports, regs := t.regs, bitsNow := t.bitsNow, evts := t.evts } ∧
            s.regsKept t [⟨R.PORT_STATUS_ATTACH_EVT, p / 8, p % 8⟩]) ∧
      ((s.port p).pin = true → (s.port p).attached = true → (s.port p).openWrite = none → (s.sm.waits.any fun w => w.port == p) = false →
        ((s.port p).queue ≠ [] ∨ (s.port p).rsps ≠ [] →
          exec (.detachRequest p) s = .next (s.setPort p { s.port p with pin := false, sawLow := true, detaching := true })) ∧
        ((s.port p).queue = [] → (s.port p).rsps = [] → Runs (.detachRequest p) s fun t =>
          t.port p = { s.port p with pin := false, sawLow := true, attached := false, detaching := false, gen := (s.port p).gen + 1 } ∧
          t.rd R.PORT_STATUS_DETACH_EVT (p / 8) (p % 8) = 1 ∧ bit (t.evt (1 + p / 16)).pending (p % 16) = true ∧
          t.sm.inbox = (if s.rd R.PORT_CTL_KEEP_HOLDS (p / 8) (p % 8) = 1 then s.sm.inbox
            else s.sm.inbox ++ [{ at_ := s.cclk, slice := p / 8, act := .release p }]) ∧
          t = { s with ports := t.ports, regs := t.regs, bitsNow := t.bitsNow, evts := t.evts, sm := { s.sm with inbox := t.sm.inbox } } ∧
            s.regsKept t [⟨R.PORT_STATUS_DETACH_EVT, p / 8, p % 8⟩]))) ∧
  (∀ (s : State) (p : Nat), (s.port p).forced = true → exec (.reqDetached p) s = .next s) ∧
  (∀ (s : State) (p : Nat), (s.port p).attached = false → (s.port p).forced = false → s.gclkRuns p = true → Runs (.reqDetached p) s fun t =>
      t.rd R.PORT_STATUS_VIOL (p / 8) (p % 8) = 1 ∧ bit (t.evt (1 + p / 16)).pending (p % 16) = true ∧
      t.rd R.PORT_VIOL_CNT_COUNT (p / 8) (p % 8) = satAdd R.PORT_VIOL_CNT_COUNT.width (s.rd R.PORT_VIOL_CNT_COUNT (p / 8) (p % 8)) 1 ∧
      (s.rd R.PORT_VIOL_FIRST_VALID (p / 8) (p % 8) ≠ 1 →
        t.rd R.PORT_VIOL_FIRST_VALID (p / 8) (p % 8) = 1 ∧ t.rd R.PORT_VIOL_FIRST_CODE (p / 8) (p % 8) = 10) ∧
      (s.rd R.PORT_VIOL_FIRST_VALID (p / 8) (p % 8) = 1 →
        t.rd R.PORT_VIOL_FIRST_CODE (p / 8) (p % 8) = s.rd R.PORT_VIOL_FIRST_CODE (p / 8) (p % 8)) ∧
      t = { s with regs := t.regs, bitsNow := t.bitsNow, evts := t.evts, meas := t.meas } ∧ s.regsKept t (violSlots p))

/-- FORCE_DETACH detaches at once: what has not crossed is discarded, no response waits and its reorder space is free, no CREATE of the port waits, its
holds are to be dropped unless KEEP_HOLDS keeps them, and the cause is recorded; the pin's low is remembered if it is low. Its tags stay outstanding
until it attaches again (R119, R137). No other port changes, unless the port held the grant of a frozen link. On a detached
port it changes nothing of the port (R139, R140, R162). -/
def Obligations.ForcedDetach : Prop :=
  ∀ (s : State) (p : Nat) (w : Word) (tgt : Nat), s.portOpen → p < 8 * s.G → bit w.toNat 1 = false → bit w.toNat 2 = false →
    Runs (.portForceDetach p w tgt) s fun t =>
      (t.port p).attached = false ∧
      (s.frozen (p / 8) = false ∨ (s.group (p / 8)).owner ≠ some (p % 8) → ∀ q, q ≠ p → t.port q = s.port q) ∧
      ((s.port p).attached = true →
        (t.port p).queue = [] ∧ (t.port p).rsps = [] ∧ (t.port p).tags = (s.port p).tags ∧ (t.port p).discard = none ∧
        (t.port p).rrb = (s.port p).rrb - ((s.port p).rsps.map (·.heldFor 0)).sum ∧
        t.sm.inbox = (if t.rd R.PORT_CTL_KEEP_HOLDS (p / 8) (p % 8) = 1 then s.sm.inbox
          else s.sm.inbox ++ [{ at_ := s.cclk, slice := p / 8, act := .release p }]) ∧
        (t.port p).gen = (s.port p).gen + 1 ∧ (t.port p).sawLow = !(s.port p).pin ∧ (∀ x ∈ t.sm.waits, x.port ≠ p) ∧
        (t.group (p / 8)).owner ≠ some (p % 8) ∧ t.rd R.PORT_STATUS_FORCE_CAUSE (p / 8) (p % 8) = 1 ∧
        t.rd R.PORT_STATUS_FORCED (p / 8) (p % 8) = 1) ∧
      ((s.port p).attached = false → t = { s with regs := t.regs, bitsNow := t.bitsNow, evts := t.evts, meas := t.meas } ∧
        s.regsKept t (⟨R.PORT_CTL_KEEP_HOLDS, p / 8, p % 8⟩ :: busySlots))

/-- The waiting CREATEs. CANCEL_WAIT answers every one of the port ABORTED; one that reaches the limit is answered NO_SPACE and counted; the head of a
pool's queue that is tried again, as one of the causes of R191 asks for, while the allocator is free and nothing stands before it, and finds its space
is answered OK with its handle; without such a cause, or in a cycle in which the allocator has handled another, there is no try (R122, R190, R191). -/
def Obligations.CreateWaits : Prop :=
  ∀ (s : State) (p : Nat),
    (∀ (w : Word) (tgt : Nat), s.portOpen → p < 8 * s.G → bit w.toNat 0 = false → bit w.toNat 2 = false → (s.port p).detaching = false →
      (s.sm.waits.map (·.wid)).Nodup → Runs (.cancelWait p w tgt) s fun t =>
        t.sm.waits = s.sm.waits.filter (fun x => x.port != p) ∧
        (t.port p).rsps.map (fun r => (r.tag, r.code)) = (s.port p).rsps.map (fun r => (r.tag, r.code)) ++
          (s.sm.waits.filter fun x => x.port == p).map (fun x => (x.xf.req.tag, 0xB)) ∧
        (∀ q, q ≠ p → t.port q = s.port q)) ∧
    (∀ (tag : Nat) (x : CreateWait), (s.sm.waits.find? fun w => w.port == p && w.xf.req.tag == tag) = some x →
      Runs (.spaceWaitTimeout p tag) s fun t =>
        t.sm.waits = s.sm.waits.filter (fun w => w.wid != x.wid) ∧
        (t.port p).rsps.map (fun r => (r.tag, r.code)) = (s.port p).rsps.map (fun r => (r.tag, r.code)) ++ [(tag, 6)] ∧
        t.rd R.SM_POOL_NOSPACE_CNT_COUNT x.pool = satAdd R.SM_POOL_NOSPACE_CNT_COUNT.width (s.rd R.SM_POOL_NOSPACE_CNT_COUNT x.pool) 1) ∧
    (∀ (pool h : Nat) (x : CreateWait) (u : State), s.sm.due.contains pool = true → (s.sm.waits.find? fun w => w.pool == pool) = some x →
      s.sm.allocTo ≤ s.cclk → s.sm.inbox = [] →
      ({ s with sm := { s.sm with due := s.sm.due.filter fun n => n != pool } } : State).takeAlloc.tryCreate x.xf.desc x.port = some (h, u) →
      Runs (.createRetry pool) s fun t =>
        t.sm.surfs = u.sm.surfs ∧ t.sm.waits = u.sm.waits.filter (fun w => w.wid != x.wid) ∧
        (t.port x.port).rsps.map (fun r => (r.tag, r.code, r.beats)) =
          (u.port x.port).rsps.map (fun r => (r.tag, r.code, r.beats)) ++ [(x.xf.req.tag, 0, oneBeat h)]) ∧
    (∀ pool, (s.sm.due.contains pool = false ∨ s.cclk < s.sm.allocTo) → exec (.createRetry pool) s = .next s)

/-! ### Links -/

/-- A free link that is not frozen grants in its same-cycle style the port that ranks first: a port of highest credit among those that request, unless
a port of class 0 that may revoke stands before it. The grant moves no beat and changes no credit. In the overlapped style a candidate whose
LREQ has gone leaves the link idle for two cycles (R148, R151, R154). -/
def Obligations.LinkGrant : Prop :=
  ∀ (s : State) (g i : Nat), (s.group g).owner = none → s.frozen g = false →
    (s.rd R.GRP_CTL_STYLE g = 0 → (s.group g).freeAt ≤ s.cclk → s.nextOwner g (fun _ => true) = some i → Runs (.linkGrant g) s fun t =>
      t.group g = { s.group g with owner := some i, grantAt := s.cclk, stuck := 0 } ∧ i < 8 ∧
      (s.port (8 * g + i)).queue ≠ [] ∧
      (s.first0 (8 * g + i) = false → ∀ j, j < 8 → (s.port (8 * g + j)).queue ≠ [] →
        s.first0 (8 * g + j) = false ∧ min (Tab.get 0 (s.group g).credit j) 200000 ≤ min (Tab.get 0 (s.group g).credit i) 200000) ∧
      (∀ h, h ≠ g → t.group h = s.group h) ∧ t = { s with groups := t.groups, meas := t.meas }) ∧
    (∀ j, s.decide_ g = some (some j) → Runs (.linkGrant g) s fun t =>
      t.group g = { s.group g with owner := some j, grantAt := s.cclk, stuck := 0 } ∧ (∀ h, h ≠ g → t.group h = s.group h) ∧
      t = { s with groups := t.groups, meas := t.meas }) ∧
    (s.decide_ g = some none → exec (.linkGrant g) s = .next (s.setGroup g { s.group g with freeAt := s.cclk + 2 })) ∧
    (s.decide_ g = none → exec (.linkGrant g) s = .next s)

/-- A beat of the owner crosses: its credit falls by 1, not below -65,536, and one more beat of its oldest transfer has crossed; it is the only one in
its cycle, and waits while the slice's intake is full. Here the transfer does not end with it, so the grant stays (R149, R152). CREDIT_REFILL
at the end of the window adds WEIGHT times 16 to every credit counter of the group, at most WEIGHT times 32; a beat of the same cycle is charged
after it (R152, R153). -/
def Obligations.LinkCredit : Prop :=
  (∀ (s : State) (g i c : Nat) (x : Xfer) (l : List Xfer), s.cclk = c → i < 8 → (s.group g).owner = some i →
      (s.port (8 * g + i)).queue = x :: l → x.crossed < 1 + x.beats.length →
      ((c < (s.group g).beatAt ∨ c < (s.group g).grantAt ∨ s.intakeFull (8 * g + i) = true) → exec (.linkBeat g c) s = .next s) ∧
      ((s.group g).beatAt ≤ c → (s.group g).grantAt ≤ c → s.intakeFull (8 * g + i) = false → (x.closed = false ∨ x.crossed + 1 < 1 + x.beats.length) →
        s.rd R.CTR_CTL_EN = 0 →
        Runs (.linkBeat g c) s fun t =>
          t.port (8 * g + i) = { s.port (8 * g + i) with queue := { x with crossed := x.crossed + 1 } :: l } ∧
          t.group g = { s.group g with
            credit := Tab.insert i (max (Tab.get 0 (s.group g).credit i - 1) (-65536)) (s.group g).credit
            beatAt := c + 1, beatOf := some (i, Tab.get 0 (s.group g).credit i), stuck := 0 } ∧
          (∀ h, h ≠ g → t.group h = s.group h) ∧ (∀ q, q ≠ 8 * g + i → t.port q = s.port q) ∧
          t = { s with groups := t.groups, ports := t.ports, meas := t.meas })) ∧
  (∀ (s : State) (g : Nat), s.conf.isSome = true → s.cclkRuns = true → g < s.G →
      let due := (s.group g).refillAt + s.rd R.GRP_REFILL_REFILL g
      (s.cclk < due → exec (.creditRefill g) s = .next s) ∧
      (due ≤ s.cclk → Runs (.creditRefill g) s fun t =>
        (∀ i, i < 8 → ¬ ((s.group g).beatAt = s.cclk + 1 ∧ ∃ was, (s.group g).beatOf = some (i, was)) →
          Tab.get 0 (t.group g).credit i = min (Tab.get 0 (s.group g).credit i + 16 * (s.weight g i : Int)) (32 * (s.weight g i : Int))) ∧
        (∀ i was, i < 8 → (s.group g).beatAt = s.cclk + 1 → (s.group g).beatOf = some (i, was) →
          Tab.get 0 (t.group g).credit i = max (min (was + 16 * (s.weight g i : Int)) (32 * (s.weight g i : Int)) - 1) (-65536)) ∧
        (t.group g).creditOld = (s.group g).credit ∧ (t.group g).owner = (s.group g).owner ∧ (t.group g).refillAt = due ∧ (∀ h, h ≠ g → t.group h = s.group h) ∧
        t = { s with groups := t.groups }))

/-- A link loses its grant. A revoke hands it to the port that may revoke; Squall's revoke takes it from each selected link; the watchdog's first
bite, once its count has reached the limit, takes it too, records the port and its epoch, and its second detaches the port by force. What the port
held that had not wholly crossed is answered RESTART (R133, R155, R158 to R161, R467). -/
def Obligations.LinkTaken : Prop :=
  ∀ (s : State) (g i : Nat) (x : Xfer), i < 8 → (s.group g).owner = some i → s.frozen g = false →
    (s.port (8 * g + i)).queue = [x] → x.closed = true → (s.port (8 * g + i)).attached = true →
    let taken (t : State) : Prop := (t.port (8 * g + i)).queue = [] ∧
      (t.port (8 * g + i)).rsps.map (fun r => (r.tag, r.code)) = (s.port (8 * g + i)).rsps.map (fun r => (r.tag, r.code)) ++ [(x.req.tag, 10)]
    (∀ j, s.arbClass (8 * g + i) ≠ some 0 → s.nextOwner g (s.revokers g i) = some j → Runs (.linkRevoke g) s fun t =>
      taken t ∧ (t.group g).owner = some j ∧ (t.group g).grantAt = s.cclk + 1 ∧ (t.group g).lastOwner = i ∧ t.rd R.GRP_STATUS_LINK_REVOKE g = 1 ∧
      t.rd R.GRP_REVOKE_CNT_COUNT g = satAdd R.GRP_REVOKE_CNT_COUNT.width (s.rd R.GRP_REVOKE_CNT_COUNT g) 1) ∧
    (s.squall.unlocked = true → s.rd R.SQ_REVOKE_PERIOD ≠ 0 → bit (s.rd R.SQ_REVOKE_GROUPS) g = true → g < s.G →
      (∀ h, h ≠ g → (s.group h).owner = none) → s.nextOwner g (s.revokers g i) = none → Runs .squallRevoke s fun t =>
        taken t ∧ (t.group g).owner = none ∧ t.rd R.GRP_STATUS_LINK_REVOKE g = 1) ∧
    ((s.group g).stuck < s.rd R.GRP_WATCHDOG_LIMIT g * 256 → exec (.linkBite g) s = .next s) ∧
    (s.rd R.GRP_WATCHDOG_LIMIT g * 256 ≤ (s.group g).stuck → s.nextOwner g (s.revokers g i) = none →
      Runs (.linkBite g) s fun t =>
      t.rd R.GRP_STATUS_LINK_BITE g = 1 ∧ (t.group g).owner = none ∧
      t.rd R.GRP_BITE_CNT_COUNT g = satAdd R.GRP_BITE_CNT_COUNT.width (s.rd R.GRP_BITE_CNT_COUNT g) 1 ∧
      (bit (s.rd R.GRP_BITE_VALID_VALID g) i = false → taken t ∧ bit (t.rd R.GRP_BITE_VALID_VALID g) i = true ∧
        t.rd R.GRP_BITE_EPOCH_EPOCH g i = s.tick.epoch % 2 ^ 32) ∧
      (bit (s.rd R.GRP_BITE_VALID_VALID g) i = true → (t.port (8 * g + i)).attached = false ∧
        t.rd R.PORT_STATUS_FORCE_CAUSE g i = 2))

/-- FREEZE stops a link: with no grant out, every port's transfers are answered RESTART at once; an owner keeps its grant until its transfers have
crossed. Once the frozen group is empty LINK_DRAINED is raised, once; clearing FREEZE ends the condition (R162, R164). -/
def Obligations.LinkFreeze : Prop :=
  ∀ (s : State) (g : Nat) (w : Word) (tgt : Nat), g < s.G →
    (s.portOpen → s.frozen g = false → (∀ i, (s.group g).owner = some i → s.lreq (8 * g + i) = true) → Runs (.linkFreeze g w tgt) s fun t =>
      t.frozen g = true ∧ t.groups = s.groups ∧ (∀ h, h < 8 → h ≠ g → t.frozen h = s.frozen h) ∧
      (((s.group g).owner = none → ∀ i, i < 8 → (t.port (8 * g + i)).queue = []) ∧
        ((s.group g).owner ≠ none → t.ports = s.ports))) ∧
    (s.portOpen → s.frozen g = true → (s.group g).frozenImg = false → Runs (.linkUnfreeze g w tgt) s fun t =>
      t.frozen g = false ∧ (t.group g).drained = false ∧ (∀ h, h ≠ g → t.group h = s.group h) ∧
      t = { s with regs := t.regs, bitsNow := t.bitsNow, now := t.now, groups := t.groups, evts := t.evts, meas := t.meas } ∧
        s.regsKept t ([⟨R.GRP_CTL_FREEZE, g, 0⟩, ⟨R.GRP_CTL_STYLE, g, 0⟩] ++ busySlots)) ∧
    (s.frozen g = true → (s.group g).drained = false → s.groupEmpty g = true → Runs (.linkDrained g) s fun t =>
      t.group g = { s.group g with drained := true } ∧ t.rd R.GRP_STATUS_LINK_DRAINED g = 1 ∧ bit (t.evt 5).pending g = true ∧
      t = { s with groups := t.groups, regs := t.regs, bitsNow := t.bitsNow, evts := t.evts } ∧ s.regsKept t [⟨R.GRP_STATUS_LINK_DRAINED, g, 0⟩])


/-! ### Halo and Cirrus -/

/-- The last unit that a READ waits for arrives: the request is answered at its port with the result code of its parts and its data, and is over
(R120, R128, R129, R245). -/
def Obligations.ReadAnswered : Prop :=
  ∀ (s : State) (g k : Nat) (a : Arrival) (w : Wait), s.waits = [w] → s.hdrWait = [] → (∀ h, queueOf s.enc h = []) →
    (queueOf s.arr g)[k]? = some a → a.sub.kind = .stream → a.sub.wait = some w.id → w.port / 8 = g → w.issued = true →
    w.need = [(a.sub.tag, a.sub.unit)] → w.parts = 0 → w.later = [] → w.xf.op = 0 → (s.port w.port).gen = w.pgen →
    let v : Wait := { w with need := [], code := worse w.code (unitCode a.st a.corr)
                             got := w.got ++ [{ s.gotOf a.sub.tag a.sub.unit (s.stored a) with data := a.data, corr := a.corr }] }
    Runs (.fillUnitArrive g k) s fun t =>
      t.waits = [] ∧ queueOf t.arr g = dropAt (queueOf s.arr g) k ∧
      (t.port w.port).rsps.map (fun r => (r.tag, r.code, r.beats)) =
        (s.port w.port).rsps.map (fun r => (r.tag, r.code, r.beats)) ++ [(w.xf.req.tag, v.code, s.readBeats v)] ∧
      (∀ p, p ≠ w.port → t.port p = s.port p)

/-- The units of lines. A fetched unit that arrives takes its place, and the fill ends with the last of them: OWN is then set if no other slice holds
the line (R245, R256). The eviction buffer hands over its next DIRTY unit, which is clean from now on (R258). A range invalidate of every
line empties the slice's lines; it ends when what it asked for is done, which raises INV_DONE (R270, R276). -/
def Obligations.HaloUnits : Prop :=
  ∀ (s : State) (g : Nat),
    (∀ (k e : Nat) (a : Arrival), s.quiet → (∀ h f, (s.line h f).gone = false) → (queueOf s.arr g)[k]? = some a → a.sub.kind = .fill →
      s.findLine g a.sub.tag = some e → ((s.line g e).unit a.sub.unit).st = 0 → a.sub.copy ∈ ((s.line g e).unit a.sub.unit).fetch →
      ((s.line g e).unit a.sub.unit).merge = [] → (s.line g e).inval = false → (s.line g e).sharing = false →
      Runs (.fillUnitArrive g k) s fun t =>
        queueOf t.arr g = dropAt (queueOf s.arr g) k ∧ (t.line g e).unit a.sub.unit = s.stored a ∧
        (∀ n, n ≠ a.sub.unit → (t.line g e).unit n = (s.line g e).unit n) ∧
        (∀ h f, f < 76 → ¬ (h = g ∧ f = e) → t.line h f = s.line h f) ∧
        (t.line g e).filling = ((s.line g e).filling && (t.line g e).units.any fun u => u.2.st == 0 && !u.2.fetch.isEmpty) ∧
        (t.line g e).own = ((s.line g e).own || ((s.line g e).sole && (s.line g e).filling && !(t.line g e).filling)) ∧
        t = { s with arr := t.arr, lines := t.lines, useCtr := t.useCtr, meas := t.meas }) ∧
    (∀ (e n : Nat), s.quiet → (∀ h f, (s.line h f).gone = false) → e ∈ [72, 73, 74, 75] → (s.line g e).valid = true → (s.line g e).evb ≠ 0 →
      (∀ f ∈ [72, 73, 74, 75], f ≠ e → (s.line g f).valid = false) → (s.line g e).tag.lin = true →
      (s.line g e).units.find? (fun u => u.2.dirty) = some (n, (s.line g e).unit n) → ((s.line g e).unit n).errs = [] →
      Runs (.evictWritebackUnit g) s fun t =>
        (∃ v, t.subs = s.subs ++ [v] ∧ v.kind = .wb ∧ v.write = true ∧ v.tag = (s.line g e).tag ∧ v.unit = n ∧ v.atoms = 1 ∧ v.addr = 0 ∧
          v.cells = (List.range 32).map fun k => (k, BitVec.ofNat 8 (((s.line g e).unit n).data.getD k 0))) ∧
        (t.line g e).unit n = { (s.line g e).unit n with dirty := false } ∧
        (∀ m, m ≠ n → (t.line g e).unit m = (s.line g e).unit m) ∧
        t = { s with subs := t.subs, nextId := s.nextId + 1, lines := t.lines, meas := t.meas }) ∧
    (∀ (w : Word) (tgt : Nat), s.quiet → s.portOpen → g < s.G → (s.group g).invBusy = false → bits w.toNat 1 2 = 2 → bits w.toNat 4 1 = 0 →
      (∀ e, e < 76 → (s.line g e).dirty = false ∧ (s.line g e).filling = false ∧ (s.line g e).locked = false) →
      (∀ e, e < 76 → (s.line g e).valid = true → s.lineSettled g (s.line g e).tag = true) → (∀ h f, (s.line h f).gone = false) →
      Runs (.haloInvalidate g w tgt) s fun t =>
        (∀ e, e < 76 → (t.line g e).valid = false) ∧ (∀ h e, h ≠ g → e < 76 → t.line h e = s.line h e) ∧
        t.group g = { s.group g with invBusy := true, invSlices := [g] } ∧
        t = { s with regs := t.regs, lines := t.lines, groups := t.groups, meas := t.meas } ∧
          s.regsKept t [⟨R.HALO_INV_CTL_KIND, g, 0⟩, ⟨R.HALO_INV_CTL_DISCARD, g, 0⟩, ⟨R.HALO_INV_CTL_BCAST, g, 0⟩]) ∧
    ((s.group g).invBusy = true → (s.group g).invSlices.all s.invSettled = true → Runs (.haloInvDone g) s fun t =>
      t.group g = { s.group g with invBusy := false, invSlices := [] } ∧ t.rd R.HALO_STATUS_INV_DONE g = 1 ∧
      bit (t.evt 5).pending (8 + g) = true ∧ t = { s with groups := t.groups, regs := t.regs, bitsNow := t.bitsNow, evts := t.evts } ∧
        s.regsKept t [⟨R.HALO_STATUS_INV_DONE, g, 0⟩])

/-- Snoop messages. The next message takes the bus: SHARE ends the other holder's OWN, CLAIM makes it drop the line, and the message remembers that
the line was found, and its place in the order of the bus (R254, R255, R257). Once every other slice has acknowledged a SHARE, and no write
whose CLAIM took the bus before it is still to take effect, the fill that waited for it asks for its units, and the line may be owned if
nobody held it and no message of it has followed (R245, R256). -/
def Obligations.SnoopMessages : Prop :=
  ∀ (s : State) (k : Nat) (n : Snoop), s.quiet → (∀ h f, (s.line h f).gone = false) → s.snoops[k]? = some n → n.g < s.G →
    let i : Instr := if n.claim then .snoopClaim else .snoopShare
    (s.nextSnoop = some k → (∀ h e, (s.line h e).tagErr = false) →
      ((∀ h, h < s.G → h ≠ n.g → s.findLine h n.tag = none) →
        exec i s = .next { s with snoops := setAt s.snoops k { n with sent := true, found := false, bus := s.busNext }, snoopLast := n.g }) ∧
      (∀ h e, h < s.G → h ≠ n.g → s.findLine h n.tag = some e → (∀ j, j < s.G → j ≠ n.g → j ≠ h → s.findLine j n.tag = none) →
        (s.line h e).empty = false → (s.line h e).dirty = false → (s.line h e).units.all (fun u => !u.2.dirty) = true →
        (s.line h e).filling = false → (s.line h e).locked = false → (s.line h e).units.all (fun u => u.2.merge.isEmpty) = true →
        (n.claim = true → e < 72) →
        Runs i s fun t =>
          t.line h e = (if n.claim then {} else { s.line h e with own := false, sole := false }) ∧
          t.snoops = setAt s.snoops k { n with sent := true, found := true, bus := s.busNext } ∧ t.snoopLast = n.g ∧
          t = { s with snoops := t.snoops, snoopLast := t.snoopLast, lines := t.lines, meas := t.meas })) ∧
    (∀ (l : List Nat) (u : SubReq) (e : Nat), n.sent = true → n.claim = false → n.more = [] → (∀ h, h < s.G → h ≠ n.g → s.acked n h = true) →
      n.act = .fill l u →
      (∀ m ∈ s.snoops, n.follows m = true → m.claim = true → m.sent = false) → u.tag.lin = true → u.kind = .fill → s.findLine n.g n.tag = some e →
      Runs (.snoopAcksDone k) s fun t =>
        t.snoops = dropAt s.snoops k ∧ (t.line n.g e).sole = (if (s.line n.g e).filling then !n.found && !((dropAt s.snoops k).any fun m => m.follows n) else (s.line n.g e).sole) ∧
        t.subs.map (fun v => (v.tag, v.unit, v.atoms)) = s.subs.map (fun v => (v.tag, v.unit, v.atoms)) ++ l.map (fun m => (u.tag, m, 1)) ∧
        t = { s with snoops := t.snoops, lines := t.lines, subs := t.subs, nextId := t.nextId })

/-- The cells of SEALED surfaces. A cell that passes its check goes on as VALID; one that fails is read again where RETRY_EN is 1, else its failure is
counted and its samples return as lost. A retry, once the class of its sub-request may pass, that finds the cell good raises TRANSIENT; one that
fails confirms the failure (R225, R226, R238). An encoded cell makes a write of its payload, charged at raw size, and a write of its header;
a lost one makes only the POISON header, charged at raw size too, and raises MERGE_POISON (R227 to R230, R234). Reads that hold the old header
are of an older version from then on (R226). -/
def Obligations.CirrusCells : Prop :=
  ∀ (s : State) (g : Nat),
    (∀ (k : Nat) (j : DecJob), (queueOf s.dec g)[k]? = some j →
      (∀ l, s.judge j = .ok l → Runs (.cellCheck g k) s fun t =>
        queueOf t.dec g = dropAt (queueOf s.dec g) k ∧ queueOf t.arr g = queueOf s.arr g ++ [{ sub := j.sub, st := 1, data := l }] ∧
        t = { s with dec := t.dec, arr := t.arr }) ∧
      (∀ c, s.judge j = .bad c → s.rd R.CIR_CTL_RETRY_EN = 1 → j.lost = false → Runs (.cellCheck g k) s fun t =>
        queueOf t.dec g = dropAt (queueOf s.dec g) k ∧ queueOf t.retry g = queueOf s.retry g ++ [j] ∧
        t = { s with dec := t.dec, retry := t.retry }) ∧
      (∀ c, s.judge j = .bad c → s.rd R.CIR_CTL_RETRY_EN ≠ 1 → s.failed.contains (j.sub.tag, j.sub.unit, j.sub.stale) = false →
        Runs (.cellCheck g k) s fun t =>
          t.rd R.CIR_FAIL_CNT_COUNT = satAdd 16 (s.rd R.CIR_FAIL_CNT_COUNT) 1 ∧
          ∃ a, queueOf t.arr g = queueOf s.arr g ++ [a] ∧ a.sub = j.sub ∧ a.st = 3)) ∧
    (∀ (k : Nat) (j : DecJob), (queueOf s.retry g)[k]? = some j → s.cellPending j.sub.tag j.sub.unit = false →
      (∀ p ∈ s.retryPlaces j.sub.tag j.sub.unit, s.engineFree p.1 j.cls 0 = true) →
      (∀ h l, s.cellReadable j.sub.tag j.sub.unit = true → s.retryGone j.sub.tag j.sub.unit = false → s.retryRead j.sub.tag j.sub.unit = (h, .ok l) →
        (hdrMode h = 2 ∨ hdrMode h = 3) → Runs (.cirRetryResult g k false) s fun t =>
          queueOf t.retry g = dropAt (queueOf s.retry g) k ∧ queueOf t.arr g = queueOf s.arr g ++ [{ sub := j.sub, st := 1, data := l }] ∧
          t.rd R.CIR_STATUS_TRANSIENT = 1 ∧ t.rd R.CIR_TRANSIENT_CNT_COUNT = satAdd 16 (s.rd R.CIR_TRANSIENT_CNT_COUNT) 1) ∧
      (s.failed.contains (j.sub.tag, j.sub.unit, j.sub.stale) = false → Runs (.cirRetryResult g k true) s fun t =>
        t.rd R.CIR_FAIL_CNT_COUNT = satAdd 16 (s.rd R.CIR_FAIL_CNT_COUNT) 1 ∧
        ∃ a, queueOf t.arr g = queueOf s.arr g ++ [a] ∧ a.sub = j.sub ∧ a.st = 3)) ∧
    (∀ j : EncJob, s.waits = [] → s.hdrWait = [] → s.enc = [(g, [j])] → (s.surf j.tag.idx).sealed = true →
      let before := s.subs.map fun v => if !v.write && v.tag == j.tag && v.unit == j.cell then { v with stale := v.stale + 1 } else v
      (j.phase = 2 → Runs (.cellEncodeDone g 0) s fun t =>
        let x := s.surf j.tag.idx
        let r := encodeCell x.d (x.replicate j.tag j.cell (overlay (if s.coversUnit j.tag j.cell j.samples then flat 0 else j.old) j.samples))
        queueOf t.enc g = [] ∧ ∃ a b, t.subs = before ++ [a, b] ∧
          a.write = true ∧ a.tag = j.tag ∧ a.unit = j.cell ∧ a.addr = 0 ∧ a.atoms = hdrGcnt r.1 ∧ a.charge = 32 * x.d ∧
          a.cells.map (·.2) = r.2 ∧ b.kind = .hdrWr ∧ b.tag = j.tag ∧ b.unit = j.cell ∧
          b.cells = (List.range 4).map fun i => (j.cell % 8 * 4 + i, BitVec.ofNat 8 (r.1 / 2 ^ (8 * i)))) ∧
      (j.phase = 3 → Runs (.cellEncodeDone g 0) s fun t =>
        queueOf t.enc g = [] ∧ t.rd R.CIR_STATUS_MERGE_POISON = 1 ∧ ∃ a b, t.subs = before ++ [a, b] ∧
          a.write = true ∧ a.atoms = 0 ∧ a.cells = [] ∧ a.charge = 32 * (s.surf j.tag.idx).d ∧ b.kind = .hdrWr ∧ b.tag = j.tag ∧
          b.unit = j.cell ∧ b.cells = (List.range 4).map fun i => (j.cell % 8 * 4 + i, BitVec.ofNat 8 (hdrPoison / 2 ^ (8 * i)))))

/-- Each REARM bit clears the VALID of its first-failure capture, so that the next failure is captured; ports, channels, surfaces and memory stay
(R145, R238, R277, R359, R383). -/
def Obligations.Rearms : Prop :=
  ∀ (s : State) (w : Word) (tgt : Nat), s.portOpen →
    let frees (i : Instr) (l : List Slot) (f : Fld) (x y : Nat) : Prop := Runs i s fun t =>
      t.rd f x y = 0 ∧ t = { s with regs := t.regs, bitsNow := t.bitsNow, now := t.now, evts := t.evts, meas := t.meas } ∧ s.regsKept t (⟨f, x, y⟩ :: l ++ busySlots)
    (∀ g, g < s.G → frees (.haloRearm g w tgt) [] R.HALO_ERR_FIRST_VALID g 0) ∧
    frees (.cirRearm w tgt) [] R.CIR_FAIL_FIRST_A_VALID 0 0 ∧
    (∀ p, p < 8 * s.G → bits w.toNat 0 2 = 0 → frees (.violRearm p w tgt) [⟨R.PORT_CTL_KEEP_HOLDS, p / 8, p % 8⟩] R.PORT_VIOL_FIRST_VALID (p / 8) (p % 8)) ∧
    (∀ ch, ch < s.C → bits w.toNat 0 3 = 0 → frees (.phyRearm ch w tgt) [] R.PHY_FAIL_VALID ch 0) ∧
    (∀ ch, ch < s.C → frees (.feRearm ch w tgt) [] R.FE_ERR_FIRST_B_VALID ch 0) ∧
    frees (.intRearm w tgt) [] R.INT_ERR_FIRST_VALID 0 0

/-! ### Flows and channels -/

/-- The traffic unit. A sub-request of a named class whose storage is ready and for which there is room enters the front end of its channel, with what
DRAM holds there, in two entries where a chunk boundary of a move divides it (R198); one whose context is missing asks for it (R20, R281, R287). A
context that arrives is in the cache; the sweep fills the buckets of the single-rate-in-two policer up to their sizes (R281, R282, R288); urgency
follows the age of the oldest pending request (R292); a capacity test ends with its outcome noted for the next tick (R302). -/
def Obligations.FlowContexts : Prop :=
  ∀ (s : State) (f c : Nat), s.cclk = c →
    (∀ (k cl : Nat) (u : SubReq), s.quiet → s.subs[k]? = some u → u.named = some cl → u.write = false → u.kind ≠ .hdrWr → u.cells = [] → u.ccells = [] → u.atoms ≠ 0 →
      ((s.subs.take k).any fun e => e.meets u) = false → s.dawning = false → s.subFree u = true → s.isTurn k = true →
      (∀ p ∈ s.subParts u, s.outOfService p.2.2.at_.ch = false ∧ ∀ e ∈ (s.chan p.2.2.at_.ch).remap, e.2.errs = []) → s.checkerMode u = 0 →
      Runs (.subrequestAssign k c) s fun t =>
        t.subs = s.subs.filter (fun v => v.id != u.id) ∧
        (∀ p ∈ s.subParts u, ∃ q ∈ (t.chan p.2.2.at_.ch).cq.drop (s.chan p.2.2.at_.ch).cq.length, q.cls = cl ∧ q.sub.id = u.id ∧
          q.sub.addr = p.2.2.at_.a ∧ q.sub.atoms = p.2.1 ∧ q.data = s.sample p.2.2.at_.ch p.2.2.at_.a (32 * p.2.1)) ∧
        (∀ d, (s.chan d).cq <+: (t.chan d).cq ∧
          (t.chan d).cq.length = (s.chan d).cq.length + ((s.subParts u).filter fun p => p.2.2.at_.ch == d).length)) ∧
    (∀ (k : Nat) (u : SubReq), s.subs[k]? = some u → s.ctxHere u = false →
      s.traffic.fwait.contains u.flow = false → Runs (.subrequestAssign k c) s fun t =>
        t.traffic = { s.traffic with fwait := s.traffic.fwait ++ [u.flow] } ∧
        t.rd R.TR_FCACHE_MISS_COUNT = satAdd R.TR_FCACHE_MISS_COUNT.width (s.rd R.TR_FCACHE_MISS_COUNT) 1 ∧ t.subs = s.subs) ∧
    (s.traffic.fwait.contains f = true → s.dawning = false → s.rsvReady (64 * f) = true → s.engineFree (s.rsvChan (64 * f)) 0 0 = true →
      Runs (.flowContextFill f 0) s fun t =>
        (f ∈ t.traffic.fcache ∨ f ∈ t.traffic.fpass) ∧ f ∉ t.traffic.fwait ∧ (s.ctxBad f = 0 → t.traffic.flows = s.traffic.flows) ∧
        (s.traffic.pins = [] → f ∈ t.traffic.fcache ∧ t.traffic.fpass = s.traffic.fpass) ∧
        (s.ctxBad f = 0 → (s.traffic.fcache.filter fun g => g != f && g % 4096 == f % 4096).length < 8 → t = { s with
          traffic := { s.traffic with fcache := f :: s.traffic.fcache.filter (fun g => g != f), fwait := s.traffic.fwait.filter fun g => g != f }
          ports := t.ports, chans := t.chans, meas := t.meas }) ∧
        ∀ p, s.port p = { t.port p with queue := (s.port p).queue } ∧ (t.port p).queue.map (·.id) = (s.port p).queue.map (·.id)) ∧
    ((Tab.get ({} : Flow) s.traffic.flows f).defined = true → (Tab.get ({} : Flow) s.traffic.flows f).policy % 4 = 1 →
      (s.traffic.fcache.contains f = true ∨
        s.dawning = false ∧ s.rsvReady (64 * f) = true ∧ s.engineFree (s.rsvChan (64 * f)) 15 0 = true ∧ s.ctxBad f = 0) →
      Runs (.flowSweep f c) s fun t =>
        let x := Tab.get ({} : Flow) s.traffic.flows f
        let y := Tab.get ({} : Flow) t.traffic.flows f
        let n := min ((s.units64 + 2 ^ 32 - x.tLast) % 2 ^ 32) (2 ^ 28)
        y.tc = min (x.tc + (n * x.cir + x.fracC) / 16) x.cbs ∧ y.tp = min (x.tp + (n * x.pir + x.fracP) / 16) x.pbs ∧
        y.tLast = s.units64 ∧ (∀ h, h ≠ f → Tab.get ({} : Flow) t.traffic.flows h = Tab.get ({} : Flow) s.traffic.flows h) ∧
        t = { s with traffic := { s.traffic with flows := t.traffic.flows }, chans := t.chans, mem := t.mem, meas := t.meas } ∧
        (s.traffic.fcache.contains f = true → t.chans = s.chans ∧ t.mem = s.mem ∧ t.meas = s.meas)) ∧
    (∀ (lat age : Nat), lat = (Tab.get ({} : Flow) s.traffic.flows f).latency → lat ≠ 0 → (s.pendOf f).2 ≠ 0 →
      age = (c + 2 ^ 32 - (s.pendOf f).1 % 2 ^ 32) % 2 ^ 32 → Runs (.urgencyUpdate f c) s fun t =>
        let u := (Tab.get ({} : Flow) t.traffic.flows f).urgency
        u ≤ 3 ∧ (u = 0 ↔ 100 * age < 50 * lat) ∧ (u ≤ 1 ↔ 100 * age < 75 * lat) ∧ (u ≤ 2 ↔ 100 * age < 90 * lat) ∧
        t = { s with traffic := { s.traffic with flows := t.traffic.flows }, chans := t.chans }) ∧
    (s.traffic.testing = true → s.conf.isSome = true → Runs .capacityTestDone s fun t =>
      t.traffic = { s.traffic with
        testing := false, testDone := true, testFails := !(s.capRun (capFlowsOf s.traffic.flows)).fails.isEmpty
        testAt := max s.cclk (s.traffic.testFrom + 1) } ∧
      t = { s with traffic := t.traffic, regs := t.regs, meas := t.meas } ∧ s.regsKept t (capSlots s.C))

/-- A channel's front end and controller. The entry chosen by R296 passes to the controller with its place in the DRAM (R296, R310, R315). A command
issued takes effect: ACT opens its row and starts tRCD, tRAS and tRC; REFab lowers the rank's debt by 1 and holds the rank for tRFCab
(R324, R326). Refresh debt accrues by 1; an idle rank enters power-down (R326, R333). The oldest read returns its bytes to its slice (R130). -/
def Obligations.ChannelCommands : Prop :=
  ∀ (s : State) (ch c ck : Nat) (mr : MrrData), s.cclk = c →
    (∀ (p : Piece) (x : Chan) (n : Nat), s.mayPass ch = true → s.pick ch = some (p, x, n) → p.q.sub.guarded = false → Runs (.entryPass ch c) s fun t =>
      ∃ e, (t.chan ch).ctl = (s.chan ch).ctl ++ [e] ∧ e.seq = p.q.seq ∧ e.write = p.q.sub.write ∧ e.cols.length = p.n ∧
        (let l := mapAddr (s.densityOf ch) (p.q.sub.addr + 32 * p.off) p.q.sub.bsw
         e.rank = l.rank ∧ e.bank = l.bank ∧ e.row = l.row) ∧
        (∀ d, d ≠ ch → t.chan d = s.chan d)) ∧
    (∀ d : DCmd,
      let v := (s.countChclk ch ck).accountSlots ch ck
      let w := v.setChan ch (v.chan ch)
      v.direction ch = ((s.chan ch).dir, (s.chan ch).drain, false) → w.maintStart ch = none → (∀ e ∈ (s.chan ch).ctl, e.cols ≠ []) →
      w.choose ch ck (w.chan ch) (s.chan ch).dir = some d → Runs (.dramCommandIssue ch ck mr) s fun t =>
        ck < (t.chan ch).cmdAt ∧ (∀ e, e ≠ ch → t.chan e = s.chan e) ∧
        (∀ r b row seq, d = .act r b row seq → b < 16 → ((t.chan ch).bankAt r b).row = some row ∧
          ((t.chan ch).bankAt r b).colOk = ck + s.tp ch 0x01 ∧ ck + s.tp ch 0x04 ≤ ((t.chan ch).bankAt r b).preOk ∧
          ck + s.tp ch 0x05 ≤ ((t.chan ch).bankAt r b).actOk) ∧
        (∀ r, d = .refAb r → ((t.chan ch).rankAt r).debt = ((s.chan ch).rankAt r).debt - 1 ∧
          ((t.chan ch).rankAt r).ready = ck + s.tp ch 0x12 ∧
          t.rd R.CH_REF_CNT_COUNT ch = satAdd R.CH_REF_CNT_COUNT.width (s.rd R.CH_REF_CNT_COUNT ch) 1)) ∧
    (∀ (q : QEnt) (l : List QEnt), s.quiet → (s.chan ch).done = q :: l → s.returnTurn q.sub.g = some ch → q.lost = false → q.sub.half = 0 →
      q.sub.tag.lin = true → q.sub.guarded = false → q.sub.kind = .fill → q.sub.atoms = 1 → q.data.length = 32 → (q.data.all (·.isSome)) = true →
      q.cdata = [] → q.bad = [] → q.cbad = [] → s.option ch 0 = false → Runs (.readDataReturn ch []) s fun t =>
        (t.chan ch).done = l ∧ (t.group q.sub.g).lastRet = ch ∧
        ∃ a, queueOf t.arr q.sub.g = queueOf s.arr q.sub.g ++ [a] ∧ a.st = 1 ∧ a.sub.unit = q.sub.unit ∧ a.sub.tag = q.sub.tag ∧
          a.data = q.data.map (fun b => (b.getD 0).toNat)) ∧
    (∀ r, s.inService ch = true → (s.chan ch).pwr < 2 → r < s.ranksOf ch → Runs (.refreshAccrual ch r ck) s fun t =>
      t.chan ch = (s.chan ch).setRank r { (s.chan ch).rankAt r with debt := ((s.chan ch).rankAt r).debt + 1 } ∧
      (∀ d, d ≠ ch → t.chan d = s.chan d) ∧
      (t.refForced ch r = true → s.refForced ch r = false → t.rd R.CH_STATUS_DEBT_MAX ch = 1 ∧
        bit (t.evt (9 + ch / 16)).pending (ch % 16) = true) ∧
      t = { s with chans := t.chans, regs := t.regs, bitsNow := t.bitsNow, evts := t.evts } ∧ s.regsKept t [⟨R.CH_STATUS_DEBT_MAX, ch, 0⟩]) ∧
    (∀ r, s.pdWaits ch ck (s.chan ch) r = true → (s.chan ch).openBanks r = [] → ((s.chan ch).rankAt r).ready ≤ ck → (s.chan ch).cmdAt ≤ ck →
      Runs (.powerDownEntry ch r ck) s fun t =>
        t.chan ch = { (s.chan ch).setRank r { (s.chan ch).rankAt r with pd := true, pdAt := ck } with cmdAt := ck + 1 } ∧
        (∀ d, d ≠ ch → t.chan d = s.chan d) ∧ t = { s with chans := t.chans, regs := t.regs, meas := t.meas } ∧
          s.regsKept t [⟨R.CH_PD_CNT_COUNT, ch, 0⟩])

/-- What falls due on a channel in service: an MR4 read, the oscillator run of each rank, ZQ calibration, the periodic long training; TEMP_ALERT makes
an MR4 read of every rank due (R331, R352, R355, R401). An eye sweep records its two sides, and a maintenance operation that ends is counted
and no longer in progress; one that has waited too long raises MAINT_STARVED (R353 to R357). -/
def Obligations.Maintenance : Prop :=
  ∀ (s : State) (ch r : Nat),
    (s.inService ch = true → r < s.ranksOf ch →
      ((s.chan ch).pwr < 2 → exec (.mr4ReadDue ch r) s = .next (s.setChan ch ((s.chan ch).setRank r
        { (s.chan ch).rankAt r with mr4 := min 2 (((s.chan ch).rankAt r).mr4 + 1) }))) ∧
      ((s.chan ch).pwr < 2 → Runs (.oscDue ch) s fun t =>
        (∀ q, q < s.ranksOf ch → ((t.chan ch).rankAt q).osc = min 2 (((s.chan ch).rankAt q).osc + 1)) ∧
        (∀ d, d ≠ ch → t.chan d = s.chan d) ∧ t = { s with chans := t.chans }) ∧
      exec (.zqDue ch r) s = .next (s.setChan ch ((s.chan ch).setRank r { (s.chan ch).rankAt r with zq := true })) ∧
      (s.rd R.PHY_MAINT_LONG_PERIOD ch ≠ 0 →
        exec (.longTrainingDue ch r) s = .next (s.setChan ch ((s.chan ch).setRank r { (s.chan ch).rankAt r with long := true }))) ∧
      (∀ b left right, b < 18 → Runs (.eyeSweepDone ch r b left right) s fun t =>
        t.rd R.PHY_EYE_LEFT ch (r * 32 + b) = min left 32 ∧ t.rd R.PHY_EYE_RIGHT ch (r * 32 + b) = min right 32 ∧
        ((t.chan ch).rankAt r).swept = 10 ∧ ((t.chan ch).rankAt r).rdOsc = 0 ∧
        (s.rd R.PHY_DRIFT_CFG_EYE_THRESH ch ≤ ((((min right 32 : Nat) : Int) - (min left 32 : Nat)).tdiv 2).natAbs →
          Tab.get 0 ((t.chan ch).rankAt r).rdPend b = (((min right 32 : Nat) : Int) - (min left 32 : Nat)).tdiv 2) ∧
        (∀ d, d ≠ ch → t.chan d = s.chan d) ∧ t = { s with regs := t.regs, bitsNow := t.bitsNow, chans := t.chans, evts := t.evts, meas := t.meas } ∧
          s.regsKept t [⟨R.PHY_EYE_LEFT, ch, (r * 32 + b)⟩, ⟨R.PHY_EYE_RIGHT, ch, (r * 32 + b)⟩, ⟨R.PHY_STATUS_EYE_LOW, ch, 0⟩, ⟨R.PHY_STATUS_DRIFT_HIGH, ch, 0⟩])) ∧
    (∀ k (l : LongRes), (s.chan ch).maint = some (k, r) → (k = 2 ∨ (s.chan ch).openBanks r = [] ∧ (k = 3 → (s.chan ch).mStep = 2)) → Runs (.maintenanceDone ch l) s fun t =>
      (t.chan ch).maint = none ∧ (∀ d, d ≠ ch → t.chan d = s.chan d) ∧
      (k = 3 → ((t.chan ch).rankAt r).zq = false ∧ t.rd R.PHY_MAINT_CNT_ZQ ch = satAdd 16 (s.rd R.PHY_MAINT_CNT_ZQ ch) 1) ∧
      (k ≠ 2 → ((t.chan ch).rankAt r).idleFrom = max ((s.chan ch).rankAt r).idleFrom ((s.chan ch).mFrom + s.maintCk ch k)) ∧
      (k = 2 → ((t.chan ch).rankAt r).wrPend = 0 ∧ ((t.chan ch).rankAt r).rdOsc = 0 ∧ ((t.chan ch).rankAt r).rdPend = [] ∧
        let q := (s.chan ch).rankAt r
        t.rd R.PHY_DRIFT_APPLIED ch r = if q.wrPend = 0 ∧ q.rdOsc = 0 ∧ (∀ e ∈ q.rdPend, e.2 = 0) then s.rd R.PHY_DRIFT_APPLIED ch r
          else satAdd 16 (s.rd R.PHY_DRIFT_APPLIED ch r) 1) ∧
      (k = 1 → t.rd R.PHY_MAINT_CNT_LONG ch = satAdd 16 (s.rd R.PHY_MAINT_CNT_LONG ch) 1 ∧
        (s.longNarrow ch r l.wins = none → ((t.chan ch).rankAt r).long = false) ∧
        ((s.longNarrow ch r l.wins).isSome = true → t.rd R.PHY_STATUS_TRAIN_FAIL ch = 1 ∧
          ((t.chan ch).rankAt r).long = ((s.chan ch).rankAt r).long ∧ (t.chan ch).trained = (s.chan ch).trained))) ∧
    (s.rd R.PHY_MAINT_MAINT_WAIT_MAX ch ≠ 0 → s.maintWaits ch = true → Runs (.maintStarved ch) s fun t =>
      t.rd R.PHY_STATUS_MAINT_STARVED ch = 1 ∧ bit (t.evt (11 + ch / 16)).pending (ch % 16) = true ∧
      t = { s with regs := t.regs, bitsNow := t.bitsNow, evts := t.evts } ∧ s.regsKept t [⟨R.PHY_STATUS_MAINT_STARVED, ch, 0⟩]) ∧
    (s.power.st = 0 → s.cclkRuns = true → Runs .tempAlert s fun t =>
      t.rd R.PWR_STATUS_TEMP_ALERT = 1 ∧ bit (t.evt 7).pending 8 = true ∧
      (ch < s.C → s.inService ch = true → r < s.ranksOf ch → ((t.chan ch).rankAt r).mr4 = 2) ∧
      t = { s with regs := t.regs, bitsNow := t.bitsNow, evts := t.evts, chans := t.chans } ∧ s.regsKept t [⟨R.PWR_STATUS_TEMP_ALERT, 0, 0⟩])

/-- The control of a channel. HOLD stops it, and it is quiesced once it has drained; clearing HOLD lets it go on (R334). COLD and WARM start their
sequences on a quiesced channel, COLD destroying its contents, WARM once an active channel is in self-refresh; otherwise the write is refused (R343,
R344, R347, R359). LONG asks for a long training of every rank (R355). REQ asks for self-refresh; RETIRE takes an empty quiesced channel away and
REINSTATE brings it back through a cold Dawn (R394 to R396). A step of a sequence that passes leads to the next, ENTER to service; a
training step passes where every window it found is wide enough, its delays at their centres; a failed one is repeated (R341, R342, R347). -/
def Obligations.ChannelControl : Prop :=
  ∀ (s : State) (ch : Nat) (w : Word) (tgt : Nat), s.portOpen → ch < s.C →
    Runs (.channelHold ch w tgt) s (fun t =>
      t.rd R.CH_CTL_HOLD ch = 1 ∧ (t.chan ch).quiesced = (s.chan ch).quiesced ∧ (t.chan ch).ctl = (s.chan ch).ctl ∧
      (∀ d, d ≠ ch → t.chan d = s.chan d)) ∧
    Runs (.chHoldClear ch w tgt) s (fun t =>
      t.rd R.CH_CTL_HOLD ch = 0 ∧
      ((s.chan ch).imgStop = false → (s.chan ch).pprHold = false → (s.chan ch).srReq = false → (t.chan ch).quiesced = false) ∧
      (∀ d, d ≠ ch → t.chan d = s.chan d)) ∧
    (s.drainedCh ch = true → (s.chan ch).quiesced = false → s.chPresent ch = true → Runs (.chQuiesced ch) s fun t =>
      t.chan ch = { s.chan ch with quiesced := true } ∧ bit (t.evt (9 + ch / 16)).pending (ch % 16) = true ∧
      t = { s with chans := t.chans, evts := t.evts }) ∧
    (s.phyQuiesced ch = true → s.seqRuns ch = false → (s.chan ch).retired = false → s.chPresent ch = true →
      (bits w.toNat 1 2 = 0 → Runs (.phyCold ch w tgt) s fun t =>
        (t.chan ch).seq = 1 ∧ (t.chan ch).svc = 1 ∧ (t.chan ch).step = 1 ∧ (t.chan ch).seqTgt = some tgt ∧
        ∀ k, t.memAt k = if k / 2 ^ 34 = ch then none else s.memAt k) ∧
      (bits w.toNat 0 1 = 0 → bits w.toNat 2 1 = 0 → s.retainedOk ch = true → (s.chan ch).wasCold = false →
        (s.inService ch = false ∨ 2 ≤ (s.chan ch).pwr → Runs (.phyWarm ch w tgt) s fun t =>
          (t.chan ch).seq = 2 ∧ (t.chan ch).svc = 2 ∧ (t.chan ch).step = 4 ∧ t.mem = s.mem) ∧
        (s.inService ch = true → (s.chan ch).pwr < 2 → Runs (.phyWarm ch w tgt) s fun t =>
          t.chan ch = { s.chan ch with warm := some tgt } ∧ (∀ d, d ≠ ch → t.chan d = s.chan d) ∧ t.mem = s.mem))) ∧
    (s.phyQuiesced ch = false → bits w.toNat 1 2 = 0 → Runs (.phyCold ch w tgt) s fun t =>
      t.chans = s.chans ∧ t.mem = s.mem ∧ t.rd R.GLB_STATUS_CFG_BUSY = 1) ∧
    (bits w.toNat 0 2 = 0 → Runs (.phyLong ch w tgt) s fun t =>
      (∀ r, r < s.ranksOf ch → ((t.chan ch).rankAt r).long = true) ∧ (∀ d, d ≠ ch → t.chan d = s.chan d)) ∧
    (s.inService ch = true → s.rd R.CH_PWR_REQ ch = 0 → (s.chan ch).quiesced = true → (s.chan ch).imgHold = false →
      bits w.toNat 0 2 = 1 → bits w.toNat 16 2 = 0 → Runs (.chSelfRefreshReq ch w tgt) s fun t =>
        t.rd R.CH_PWR_REQ ch = 1 ∧ (t.chan ch).pwr = (if 2 ≤ (s.chan ch).pwr then 2 else (s.chan ch).pwr) ∧ (t.chan ch).srReq = true ∧ ∀ d, d ≠ ch → t.chan d = s.chan d) ∧
    (bits w.toNat 0 2 = s.rd R.CH_PWR_REQ ch →
      (s.chPresent ch = true → (s.chan ch).retired = false → s.emptyCh ch = true → s.chQuiesced ch = true → bits w.toNat 17 1 = 0 →
        Runs (.chRetire ch w tgt) s fun t =>
          (t.chan ch).retired = true ∧ (t.chan ch).pwr = 0 ∧ t.rd R.CH_PWR_RETIRED ch = 1 ∧ bit (t.evt (15 + ch / 16)).pending (ch % 16) = true) ∧
      ((s.chan ch).retired = true → bits w.toNat 16 1 = 0 → Runs (.chReinstate ch w tgt) s fun t =>
        (t.chan ch).retired = false ∧ (t.chan ch).seq = 1 ∧ (t.chan ch).reinst = true)) ∧
    (∀ us, (s.chan ch).seq ≠ 0 → (s.chan ch).step ∉ [2, 6, 7, 8, 9, 12] → s.chanImgWaits ch = false →
      (∀ n, nextStep (seqSteps (s.chan ch).seq) (s.chan ch).step = some n → Runs (.dawnStepDone ch us .pass) s fun t =>
        t.chan ch = { (if (s.chan ch).step = 14 then (s.chan ch).clearDebt else s.chan ch) with us := (s.chan ch).us + us, step := n, tries := 0 } ∧
        (∀ d, d ≠ ch → t.chan d = s.chan d) ∧ ((s.chan ch).step ≠ 4 → t.power = s.power) ∧
        t = { s with chans := t.chans, power := { s.power with domains := t.power.domains } }) ∧
      (nextStep (seqSteps (s.chan ch).seq) (s.chan ch).step = none → Runs (.dawnStepDone ch us .pass) s fun t =>
        (t.chan ch).svc = 5 ∧ (t.chan ch).seq = 0 ∧ t.rd R.PHY_STATUS_DAWN_DONE ch = 1)) ∧
    (∀ us rank cause b, (s.chan ch).seq ≠ 0 → (s.chan ch).step ∉ [2, 6, 8, 9, 12] → s.chanImgWaits ch = false →
      (s.chan ch).tries < s.rd R.PHY_CTL_TRAIN_RETRY ch → Runs (.dawnStepDone ch us (.failed rank cause b)) s fun t =>
        t.chan ch = { s.chan ch with us := (s.chan ch).us + us, tries := (s.chan ch).tries + 1 } ∧ t = { s with chans := t.chans }) ∧
    (∀ us wins codes, (s.chan ch).seq ≠ 0 → (s.chan ch).step ∈ [6, 7, 8, 9] → s.chanImgWaits ch = false → s.ranksOf ch ≤ 2 →
      (∀ n, s.narrow ch (s.chan ch).step wins = none → nextStep (seqSteps (s.chan ch).seq) (s.chan ch).step = some n →
        Runs (.dawnStepDone ch us (.trained wins codes)) s fun t =>
          (t.chan ch).step = n ∧ (t.chan ch).tries = 0 ∧ (t.chan ch).us = (s.chan ch).us + us ∧ (∀ d, d ≠ ch → t.chan d = s.chan d) ∧
          (∀ r b, r < s.ranksOf ch → b < trainBits →
            ((s.chan ch).step = 8 → t.rd R.PHY_EYE_RD_DELAY ch (r * 32 + b) = centre (winOf 8 wins (r, b)) % 2 ^ 8) ∧
            ((s.chan ch).step = 9 → t.rd R.PHY_EYE_WR_DELAY ch (r * 32 + b) = centre (winOf 9 wins (r, b)) % 2 ^ 8)) ∧
          t = { s with chans := t.chans, regs := t.regs }) ∧
      (s.narrow ch (s.chan ch).step wins ≠ none → (s.chan ch).tries < s.rd R.PHY_CTL_TRAIN_RETRY ch →
        Runs (.dawnStepDone ch us (.trained wins codes)) s fun t =>
          t.chan ch = { s.chan ch with us := (s.chan ch).us + us, tries := (s.chan ch).tries + 1 } ∧ t = { s with chans := t.chans }))

/-! ### Surfaces and moves -/

/-- The storage of surfaces and regions. A tile that is its surface's next, or that an access waits for, is written by preparation and ready then,
of a live surface or of a freed one that a request still uses; a unit of a GUARDED region, the engine reserve among them, is written by initialisation
and ready then; an extent marked lost waits no more, and the data of a GUARDED region or surface in it read as 0 (R179, R369, R489, R490). A force free
reaches the surface manager in its cycle, which frees the surface of a live handle, its generation advanced, and answers any other handle with
BAD_HANDLE (R192 to R194); the index of a freed surface that nothing uses returns to the free list, and its extents to their pool (R177, R192). -/
def Obligations.Storage : Prop :=
  ∀ (s : State) (i k : Nat), s.power.st = 0 →
    (∀ run, run = s.waiterRun ((s.surf i).touchesTile i k) →
      ((s.surf i).live = true ∨ (s.surf i).freed = true ∧ s.subs.any ((s.surf i).touchesTile i k) = true) →
      (s.surf i).prepares = true → k < (s.surf i).tileCount → (s.surf i).tileReady k = false →
      (k = (s.surf i).prep ∨ s.subs.any ((s.surf i).touchesTile i k) = true) →
      s.routesFree (s.prepRoutes (s.surf i) { idx := i, gen := (s.surf i).gen, plane := ((s.surf i).tileAt k).1, tx := ((s.surf i).tileAt k).2.1
                                              ty := ((s.surf i).tileAt k).2.2 }) run.1 run.2 = true →
      Runs (.tilePrepWrite i k) s fun t =>
        (t.surf i).tileReady k = true ∧ (∀ j, (s.surf i).tileReady j = true → (t.surf i).tileReady j = true) ∧
        t.surf i = { s.surf i with prep := (t.surf i).prep, prepOut := (t.surf i).prepOut } ∧ (∀ j, j ≠ i → t.surf j = s.surf j) ∧
        (∀ d, t.chan d = { s.chan d with bytesCur := (t.chan d).bytesCur, sendLeft := (t.chan d).sendLeft, remap := (t.chan d).remap }) ∧
        t = { s with mem := t.mem, chans := t.chans, meas := t.meas, sm := { s.sm with surfs := t.sm.surfs } }) ∧
    ((s.surf i).freed = true → s.surfBusy i = false → s.sm.move.ofSurf i = false → Runs (.extentsReturn i) s fun t =>
      t.surf i = { gen := (s.surf i).gen } ∧ t.sm.freed = s.sm.freed ++ [i] ∧ (∀ j, j ≠ i → t.surf j = s.surf j) ∧
      (∀ p ∈ (s.surf i).pos, ∀ e ∈ p.exts ++ p.comps, e ∈ t.freeIn (s.surf i).pool p.ch) ∧
      t.sm.move = s.sm.move ∧ t.sm.segs = s.sm.segs ∧ t.sm.lanes = s.sm.lanes ∧
      (∀ d, t.chan d = { s.chan d with lossTodo := (t.chan d).lossTodo }) ∧
      t = { s with sm := t.sm, chans := t.chans, regs := t.regs, evts := t.evts, meas := t.meas }) ∧
    (∀ (w : Word) (tgt : Nat), s.portOpen → Runs (.forceFree w tgt) s fun t =>
      t = { s with sm := { s.sm with inbox := s.sm.inbox ++ [{ at_ := s.cclk, slice := 8, act := .force (w ||| 0x80000000).toNat }] } } ∧
      (s.sm.inbox = [] →
        (s.handleOk (bits w.toNat 0 24) = true →
          t.smCycle.surf (bits w.toNat 0 16) = { s.surf (bits w.toNat 0 16) with
            live := false, freed := true, holders := []
            gen := if (s.surf (bits w.toNat 0 16)).gen = 255 then 1 else (s.surf (bits w.toNat 0 16)).gen + 1 } ∧
          t.smCycle.rd R.SM_FORCE_STATUS_RESULT = 0 ∧ t.smCycle.rd R.SM_FORCE_STATUS_FORCE_DONE = 1 ∧ t.smCycle.sm.inbox = [] ∧
          ∀ j, j ≠ bits w.toNat 0 16 → t.smCycle.surf j = s.surf j) ∧
        (s.handleOk (bits w.toNat 0 24) = false →
          t.smCycle.rd R.SM_FORCE_STATUS_RESULT = 4 ∧ t.smCycle.rd R.SM_FORCE_STATUS_FORCE_DONE = 1 ∧
          t.smCycle = { s with regs := t.smCycle.regs, bitsNow := t.smCycle.bitsNow, evts := t.smCycle.evts } ∧
          s.regsKept t.smCycle [⟨R.SM_FORCE_STATUS_RESULT, 0, 0⟩, ⟨R.SM_FORCE_STATUS_FORCE_DONE, 0, 0⟩]))) ∧
    (∀ ch, (s.chan ch).lossTodo.contains k = true → s.inService ch = true → s.engineFree ch (s.lossRun ch k).1 (s.lossRun ch k).2 = true →
      Runs (.contentLossMark ch k) s fun t =>
        k ∉ (t.chan ch).lossTodo ∧ (∀ e, e ≠ k → (e ∈ (t.chan ch).lossTodo ↔ e ∈ (s.chan ch).lossTodo)) ∧
        (∀ d, d ≠ ch → t.chan d = { s.chan d with remap := (t.chan d).remap }) ∧
        t = { s with mem := t.mem, chans := t.chans, meas := t.meas, hdrs := t.hdrs } ∧
        (k < 8192 → (s.chan ch).remap = [] → (s.heldExts ch).filter (fun e => e.1 == k) = [(k, 1, 0)] →
          (∀ o, o < extBytes → t.memAt (memKey ch (k * extBytes + o)) = some 0) ∧
          ∀ a, (a < memKey ch (k * extBytes) ∨ memKey ch (k * extBytes) + extBytes ≤ a) → t.memAt a = s.memAt a)) ∧
    (∀ q s' run, (s.guardedRegions.find? fun r => r.region == i) = some q → s.dawning = false → s.unitNext q k = true →
      s' = s.initHome q → run = (s.unitWaiter q k).getD (15, 0) → s'.routesFree (s'.unitRoutes q k) run.1 run.2 = true →
      Runs (.initUnitWrite i k) s fun t =>
        t.unitReady i (k * chunkBytes) = true ∧ (∀ j o, s.unitReady j o = true → t.unitReady j o = true) ∧
        (∀ j o, j ≠ i → t.unitReady j o = s.unitReady j o) ∧ t.conf = s.conf ∧ t.sm = s'.sm ∧
        (∀ d, t.chan d = { s.chan d with bytesCur := (t.chan d).bytesCur, sendLeft := (t.chan d).sendLeft, remap := (t.chan d).remap }) ∧
        (i ≠ 64 → t = { s with mem := t.mem, chans := t.chans, integ := t.integ, regs := t.regs, bitsNow := t.bitsNow, evts := t.evts, meas := t.meas }))

/-- Moves of storage. An evacuation that finds nothing on the channel is done at once, one that finds no destination holds and says so; CANCEL ends a
move between two units at once and another after its unit, or one that waits to begin; a migration to where the lane lies is done at once; a channel out
of service with AUTO_EVAC is evacuated as lost (R197, R202 to R206, R348). A piece is copied byte for byte, sixteen pieces make a chunk COPIED, a held
move goes on once its unit can begin, and a re-placement round takes its task, holds where space is missing, or waits an epoch (R198, R200, R203,
R207). -/
def Obligations.Moves : Prop :=
  ∀ (s : State) (w : Word) (tgt : Nat),
    (∀ ch, s.portOpen → s.sm.move = {} → s.sm.start = {} → s.sm.parked = {} → bits w.toNat 0 5 = ch → ch = s.rd R.SM_EVAC_CTL_CH →
      bits w.toNat 8 1 = s.rd R.SM_EVAC_CTL_RETIRE →
      bits w.toNat 17 1 = 0 → s.chPresent ch = true → (s.chan ch).retired = false → s.outOfService ch = false →
      (s.nextUnit ch = none → s.rd R.SM_EVAC_CTL_RETIRE = 0 → s.emptyCh ch = true → Runs (.evacStart w tgt) s fun t =>
        t.sm.move = {} ∧ t.rd R.SM_EVAC_STATUS_EVAC_DONE = 1 ∧ bit (t.evt 6).pending 9 = true ∧ t.chans = s.chans) ∧
      ((s.nextUnit ch).isSome = true → s.allocFree = true → (∀ d, d < s.C → d ≠ ch → s.inService d = false) → Runs (.evacStart w tgt) s fun t =>
        t.sm.move = { kind := 1, ch := ch, held := true, retire := s.rd R.SM_EVAC_CTL_RETIRE == 1 } ∧ t.sm.evacCh = some ch ∧
        bit (t.evt 6).pending 11 = true ∧ t.chans = s.chans)) ∧
    (s.portOpen → bits w.toNat 0 5 = s.rd R.SM_EVAC_CTL_CH → bits w.toNat 8 1 = s.rd R.SM_EVAC_CTL_RETIRE → bits w.toNat 16 1 = 0 →
      (s.sm.start.kind = 1 → Runs (.evacCancel w tgt) s fun t =>
        t.sm.start = {} ∧ t.sm.move = s.sm.move ∧ t.rd R.SM_EVAC_STATUS_EVAC_DONE = 1 ∧ bit (t.evt 6).pending 9 = true ∧ t.chans = s.chans) ∧
      (s.sm.start.kind ≠ 1 → s.sm.move.kind = 1 →
        (s.sm.move.unit = none → Runs (.evacCancel w tgt) s fun t =>
          t.sm.move = s.sm.parked ∧ t.sm.parked = {} ∧ t.rd R.SM_EVAC_STATUS_EVAC_DONE = 1 ∧ bit (t.evt 6).pending 9 = true ∧ t.chans = s.chans) ∧
        (s.sm.move.unit ≠ none → exec (.evacCancel w tgt) s = .next (s.setMove { s.sm.move with cancel := true })))) ∧
    (∀ d, s.portOpen → s.sm.move = {} → s.sm.start = {} → s.sm.parked = {} → bits w.toNat 0 3 = s.rd R.SM_MIGRATE_CTL_SET →
      bits w.toNat 8 8 = s.rd R.SM_MIGRATE_CTL_LANE →
      bits w.toNat 16 5 = d → d = s.rd R.SM_MIGRATE_CTL_DEST → s.inService d = true →
      s.setDomain (s.rd R.SM_MIGRATE_CTL_SET) = some (s.domainOf d) →
      s.laneCh (s.rd R.SM_MIGRATE_CTL_SET) (s.rd R.SM_MIGRATE_CTL_LANE) = d → Runs (.migrateStart w tgt) s fun t =>
        t.sm.move = {} ∧ t.rd R.SM_MIGRATE_STATUS_MIGRATE_DONE = 1 ∧ bit (t.evt 6).pending 12 = true ∧
        t = { s with regs := t.regs, bitsNow := t.bitsNow, evts := t.evts } ∧ s.regsKept t [⟨R.SM_MIGRATE_STATUS_MIGRATE_DONE, 0, 0⟩]) ∧
    (∀ ch, s.rd R.PHY_CTL_AUTO_EVAC ch = 1 → (s.chan ch).autoEvac = true → s.power.st = 0 → s.outOfService ch = true → s.sm.move = {} →
      s.sm.start = {} → s.sm.parked = {} → s.emptyCh ch = false →
      Runs (.autoEvacStart ch) s fun t =>
        t.sm.move.kind = 1 ∧ t.sm.move.ch = ch ∧ t.sm.move.lost = true ∧ t.sm.evacCh = some ch ∧ (t.chan ch).autoEvac = false ∧
        t.rd R.SM_EVAC_STATUS_EVAC_LOST = 1) ∧
    (∀ (u : MoveUnit) (src dst : At) (n : Nat), s.sm.move.unit = some u → s.sm.start = {} → s.copying = true → s.power.st = 0 → s.sm.move.piece < 16 →
      s.sm.move.chunk < s.unitChunks u → s.unitFreed = false → s.pieceReady = true → s.pieceFree = true →
      s.pieceOf s.sm.move.chunk s.sm.move.piece = some (src, dst, n, false) →
      dst.a + n ≤ 2 ^ 34 → (∀ e ∈ s.chans, e.2.remap = []) → Runs .pieceCopyDone s fun t =>
        t.sm.move = { s.sm.move with piece := s.sm.move.piece + 1 } ∧
        (∀ k, k < n → t.memAt (memKey dst.ch (dst.a + k)) = some (s.cellByte (memKey src.ch (src.a + k)))) ∧
        (∀ k, (k < memKey dst.ch dst.a ∨ memKey dst.ch (dst.a + n) ≤ k) → t.memAt k = s.memAt k) ∧
        (∀ d, t.chan d = { s.chan d with bytesCur := (t.chan d).bytesCur, sendLeft := (t.chan d).sendLeft }) ∧
        (∀ d, d ≠ src.ch → d ≠ dst.ch → t.chan d = s.chan d) ∧
        t = { s with mem := t.mem, chans := t.chans, meas := t.meas, sm := { s.sm with move := t.sm.move } }) ∧
    (∀ u, s.sm.move.unit = some u → s.sm.start = {} → s.sm.move.held = false → s.sm.move.lost = false → s.sm.move.chunk + 1 < s.unitChunks u →
      s.sm.move.piece = 16 → s.mirrorsPending = false → s.unitFreed = false → s.sm.move.kind ≠ 3 → Runs .chunkCopied s fun t =>
        t.sm.move = { s.sm.move with chunk := s.sm.move.chunk + 1, piece := 0 } ∧
        t = { s with sm := { s.sm with move := t.sm.move }, meas := t.meas }) ∧
    (∀ v, s.sm.move.held = true → s.sm.start = {} → s.power.st = 0 → s.sm.move.unit = none → s.sm.move.kind = 2 → s.allocFree = true →
      s.laneCh s.sm.move.set s.sm.move.lane ≠ s.sm.move.dest → s.inService s.sm.move.dest = true →
      s.setDomain s.sm.move.set = some (s.domainOf s.sm.move.dest) → s.sm.parked.unit ≠ some (.lane s.sm.move.set s.sm.move.lane) →
      s.beginUnit (.lane s.sm.move.set s.sm.move.lane) s.sm.move.dest = some v → exec .moveResume s = .next v) ∧
    (s.rd R.SM_CTL_REPLACE_EN ≠ 0 → s.power.st = 0 → s.sm.move.kind = 0 → s.sm.roundWait = false → s.conf.isSome = true → s.allocFree = true →
      (s.task1 = none → s.task2 = none → s.task3 = none → exec .replaceRound s = .next { s with sm := { s.sm with roundWait := true } }) ∧
      (∀ u d v, s.task1 = some (u, d) → (s.setMove { kind := 3 }).beginUnit u d = some v → exec .replaceRound s = .next v) ∧
      (∀ u d, s.task1 = some (u, d) → (s.setMove { kind := 3 }).beginUnit u d = none →
        exec .replaceRound s = .next ((s.setMove { kind := 3 }).holdMove)))

/-! ### Integrity -/

/-- Scrub, detections and remap. The scrub passes over a clean GUARDED block pair without a finding; the channel with nothing left waits for the others;
a retired one has nothing; the end of the period makes a running pass late (R371, R373). The detection at the head of the queue is handled: an
uncorrectable one is counted and captured, a logged one goes to the ring once its entry may be written there, and one of a channel that installs a
block waits (R383 to R386). An installation begins with the lowest free entry and ends with the stored bytes as its spare word; a block that has an entry
is not installed again; a removal writes the word back (R374, R376). CONS takes a value from CONS to PROD, and any other is refused (R386). -/
def Obligations.Errors : Prop :=
  ∀ (s : State) (ch : Nat),
    (∀ e a ca, s.rd R.INT_SCRUB_CTL_EN ≠ 0 → s.power.st = 0 → s.chPresent ch = true → s.scrubs ch = true → (s.chan ch).scrubDone = false →
      ((s.scrubExts ch).find? fun x => decide ((s.chan ch).scrubAt < (x + 1) * extBytes)) = some e →
      a = max (s.chan ch).scrubAt (e * extBytes) → s.scrubPair ch a = some (ca, true) → s.engineFree ch 15 0 = true →
      (∀ r ∈ (s.chan ch).remap, r.2.errs = []) →
      (∀ n, n < 512 → (decodePair (s.cellByte (memKey ch (a + n))) (s.cellByte (memKey ch (ca + n)))).1 = 0) →
      Runs (.scrubStep ch) s fun t =>
        (t.chan ch).scrubAt = a + 512 ∧ (∀ d, d ≠ ch → t.chan d = s.chan d) ∧ t = { s with chans := t.chans, meas := t.meas }) ∧
    (∀ d, s.rd R.INT_SCRUB_CTL_EN ≠ 0 → s.power.st = 0 → s.chPresent ch = true → (s.chan ch).scrubDone = false →
      ((s.chan ch).retired = true ∨
        s.scrubs ch = true ∧ ((s.scrubExts ch).find? fun x => decide ((s.chan ch).scrubAt < (x + 1) * extBytes)) = none) →
      d < s.C → d ≠ ch → s.chPresent d = true → (s.chan d).retired = false → (s.chan d).scrubDone = false →
      exec (.scrubStep ch) s = .next (s.setChan ch { s.chan ch with scrubDone := true })) ∧
    (s.rd R.INT_SCRUB_CTL_EN ≠ 0 → s.cclkRuns = true → s.conf.isSome = true →
      (s.integ.scrubWait = true → Runs .scrubPeriodExpiry s fun t =>
        t.integ = { s.integ with scrubWait := false, scrubLate := false } ∧ (∀ d, (t.chan d).scrubDone = false ∧ (t.chan d).scrubAt = 0)) ∧
      (s.integ.scrubWait = false → s.integ.scrubLate = false → Runs .scrubPeriodExpiry s fun t =>
        t.integ = { s.integ with scrubLate := true } ∧ t.rd R.INT_STATUS_SCRUB_LATE = 1 ∧ bit (t.evt 8).pending 3 = true ∧
        t = { s with integ := t.integ, regs := t.regs, bitsNow := t.bitsNow, evts := t.evts } ∧ s.regsKept t [⟨R.INT_STATUS_SCRUB_LATE, 0, 0⟩])) ∧
    (∀ (d : Det) (l : List Det), s.integ.queue = d :: l → s.cclkRuns = true → d.done = false →
      (d.kind ≤ 2 → (s.chan d.unit).installing ≠ [] → exec .detectionHandle s = .next s) ∧
      (2 < d.kind → s.ringReady d = false → exec .detectionHandle s = .next { s with integ := { s.integ with queue := { d with done := true } :: l } }) ∧
      (2 < d.kind → ((s.chan d.unit).installing.contains (d.loc / 64) = false ∨ bit d.flags 3 = false) → s.ringReady d = true → s.ringUsed < 4096 →
        Runs .detectionHandle s fun t =>
        t.integ = { s.integ with
          queue := l, ring := Tab.insert (s.integ.prod % 4096) { d with done := true } s.integ.ring, prod := (s.integ.prod + 1) % 8192 } ∧
        (s.rd R.INT_ERR_FIRST_VALID ≠ 1 → t.rd R.INT_ERR_FIRST_VALID = 1 ∧ t.rd R.INT_ERR_FIRST_KIND = d.kind % 2 ^ R.INT_ERR_FIRST_KIND.width) ∧
        (s.rd R.INT_ERR_FIRST_VALID = 1 → t.rd R.INT_ERR_FIRST_KIND = s.rd R.INT_ERR_FIRST_KIND) ∧
        (d.kind = 3 → t.rd R.INT_UE_CNT_COUNT = satAdd 32 (s.rd R.INT_UE_CNT_COUNT) 1 ∧ t.rd R.INT_STATUS_ECC_UE = 1) ∧
        (∀ c, t.chan c = { s.chan c with bytesCur := (t.chan c).bytesCur, sendLeft := (t.chan c).sendLeft, remap := (t.chan c).remap }) ∧
        t = { s with integ := t.integ, regs := t.regs, bitsNow := t.bitsNow, evts := t.evts, mem := t.mem, chans := t.chans, meas := t.meas } ∧
          s.regsKept t (detSlots d))) ∧
    (∀ b l k r, ((s.chan ch).removing = [] ∨ s.ownRoom ch = false) → (s.chan ch).installing = b :: l → ((s.chan ch).remap.find? fun e => !e.2.valid && e.2.block == b) = some (k, r) →
      Runs (.remapInstall ch) s fun t =>
        Tab.find (t.chan ch).remap k = some { r with valid := true, word := (List.range 64).map fun n => s.memByte (memKey ch (b * 64 + n)) } ∧
        (t.chan ch).installing = l ∧ t.rd R.FE_STATUS_REMAP_ADD ch = 1 ∧ (∀ d, d ≠ ch → t.chan d = s.chan d) ∧ t.mem = s.mem) ∧
    (∀ (w : Word) (tgt k : Nat), s.portOpen → ch < s.C →
      ((s.chan ch).remapped (bits w.toNat 0 27) = true → exec (.remapCmdInstall ch w tgt) s = .next s) ∧
      ((s.chan ch).remapped (bits w.toNat 0 27) = false → (s.chan ch).remapFree = some k →
        Runs (.remapCmdInstall ch w tgt) s fun t =>
          Tab.find (t.chan ch).remap k = some
            { block := bits w.toNat 0 27, manual := true, valid := false, row := s.rowOf ch (bits w.toNat 0 27) } ∧
          (t.chan ch).installing = (s.chan ch).installing ++ [bits w.toNat 0 27] ∧ t = { s with chans := t.chans }) ∧
      ((s.chan ch).remapOf (bits w.toNat 0 27) = some k → s.ownRoom ch = true → bits w.toNat 0 27 ∉ (s.chan ch).removing →
        (s.inService ch = true → s.outOfService ch = false) → (Tab.get ({} : Remap) (s.chan ch).remap k).word.length = 64 →
        ({ s.chan ch with remap := Tab.erase k (s.chan ch).remap } : Chan).remapOf (bits w.toNat 0 27) = none → Runs (.remapCmdRemove ch w tgt) s fun t =>
        (t.chan ch).remap = Tab.erase k (s.chan ch).remap ∧ (∀ d, d ≠ ch → t.chan d = s.chan d) ∧
        ∀ n b, (Tab.get ({} : Remap) (s.chan ch).remap k).word[n]? = some b → t.memAt (memKey ch (bits w.toNat 0 27 * 64 + n)) = some b)) ∧
    (∀ (w : Word) (tgt : Nat), s.portOpen →
      ((bits w.toNat 0 13 + 8192 - s.rd R.INT_RING_CONS_CONS) % 8192 ≤ s.ringUsed → Runs (.ringConsWrite w tgt) s fun t =>
        t.rd R.INT_RING_CONS_CONS = bits w.toNat 0 13 ∧ t = { s with regs := t.regs } ∧ s.regsKept t [⟨R.INT_RING_CONS_CONS, 0, 0⟩]) ∧
      (s.ringUsed < (bits w.toNat 0 13 + 8192 - s.rd R.INT_RING_CONS_CONS) % 8192 →
        exec (.ringConsWrite w tgt) s = .next (s.cfgBusy 0x50024 tgt)))

/-- Repair and the checker mode. Firmware adds a candidate row to an empty list; ARM and CH may change while no repair runs; GO starts the repair of
an armed, empty, quiesced channel whose configuration allows it, and is refused unarmed; each row ends repaired or failed, and after the last the
channel enters self-refresh for its retrain, or starts it where it is in it already (R328, R378 to R380). The checker mode of a permitted GUARDED
region is entered once the slices have flushed its lines, and left at once (R381). -/
def Obligations.RepairAndChecker : Prop :=
  ∀ (s : State) (w : Word) (tgt : Nat), s.portOpen →
    (bits w.toNat 0 5 < s.C → (∀ k, k < 8 → (Tab.get ({} : Cand) (s.chan (bits w.toNat 0 5)).cands k).st = 0) → Runs (.pprAdd w tgt) s fun t =>
      Tab.get ({} : Cand) (t.chan (bits w.toNat 0 5)).cands 0 =
        { rank := bits w.toNat 5 1, bank := bits w.toNat 6 4, row := bits w.toNat 10 17, st := 1 } ∧
      t.rd R.FE_STATUS_PPR_CANDIDATE (bits w.toNat 0 5) = 1 ∧ t = { s with chans := t.chans, regs := t.regs, bitsNow := t.bitsNow, evts := t.evts } ∧
        s.regsKept t [⟨R.FE_STATUS_PPR_CANDIDATE, (bits w.toNat 0 5), 0⟩]) ∧
    (s.integ.pprSt < 2 → bits w.toNat 16 1 = 0 →
      Runs (.pprArm w tgt) s (fun t => t.rd R.INT_PPR_CTL_ARM = 1 ∧ t.rd R.INT_PPR_CTL_CH = bits w.toNat 0 5 ∧ t = { s with regs := t.regs } ∧
        s.regsKept t [⟨R.INT_PPR_CTL_CH, 0, 0⟩, ⟨R.INT_PPR_CTL_ARM, 0, 0⟩]) ∧
      Runs (.pprDisarm w tgt) s (fun t => t.rd R.INT_PPR_CTL_ARM = 0 ∧ t.rd R.INT_PPR_CTL_CH = bits w.toNat 0 5 ∧ t = { s with regs := t.regs } ∧
        s.regsKept t [⟨R.INT_PPR_CTL_CH, 0, 0⟩, ⟨R.INT_PPR_CTL_ARM, 0, 0⟩])) ∧
    (s.integ.pprSt < 2 →
      (bits w.toNat 8 1 = 1 → s.option (bits w.toNat 0 5) 4 = true → s.emptyCh (bits w.toNat 0 5) = true →
        s.chQuiesced (bits w.toNat 0 5) = true → (s.chan (bits w.toNat 0 5)).pendingCands ≠ [] → Runs (.pprGo w tgt) s fun t =>
          t.integ = { s.integ with pprSt := 2, pprCh := bits w.toNat 0 5, pprTgt := tgt % 8, pprAny := false, pprFail := false } ∧
          t.chan (bits w.toNat 0 5) = { s.chan (bits w.toNat 0 5) with pprHold := true } ∧
          t = { s with integ := t.integ, chans := t.chans, regs := t.regs } ∧
            s.regsKept t [⟨R.INT_PPR_CTL_CH, 0, 0⟩, ⟨R.INT_PPR_CTL_ARM, 0, 0⟩]) ∧
      (bits w.toNat 8 1 = 0 → Runs (.pprGo w tgt) s fun t =>
        t.integ = s.integ ∧ t.chans = s.chans ∧ t.rd R.GLB_STATUS_CFG_BUSY = 1)) ∧
    (∀ ok k l, s.integ.pprSt = 2 → (s.chan s.integ.pprCh).pendingCands = k :: l → Runs (.pprRowDone ok) s fun t =>
      (Tab.get ({} : Cand) (t.chan s.integ.pprCh).cands k).st = (if ok then 2 else 3) ∧
      (l ≠ [] → t.integ.pprSt = 2 ∧ (t.chan s.integ.pprCh).seq = (s.chan s.integ.pprCh).seq) ∧
      (l = [] → t.integ.pprSt = 3 ∧
        if s.inService s.integ.pprCh = true ∧ (s.chan s.integ.pprCh).pwr < 2 then (t.chan s.integ.pprCh).warm = some 0
        else (t.chan s.integ.pprCh).seq ≠ 0) ∧
      (t.integ.pprFail = true ↔ s.integ.pprFail = true ∨ ok = false)) ∧
    (s.rd R.INT_CHECKER_MODE = 0 → s.rd R.INT_CHECKER_BUSY = 0 → (bits w.toNat 0 2 = 1 ∨ bits w.toNat 0 2 = 2) →
      (s.guardedRegions.any fun r => r.region == bits w.toNat 8 6) = true →
      (s.permits 2 = true → s.quiet → (∀ g e, (s.line g e).valid = false) → Runs (.checkerMode w tgt) s fun t =>
        t.rd R.INT_CHECKER_BUSY = 1 ∧ t.rd R.INT_CHECKER_MODE = 0 ∧ t.rd R.INT_CHECKER_REGION = bits w.toNat 8 6 ∧
        t.integ = { s.integ with checkBusy := true, checkNext := bits w.toNat 0 2 } ∧ t = { s with regs := t.regs, integ := t.integ } ∧
          s.regsKept t [⟨R.INT_CHECKER_REGION, 0, 0⟩, ⟨R.INT_CHECKER_BUSY, 0, 0⟩]) ∧
      (s.permits 2 = false → exec (.checkerMode w tgt) s = .next (s.cfgBusy 0x50060 tgt))) ∧
    (s.integ.checkBusy = true → (∀ g, g < s.G → s.invSettled g = true) → Runs .checkerFlushDone s fun t =>
      t.rd R.INT_CHECKER_MODE = s.integ.checkNext % 4 ∧ t.rd R.INT_CHECKER_BUSY = 0 ∧
      t = { s with regs := t.regs, integ := { s.integ with checkBusy := false } } ∧
        s.regsKept t [⟨R.INT_CHECKER_MODE, 0, 0⟩, ⟨R.INT_CHECKER_BUSY, 0, 0⟩])

/-! ### Power and reset -/

/-- Dusk. DUSK in Run with no port attached and a wake source enabled begins the entry and locks Squall; otherwise it is refused (R397, R463). Once
everything has drained and the channels are in self-refresh or deep sleep, the clocks stop in cycle S and evt_dusk_o rises (R398, R399). An enabled
wake source, or the timer, wakes the device; during the entry it aborts it; otherwise it does nothing. A rise of an attach input counts only at a port
whose presence is 1, and the timer only in Dusk and LOAD cycles after S (R143, R399, R401, R402). With VDD_CORE kept, Run is reached with the
configuration in force and PWR_WAKE raised (R402). -/
def Obligations.Dusk : Prop :=
  ∀ (s : State),
    (∀ (w : Word) (tgt : Nat), s.portOpen → bit w.toNat 2 = false →
      (s.anyAttached = false → s.rd R.PWR_WAKE_EN_EN ≠ 0 → Runs (.duskRequest w tgt) s fun t =>
        t.power = { s.power with st := 1, latches := 0, duskTgt := tgt % 8, prepared := false, aborting := false, duskChans := [], duskAll := [] } ∧
        t.squall = {} ∧ t.rd R.PWR_CTL_DUSK_DEEP = bits w.toNat 1 1 ∧ t = { s with regs := t.regs, power := t.power, squall := t.squall } ∧
        ∀ f i j, f.ix ≠ R.PWR_CTL_DUSK_DEEP.ix → (f.ix < R.TEST_KEY_KEY.ix ∨ R.SQ_LINJ_COUNT.ix < f.ix) → t.rd f i j = s.rd f i j) ∧
      (s.anyAttached = true → Runs (.duskRequest w tgt) s fun t => t.power = s.power ∧ t.rd R.GLB_STATUS_CFG_BUSY = 1)) ∧
    (s.power.st = 1 → s.power.aborting = false → s.duskReady = true → s.power.prepared = true → s.duskDrained = true →
      Runs .duskClockStop s fun t =>
        t.power = { s.power with st := 2, evtDusk := true, prepared := false, coreGone := false, abandon := false, recordValid := true } ∧
        t.irq = s.irqLines ∧ t.rd R.PWR_STATUS_CORE_LOST = 0 ∧ t.hdrs = [] ∧ (∀ ch, ch < s.C → s.inService ch = true → 2 ≤ (t.chan ch).pwr) ∧
        t = { s with power := t.power, irq := t.irq, regs := t.regs, hdrs := [] } ∧ s.regsKept t [⟨R.PWR_STATUS_CORE_LOST, 0, 0⟩]) ∧
    (∀ srcs n m e, bit s.power.rails 0 = true → m = (if s.anyPresent then srcs else srcs &&& 0x1D) →
      e = (if s.power.st = 2 ∧ s.rd R.PWR_TIMER_LOAD ≠ 0 ∧ n = s.rd R.PWR_TIMER_LOAD then m else m &&& 0x17) &&& s.rd R.PWR_WAKE_EN_EN →
      (s.power.st = 2 → e ≠ 0 → Runs (.wakeLatch srcs n) s fun t =>
        t.power.st = 3 ∧ t.power.evtDusk = false ∧ t.power.latches = s.power.latches ||| e ∧
        t.rd R.PWR_DUSK_TIME_TIME = min (n / 1024) 0xFFFFFFFF) ∧
      (e = 0 → exec (.wakeLatch srcs n) s = .next s) ∧
      (s.power.st = 1 → s.power.aborting = false → s.power.duskChans = [] → e ≠ 0 → Runs (.wakeLatch srcs n) s fun t =>
          t.power.st = 0 ∧ t.rd R.PWR_STATUS_SLEEP_ABORTED = 1 ∧ t.rd R.PWR_WAKE_CAUSE_ABORT = 1 ∧
          bit (t.evt (24 + s.power.duskTgt % 8)).pending 10 = true) ∧
      (s.power.st ≠ 1 → s.power.st ≠ 2 → exec (.wakeLatch srcs n) s = .next s)) ∧
    (s.power.st = 2 → s.rd R.PWR_TIMER_LOAD ≠ 0 → bit (s.rd R.PWR_WAKE_EN_EN) 3 = true → Runs .duskTimerExpiry s fun t =>
      t.power.st = 3 ∧ t.power.evtDusk = false ∧ bit t.power.latches 3 = true) ∧
    (∀ ok u, s.power.st = 3 → s.power.rails = 0x1F → (s.power.domains.any (· < 12)) = false → s.power.duskChans = [] → s.power.coreGone = false →
      s.power.heldReg = none → Runs (.pwrWake ok u) s fun t =>
        t.power.st = 0 ∧ t.power.latches = 0 ∧ t.rd R.PWR_WAKE_CAUSE_CAUSE = s.power.latches % 32 ∧ t.rd R.PWR_WAKE_CAUSE_ABORT = 0 ∧
        t.rd R.PWR_STATUS_PWR_WAKE = 1 ∧ bit (t.evt (24 + s.power.duskTgt % 8)).pending 9 = true ∧
        (s.conf.isSome = true → t.tick.st = 1 ∧ t.tick.first = true) ∧
        s.onlyTest t ∧ t = { s with regs := t.regs, bitsNow := t.bitsNow, evts := t.evts, tick := t.tick, power := t.power, traffic := t.traffic } ∧
          s.regsKept t [⟨R.PWR_WAKE_CAUSE_CAUSE, 0, 0⟩, ⟨R.PWR_WAKE_CAUSE_ABORT, 0, 0⟩, ⟨R.PWR_STATUS_PWR_WAKE, 0, 0⟩])

/-- Resets and rails. A core reset leaves no configuration, no contents and no port attached, every register but the power registers at its reset
value, and keeps the retained training state; SOFT_RESET does the same in Run with no port attached, and is refused with one attached; a power-on
reset also resets the power registers and the retained state (R407, R408, R410). A released domain is no longer held (R409). VDD_AON takes everything
with it; in Dusk VDD_CORE, VDD_PHY and VAA_PHY may go, and the clocks of the channels are held; any other loss powers the block off and, where VDD_AON is
good, is recorded (R403, R406, R407). A rail that is good again counts as good (R404). -/
def Obligations.Resets : Prop :=
  ∀ (s : State),
    let core (t : State) : Prop := t.conf = none ∧ t.mem = [] ∧ t.sm = {} ∧ t.loader = {} ∧ t.tick = {} ∧ t.lines = [] ∧ t.waits = [] ∧
      t.evts = [] ∧ t.anyAttached = false ∧ t.cclk = 0 ∧ t.build = s.build ∧ t.pending = s.pending ∧
      (∀ f ∈ allFields, f.isPower = false → ∀ i j, t.rd f i j = f.reset s.build i)
    (Runs .coreReset s fun t => core t ∧ t.power.domains = sortNat (s.power.domains.filter (· == 11) ++ s.coreDomains) ∧ (∀ f ∈ allFields, f.isPower = true → ∀ i j, t.rd f i j = s.rd f i j) ∧
      ∀ ch, (t.chan ch).retainedSt = (s.chan ch).retainedSt) ∧
    (∀ (w : Word) (tgt : Nat), s.portOpen → bit w.toNat 0 = false →
      (s.anyAttached = false → s.loader.st = 0 → Runs (.softReset w tgt) s fun t =>
        core t ∧ t.power.domains = sortNat (s.power.domains.filter (· == 11) ++ s.coreDomains) ∧ ∀ ch, (t.chan ch).retainedSt = (s.chan ch).retainedSt) ∧
      (s.anyAttached = true → Runs (.softReset w tgt) s fun t =>
        t.rd R.GLB_STATUS_CFG_BUSY = 1 ∧ t = { s with regs := t.regs, bitsNow := t.bitsNow, evts := t.evts, meas := t.meas } ∧
          s.regsKept t (⟨R.PWR_CTL_DUSK_DEEP, 0, 0⟩ :: busySlots))) ∧
    (Runs .powerOnReset s fun t => core t ∧ t.power.domains = sortNat (11 :: s.coreDomains) ∧ (∀ f i j, t.rd f i j = f.reset s.build i) ∧
      ∀ ch, (t.chan ch).retainedSt = {}) ∧
    (∀ d, s.mayRelease d = true → s.power.domains.contains d = true → d < 12 → Runs (.domainResetRelease d) s fun t =>
      t.power = { s.power with domains := s.power.domains.filter fun e => e != d } ∧
      (d = 11 → ∀ f ∈ allFields, f.isPower = true → ∀ i j, t.rd f i j = f.reset s.build i) ∧
      (d = 0 → s.power.st ≠ 2 → s.power.st ≠ 3 → t.evts = [] ∧ ∀ f ∈ allFields, f.isPower = false → ∀ i j, t.rd f i j = f.reset s.build i) ∧
      (d ≠ 0 → d ≠ 11 → t = { s with power := t.power })) ∧
    (∀ r, r < 5 → bit s.power.rails r = true →
      (r = 1 → Runs (.railAbsent r) s fun t => core t ∧ t.power.domains = sortNat (11 :: s.coreDomains) ∧ bit t.power.rails 1 = false ∧
        ∀ f i j, t.rd f i j = f.reset s.build i) ∧
      (s.power.evtDusk = true → (r = 2 ∨ r = 4) → Runs (.railAbsent r) s fun t =>
        t.power = { s.power with rails := s.power.rails - 2 ^ r, domains := t.power.domains } ∧
        (∀ ch, ch < s.C → t.power.domains.contains (12 + ch) = true) ∧ t = { s with power := t.power, ports := t.ports }) ∧
      (s.power.evtDusk = true → r = 0 → Runs (.railAbsent r) s fun t =>
        t.power = { s.power with rails := s.power.rails - 1, coreGone := true, domains := s.coreDomains } ∧
        t.rd R.PWR_STATUS_CORE_LOST = 1 ∧ t = { s with power := t.power, ports := t.ports, regs := t.regs, rdata := 0 }) ∧
      ((s.power.evtDusk = false ∨ r = 3) → r ≠ 1 → Runs (.railAbsent r) s fun t =>
        core t ∧ bit t.power.rails r = false ∧ t.power.st = 4 ∧
        (bit s.power.rails 1 = true → t.power.lossPending = true ∧ bit (t.rd R.PWR_LOSS_RAILS) r = true) ∧
        (bit s.power.rails 1 = false → t.power.lossPending = s.power.lossPending ∧ t.rd R.PWR_LOSS_RAILS = s.rd R.PWR_LOSS_RAILS))) ∧
    (∀ r, r < 5 → bit s.power.rails r = false → s.power.st ≠ 3 → Runs (.railGood r) s fun t =>
      bit t.power.rails r = true ∧ (s.power.st ≠ 4 → t.power.st = s.power.st) ∧
      (s.power.st = 4 → t.power.st = if s.power.rails + 2 ^ r = 0x1F then 0 else 4) ∧
      t = { s with power := { s.power with rails := t.power.rails, st := t.power.st } })

/-! ### Invariants -/

/-- The state after reset: no configuration, no port attached, Squall locked, no command waiting; the DRAM contents are in canonical form, the device
state is Run, and every register field holds its reset value (R11, R407). -/
def Obligations.ResetState : Prop :=
  State.reset.inv ∧ State.reset.conf = none ∧ State.reset.anyAttached = false ∧ State.reset.squall.unlocked = false ∧ State.reset.pending = [] ∧
  State.reset.power.st = 0 ∧ ∀ f i j, State.reset.rd f i j = f.reset State.reset.build i

/-- Every command runs to a next state, and none breaks the canonical form of the DRAM contents or leaves a device state that R390 does not name, and
none changes the build, the level of the authentication input, or the commands that wait behind it (R2, R390). -/
def Obligations.StepKeepsInvariant : Prop :=
  ∀ (s : State), s.inv → ∃ t, step s = .next t ∧ t.inv ∧ t.build = s.build ∧ t.authReq = s.authReq ∧ t.pending = s.pending.tail
end

