-- ==== Sys2Proof/Laws/State.lean ====
section
/-! SUPPORT. The simple updates of State: what each leaves of every other field, and what the readers give after it. -/

set_option Elab.async false

namespace Sys2Proof

/-! ### Tables -/

/-- A key just listed is found. -/
@[simp] theorem Tab.find_insert_self {α : Type} (k : Nat) (v : α) (t : Tab α) : Tab.find (Tab.insert k v t) k = some v := by
  induction t with
  | nil => simp [Tab.insert, Tab.find]
  | cons e t ih =>
    obtain ⟨a, u⟩ := e
    unfold Tab.insert
    split
    · simp [Tab.find]
    · split
      · simp [Tab.find]
      · simp [Tab.find, *]

/-- Another key is found as before. -/
theorem Tab.find_insert_ne {α : Type} {k n : Nat} (h : n ≠ k) (v : α) (t : Tab α) :
    Tab.find (Tab.insert k v t) n = Tab.find t n := by
  induction t with
  | nil => simp [Tab.insert, Tab.find, h]
  | cons e t ih =>
    obtain ⟨a, u⟩ := e
    unfold Tab.insert
    split
    · simp [Tab.find, h]
    · split
      · rename_i h2
        subst h2
        simp [Tab.find, h]
      · by_cases ha : n = a
        · simp [Tab.find, ha]
        · simp [Tab.find, ha, ih]

@[simp] theorem Tab.get_insert_self {α : Type} (d : α) (k : Nat) (v : α) (t : Tab α) : Tab.get d (Tab.insert k v t) k = v := by
  simp [Tab.get]

theorem Tab.get_insert_ne {α : Type} {k n : Nat} (h : n ≠ k) (d v : α) (t : Tab α) :
    Tab.get d (Tab.insert k v t) n = Tab.get d t n := by
  simp [Tab.get, Tab.find_insert_ne h]

/-- The readers of a table at any key after an insertion. -/
theorem Tab.get_insert {α : Type} (d : α) (k n : Nat) (v : α) (t : Tab α) :
    Tab.get d (Tab.insert k v t) n = if n = k then v else Tab.get d t n := by
  split
  · next h => subst h; simp
  · next h => exact Tab.get_insert_ne h d v t

/-- Keys above a bound stay above it when a key above it is listed. -/
theorem Tab.above_insert {α : Type} {b k : Nat} (v : α) {t : Tab α} (ht : Tab.above b t = true) (hk : b < k) :
    Tab.above b (Tab.insert k v t) = true := by
  induction t with
  | nil => simp [Tab.insert, Tab.above, hk]
  | cons e t ih =>
    obtain ⟨a, u⟩ := e
    simp only [Tab.above, List.all_cons, Bool.and_eq_true, decide_eq_true_eq] at ht ih ⊢
    unfold Tab.insert
    split
    · simp only [List.all_cons, Bool.and_eq_true, decide_eq_true_eq]
      exact ⟨hk, ht.1, ht.2⟩
    · split
      · simp only [List.all_cons, Bool.and_eq_true, decide_eq_true_eq]
        exact ⟨hk, ht.2⟩
      · simp only [List.all_cons, Bool.and_eq_true, decide_eq_true_eq]
        exact ⟨ht.1, ih ht.2⟩

theorem Tab.above_trans {α : Type} {a b : Nat} {t : Tab α} (h : Tab.above b t = true) (hab : a < b) : Tab.above a t = true := by
  simp only [Tab.above, List.all_eq_true, decide_eq_true_eq] at h ⊢
  intro e he
  exact Nat.lt_trans hab (h e he)

/-- An insertion keeps the canonical form. -/
theorem Tab.rising_insert {α : Type} (k : Nat) (v : α) {t : Tab α} (h : Tab.rising t = true) : Tab.rising (Tab.insert k v t) = true := by
  induction t with
  | nil => simp [Tab.insert, Tab.rising, Tab.above]
  | cons e t ih =>
    obtain ⟨a, u⟩ := e
    simp only [Tab.rising, Bool.and_eq_true] at h
    unfold Tab.insert
    split
    · next hk =>
      simp only [Tab.rising, Bool.and_eq_true]
      refine ⟨?_, h.1, h.2⟩
      simp only [Tab.above, List.all_cons, Bool.and_eq_true, decide_eq_true_eq]
      exact ⟨hk, Tab.above_trans h.1 hk⟩
    · split
      · next hk =>
        subst hk
        simp only [Tab.rising, Bool.and_eq_true]
        exact h
      · next h1 h2 =>
        simp only [Tab.rising, Bool.and_eq_true]
        exact ⟨Tab.above_insert v h.1 (by omega), ih h.2⟩

theorem Tab.above_filter {α : Type} (p : Nat × α → Bool) {b : Nat} {t : Tab α} (h : Tab.above b t = true) :
    Tab.above b (t.filter p) = true := by
  simp only [Tab.above, List.all_eq_true, decide_eq_true_eq] at h ⊢
  intro e he
  exact h e (List.mem_filter.1 he).1

/-- Unlisting some keys keeps the canonical form. -/
theorem Tab.rising_filter {α : Type} (p : Nat × α → Bool) {t : Tab α} (h : Tab.rising t = true) : Tab.rising (t.filter p) = true := by
  induction t with
  | nil => rfl
  | cons e t ih =>
    obtain ⟨a, u⟩ := e
    simp only [Tab.rising, Bool.and_eq_true] at h
    rw [List.filter_cons]
    split
    · simp only [Tab.rising, Bool.and_eq_true]
      exact ⟨Tab.above_filter p h.1, ih h.2⟩
    · exact ih h.2

/-- What a fold leaves alone at every element, it leaves alone. -/
theorem foldl_same {α β γ : Type} (f : β → γ) (g : β → α → β) (h : ∀ b a, f (g b a) = f b) (l : List α) (b : β) :
    f (l.foldl g b) = f b := by
  induction l generalizing b with
  | nil => rfl
  | cons a l ih => rw [List.foldl_cons, ih, h]

/-- What a fold keeps at every element, it keeps. -/
theorem foldl_keeps {α β : Type} (P : β → Prop) (g : β → α → β) (h : ∀ b a, P b → P (g b a)) (l : List α) (b : β) (hb : P b) :
    P (l.foldl g b) := by
  induction l generalizing b with
  | nil => exact hb
  | cons a l ih => exact ih _ (h b a hb)

end Sys2Proof

namespace Sys2Proof.Machine
open Sys2Proof

/-! ### wr -/

@[simp] theorem State.wr_build (s : State) (f : Fld) (i j v : Nat) : (s.wr f i j v).build = s.build := rfl
@[simp] theorem State.wr_cclk (s : State) (f : Fld) (i j v : Nat) : (s.wr f i j v).cclk = s.cclk := rfl
@[simp] theorem State.wr_pend (s : State) (f : Fld) (i j v : Nat) : (s.wr f i j v).pend = s.pend := rfl
@[simp] theorem State.wr_rdata (s : State) (f : Fld) (i j v : Nat) : (s.wr f i j v).rdata = s.rdata := rfl
@[simp] theorem State.wr_tick (s : State) (f : Fld) (i j v : Nat) : (s.wr f i j v).tick = s.tick := rfl
@[simp] theorem State.wr_gates (s : State) (f : Fld) (i j v : Nat) : (s.wr f i j v).gates = s.gates := rfl
@[simp] theorem State.wr_loader (s : State) (f : Fld) (i j v : Nat) : (s.wr f i j v).loader = s.loader := rfl
@[simp] theorem State.wr_authReq (s : State) (f : Fld) (i j v : Nat) : (s.wr f i j v).authReq = s.authReq := rfl
@[simp] theorem State.wr_conf (s : State) (f : Fld) (i j v : Nat) : (s.wr f i j v).conf = s.conf := rfl
@[simp] theorem State.wr_ports (s : State) (f : Fld) (i j v : Nat) : (s.wr f i j v).ports = s.ports := rfl
@[simp] theorem State.wr_groups (s : State) (f : Fld) (i j v : Nat) : (s.wr f i j v).groups = s.groups := rfl
@[simp] theorem State.wr_lines (s : State) (f : Fld) (i j v : Nat) : (s.wr f i j v).lines = s.lines := rfl
@[simp] theorem State.wr_useCtr (s : State) (f : Fld) (i j v : Nat) : (s.wr f i j v).useCtr = s.useCtr := rfl
@[simp] theorem State.wr_waits (s : State) (f : Fld) (i j v : Nat) : (s.wr f i j v).waits = s.waits := rfl
@[simp] theorem State.wr_nextId (s : State) (f : Fld) (i j v : Nat) : (s.wr f i j v).nextId = s.nextId := rfl
@[simp] theorem State.wr_subs (s : State) (f : Fld) (i j v : Nat) : (s.wr f i j v).subs = s.subs := rfl
@[simp] theorem State.wr_dec (s : State) (f : Fld) (i j v : Nat) : (s.wr f i j v).dec = s.dec := rfl
@[simp] theorem State.wr_retry (s : State) (f : Fld) (i j v : Nat) : (s.wr f i j v).retry = s.retry := rfl
@[simp] theorem State.wr_arr (s : State) (f : Fld) (i j v : Nat) : (s.wr f i j v).arr = s.arr := rfl
@[simp] theorem State.wr_enc (s : State) (f : Fld) (i j v : Nat) : (s.wr f i j v).enc = s.enc := rfl
@[simp] theorem State.wr_hdrWait (s : State) (f : Fld) (i j v : Nat) : (s.wr f i j v).hdrWait = s.hdrWait := rfl
@[simp] theorem State.wr_halves (s : State) (f : Fld) (i j v : Nat) : (s.wr f i j v).halves = s.halves := rfl
@[simp] theorem State.wr_bitsNow (s : State) (f : Fld) (i j v : Nat) : (s.wr f i j v).bitsNow = s.bitsNow := rfl
@[simp] theorem State.wr_now (s : State) (f : Fld) (i j v : Nat) : (s.wr f i j v).now = s.now := rfl
@[simp] theorem State.wr_snoops (s : State) (f : Fld) (i j v : Nat) : (s.wr f i j v).snoops = s.snoops := rfl
@[simp] theorem State.wr_snoopLast (s : State) (f : Fld) (i j v : Nat) : (s.wr f i j v).snoopLast = s.snoopLast := rfl
@[simp] theorem State.wr_hdrs (s : State) (f : Fld) (i j v : Nat) : (s.wr f i j v).hdrs = s.hdrs := rfl
@[simp] theorem State.wr_failed (s : State) (f : Fld) (i j v : Nat) : (s.wr f i j v).failed = s.failed := rfl
@[simp] theorem State.wr_traffic (s : State) (f : Fld) (i j v : Nat) : (s.wr f i j v).traffic = s.traffic := rfl
@[simp] theorem State.wr_chans (s : State) (f : Fld) (i j v : Nat) : (s.wr f i j v).chans = s.chans := rfl
@[simp] theorem State.wr_mem (s : State) (f : Fld) (i j v : Nat) : (s.wr f i j v).mem = s.mem := rfl
@[simp] theorem State.wr_sm (s : State) (f : Fld) (i j v : Nat) : (s.wr f i j v).sm = s.sm := rfl
@[simp] theorem State.wr_integ (s : State) (f : Fld) (i j v : Nat) : (s.wr f i j v).integ = s.integ := rfl
@[simp] theorem State.wr_power (s : State) (f : Fld) (i j v : Nat) : (s.wr f i j v).power = s.power := rfl
@[simp] theorem State.wr_evts (s : State) (f : Fld) (i j v : Nat) : (s.wr f i j v).evts = s.evts := rfl
@[simp] theorem State.wr_irq (s : State) (f : Fld) (i j v : Nat) : (s.wr f i j v).irq = s.irq := rfl
@[simp] theorem State.wr_posts (s : State) (f : Fld) (i j v : Nat) : (s.wr f i j v).posts = s.posts := rfl
@[simp] theorem State.wr_meas (s : State) (f : Fld) (i j v : Nat) : (s.wr f i j v).meas = s.meas := rfl
@[simp] theorem State.wr_mbx (s : State) (f : Fld) (i j v : Nat) : (s.wr f i j v).mbx = s.mbx := rfl
@[simp] theorem State.wr_squall (s : State) (f : Fld) (i j v : Nat) : (s.wr f i j v).squall = s.squall := rfl
@[simp] theorem State.wr_freeCtr (s : State) (f : Fld) (i j v : Nat) : (s.wr f i j v).freeCtr = s.freeCtr := rfl
@[simp] theorem State.wr_pending (s : State) (f : Fld) (i j v : Nat) : (s.wr f i j v).pending = s.pending := rfl

/-! ### setBit -/

@[simp] theorem State.setBit_build (s : State) (f : Fld) (i j : Nat) : (s.setBit f i j).build = s.build := rfl
@[simp] theorem State.setBit_cclk (s : State) (f : Fld) (i j : Nat) : (s.setBit f i j).cclk = s.cclk := rfl
@[simp] theorem State.setBit_pend (s : State) (f : Fld) (i j : Nat) : (s.setBit f i j).pend = s.pend := rfl
@[simp] theorem State.setBit_rdata (s : State) (f : Fld) (i j : Nat) : (s.setBit f i j).rdata = s.rdata := rfl
@[simp] theorem State.setBit_tick (s : State) (f : Fld) (i j : Nat) : (s.setBit f i j).tick = s.tick := rfl
@[simp] theorem State.setBit_gates (s : State) (f : Fld) (i j : Nat) : (s.setBit f i j).gates = s.gates := rfl
@[simp] theorem State.setBit_loader (s : State) (f : Fld) (i j : Nat) : (s.setBit f i j).loader = s.loader := rfl
@[simp] theorem State.setBit_authReq (s : State) (f : Fld) (i j : Nat) : (s.setBit f i j).authReq = s.authReq := rfl
@[simp] theorem State.setBit_conf (s : State) (f : Fld) (i j : Nat) : (s.setBit f i j).conf = s.conf := rfl
@[simp] theorem State.setBit_ports (s : State) (f : Fld) (i j : Nat) : (s.setBit f i j).ports = s.ports := rfl
@[simp] theorem State.setBit_groups (s : State) (f : Fld) (i j : Nat) : (s.setBit f i j).groups = s.groups := rfl
@[simp] theorem State.setBit_lines (s : State) (f : Fld) (i j : Nat) : (s.setBit f i j).lines = s.lines := rfl
@[simp] theorem State.setBit_useCtr (s : State) (f : Fld) (i j : Nat) : (s.setBit f i j).useCtr = s.useCtr := rfl
@[simp] theorem State.setBit_waits (s : State) (f : Fld) (i j : Nat) : (s.setBit f i j).waits = s.waits := rfl
@[simp] theorem State.setBit_nextId (s : State) (f : Fld) (i j : Nat) : (s.setBit f i j).nextId = s.nextId := rfl
@[simp] theorem State.setBit_subs (s : State) (f : Fld) (i j : Nat) : (s.setBit f i j).subs = s.subs := rfl
@[simp] theorem State.setBit_dec (s : State) (f : Fld) (i j : Nat) : (s.setBit f i j).dec = s.dec := rfl
@[simp] theorem State.setBit_retry (s : State) (f : Fld) (i j : Nat) : (s.setBit f i j).retry = s.retry := rfl
@[simp] theorem State.setBit_arr (s : State) (f : Fld) (i j : Nat) : (s.setBit f i j).arr = s.arr := rfl
@[simp] theorem State.setBit_enc (s : State) (f : Fld) (i j : Nat) : (s.setBit f i j).enc = s.enc := rfl
@[simp] theorem State.setBit_hdrWait (s : State) (f : Fld) (i j : Nat) : (s.setBit f i j).hdrWait = s.hdrWait := rfl
@[simp] theorem State.setBit_halves (s : State) (f : Fld) (i j : Nat) : (s.setBit f i j).halves = s.halves := rfl
@[simp] theorem State.setBit_bitsNow (s : State) (f : Fld) (i j : Nat) : (s.setBit f i j).bitsNow = f.key i j :: s.bitsNow := rfl
@[simp] theorem State.setBit_now (s : State) (f : Fld) (i j : Nat) : (s.setBit f i j).now = s.now := rfl
@[simp] theorem State.setBit_snoops (s : State) (f : Fld) (i j : Nat) : (s.setBit f i j).snoops = s.snoops := rfl
@[simp] theorem State.setBit_snoopLast (s : State) (f : Fld) (i j : Nat) : (s.setBit f i j).snoopLast = s.snoopLast := rfl
@[simp] theorem State.setBit_hdrs (s : State) (f : Fld) (i j : Nat) : (s.setBit f i j).hdrs = s.hdrs := rfl
@[simp] theorem State.setBit_failed (s : State) (f : Fld) (i j : Nat) : (s.setBit f i j).failed = s.failed := rfl
@[simp] theorem State.setBit_traffic (s : State) (f : Fld) (i j : Nat) : (s.setBit f i j).traffic = s.traffic := rfl
@[simp] theorem State.setBit_chans (s : State) (f : Fld) (i j : Nat) : (s.setBit f i j).chans = s.chans := rfl
@[simp] theorem State.setBit_mem (s : State) (f : Fld) (i j : Nat) : (s.setBit f i j).mem = s.mem := rfl
@[simp] theorem State.setBit_sm (s : State) (f : Fld) (i j : Nat) : (s.setBit f i j).sm = s.sm := rfl
@[simp] theorem State.setBit_integ (s : State) (f : Fld) (i j : Nat) : (s.setBit f i j).integ = s.integ := rfl
@[simp] theorem State.setBit_power (s : State) (f : Fld) (i j : Nat) : (s.setBit f i j).power = s.power := rfl
@[simp] theorem State.setBit_evts (s : State) (f : Fld) (i j : Nat) : (s.setBit f i j).evts = s.evts := rfl
@[simp] theorem State.setBit_irq (s : State) (f : Fld) (i j : Nat) : (s.setBit f i j).irq = s.irq := rfl
@[simp] theorem State.setBit_posts (s : State) (f : Fld) (i j : Nat) : (s.setBit f i j).posts = s.posts := rfl
@[simp] theorem State.setBit_meas (s : State) (f : Fld) (i j : Nat) : (s.setBit f i j).meas = s.meas := rfl
@[simp] theorem State.setBit_mbx (s : State) (f : Fld) (i j : Nat) : (s.setBit f i j).mbx = s.mbx := rfl
@[simp] theorem State.setBit_squall (s : State) (f : Fld) (i j : Nat) : (s.setBit f i j).squall = s.squall := rfl
@[simp] theorem State.setBit_freeCtr (s : State) (f : Fld) (i j : Nat) : (s.setBit f i j).freeCtr = s.freeCtr := rfl
@[simp] theorem State.setBit_pending (s : State) (f : Fld) (i j : Nat) : (s.setBit f i j).pending = s.pending := rfl

/-! ### bump -/

@[simp] theorem State.bump_build (s : State) (f : Fld) (i j n : Nat) : (s.bump f i j n).build = s.build := rfl
@[simp] theorem State.bump_cclk (s : State) (f : Fld) (i j n : Nat) : (s.bump f i j n).cclk = s.cclk := rfl
@[simp] theorem State.bump_pend (s : State) (f : Fld) (i j n : Nat) : (s.bump f i j n).pend = s.pend := rfl
@[simp] theorem State.bump_rdata (s : State) (f : Fld) (i j n : Nat) : (s.bump f i j n).rdata = s.rdata := rfl
@[simp] theorem State.bump_tick (s : State) (f : Fld) (i j n : Nat) : (s.bump f i j n).tick = s.tick := rfl
@[simp] theorem State.bump_gates (s : State) (f : Fld) (i j n : Nat) : (s.bump f i j n).gates = s.gates := rfl
@[simp] theorem State.bump_loader (s : State) (f : Fld) (i j n : Nat) : (s.bump f i j n).loader = s.loader := rfl
@[simp] theorem State.bump_authReq (s : State) (f : Fld) (i j n : Nat) : (s.bump f i j n).authReq = s.authReq := rfl
@[simp] theorem State.bump_conf (s : State) (f : Fld) (i j n : Nat) : (s.bump f i j n).conf = s.conf := rfl
@[simp] theorem State.bump_ports (s : State) (f : Fld) (i j n : Nat) : (s.bump f i j n).ports = s.ports := rfl
@[simp] theorem State.bump_groups (s : State) (f : Fld) (i j n : Nat) : (s.bump f i j n).groups = s.groups := rfl
@[simp] theorem State.bump_lines (s : State) (f : Fld) (i j n : Nat) : (s.bump f i j n).lines = s.lines := rfl
@[simp] theorem State.bump_useCtr (s : State) (f : Fld) (i j n : Nat) : (s.bump f i j n).useCtr = s.useCtr := rfl
@[simp] theorem State.bump_waits (s : State) (f : Fld) (i j n : Nat) : (s.bump f i j n).waits = s.waits := rfl
@[simp] theorem State.bump_nextId (s : State) (f : Fld) (i j n : Nat) : (s.bump f i j n).nextId = s.nextId := rfl
@[simp] theorem State.bump_subs (s : State) (f : Fld) (i j n : Nat) : (s.bump f i j n).subs = s.subs := rfl
@[simp] theorem State.bump_dec (s : State) (f : Fld) (i j n : Nat) : (s.bump f i j n).dec = s.dec := rfl
@[simp] theorem State.bump_retry (s : State) (f : Fld) (i j n : Nat) : (s.bump f i j n).retry = s.retry := rfl
@[simp] theorem State.bump_arr (s : State) (f : Fld) (i j n : Nat) : (s.bump f i j n).arr = s.arr := rfl
@[simp] theorem State.bump_enc (s : State) (f : Fld) (i j n : Nat) : (s.bump f i j n).enc = s.enc := rfl
@[simp] theorem State.bump_hdrWait (s : State) (f : Fld) (i j n : Nat) : (s.bump f i j n).hdrWait = s.hdrWait := rfl
@[simp] theorem State.bump_halves (s : State) (f : Fld) (i j n : Nat) : (s.bump f i j n).halves = s.halves := rfl
@[simp] theorem State.bump_bitsNow (s : State) (f : Fld) (i j n : Nat) : (s.bump f i j n).bitsNow = s.bitsNow := rfl
@[simp] theorem State.bump_now (s : State) (f : Fld) (i j n : Nat) : (s.bump f i j n).now = s.now := rfl
@[simp] theorem State.bump_snoops (s : State) (f : Fld) (i j n : Nat) : (s.bump f i j n).snoops = s.snoops := rfl
@[simp] theorem State.bump_snoopLast (s : State) (f : Fld) (i j n : Nat) : (s.bump f i j n).snoopLast = s.snoopLast := rfl
@[simp] theorem State.bump_hdrs (s : State) (f : Fld) (i j n : Nat) : (s.bump f i j n).hdrs = s.hdrs := rfl
@[simp] theorem State.bump_failed (s : State) (f : Fld) (i j n : Nat) : (s.bump f i j n).failed = s.failed := rfl
@[simp] theorem State.bump_traffic (s : State) (f : Fld) (i j n : Nat) : (s.bump f i j n).traffic = s.traffic := rfl
@[simp] theorem State.bump_chans (s : State) (f : Fld) (i j n : Nat) : (s.bump f i j n).chans = s.chans := rfl
@[simp] theorem State.bump_mem (s : State) (f : Fld) (i j n : Nat) : (s.bump f i j n).mem = s.mem := rfl
@[simp] theorem State.bump_sm (s : State) (f : Fld) (i j n : Nat) : (s.bump f i j n).sm = s.sm := rfl
@[simp] theorem State.bump_integ (s : State) (f : Fld) (i j n : Nat) : (s.bump f i j n).integ = s.integ := rfl
@[simp] theorem State.bump_power (s : State) (f : Fld) (i j n : Nat) : (s.bump f i j n).power = s.power := rfl
@[simp] theorem State.bump_evts (s : State) (f : Fld) (i j n : Nat) : (s.bump f i j n).evts = s.evts := rfl
@[simp] theorem State.bump_irq (s : State) (f : Fld) (i j n : Nat) : (s.bump f i j n).irq = s.irq := rfl
@[simp] theorem State.bump_posts (s : State) (f : Fld) (i j n : Nat) : (s.bump f i j n).posts = s.posts := rfl
@[simp] theorem State.bump_meas (s : State) (f : Fld) (i j n : Nat) : (s.bump f i j n).meas = s.meas := rfl
@[simp] theorem State.bump_mbx (s : State) (f : Fld) (i j n : Nat) : (s.bump f i j n).mbx = s.mbx := rfl
@[simp] theorem State.bump_squall (s : State) (f : Fld) (i j n : Nat) : (s.bump f i j n).squall = s.squall := rfl
@[simp] theorem State.bump_freeCtr (s : State) (f : Fld) (i j n : Nat) : (s.bump f i j n).freeCtr = s.freeCtr := rfl
@[simp] theorem State.bump_pending (s : State) (f : Fld) (i j n : Nat) : (s.bump f i j n).pending = s.pending := rfl

/-! ### setPort -/

@[simp] theorem State.setPort_build (s : State) (p : Nat) (x : Port) : (s.setPort p x).build = s.build := rfl
@[simp] theorem State.setPort_cclk (s : State) (p : Nat) (x : Port) : (s.setPort p x).cclk = s.cclk := rfl
@[simp] theorem State.setPort_regs (s : State) (p : Nat) (x : Port) : (s.setPort p x).regs = s.regs := rfl
@[simp] theorem State.setPort_pend (s : State) (p : Nat) (x : Port) : (s.setPort p x).pend = s.pend := rfl
@[simp] theorem State.setPort_rdata (s : State) (p : Nat) (x : Port) : (s.setPort p x).rdata = s.rdata := rfl
@[simp] theorem State.setPort_tick (s : State) (p : Nat) (x : Port) : (s.setPort p x).tick = s.tick := rfl
@[simp] theorem State.setPort_gates (s : State) (p : Nat) (x : Port) : (s.setPort p x).gates = s.gates := rfl
@[simp] theorem State.setPort_loader (s : State) (p : Nat) (x : Port) : (s.setPort p x).loader = s.loader := rfl
@[simp] theorem State.setPort_authReq (s : State) (p : Nat) (x : Port) : (s.setPort p x).authReq = s.authReq := rfl
@[simp] theorem State.setPort_conf (s : State) (p : Nat) (x : Port) : (s.setPort p x).conf = s.conf := rfl
@[simp] theorem State.setPort_groups (s : State) (p : Nat) (x : Port) : (s.setPort p x).groups = s.groups := rfl
@[simp] theorem State.setPort_lines (s : State) (p : Nat) (x : Port) : (s.setPort p x).lines = s.lines := rfl
@[simp] theorem State.setPort_useCtr (s : State) (p : Nat) (x : Port) : (s.setPort p x).useCtr = s.useCtr := rfl
@[simp] theorem State.setPort_waits (s : State) (p : Nat) (x : Port) : (s.setPort p x).waits = s.waits := rfl
@[simp] theorem State.setPort_nextId (s : State) (p : Nat) (x : Port) : (s.setPort p x).nextId = s.nextId := rfl
@[simp] theorem State.setPort_subs (s : State) (p : Nat) (x : Port) : (s.setPort p x).subs = s.subs := rfl
@[simp] theorem State.setPort_dec (s : State) (p : Nat) (x : Port) : (s.setPort p x).dec = s.dec := rfl
@[simp] theorem State.setPort_retry (s : State) (p : Nat) (x : Port) : (s.setPort p x).retry = s.retry := rfl
@[simp] theorem State.setPort_arr (s : State) (p : Nat) (x : Port) : (s.setPort p x).arr = s.arr := rfl
@[simp] theorem State.setPort_enc (s : State) (p : Nat) (x : Port) : (s.setPort p x).enc = s.enc := rfl
@[simp] theorem State.setPort_hdrWait (s : State) (p : Nat) (x : Port) : (s.setPort p x).hdrWait = s.hdrWait := rfl
@[simp] theorem State.setPort_halves (s : State) (p : Nat) (x : Port) : (s.setPort p x).halves = s.halves := rfl
@[simp] theorem State.setPort_bitsNow (s : State) (p : Nat) (x : Port) : (s.setPort p x).bitsNow = s.bitsNow := rfl
@[simp] theorem State.setPort_now (s : State) (p : Nat) (x : Port) : (s.setPort p x).now = s.now := rfl
@[simp] theorem State.setPort_snoops (s : State) (p : Nat) (x : Port) : (s.setPort p x).snoops = s.snoops := rfl
@[simp] theorem State.setPort_snoopLast (s : State) (p : Nat) (x : Port) : (s.setPort p x).snoopLast = s.snoopLast := rfl
@[simp] theorem State.setPort_hdrs (s : State) (p : Nat) (x : Port) : (s.setPort p x).hdrs = s.hdrs := rfl
@[simp] theorem State.setPort_failed (s : State) (p : Nat) (x : Port) : (s.setPort p x).failed = s.failed := rfl
@[simp] theorem State.setPort_traffic (s : State) (p : Nat) (x : Port) : (s.setPort p x).traffic = s.traffic := rfl
@[simp] theorem State.setPort_chans (s : State) (p : Nat) (x : Port) : (s.setPort p x).chans = s.chans := rfl
@[simp] theorem State.setPort_mem (s : State) (p : Nat) (x : Port) : (s.setPort p x).mem = s.mem := rfl
@[simp] theorem State.setPort_sm (s : State) (p : Nat) (x : Port) : (s.setPort p x).sm = s.sm := rfl
@[simp] theorem State.setPort_integ (s : State) (p : Nat) (x : Port) : (s.setPort p x).integ = s.integ := rfl
@[simp] theorem State.setPort_power (s : State) (p : Nat) (x : Port) : (s.setPort p x).power = s.power := rfl
@[simp] theorem State.setPort_evts (s : State) (p : Nat) (x : Port) : (s.setPort p x).evts = s.evts := rfl
@[simp] theorem State.setPort_irq (s : State) (p : Nat) (x : Port) : (s.setPort p x).irq = s.irq := rfl
@[simp] theorem State.setPort_posts (s : State) (p : Nat) (x : Port) : (s.setPort p x).posts = s.posts := rfl
@[simp] theorem State.setPort_meas (s : State) (p : Nat) (x : Port) : (s.setPort p x).meas = s.meas := rfl
@[simp] theorem State.setPort_mbx (s : State) (p : Nat) (x : Port) : (s.setPort p x).mbx = s.mbx := rfl
@[simp] theorem State.setPort_squall (s : State) (p : Nat) (x : Port) : (s.setPort p x).squall = s.squall := rfl
@[simp] theorem State.setPort_freeCtr (s : State) (p : Nat) (x : Port) : (s.setPort p x).freeCtr = s.freeCtr := rfl
@[simp] theorem State.setPort_pending (s : State) (p : Nat) (x : Port) : (s.setPort p x).pending = s.pending := rfl

/-! ### setGroup -/

@[simp] theorem State.setGroup_build (s : State) (g : Nat) (x : Group) : (s.setGroup g x).build = s.build := rfl
@[simp] theorem State.setGroup_cclk (s : State) (g : Nat) (x : Group) : (s.setGroup g x).cclk = s.cclk := rfl
@[simp] theorem State.setGroup_regs (s : State) (g : Nat) (x : Group) : (s.setGroup g x).regs = s.regs := rfl
@[simp] theorem State.setGroup_pend (s : State) (g : Nat) (x : Group) : (s.setGroup g x).pend = s.pend := rfl
@[simp] theorem State.setGroup_rdata (s : State) (g : Nat) (x : Group) : (s.setGroup g x).rdata = s.rdata := rfl
@[simp] theorem State.setGroup_tick (s : State) (g : Nat) (x : Group) : (s.setGroup g x).tick = s.tick := rfl
@[simp] theorem State.setGroup_gates (s : State) (g : Nat) (x : Group) : (s.setGroup g x).gates = s.gates := rfl
@[simp] theorem State.setGroup_loader (s : State) (g : Nat) (x : Group) : (s.setGroup g x).loader = s.loader := rfl
@[simp] theorem State.setGroup_authReq (s : State) (g : Nat) (x : Group) : (s.setGroup g x).authReq = s.authReq := rfl
@[simp] theorem State.setGroup_conf (s : State) (g : Nat) (x : Group) : (s.setGroup g x).conf = s.conf := rfl
@[simp] theorem State.setGroup_ports (s : State) (g : Nat) (x : Group) : (s.setGroup g x).ports = s.ports := rfl
@[simp] theorem State.setGroup_lines (s : State) (g : Nat) (x : Group) : (s.setGroup g x).lines = s.lines := rfl
@[simp] theorem State.setGroup_useCtr (s : State) (g : Nat) (x : Group) : (s.setGroup g x).useCtr = s.useCtr := rfl
@[simp] theorem State.setGroup_waits (s : State) (g : Nat) (x : Group) : (s.setGroup g x).waits = s.waits := rfl
@[simp] theorem State.setGroup_nextId (s : State) (g : Nat) (x : Group) : (s.setGroup g x).nextId = s.nextId := rfl
@[simp] theorem State.setGroup_subs (s : State) (g : Nat) (x : Group) : (s.setGroup g x).subs = s.subs := rfl
@[simp] theorem State.setGroup_dec (s : State) (g : Nat) (x : Group) : (s.setGroup g x).dec = s.dec := rfl
@[simp] theorem State.setGroup_retry (s : State) (g : Nat) (x : Group) : (s.setGroup g x).retry = s.retry := rfl
@[simp] theorem State.setGroup_arr (s : State) (g : Nat) (x : Group) : (s.setGroup g x).arr = s.arr := rfl
@[simp] theorem State.setGroup_enc (s : State) (g : Nat) (x : Group) : (s.setGroup g x).enc = s.enc := rfl
@[simp] theorem State.setGroup_hdrWait (s : State) (g : Nat) (x : Group) : (s.setGroup g x).hdrWait = s.hdrWait := rfl
@[simp] theorem State.setGroup_halves (s : State) (g : Nat) (x : Group) : (s.setGroup g x).halves = s.halves := rfl
@[simp] theorem State.setGroup_bitsNow (s : State) (g : Nat) (x : Group) : (s.setGroup g x).bitsNow = s.bitsNow := rfl
@[simp] theorem State.setGroup_now (s : State) (g : Nat) (x : Group) : (s.setGroup g x).now = s.now := rfl
@[simp] theorem State.setGroup_snoops (s : State) (g : Nat) (x : Group) : (s.setGroup g x).snoops = s.snoops := rfl
@[simp] theorem State.setGroup_snoopLast (s : State) (g : Nat) (x : Group) : (s.setGroup g x).snoopLast = s.snoopLast := rfl
@[simp] theorem State.setGroup_hdrs (s : State) (g : Nat) (x : Group) : (s.setGroup g x).hdrs = s.hdrs := rfl
@[simp] theorem State.setGroup_failed (s : State) (g : Nat) (x : Group) : (s.setGroup g x).failed = s.failed := rfl
@[simp] theorem State.setGroup_traffic (s : State) (g : Nat) (x : Group) : (s.setGroup g x).traffic = s.traffic := rfl
@[simp] theorem State.setGroup_chans (s : State) (g : Nat) (x : Group) : (s.setGroup g x).chans = s.chans := rfl
@[simp] theorem State.setGroup_mem (s : State) (g : Nat) (x : Group) : (s.setGroup g x).mem = s.mem := rfl
@[simp] theorem State.setGroup_sm (s : State) (g : Nat) (x : Group) : (s.setGroup g x).sm = s.sm := rfl
@[simp] theorem State.setGroup_integ (s : State) (g : Nat) (x : Group) : (s.setGroup g x).integ = s.integ := rfl
@[simp] theorem State.setGroup_power (s : State) (g : Nat) (x : Group) : (s.setGroup g x).power = s.power := rfl
@[simp] theorem State.setGroup_evts (s : State) (g : Nat) (x : Group) : (s.setGroup g x).evts = s.evts := rfl
@[simp] theorem State.setGroup_irq (s : State) (g : Nat) (x : Group) : (s.setGroup g x).irq = s.irq := rfl
@[simp] theorem State.setGroup_posts (s : State) (g : Nat) (x : Group) : (s.setGroup g x).posts = s.posts := rfl
@[simp] theorem State.setGroup_meas (s : State) (g : Nat) (x : Group) : (s.setGroup g x).meas = s.meas := rfl
@[simp] theorem State.setGroup_mbx (s : State) (g : Nat) (x : Group) : (s.setGroup g x).mbx = s.mbx := rfl
@[simp] theorem State.setGroup_squall (s : State) (g : Nat) (x : Group) : (s.setGroup g x).squall = s.squall := rfl
@[simp] theorem State.setGroup_freeCtr (s : State) (g : Nat) (x : Group) : (s.setGroup g x).freeCtr = s.freeCtr := rfl
@[simp] theorem State.setGroup_pending (s : State) (g : Nat) (x : Group) : (s.setGroup g x).pending = s.pending := rfl

/-! ### setChan -/

@[simp] theorem State.setChan_build (s : State) (ch : Nat) (x : Chan) : (s.setChan ch x).build = s.build := rfl
@[simp] theorem State.setChan_cclk (s : State) (ch : Nat) (x : Chan) : (s.setChan ch x).cclk = s.cclk := rfl
@[simp] theorem State.setChan_regs (s : State) (ch : Nat) (x : Chan) : (s.setChan ch x).regs = s.regs := rfl
@[simp] theorem State.setChan_pend (s : State) (ch : Nat) (x : Chan) : (s.setChan ch x).pend = s.pend := rfl
@[simp] theorem State.setChan_rdata (s : State) (ch : Nat) (x : Chan) : (s.setChan ch x).rdata = s.rdata := rfl
@[simp] theorem State.setChan_tick (s : State) (ch : Nat) (x : Chan) : (s.setChan ch x).tick = s.tick := rfl
@[simp] theorem State.setChan_gates (s : State) (ch : Nat) (x : Chan) : (s.setChan ch x).gates = s.gates := rfl
@[simp] theorem State.setChan_loader (s : State) (ch : Nat) (x : Chan) : (s.setChan ch x).loader = s.loader := rfl
@[simp] theorem State.setChan_authReq (s : State) (ch : Nat) (x : Chan) : (s.setChan ch x).authReq = s.authReq := rfl
@[simp] theorem State.setChan_conf (s : State) (ch : Nat) (x : Chan) : (s.setChan ch x).conf = s.conf := rfl
@[simp] theorem State.setChan_ports (s : State) (ch : Nat) (x : Chan) : (s.setChan ch x).ports = s.ports := rfl
@[simp] theorem State.setChan_groups (s : State) (ch : Nat) (x : Chan) : (s.setChan ch x).groups = s.groups := rfl
@[simp] theorem State.setChan_lines (s : State) (ch : Nat) (x : Chan) : (s.setChan ch x).lines = s.lines := rfl
@[simp] theorem State.setChan_useCtr (s : State) (ch : Nat) (x : Chan) : (s.setChan ch x).useCtr = s.useCtr := rfl
@[simp] theorem State.setChan_waits (s : State) (ch : Nat) (x : Chan) : (s.setChan ch x).waits = s.waits := rfl
@[simp] theorem State.setChan_nextId (s : State) (ch : Nat) (x : Chan) : (s.setChan ch x).nextId = s.nextId := rfl
@[simp] theorem State.setChan_subs (s : State) (ch : Nat) (x : Chan) : (s.setChan ch x).subs = s.subs := rfl
@[simp] theorem State.setChan_dec (s : State) (ch : Nat) (x : Chan) : (s.setChan ch x).dec = s.dec := rfl
@[simp] theorem State.setChan_retry (s : State) (ch : Nat) (x : Chan) : (s.setChan ch x).retry = s.retry := rfl
@[simp] theorem State.setChan_arr (s : State) (ch : Nat) (x : Chan) : (s.setChan ch x).arr = s.arr := rfl
@[simp] theorem State.setChan_enc (s : State) (ch : Nat) (x : Chan) : (s.setChan ch x).enc = s.enc := rfl
@[simp] theorem State.setChan_hdrWait (s : State) (ch : Nat) (x : Chan) : (s.setChan ch x).hdrWait = s.hdrWait := rfl
@[simp] theorem State.setChan_halves (s : State) (ch : Nat) (x : Chan) : (s.setChan ch x).halves = s.halves := rfl
@[simp] theorem State.setChan_bitsNow (s : State) (ch : Nat) (x : Chan) : (s.setChan ch x).bitsNow = s.bitsNow := rfl
@[simp] theorem State.setChan_now (s : State) (ch : Nat) (x : Chan) : (s.setChan ch x).now = s.now := rfl
@[simp] theorem State.setChan_snoops (s : State) (ch : Nat) (x : Chan) : (s.setChan ch x).snoops = s.snoops := rfl
@[simp] theorem State.setChan_snoopLast (s : State) (ch : Nat) (x : Chan) : (s.setChan ch x).snoopLast = s.snoopLast := rfl
@[simp] theorem State.setChan_hdrs (s : State) (ch : Nat) (x : Chan) : (s.setChan ch x).hdrs = s.hdrs := rfl
@[simp] theorem State.setChan_failed (s : State) (ch : Nat) (x : Chan) : (s.setChan ch x).failed = s.failed := rfl
@[simp] theorem State.setChan_traffic (s : State) (ch : Nat) (x : Chan) : (s.setChan ch x).traffic = s.traffic := rfl
@[simp] theorem State.setChan_mem (s : State) (ch : Nat) (x : Chan) : (s.setChan ch x).mem = s.mem := rfl
@[simp] theorem State.setChan_sm (s : State) (ch : Nat) (x : Chan) : (s.setChan ch x).sm = s.sm := rfl
@[simp] theorem State.setChan_integ (s : State) (ch : Nat) (x : Chan) : (s.setChan ch x).integ = s.integ := rfl
@[simp] theorem State.setChan_power (s : State) (ch : Nat) (x : Chan) : (s.setChan ch x).power = s.power := rfl
@[simp] theorem State.setChan_evts (s : State) (ch : Nat) (x : Chan) : (s.setChan ch x).evts = s.evts := rfl
@[simp] theorem State.setChan_irq (s : State) (ch : Nat) (x : Chan) : (s.setChan ch x).irq = s.irq := rfl
@[simp] theorem State.setChan_posts (s : State) (ch : Nat) (x : Chan) : (s.setChan ch x).posts = s.posts := rfl
@[simp] theorem State.setChan_meas (s : State) (ch : Nat) (x : Chan) : (s.setChan ch x).meas = s.meas := rfl
@[simp] theorem State.setChan_mbx (s : State) (ch : Nat) (x : Chan) : (s.setChan ch x).mbx = s.mbx := rfl
@[simp] theorem State.setChan_squall (s : State) (ch : Nat) (x : Chan) : (s.setChan ch x).squall = s.squall := rfl
@[simp] theorem State.setChan_freeCtr (s : State) (ch : Nat) (x : Chan) : (s.setChan ch x).freeCtr = s.freeCtr := rfl
@[simp] theorem State.setChan_pending (s : State) (ch : Nat) (x : Chan) : (s.setChan ch x).pending = s.pending := rfl

/-! ### setGate -/

@[simp] theorem State.setGate_build (s : State) (d : Nat) (x : Gate) : (s.setGate d x).build = s.build := rfl
@[simp] theorem State.setGate_cclk (s : State) (d : Nat) (x : Gate) : (s.setGate d x).cclk = s.cclk := rfl
@[simp] theorem State.setGate_regs (s : State) (d : Nat) (x : Gate) : (s.setGate d x).regs = s.regs := rfl
@[simp] theorem State.setGate_pend (s : State) (d : Nat) (x : Gate) : (s.setGate d x).pend = s.pend := rfl
@[simp] theorem State.setGate_rdata (s : State) (d : Nat) (x : Gate) : (s.setGate d x).rdata = s.rdata := rfl
@[simp] theorem State.setGate_tick (s : State) (d : Nat) (x : Gate) : (s.setGate d x).tick = s.tick := rfl
@[simp] theorem State.setGate_loader (s : State) (d : Nat) (x : Gate) : (s.setGate d x).loader = s.loader := rfl
@[simp] theorem State.setGate_authReq (s : State) (d : Nat) (x : Gate) : (s.setGate d x).authReq = s.authReq := rfl
@[simp] theorem State.setGate_conf (s : State) (d : Nat) (x : Gate) : (s.setGate d x).conf = s.conf := rfl
@[simp] theorem State.setGate_ports (s : State) (d : Nat) (x : Gate) : (s.setGate d x).ports = s.ports := rfl
@[simp] theorem State.setGate_groups (s : State) (d : Nat) (x : Gate) : (s.setGate d x).groups = s.groups := rfl
@[simp] theorem State.setGate_lines (s : State) (d : Nat) (x : Gate) : (s.setGate d x).lines = s.lines := rfl
@[simp] theorem State.setGate_useCtr (s : State) (d : Nat) (x : Gate) : (s.setGate d x).useCtr = s.useCtr := rfl
@[simp] theorem State.setGate_waits (s : State) (d : Nat) (x : Gate) : (s.setGate d x).waits = s.waits := rfl
@[simp] theorem State.setGate_nextId (s : State) (d : Nat) (x : Gate) : (s.setGate d x).nextId = s.nextId := rfl
@[simp] theorem State.setGate_subs (s : State) (d : Nat) (x : Gate) : (s.setGate d x).subs = s.subs := rfl
@[simp] theorem State.setGate_dec (s : State) (d : Nat) (x : Gate) : (s.setGate d x).dec = s.dec := rfl
@[simp] theorem State.setGate_retry (s : State) (d : Nat) (x : Gate) : (s.setGate d x).retry = s.retry := rfl
@[simp] theorem State.setGate_arr (s : State) (d : Nat) (x : Gate) : (s.setGate d x).arr = s.arr := rfl
@[simp] theorem State.setGate_enc (s : State) (d : Nat) (x : Gate) : (s.setGate d x).enc = s.enc := rfl
@[simp] theorem State.setGate_hdrWait (s : State) (d : Nat) (x : Gate) : (s.setGate d x).hdrWait = s.hdrWait := rfl
@[simp] theorem State.setGate_halves (s : State) (d : Nat) (x : Gate) : (s.setGate d x).halves = s.halves := rfl
@[simp] theorem State.setGate_bitsNow (s : State) (d : Nat) (x : Gate) : (s.setGate d x).bitsNow = s.bitsNow := rfl
@[simp] theorem State.setGate_now (s : State) (d : Nat) (x : Gate) : (s.setGate d x).now = s.now := rfl
@[simp] theorem State.setGate_snoops (s : State) (d : Nat) (x : Gate) : (s.setGate d x).snoops = s.snoops := rfl
@[simp] theorem State.setGate_snoopLast (s : State) (d : Nat) (x : Gate) : (s.setGate d x).snoopLast = s.snoopLast := rfl
@[simp] theorem State.setGate_hdrs (s : State) (d : Nat) (x : Gate) : (s.setGate d x).hdrs = s.hdrs := rfl
@[simp] theorem State.setGate_failed (s : State) (d : Nat) (x : Gate) : (s.setGate d x).failed = s.failed := rfl
@[simp] theorem State.setGate_traffic (s : State) (d : Nat) (x : Gate) : (s.setGate d x).traffic = s.traffic := rfl
@[simp] theorem State.setGate_chans (s : State) (d : Nat) (x : Gate) : (s.setGate d x).chans = s.chans := rfl
@[simp] theorem State.setGate_mem (s : State) (d : Nat) (x : Gate) : (s.setGate d x).mem = s.mem := rfl
@[simp] theorem State.setGate_sm (s : State) (d : Nat) (x : Gate) : (s.setGate d x).sm = s.sm := rfl
@[simp] theorem State.setGate_integ (s : State) (d : Nat) (x : Gate) : (s.setGate d x).integ = s.integ := rfl
@[simp] theorem State.setGate_power (s : State) (d : Nat) (x : Gate) : (s.setGate d x).power = s.power := rfl
@[simp] theorem State.setGate_evts (s : State) (d : Nat) (x : Gate) : (s.setGate d x).evts = s.evts := rfl
@[simp] theorem State.setGate_irq (s : State) (d : Nat) (x : Gate) : (s.setGate d x).irq = s.irq := rfl
@[simp] theorem State.setGate_posts (s : State) (d : Nat) (x : Gate) : (s.setGate d x).posts = s.posts := rfl
@[simp] theorem State.setGate_meas (s : State) (d : Nat) (x : Gate) : (s.setGate d x).meas = s.meas := rfl
@[simp] theorem State.setGate_mbx (s : State) (d : Nat) (x : Gate) : (s.setGate d x).mbx = s.mbx := rfl
@[simp] theorem State.setGate_squall (s : State) (d : Nat) (x : Gate) : (s.setGate d x).squall = s.squall := rfl
@[simp] theorem State.setGate_freeCtr (s : State) (d : Nat) (x : Gate) : (s.setGate d x).freeCtr = s.freeCtr := rfl
@[simp] theorem State.setGate_pending (s : State) (d : Nat) (x : Gate) : (s.setGate d x).pending = s.pending := rfl

/-! ### setEvt -/

@[simp] theorem State.setEvt_build (s : State) (g : Nat) (x : EvtGrp) : (s.setEvt g x).build = s.build := rfl
@[simp] theorem State.setEvt_cclk (s : State) (g : Nat) (x : EvtGrp) : (s.setEvt g x).cclk = s.cclk := rfl
@[simp] theorem State.setEvt_regs (s : State) (g : Nat) (x : EvtGrp) : (s.setEvt g x).regs = s.regs := rfl
@[simp] theorem State.setEvt_pend (s : State) (g : Nat) (x : EvtGrp) : (s.setEvt g x).pend = s.pend := rfl
@[simp] theorem State.setEvt_rdata (s : State) (g : Nat) (x : EvtGrp) : (s.setEvt g x).rdata = s.rdata := rfl
@[simp] theorem State.setEvt_tick (s : State) (g : Nat) (x : EvtGrp) : (s.setEvt g x).tick = s.tick := rfl
@[simp] theorem State.setEvt_gates (s : State) (g : Nat) (x : EvtGrp) : (s.setEvt g x).gates = s.gates := rfl
@[simp] theorem State.setEvt_loader (s : State) (g : Nat) (x : EvtGrp) : (s.setEvt g x).loader = s.loader := rfl
@[simp] theorem State.setEvt_authReq (s : State) (g : Nat) (x : EvtGrp) : (s.setEvt g x).authReq = s.authReq := rfl
@[simp] theorem State.setEvt_conf (s : State) (g : Nat) (x : EvtGrp) : (s.setEvt g x).conf = s.conf := rfl
@[simp] theorem State.setEvt_ports (s : State) (g : Nat) (x : EvtGrp) : (s.setEvt g x).ports = s.ports := rfl
@[simp] theorem State.setEvt_groups (s : State) (g : Nat) (x : EvtGrp) : (s.setEvt g x).groups = s.groups := rfl
@[simp] theorem State.setEvt_lines (s : State) (g : Nat) (x : EvtGrp) : (s.setEvt g x).lines = s.lines := rfl
@[simp] theorem State.setEvt_useCtr (s : State) (g : Nat) (x : EvtGrp) : (s.setEvt g x).useCtr = s.useCtr := rfl
@[simp] theorem State.setEvt_waits (s : State) (g : Nat) (x : EvtGrp) : (s.setEvt g x).waits = s.waits := rfl
@[simp] theorem State.setEvt_nextId (s : State) (g : Nat) (x : EvtGrp) : (s.setEvt g x).nextId = s.nextId := rfl
@[simp] theorem State.setEvt_subs (s : State) (g : Nat) (x : EvtGrp) : (s.setEvt g x).subs = s.subs := rfl
@[simp] theorem State.setEvt_dec (s : State) (g : Nat) (x : EvtGrp) : (s.setEvt g x).dec = s.dec := rfl
@[simp] theorem State.setEvt_retry (s : State) (g : Nat) (x : EvtGrp) : (s.setEvt g x).retry = s.retry := rfl
@[simp] theorem State.setEvt_arr (s : State) (g : Nat) (x : EvtGrp) : (s.setEvt g x).arr = s.arr := rfl
@[simp] theorem State.setEvt_enc (s : State) (g : Nat) (x : EvtGrp) : (s.setEvt g x).enc = s.enc := rfl
@[simp] theorem State.setEvt_hdrWait (s : State) (g : Nat) (x : EvtGrp) : (s.setEvt g x).hdrWait = s.hdrWait := rfl
@[simp] theorem State.setEvt_halves (s : State) (g : Nat) (x : EvtGrp) : (s.setEvt g x).halves = s.halves := rfl
@[simp] theorem State.setEvt_bitsNow (s : State) (g : Nat) (x : EvtGrp) : (s.setEvt g x).bitsNow = s.bitsNow := rfl
@[simp] theorem State.setEvt_now (s : State) (g : Nat) (x : EvtGrp) : (s.setEvt g x).now = s.now := rfl
@[simp] theorem State.setEvt_snoops (s : State) (g : Nat) (x : EvtGrp) : (s.setEvt g x).snoops = s.snoops := rfl
@[simp] theorem State.setEvt_snoopLast (s : State) (g : Nat) (x : EvtGrp) : (s.setEvt g x).snoopLast = s.snoopLast := rfl
@[simp] theorem State.setEvt_hdrs (s : State) (g : Nat) (x : EvtGrp) : (s.setEvt g x).hdrs = s.hdrs := rfl
@[simp] theorem State.setEvt_failed (s : State) (g : Nat) (x : EvtGrp) : (s.setEvt g x).failed = s.failed := rfl
@[simp] theorem State.setEvt_traffic (s : State) (g : Nat) (x : EvtGrp) : (s.setEvt g x).traffic = s.traffic := rfl
@[simp] theorem State.setEvt_chans (s : State) (g : Nat) (x : EvtGrp) : (s.setEvt g x).chans = s.chans := rfl
@[simp] theorem State.setEvt_mem (s : State) (g : Nat) (x : EvtGrp) : (s.setEvt g x).mem = s.mem := rfl
@[simp] theorem State.setEvt_sm (s : State) (g : Nat) (x : EvtGrp) : (s.setEvt g x).sm = s.sm := rfl
@[simp] theorem State.setEvt_integ (s : State) (g : Nat) (x : EvtGrp) : (s.setEvt g x).integ = s.integ := rfl
@[simp] theorem State.setEvt_power (s : State) (g : Nat) (x : EvtGrp) : (s.setEvt g x).power = s.power := rfl
@[simp] theorem State.setEvt_irq (s : State) (g : Nat) (x : EvtGrp) : (s.setEvt g x).irq = s.irq := rfl
@[simp] theorem State.setEvt_posts (s : State) (g : Nat) (x : EvtGrp) : (s.setEvt g x).posts = s.posts := rfl
@[simp] theorem State.setEvt_meas (s : State) (g : Nat) (x : EvtGrp) : (s.setEvt g x).meas = s.meas := rfl
@[simp] theorem State.setEvt_mbx (s : State) (g : Nat) (x : EvtGrp) : (s.setEvt g x).mbx = s.mbx := rfl
@[simp] theorem State.setEvt_squall (s : State) (g : Nat) (x : EvtGrp) : (s.setEvt g x).squall = s.squall := rfl
@[simp] theorem State.setEvt_freeCtr (s : State) (g : Nat) (x : EvtGrp) : (s.setEvt g x).freeCtr = s.freeCtr := rfl
@[simp] theorem State.setEvt_pending (s : State) (g : Nat) (x : EvtGrp) : (s.setEvt g x).pending = s.pending := rfl

/-! ### setSurf -/

@[simp] theorem State.setSurf_build (s : State) (i : Nat) (x : Surf) : (s.setSurf i x).build = s.build := rfl
@[simp] theorem State.setSurf_cclk (s : State) (i : Nat) (x : Surf) : (s.setSurf i x).cclk = s.cclk := rfl
@[simp] theorem State.setSurf_regs (s : State) (i : Nat) (x : Surf) : (s.setSurf i x).regs = s.regs := rfl
@[simp] theorem State.setSurf_pend (s : State) (i : Nat) (x : Surf) : (s.setSurf i x).pend = s.pend := rfl
@[simp] theorem State.setSurf_rdata (s : State) (i : Nat) (x : Surf) : (s.setSurf i x).rdata = s.rdata := rfl
@[simp] theorem State.setSurf_tick (s : State) (i : Nat) (x : Surf) : (s.setSurf i x).tick = s.tick := rfl
@[simp] theorem State.setSurf_gates (s : State) (i : Nat) (x : Surf) : (s.setSurf i x).gates = s.gates := rfl
@[simp] theorem State.setSurf_loader (s : State) (i : Nat) (x : Surf) : (s.setSurf i x).loader = s.loader := rfl
@[simp] theorem State.setSurf_authReq (s : State) (i : Nat) (x : Surf) : (s.setSurf i x).authReq = s.authReq := rfl
@[simp] theorem State.setSurf_conf (s : State) (i : Nat) (x : Surf) : (s.setSurf i x).conf = s.conf := rfl
@[simp] theorem State.setSurf_ports (s : State) (i : Nat) (x : Surf) : (s.setSurf i x).ports = s.ports := rfl
@[simp] theorem State.setSurf_groups (s : State) (i : Nat) (x : Surf) : (s.setSurf i x).groups = s.groups := rfl
@[simp] theorem State.setSurf_lines (s : State) (i : Nat) (x : Surf) : (s.setSurf i x).lines = s.lines := rfl
@[simp] theorem State.setSurf_useCtr (s : State) (i : Nat) (x : Surf) : (s.setSurf i x).useCtr = s.useCtr := rfl
@[simp] theorem State.setSurf_waits (s : State) (i : Nat) (x : Surf) : (s.setSurf i x).waits = s.waits := rfl
@[simp] theorem State.setSurf_nextId (s : State) (i : Nat) (x : Surf) : (s.setSurf i x).nextId = s.nextId := rfl
@[simp] theorem State.setSurf_subs (s : State) (i : Nat) (x : Surf) : (s.setSurf i x).subs = s.subs := rfl
@[simp] theorem State.setSurf_dec (s : State) (i : Nat) (x : Surf) : (s.setSurf i x).dec = s.dec := rfl
@[simp] theorem State.setSurf_retry (s : State) (i : Nat) (x : Surf) : (s.setSurf i x).retry = s.retry := rfl
@[simp] theorem State.setSurf_arr (s : State) (i : Nat) (x : Surf) : (s.setSurf i x).arr = s.arr := rfl
@[simp] theorem State.setSurf_enc (s : State) (i : Nat) (x : Surf) : (s.setSurf i x).enc = s.enc := rfl
@[simp] theorem State.setSurf_hdrWait (s : State) (i : Nat) (x : Surf) : (s.setSurf i x).hdrWait = s.hdrWait := rfl
@[simp] theorem State.setSurf_halves (s : State) (i : Nat) (x : Surf) : (s.setSurf i x).halves = s.halves := rfl
@[simp] theorem State.setSurf_bitsNow (s : State) (i : Nat) (x : Surf) : (s.setSurf i x).bitsNow = s.bitsNow := rfl
@[simp] theorem State.setSurf_now (s : State) (i : Nat) (x : Surf) : (s.setSurf i x).now = s.now := rfl
@[simp] theorem State.setSurf_snoops (s : State) (i : Nat) (x : Surf) : (s.setSurf i x).snoops = s.snoops := rfl
@[simp] theorem State.setSurf_snoopLast (s : State) (i : Nat) (x : Surf) : (s.setSurf i x).snoopLast = s.snoopLast := rfl
@[simp] theorem State.setSurf_hdrs (s : State) (i : Nat) (x : Surf) : (s.setSurf i x).hdrs = s.hdrs := rfl
@[simp] theorem State.setSurf_failed (s : State) (i : Nat) (x : Surf) : (s.setSurf i x).failed = s.failed := rfl
@[simp] theorem State.setSurf_traffic (s : State) (i : Nat) (x : Surf) : (s.setSurf i x).traffic = s.traffic := rfl
@[simp] theorem State.setSurf_chans (s : State) (i : Nat) (x : Surf) : (s.setSurf i x).chans = s.chans := rfl
@[simp] theorem State.setSurf_mem (s : State) (i : Nat) (x : Surf) : (s.setSurf i x).mem = s.mem := rfl
@[simp] theorem State.setSurf_integ (s : State) (i : Nat) (x : Surf) : (s.setSurf i x).integ = s.integ := rfl
@[simp] theorem State.setSurf_power (s : State) (i : Nat) (x : Surf) : (s.setSurf i x).power = s.power := rfl
@[simp] theorem State.setSurf_evts (s : State) (i : Nat) (x : Surf) : (s.setSurf i x).evts = s.evts := rfl
@[simp] theorem State.setSurf_irq (s : State) (i : Nat) (x : Surf) : (s.setSurf i x).irq = s.irq := rfl
@[simp] theorem State.setSurf_posts (s : State) (i : Nat) (x : Surf) : (s.setSurf i x).posts = s.posts := rfl
@[simp] theorem State.setSurf_meas (s : State) (i : Nat) (x : Surf) : (s.setSurf i x).meas = s.meas := rfl
@[simp] theorem State.setSurf_mbx (s : State) (i : Nat) (x : Surf) : (s.setSurf i x).mbx = s.mbx := rfl
@[simp] theorem State.setSurf_squall (s : State) (i : Nat) (x : Surf) : (s.setSurf i x).squall = s.squall := rfl
@[simp] theorem State.setSurf_freeCtr (s : State) (i : Nat) (x : Surf) : (s.setSurf i x).freeCtr = s.freeCtr := rfl
@[simp] theorem State.setSurf_pending (s : State) (i : Nat) (x : Surf) : (s.setSurf i x).pending = s.pending := rfl

/-! ### setLine -/

@[simp] theorem State.setLine_build (s : State) (g e : Nat) (x : Line) : (s.setLine g e x).build = s.build := rfl
@[simp] theorem State.setLine_cclk (s : State) (g e : Nat) (x : Line) : (s.setLine g e x).cclk = s.cclk := rfl
@[simp] theorem State.setLine_regs (s : State) (g e : Nat) (x : Line) : (s.setLine g e x).regs = s.regs := rfl
@[simp] theorem State.setLine_pend (s : State) (g e : Nat) (x : Line) : (s.setLine g e x).pend = s.pend := rfl
@[simp] theorem State.setLine_rdata (s : State) (g e : Nat) (x : Line) : (s.setLine g e x).rdata = s.rdata := rfl
@[simp] theorem State.setLine_tick (s : State) (g e : Nat) (x : Line) : (s.setLine g e x).tick = s.tick := rfl
@[simp] theorem State.setLine_gates (s : State) (g e : Nat) (x : Line) : (s.setLine g e x).gates = s.gates := rfl
@[simp] theorem State.setLine_loader (s : State) (g e : Nat) (x : Line) : (s.setLine g e x).loader = s.loader := rfl
@[simp] theorem State.setLine_authReq (s : State) (g e : Nat) (x : Line) : (s.setLine g e x).authReq = s.authReq := rfl
@[simp] theorem State.setLine_conf (s : State) (g e : Nat) (x : Line) : (s.setLine g e x).conf = s.conf := rfl
@[simp] theorem State.setLine_ports (s : State) (g e : Nat) (x : Line) : (s.setLine g e x).ports = s.ports := rfl
@[simp] theorem State.setLine_groups (s : State) (g e : Nat) (x : Line) : (s.setLine g e x).groups = s.groups := rfl
@[simp] theorem State.setLine_useCtr (s : State) (g e : Nat) (x : Line) : (s.setLine g e x).useCtr = s.useCtr := rfl
@[simp] theorem State.setLine_waits (s : State) (g e : Nat) (x : Line) : (s.setLine g e x).waits = s.waits := rfl
@[simp] theorem State.setLine_nextId (s : State) (g e : Nat) (x : Line) : (s.setLine g e x).nextId = s.nextId := rfl
@[simp] theorem State.setLine_subs (s : State) (g e : Nat) (x : Line) : (s.setLine g e x).subs = s.subs := rfl
@[simp] theorem State.setLine_dec (s : State) (g e : Nat) (x : Line) : (s.setLine g e x).dec = s.dec := rfl
@[simp] theorem State.setLine_retry (s : State) (g e : Nat) (x : Line) : (s.setLine g e x).retry = s.retry := rfl
@[simp] theorem State.setLine_arr (s : State) (g e : Nat) (x : Line) : (s.setLine g e x).arr = s.arr := rfl
@[simp] theorem State.setLine_enc (s : State) (g e : Nat) (x : Line) : (s.setLine g e x).enc = s.enc := rfl
@[simp] theorem State.setLine_hdrWait (s : State) (g e : Nat) (x : Line) : (s.setLine g e x).hdrWait = s.hdrWait := rfl
@[simp] theorem State.setLine_halves (s : State) (g e : Nat) (x : Line) : (s.setLine g e x).halves = s.halves := rfl
@[simp] theorem State.setLine_bitsNow (s : State) (g e : Nat) (x : Line) : (s.setLine g e x).bitsNow = s.bitsNow := rfl
@[simp] theorem State.setLine_now (s : State) (g e : Nat) (x : Line) : (s.setLine g e x).now = s.now := rfl
@[simp] theorem State.setLine_snoops (s : State) (g e : Nat) (x : Line) : (s.setLine g e x).snoops = s.snoops := rfl
@[simp] theorem State.setLine_snoopLast (s : State) (g e : Nat) (x : Line) : (s.setLine g e x).snoopLast = s.snoopLast := rfl
@[simp] theorem State.setLine_hdrs (s : State) (g e : Nat) (x : Line) : (s.setLine g e x).hdrs = s.hdrs := rfl
@[simp] theorem State.setLine_failed (s : State) (g e : Nat) (x : Line) : (s.setLine g e x).failed = s.failed := rfl
@[simp] theorem State.setLine_traffic (s : State) (g e : Nat) (x : Line) : (s.setLine g e x).traffic = s.traffic := rfl
@[simp] theorem State.setLine_chans (s : State) (g e : Nat) (x : Line) : (s.setLine g e x).chans = s.chans := rfl
@[simp] theorem State.setLine_mem (s : State) (g e : Nat) (x : Line) : (s.setLine g e x).mem = s.mem := rfl
@[simp] theorem State.setLine_sm (s : State) (g e : Nat) (x : Line) : (s.setLine g e x).sm = s.sm := rfl
@[simp] theorem State.setLine_integ (s : State) (g e : Nat) (x : Line) : (s.setLine g e x).integ = s.integ := rfl
@[simp] theorem State.setLine_power (s : State) (g e : Nat) (x : Line) : (s.setLine g e x).power = s.power := rfl
@[simp] theorem State.setLine_evts (s : State) (g e : Nat) (x : Line) : (s.setLine g e x).evts = s.evts := rfl
@[simp] theorem State.setLine_irq (s : State) (g e : Nat) (x : Line) : (s.setLine g e x).irq = s.irq := rfl
@[simp] theorem State.setLine_posts (s : State) (g e : Nat) (x : Line) : (s.setLine g e x).posts = s.posts := rfl
@[simp] theorem State.setLine_meas (s : State) (g e : Nat) (x : Line) : (s.setLine g e x).meas = s.meas := rfl
@[simp] theorem State.setLine_mbx (s : State) (g e : Nat) (x : Line) : (s.setLine g e x).mbx = s.mbx := rfl
@[simp] theorem State.setLine_squall (s : State) (g e : Nat) (x : Line) : (s.setLine g e x).squall = s.squall := rfl
@[simp] theorem State.setLine_freeCtr (s : State) (g e : Nat) (x : Line) : (s.setLine g e x).freeCtr = s.freeCtr := rfl
@[simp] theorem State.setLine_pending (s : State) (g e : Nat) (x : Line) : (s.setLine g e x).pending = s.pending := rfl

/-! ### raise -/

@[simp] theorem State.raise_build (s : State) (g n : Nat) : (s.raise g n).build = s.build := rfl
@[simp] theorem State.raise_cclk (s : State) (g n : Nat) : (s.raise g n).cclk = s.cclk := rfl
@[simp] theorem State.raise_regs (s : State) (g n : Nat) : (s.raise g n).regs = s.regs := rfl
@[simp] theorem State.raise_pend (s : State) (g n : Nat) : (s.raise g n).pend = s.pend := rfl
@[simp] theorem State.raise_rdata (s : State) (g n : Nat) : (s.raise g n).rdata = s.rdata := rfl
@[simp] theorem State.raise_tick (s : State) (g n : Nat) : (s.raise g n).tick = s.tick := rfl
@[simp] theorem State.raise_gates (s : State) (g n : Nat) : (s.raise g n).gates = s.gates := rfl
@[simp] theorem State.raise_loader (s : State) (g n : Nat) : (s.raise g n).loader = s.loader := rfl
@[simp] theorem State.raise_authReq (s : State) (g n : Nat) : (s.raise g n).authReq = s.authReq := rfl
@[simp] theorem State.raise_conf (s : State) (g n : Nat) : (s.raise g n).conf = s.conf := rfl
@[simp] theorem State.raise_ports (s : State) (g n : Nat) : (s.raise g n).ports = s.ports := rfl
@[simp] theorem State.raise_groups (s : State) (g n : Nat) : (s.raise g n).groups = s.groups := rfl
@[simp] theorem State.raise_lines (s : State) (g n : Nat) : (s.raise g n).lines = s.lines := rfl
@[simp] theorem State.raise_useCtr (s : State) (g n : Nat) : (s.raise g n).useCtr = s.useCtr := rfl
@[simp] theorem State.raise_waits (s : State) (g n : Nat) : (s.raise g n).waits = s.waits := rfl
@[simp] theorem State.raise_nextId (s : State) (g n : Nat) : (s.raise g n).nextId = s.nextId := rfl
@[simp] theorem State.raise_subs (s : State) (g n : Nat) : (s.raise g n).subs = s.subs := rfl
@[simp] theorem State.raise_dec (s : State) (g n : Nat) : (s.raise g n).dec = s.dec := rfl
@[simp] theorem State.raise_retry (s : State) (g n : Nat) : (s.raise g n).retry = s.retry := rfl
@[simp] theorem State.raise_arr (s : State) (g n : Nat) : (s.raise g n).arr = s.arr := rfl
@[simp] theorem State.raise_enc (s : State) (g n : Nat) : (s.raise g n).enc = s.enc := rfl
@[simp] theorem State.raise_hdrWait (s : State) (g n : Nat) : (s.raise g n).hdrWait = s.hdrWait := rfl
@[simp] theorem State.raise_halves (s : State) (g n : Nat) : (s.raise g n).halves = s.halves := rfl
@[simp] theorem State.raise_bitsNow (s : State) (g n : Nat) : (s.raise g n).bitsNow = s.bitsNow := rfl
@[simp] theorem State.raise_now (s : State) (g n : Nat) : (s.raise g n).now = s.now := rfl
@[simp] theorem State.raise_snoops (s : State) (g n : Nat) : (s.raise g n).snoops = s.snoops := rfl
@[simp] theorem State.raise_snoopLast (s : State) (g n : Nat) : (s.raise g n).snoopLast = s.snoopLast := rfl
@[simp] theorem State.raise_hdrs (s : State) (g n : Nat) : (s.raise g n).hdrs = s.hdrs := rfl
@[simp] theorem State.raise_failed (s : State) (g n : Nat) : (s.raise g n).failed = s.failed := rfl
@[simp] theorem State.raise_traffic (s : State) (g n : Nat) : (s.raise g n).traffic = s.traffic := rfl
@[simp] theorem State.raise_chans (s : State) (g n : Nat) : (s.raise g n).chans = s.chans := rfl
@[simp] theorem State.raise_mem (s : State) (g n : Nat) : (s.raise g n).mem = s.mem := rfl
@[simp] theorem State.raise_sm (s : State) (g n : Nat) : (s.raise g n).sm = s.sm := rfl
@[simp] theorem State.raise_integ (s : State) (g n : Nat) : (s.raise g n).integ = s.integ := rfl
@[simp] theorem State.raise_power (s : State) (g n : Nat) : (s.raise g n).power = s.power := rfl
@[simp] theorem State.raise_irq (s : State) (g n : Nat) : (s.raise g n).irq = s.irq := rfl
@[simp] theorem State.raise_posts (s : State) (g n : Nat) : (s.raise g n).posts = s.posts := rfl
@[simp] theorem State.raise_meas (s : State) (g n : Nat) : (s.raise g n).meas = s.meas := rfl
@[simp] theorem State.raise_mbx (s : State) (g n : Nat) : (s.raise g n).mbx = s.mbx := rfl
@[simp] theorem State.raise_squall (s : State) (g n : Nat) : (s.raise g n).squall = s.squall := rfl
@[simp] theorem State.raise_freeCtr (s : State) (g n : Nat) : (s.raise g n).freeCtr = s.freeCtr := rfl
@[simp] theorem State.raise_pending (s : State) (g n : Nat) : (s.raise g n).pending = s.pending := rfl

/-! ### raisePriv -/

@[simp] theorem State.raisePriv_build (s : State) (t n : Nat) : (s.raisePriv t n).build = s.build := rfl
@[simp] theorem State.raisePriv_cclk (s : State) (t n : Nat) : (s.raisePriv t n).cclk = s.cclk := rfl
@[simp] theorem State.raisePriv_regs (s : State) (t n : Nat) : (s.raisePriv t n).regs = s.regs := rfl
@[simp] theorem State.raisePriv_pend (s : State) (t n : Nat) : (s.raisePriv t n).pend = s.pend := rfl
@[simp] theorem State.raisePriv_rdata (s : State) (t n : Nat) : (s.raisePriv t n).rdata = s.rdata := rfl
@[simp] theorem State.raisePriv_tick (s : State) (t n : Nat) : (s.raisePriv t n).tick = s.tick := rfl
@[simp] theorem State.raisePriv_gates (s : State) (t n : Nat) : (s.raisePriv t n).gates = s.gates := rfl
@[simp] theorem State.raisePriv_loader (s : State) (t n : Nat) : (s.raisePriv t n).loader = s.loader := rfl
@[simp] theorem State.raisePriv_authReq (s : State) (t n : Nat) : (s.raisePriv t n).authReq = s.authReq := rfl
@[simp] theorem State.raisePriv_conf (s : State) (t n : Nat) : (s.raisePriv t n).conf = s.conf := rfl
@[simp] theorem State.raisePriv_ports (s : State) (t n : Nat) : (s.raisePriv t n).ports = s.ports := rfl
@[simp] theorem State.raisePriv_groups (s : State) (t n : Nat) : (s.raisePriv t n).groups = s.groups := rfl
@[simp] theorem State.raisePriv_lines (s : State) (t n : Nat) : (s.raisePriv t n).lines = s.lines := rfl
@[simp] theorem State.raisePriv_useCtr (s : State) (t n : Nat) : (s.raisePriv t n).useCtr = s.useCtr := rfl
@[simp] theorem State.raisePriv_waits (s : State) (t n : Nat) : (s.raisePriv t n).waits = s.waits := rfl
@[simp] theorem State.raisePriv_nextId (s : State) (t n : Nat) : (s.raisePriv t n).nextId = s.nextId := rfl
@[simp] theorem State.raisePriv_subs (s : State) (t n : Nat) : (s.raisePriv t n).subs = s.subs := rfl
@[simp] theorem State.raisePriv_dec (s : State) (t n : Nat) : (s.raisePriv t n).dec = s.dec := rfl
@[simp] theorem State.raisePriv_retry (s : State) (t n : Nat) : (s.raisePriv t n).retry = s.retry := rfl
@[simp] theorem State.raisePriv_arr (s : State) (t n : Nat) : (s.raisePriv t n).arr = s.arr := rfl
@[simp] theorem State.raisePriv_enc (s : State) (t n : Nat) : (s.raisePriv t n).enc = s.enc := rfl
@[simp] theorem State.raisePriv_hdrWait (s : State) (t n : Nat) : (s.raisePriv t n).hdrWait = s.hdrWait := rfl
@[simp] theorem State.raisePriv_halves (s : State) (t n : Nat) : (s.raisePriv t n).halves = s.halves := rfl
@[simp] theorem State.raisePriv_bitsNow (s : State) (t n : Nat) : (s.raisePriv t n).bitsNow = s.bitsNow := rfl
@[simp] theorem State.raisePriv_now (s : State) (t n : Nat) : (s.raisePriv t n).now = s.now := rfl
@[simp] theorem State.raisePriv_snoops (s : State) (t n : Nat) : (s.raisePriv t n).snoops = s.snoops := rfl
@[simp] theorem State.raisePriv_snoopLast (s : State) (t n : Nat) : (s.raisePriv t n).snoopLast = s.snoopLast := rfl
@[simp] theorem State.raisePriv_hdrs (s : State) (t n : Nat) : (s.raisePriv t n).hdrs = s.hdrs := rfl
@[simp] theorem State.raisePriv_failed (s : State) (t n : Nat) : (s.raisePriv t n).failed = s.failed := rfl
@[simp] theorem State.raisePriv_traffic (s : State) (t n : Nat) : (s.raisePriv t n).traffic = s.traffic := rfl
@[simp] theorem State.raisePriv_chans (s : State) (t n : Nat) : (s.raisePriv t n).chans = s.chans := rfl
@[simp] theorem State.raisePriv_mem (s : State) (t n : Nat) : (s.raisePriv t n).mem = s.mem := rfl
@[simp] theorem State.raisePriv_sm (s : State) (t n : Nat) : (s.raisePriv t n).sm = s.sm := rfl
@[simp] theorem State.raisePriv_integ (s : State) (t n : Nat) : (s.raisePriv t n).integ = s.integ := rfl
@[simp] theorem State.raisePriv_power (s : State) (t n : Nat) : (s.raisePriv t n).power = s.power := rfl
@[simp] theorem State.raisePriv_irq (s : State) (t n : Nat) : (s.raisePriv t n).irq = s.irq := rfl
@[simp] theorem State.raisePriv_posts (s : State) (t n : Nat) : (s.raisePriv t n).posts = s.posts := rfl
@[simp] theorem State.raisePriv_meas (s : State) (t n : Nat) : (s.raisePriv t n).meas = s.meas := rfl
@[simp] theorem State.raisePriv_mbx (s : State) (t n : Nat) : (s.raisePriv t n).mbx = s.mbx := rfl
@[simp] theorem State.raisePriv_squall (s : State) (t n : Nat) : (s.raisePriv t n).squall = s.squall := rfl
@[simp] theorem State.raisePriv_freeCtr (s : State) (t n : Nat) : (s.raisePriv t n).freeCtr = s.freeCtr := rfl
@[simp] theorem State.raisePriv_pending (s : State) (t n : Nat) : (s.raisePriv t n).pending = s.pending := rfl

/-! ### raisePort -/

@[simp] theorem State.raisePort_build (s : State) (p : Nat) : (s.raisePort p).build = s.build := rfl
@[simp] theorem State.raisePort_cclk (s : State) (p : Nat) : (s.raisePort p).cclk = s.cclk := rfl
@[simp] theorem State.raisePort_regs (s : State) (p : Nat) : (s.raisePort p).regs = s.regs := rfl
@[simp] theorem State.raisePort_pend (s : State) (p : Nat) : (s.raisePort p).pend = s.pend := rfl
@[simp] theorem State.raisePort_rdata (s : State) (p : Nat) : (s.raisePort p).rdata = s.rdata := rfl
@[simp] theorem State.raisePort_tick (s : State) (p : Nat) : (s.raisePort p).tick = s.tick := rfl
@[simp] theorem State.raisePort_gates (s : State) (p : Nat) : (s.raisePort p).gates = s.gates := rfl
@[simp] theorem State.raisePort_loader (s : State) (p : Nat) : (s.raisePort p).loader = s.loader := rfl
@[simp] theorem State.raisePort_authReq (s : State) (p : Nat) : (s.raisePort p).authReq = s.authReq := rfl
@[simp] theorem State.raisePort_conf (s : State) (p : Nat) : (s.raisePort p).conf = s.conf := rfl
@[simp] theorem State.raisePort_ports (s : State) (p : Nat) : (s.raisePort p).ports = s.ports := rfl
@[simp] theorem State.raisePort_groups (s : State) (p : Nat) : (s.raisePort p).groups = s.groups := rfl
@[simp] theorem State.raisePort_lines (s : State) (p : Nat) : (s.raisePort p).lines = s.lines := rfl
@[simp] theorem State.raisePort_useCtr (s : State) (p : Nat) : (s.raisePort p).useCtr = s.useCtr := rfl
@[simp] theorem State.raisePort_waits (s : State) (p : Nat) : (s.raisePort p).waits = s.waits := rfl
@[simp] theorem State.raisePort_nextId (s : State) (p : Nat) : (s.raisePort p).nextId = s.nextId := rfl
@[simp] theorem State.raisePort_subs (s : State) (p : Nat) : (s.raisePort p).subs = s.subs := rfl
@[simp] theorem State.raisePort_dec (s : State) (p : Nat) : (s.raisePort p).dec = s.dec := rfl
@[simp] theorem State.raisePort_retry (s : State) (p : Nat) : (s.raisePort p).retry = s.retry := rfl
@[simp] theorem State.raisePort_arr (s : State) (p : Nat) : (s.raisePort p).arr = s.arr := rfl
@[simp] theorem State.raisePort_enc (s : State) (p : Nat) : (s.raisePort p).enc = s.enc := rfl
@[simp] theorem State.raisePort_hdrWait (s : State) (p : Nat) : (s.raisePort p).hdrWait = s.hdrWait := rfl
@[simp] theorem State.raisePort_halves (s : State) (p : Nat) : (s.raisePort p).halves = s.halves := rfl
@[simp] theorem State.raisePort_bitsNow (s : State) (p : Nat) : (s.raisePort p).bitsNow = s.bitsNow := rfl
@[simp] theorem State.raisePort_now (s : State) (p : Nat) : (s.raisePort p).now = s.now := rfl
@[simp] theorem State.raisePort_snoops (s : State) (p : Nat) : (s.raisePort p).snoops = s.snoops := rfl
@[simp] theorem State.raisePort_snoopLast (s : State) (p : Nat) : (s.raisePort p).snoopLast = s.snoopLast := rfl
@[simp] theorem State.raisePort_hdrs (s : State) (p : Nat) : (s.raisePort p).hdrs = s.hdrs := rfl
@[simp] theorem State.raisePort_failed (s : State) (p : Nat) : (s.raisePort p).failed = s.failed := rfl
@[simp] theorem State.raisePort_traffic (s : State) (p : Nat) : (s.raisePort p).traffic = s.traffic := rfl
@[simp] theorem State.raisePort_chans (s : State) (p : Nat) : (s.raisePort p).chans = s.chans := rfl
@[simp] theorem State.raisePort_mem (s : State) (p : Nat) : (s.raisePort p).mem = s.mem := rfl
@[simp] theorem State.raisePort_sm (s : State) (p : Nat) : (s.raisePort p).sm = s.sm := rfl
@[simp] theorem State.raisePort_integ (s : State) (p : Nat) : (s.raisePort p).integ = s.integ := rfl
@[simp] theorem State.raisePort_power (s : State) (p : Nat) : (s.raisePort p).power = s.power := rfl
@[simp] theorem State.raisePort_irq (s : State) (p : Nat) : (s.raisePort p).irq = s.irq := rfl
@[simp] theorem State.raisePort_posts (s : State) (p : Nat) : (s.raisePort p).posts = s.posts := rfl
@[simp] theorem State.raisePort_meas (s : State) (p : Nat) : (s.raisePort p).meas = s.meas := rfl
@[simp] theorem State.raisePort_mbx (s : State) (p : Nat) : (s.raisePort p).mbx = s.mbx := rfl
@[simp] theorem State.raisePort_squall (s : State) (p : Nat) : (s.raisePort p).squall = s.squall := rfl
@[simp] theorem State.raisePort_freeCtr (s : State) (p : Nat) : (s.raisePort p).freeCtr = s.freeCtr := rfl
@[simp] theorem State.raisePort_pending (s : State) (p : Nat) : (s.raisePort p).pending = s.pending := rfl

/-! ### raiseChan -/

@[simp] theorem State.raiseChan_build (s : State) (b ch : Nat) : (s.raiseChan b ch).build = s.build := rfl
@[simp] theorem State.raiseChan_cclk (s : State) (b ch : Nat) : (s.raiseChan b ch).cclk = s.cclk := rfl
@[simp] theorem State.raiseChan_regs (s : State) (b ch : Nat) : (s.raiseChan b ch).regs = s.regs := rfl
@[simp] theorem State.raiseChan_pend (s : State) (b ch : Nat) : (s.raiseChan b ch).pend = s.pend := rfl
@[simp] theorem State.raiseChan_rdata (s : State) (b ch : Nat) : (s.raiseChan b ch).rdata = s.rdata := rfl
@[simp] theorem State.raiseChan_tick (s : State) (b ch : Nat) : (s.raiseChan b ch).tick = s.tick := rfl
@[simp] theorem State.raiseChan_gates (s : State) (b ch : Nat) : (s.raiseChan b ch).gates = s.gates := rfl
@[simp] theorem State.raiseChan_loader (s : State) (b ch : Nat) : (s.raiseChan b ch).loader = s.loader := rfl
@[simp] theorem State.raiseChan_authReq (s : State) (b ch : Nat) : (s.raiseChan b ch).authReq = s.authReq := rfl
@[simp] theorem State.raiseChan_conf (s : State) (b ch : Nat) : (s.raiseChan b ch).conf = s.conf := rfl
@[simp] theorem State.raiseChan_ports (s : State) (b ch : Nat) : (s.raiseChan b ch).ports = s.ports := rfl
@[simp] theorem State.raiseChan_groups (s : State) (b ch : Nat) : (s.raiseChan b ch).groups = s.groups := rfl
@[simp] theorem State.raiseChan_lines (s : State) (b ch : Nat) : (s.raiseChan b ch).lines = s.lines := rfl
@[simp] theorem State.raiseChan_useCtr (s : State) (b ch : Nat) : (s.raiseChan b ch).useCtr = s.useCtr := rfl
@[simp] theorem State.raiseChan_waits (s : State) (b ch : Nat) : (s.raiseChan b ch).waits = s.waits := rfl
@[simp] theorem State.raiseChan_nextId (s : State) (b ch : Nat) : (s.raiseChan b ch).nextId = s.nextId := rfl
@[simp] theorem State.raiseChan_subs (s : State) (b ch : Nat) : (s.raiseChan b ch).subs = s.subs := rfl
@[simp] theorem State.raiseChan_dec (s : State) (b ch : Nat) : (s.raiseChan b ch).dec = s.dec := rfl
@[simp] theorem State.raiseChan_retry (s : State) (b ch : Nat) : (s.raiseChan b ch).retry = s.retry := rfl
@[simp] theorem State.raiseChan_arr (s : State) (b ch : Nat) : (s.raiseChan b ch).arr = s.arr := rfl
@[simp] theorem State.raiseChan_enc (s : State) (b ch : Nat) : (s.raiseChan b ch).enc = s.enc := rfl
@[simp] theorem State.raiseChan_hdrWait (s : State) (b ch : Nat) : (s.raiseChan b ch).hdrWait = s.hdrWait := rfl
@[simp] theorem State.raiseChan_halves (s : State) (b ch : Nat) : (s.raiseChan b ch).halves = s.halves := rfl
@[simp] theorem State.raiseChan_bitsNow (s : State) (b ch : Nat) : (s.raiseChan b ch).bitsNow = s.bitsNow := rfl
@[simp] theorem State.raiseChan_now (s : State) (b ch : Nat) : (s.raiseChan b ch).now = s.now := rfl
@[simp] theorem State.raiseChan_snoops (s : State) (b ch : Nat) : (s.raiseChan b ch).snoops = s.snoops := rfl
@[simp] theorem State.raiseChan_snoopLast (s : State) (b ch : Nat) : (s.raiseChan b ch).snoopLast = s.snoopLast := rfl
@[simp] theorem State.raiseChan_hdrs (s : State) (b ch : Nat) : (s.raiseChan b ch).hdrs = s.hdrs := rfl
@[simp] theorem State.raiseChan_failed (s : State) (b ch : Nat) : (s.raiseChan b ch).failed = s.failed := rfl
@[simp] theorem State.raiseChan_traffic (s : State) (b ch : Nat) : (s.raiseChan b ch).traffic = s.traffic := rfl
@[simp] theorem State.raiseChan_chans (s : State) (b ch : Nat) : (s.raiseChan b ch).chans = s.chans := rfl
@[simp] theorem State.raiseChan_mem (s : State) (b ch : Nat) : (s.raiseChan b ch).mem = s.mem := rfl
@[simp] theorem State.raiseChan_sm (s : State) (b ch : Nat) : (s.raiseChan b ch).sm = s.sm := rfl
@[simp] theorem State.raiseChan_integ (s : State) (b ch : Nat) : (s.raiseChan b ch).integ = s.integ := rfl
@[simp] theorem State.raiseChan_power (s : State) (b ch : Nat) : (s.raiseChan b ch).power = s.power := rfl
@[simp] theorem State.raiseChan_irq (s : State) (b ch : Nat) : (s.raiseChan b ch).irq = s.irq := rfl
@[simp] theorem State.raiseChan_posts (s : State) (b ch : Nat) : (s.raiseChan b ch).posts = s.posts := rfl
@[simp] theorem State.raiseChan_meas (s : State) (b ch : Nat) : (s.raiseChan b ch).meas = s.meas := rfl
@[simp] theorem State.raiseChan_mbx (s : State) (b ch : Nat) : (s.raiseChan b ch).mbx = s.mbx := rfl
@[simp] theorem State.raiseChan_squall (s : State) (b ch : Nat) : (s.raiseChan b ch).squall = s.squall := rfl
@[simp] theorem State.raiseChan_freeCtr (s : State) (b ch : Nat) : (s.raiseChan b ch).freeCtr = s.freeCtr := rfl
@[simp] theorem State.raiseChan_pending (s : State) (b ch : Nat) : (s.raiseChan b ch).pending = s.pending := rfl

/-! ### count -/

@[simp] theorem State.count_build (s : State) (o : Occ) : (s.count o).build = s.build := rfl
@[simp] theorem State.count_cclk (s : State) (o : Occ) : (s.count o).cclk = s.cclk := rfl
@[simp] theorem State.count_regs (s : State) (o : Occ) : (s.count o).regs = s.regs := rfl
@[simp] theorem State.count_pend (s : State) (o : Occ) : (s.count o).pend = s.pend := rfl
@[simp] theorem State.count_rdata (s : State) (o : Occ) : (s.count o).rdata = s.rdata := rfl
@[simp] theorem State.count_tick (s : State) (o : Occ) : (s.count o).tick = s.tick := rfl
@[simp] theorem State.count_gates (s : State) (o : Occ) : (s.count o).gates = s.gates := rfl
@[simp] theorem State.count_loader (s : State) (o : Occ) : (s.count o).loader = s.loader := rfl
@[simp] theorem State.count_authReq (s : State) (o : Occ) : (s.count o).authReq = s.authReq := rfl
@[simp] theorem State.count_conf (s : State) (o : Occ) : (s.count o).conf = s.conf := rfl
@[simp] theorem State.count_ports (s : State) (o : Occ) : (s.count o).ports = s.ports := rfl
@[simp] theorem State.count_groups (s : State) (o : Occ) : (s.count o).groups = s.groups := rfl
@[simp] theorem State.count_lines (s : State) (o : Occ) : (s.count o).lines = s.lines := rfl
@[simp] theorem State.count_useCtr (s : State) (o : Occ) : (s.count o).useCtr = s.useCtr := rfl
@[simp] theorem State.count_waits (s : State) (o : Occ) : (s.count o).waits = s.waits := rfl
@[simp] theorem State.count_nextId (s : State) (o : Occ) : (s.count o).nextId = s.nextId := rfl
@[simp] theorem State.count_subs (s : State) (o : Occ) : (s.count o).subs = s.subs := rfl
@[simp] theorem State.count_dec (s : State) (o : Occ) : (s.count o).dec = s.dec := rfl
@[simp] theorem State.count_retry (s : State) (o : Occ) : (s.count o).retry = s.retry := rfl
@[simp] theorem State.count_arr (s : State) (o : Occ) : (s.count o).arr = s.arr := rfl
@[simp] theorem State.count_enc (s : State) (o : Occ) : (s.count o).enc = s.enc := rfl
@[simp] theorem State.count_hdrWait (s : State) (o : Occ) : (s.count o).hdrWait = s.hdrWait := rfl
@[simp] theorem State.count_halves (s : State) (o : Occ) : (s.count o).halves = s.halves := rfl
@[simp] theorem State.count_bitsNow (s : State) (o : Occ) : (s.count o).bitsNow = s.bitsNow := rfl
@[simp] theorem State.count_now (s : State) (o : Occ) : (s.count o).now = s.now := rfl
@[simp] theorem State.count_snoops (s : State) (o : Occ) : (s.count o).snoops = s.snoops := rfl
@[simp] theorem State.count_snoopLast (s : State) (o : Occ) : (s.count o).snoopLast = s.snoopLast := rfl
@[simp] theorem State.count_hdrs (s : State) (o : Occ) : (s.count o).hdrs = s.hdrs := rfl
@[simp] theorem State.count_failed (s : State) (o : Occ) : (s.count o).failed = s.failed := rfl
@[simp] theorem State.count_traffic (s : State) (o : Occ) : (s.count o).traffic = s.traffic := rfl
@[simp] theorem State.count_chans (s : State) (o : Occ) : (s.count o).chans = s.chans := rfl
@[simp] theorem State.count_mem (s : State) (o : Occ) : (s.count o).mem = s.mem := rfl
@[simp] theorem State.count_sm (s : State) (o : Occ) : (s.count o).sm = s.sm := rfl
@[simp] theorem State.count_integ (s : State) (o : Occ) : (s.count o).integ = s.integ := rfl
@[simp] theorem State.count_power (s : State) (o : Occ) : (s.count o).power = s.power := rfl
@[simp] theorem State.count_evts (s : State) (o : Occ) : (s.count o).evts = s.evts := rfl
@[simp] theorem State.count_irq (s : State) (o : Occ) : (s.count o).irq = s.irq := rfl
@[simp] theorem State.count_posts (s : State) (o : Occ) : (s.count o).posts = s.posts := rfl
@[simp] theorem State.count_mbx (s : State) (o : Occ) : (s.count o).mbx = s.mbx := rfl
@[simp] theorem State.count_squall (s : State) (o : Occ) : (s.count o).squall = s.squall := rfl
@[simp] theorem State.count_freeCtr (s : State) (o : Occ) : (s.count o).freeCtr = s.freeCtr := rfl
@[simp] theorem State.count_pending (s : State) (o : Occ) : (s.count o).pending = s.pending := rfl

/-! ### The units of a state -/

@[simp] theorem State.setPort_port_self (s : State) (p : Nat) (x : Port) : (s.setPort p x).port p = x := by
  simp [State.setPort, State.port]
theorem State.setPort_port_ne (s : State) {p n : Nat} (h : n ≠ p) (x : Port) : (s.setPort p x).port n = s.port n := by
  simp [State.setPort, State.port, Tab.get_insert_ne h]
@[simp] theorem State.wr_port (s : State) (f : Fld) (i j v : Nat) (z : Nat) : (s.wr f i j v).port z = s.port z := rfl
@[simp] theorem State.setBit_port (s : State) (f : Fld) (i j : Nat) (z : Nat) : (s.setBit f i j).port z = s.port z := rfl
@[simp] theorem State.bump_port (s : State) (f : Fld) (i j n : Nat) (z : Nat) : (s.bump f i j n).port z = s.port z := rfl
@[simp] theorem State.setGroup_port (s : State) (g : Nat) (x : Group) (z : Nat) : (s.setGroup g x).port z = s.port z := rfl
@[simp] theorem State.setChan_port (s : State) (ch : Nat) (x : Chan) (z : Nat) : (s.setChan ch x).port z = s.port z := rfl
@[simp] theorem State.setGate_port (s : State) (d : Nat) (x : Gate) (z : Nat) : (s.setGate d x).port z = s.port z := rfl
@[simp] theorem State.setEvt_port (s : State) (g : Nat) (x : EvtGrp) (z : Nat) : (s.setEvt g x).port z = s.port z := rfl
@[simp] theorem State.setSurf_port (s : State) (i : Nat) (x : Surf) (z : Nat) : (s.setSurf i x).port z = s.port z := rfl
@[simp] theorem State.setLine_port (s : State) (g e : Nat) (x : Line) (z : Nat) : (s.setLine g e x).port z = s.port z := rfl
@[simp] theorem State.raise_port (s : State) (g n : Nat) (z : Nat) : (s.raise g n).port z = s.port z := rfl
@[simp] theorem State.raisePriv_port (s : State) (t n : Nat) (z : Nat) : (s.raisePriv t n).port z = s.port z := rfl
@[simp] theorem State.raisePort_port (s : State) (p : Nat) (z : Nat) : (s.raisePort p).port z = s.port z := rfl
@[simp] theorem State.raiseChan_port (s : State) (b ch : Nat) (z : Nat) : (s.raiseChan b ch).port z = s.port z := rfl
@[simp] theorem State.count_port (s : State) (o : Occ) (z : Nat) : (s.count o).port z = s.port z := rfl
@[simp] theorem State.setGroup_group_self (s : State) (g : Nat) (x : Group) : (s.setGroup g x).group g = x := by
  simp [State.setGroup, State.group]
theorem State.setGroup_group_ne (s : State) {g n : Nat} (h : n ≠ g) (x : Group) : (s.setGroup g x).group n = s.group n := by
  simp [State.setGroup, State.group, Tab.get_insert_ne h]
@[simp] theorem State.wr_group (s : State) (f : Fld) (i j v : Nat) (z : Nat) : (s.wr f i j v).group z = s.group z := rfl
@[simp] theorem State.setBit_group (s : State) (f : Fld) (i j : Nat) (z : Nat) : (s.setBit f i j).group z = s.group z := rfl
@[simp] theorem State.bump_group (s : State) (f : Fld) (i j n : Nat) (z : Nat) : (s.bump f i j n).group z = s.group z := rfl
@[simp] theorem State.setPort_group (s : State) (p : Nat) (x : Port) (z : Nat) : (s.setPort p x).group z = s.group z := rfl
@[simp] theorem State.setChan_group (s : State) (ch : Nat) (x : Chan) (z : Nat) : (s.setChan ch x).group z = s.group z := rfl
@[simp] theorem State.setGate_group (s : State) (d : Nat) (x : Gate) (z : Nat) : (s.setGate d x).group z = s.group z := rfl
@[simp] theorem State.setEvt_group (s : State) (g : Nat) (x : EvtGrp) (z : Nat) : (s.setEvt g x).group z = s.group z := rfl
@[simp] theorem State.setSurf_group (s : State) (i : Nat) (x : Surf) (z : Nat) : (s.setSurf i x).group z = s.group z := rfl
@[simp] theorem State.setLine_group (s : State) (g e : Nat) (x : Line) (z : Nat) : (s.setLine g e x).group z = s.group z := rfl
@[simp] theorem State.raise_group (s : State) (g n : Nat) (z : Nat) : (s.raise g n).group z = s.group z := rfl
@[simp] theorem State.raisePriv_group (s : State) (t n : Nat) (z : Nat) : (s.raisePriv t n).group z = s.group z := rfl
@[simp] theorem State.raisePort_group (s : State) (p : Nat) (z : Nat) : (s.raisePort p).group z = s.group z := rfl
@[simp] theorem State.raiseChan_group (s : State) (b ch : Nat) (z : Nat) : (s.raiseChan b ch).group z = s.group z := rfl
@[simp] theorem State.count_group (s : State) (o : Occ) (z : Nat) : (s.count o).group z = s.group z := rfl
@[simp] theorem State.setChan_chan_self (s : State) (ch : Nat) (x : Chan) : (s.setChan ch x).chan ch = x := by
  simp [State.setChan, State.chan]
theorem State.setChan_chan_ne (s : State) {ch n : Nat} (h : n ≠ ch) (x : Chan) : (s.setChan ch x).chan n = s.chan n := by
  simp [State.setChan, State.chan, Tab.get_insert_ne h]
@[simp] theorem State.wr_chan (s : State) (f : Fld) (i j v : Nat) (z : Nat) : (s.wr f i j v).chan z = s.chan z := rfl
@[simp] theorem State.setBit_chan (s : State) (f : Fld) (i j : Nat) (z : Nat) : (s.setBit f i j).chan z = s.chan z := rfl
@[simp] theorem State.bump_chan (s : State) (f : Fld) (i j n : Nat) (z : Nat) : (s.bump f i j n).chan z = s.chan z := rfl
@[simp] theorem State.setPort_chan (s : State) (p : Nat) (x : Port) (z : Nat) : (s.setPort p x).chan z = s.chan z := rfl
@[simp] theorem State.setGroup_chan (s : State) (g : Nat) (x : Group) (z : Nat) : (s.setGroup g x).chan z = s.chan z := rfl
@[simp] theorem State.setGate_chan (s : State) (d : Nat) (x : Gate) (z : Nat) : (s.setGate d x).chan z = s.chan z := rfl
@[simp] theorem State.setEvt_chan (s : State) (g : Nat) (x : EvtGrp) (z : Nat) : (s.setEvt g x).chan z = s.chan z := rfl
@[simp] theorem State.setSurf_chan (s : State) (i : Nat) (x : Surf) (z : Nat) : (s.setSurf i x).chan z = s.chan z := rfl
@[simp] theorem State.setLine_chan (s : State) (g e : Nat) (x : Line) (z : Nat) : (s.setLine g e x).chan z = s.chan z := rfl
@[simp] theorem State.raise_chan (s : State) (g n : Nat) (z : Nat) : (s.raise g n).chan z = s.chan z := rfl
@[simp] theorem State.raisePriv_chan (s : State) (t n : Nat) (z : Nat) : (s.raisePriv t n).chan z = s.chan z := rfl
@[simp] theorem State.raisePort_chan (s : State) (p : Nat) (z : Nat) : (s.raisePort p).chan z = s.chan z := rfl
@[simp] theorem State.raiseChan_chan (s : State) (b ch : Nat) (z : Nat) : (s.raiseChan b ch).chan z = s.chan z := rfl
@[simp] theorem State.count_chan (s : State) (o : Occ) (z : Nat) : (s.count o).chan z = s.chan z := rfl
@[simp] theorem State.setGate_gate_self (s : State) (d : Nat) (x : Gate) : (s.setGate d x).gate d = x := by
  simp [State.setGate, State.gate]
theorem State.setGate_gate_ne (s : State) {d n : Nat} (h : n ≠ d) (x : Gate) : (s.setGate d x).gate n = s.gate n := by
  simp [State.setGate, State.gate, Tab.get_insert_ne h]
@[simp] theorem State.wr_gate (s : State) (f : Fld) (i j v : Nat) (z : Nat) : (s.wr f i j v).gate z = s.gate z := rfl
@[simp] theorem State.setBit_gate (s : State) (f : Fld) (i j : Nat) (z : Nat) : (s.setBit f i j).gate z = s.gate z := rfl
@[simp] theorem State.bump_gate (s : State) (f : Fld) (i j n : Nat) (z : Nat) : (s.bump f i j n).gate z = s.gate z := rfl
@[simp] theorem State.setPort_gate (s : State) (p : Nat) (x : Port) (z : Nat) : (s.setPort p x).gate z = s.gate z := rfl
@[simp] theorem State.setGroup_gate (s : State) (g : Nat) (x : Group) (z : Nat) : (s.setGroup g x).gate z = s.gate z := rfl
@[simp] theorem State.setChan_gate (s : State) (ch : Nat) (x : Chan) (z : Nat) : (s.setChan ch x).gate z = s.gate z := rfl
@[simp] theorem State.setEvt_gate (s : State) (g : Nat) (x : EvtGrp) (z : Nat) : (s.setEvt g x).gate z = s.gate z := rfl
@[simp] theorem State.setSurf_gate (s : State) (i : Nat) (x : Surf) (z : Nat) : (s.setSurf i x).gate z = s.gate z := rfl
@[simp] theorem State.setLine_gate (s : State) (g e : Nat) (x : Line) (z : Nat) : (s.setLine g e x).gate z = s.gate z := rfl
@[simp] theorem State.raise_gate (s : State) (g n : Nat) (z : Nat) : (s.raise g n).gate z = s.gate z := rfl
@[simp] theorem State.raisePriv_gate (s : State) (t n : Nat) (z : Nat) : (s.raisePriv t n).gate z = s.gate z := rfl
@[simp] theorem State.raisePort_gate (s : State) (p : Nat) (z : Nat) : (s.raisePort p).gate z = s.gate z := rfl
@[simp] theorem State.raiseChan_gate (s : State) (b ch : Nat) (z : Nat) : (s.raiseChan b ch).gate z = s.gate z := rfl
@[simp] theorem State.count_gate (s : State) (o : Occ) (z : Nat) : (s.count o).gate z = s.gate z := rfl
@[simp] theorem State.setEvt_evt_self (s : State) (g : Nat) (x : EvtGrp) : (s.setEvt g x).evt g = x := by
  simp [State.setEvt, State.evt]
theorem State.setEvt_evt_ne (s : State) {g n : Nat} (h : n ≠ g) (x : EvtGrp) : (s.setEvt g x).evt n = s.evt n := by
  simp [State.setEvt, State.evt, Tab.get_insert_ne h]
@[simp] theorem State.wr_evt (s : State) (f : Fld) (i j v : Nat) (z : Nat) : (s.wr f i j v).evt z = s.evt z := rfl
@[simp] theorem State.setBit_evt (s : State) (f : Fld) (i j : Nat) (z : Nat) : (s.setBit f i j).evt z = s.evt z := rfl
@[simp] theorem State.bump_evt (s : State) (f : Fld) (i j n : Nat) (z : Nat) : (s.bump f i j n).evt z = s.evt z := rfl
@[simp] theorem State.setPort_evt (s : State) (p : Nat) (x : Port) (z : Nat) : (s.setPort p x).evt z = s.evt z := rfl
@[simp] theorem State.setGroup_evt (s : State) (g : Nat) (x : Group) (z : Nat) : (s.setGroup g x).evt z = s.evt z := rfl
@[simp] theorem State.setChan_evt (s : State) (ch : Nat) (x : Chan) (z : Nat) : (s.setChan ch x).evt z = s.evt z := rfl
@[simp] theorem State.setGate_evt (s : State) (d : Nat) (x : Gate) (z : Nat) : (s.setGate d x).evt z = s.evt z := rfl
@[simp] theorem State.setSurf_evt (s : State) (i : Nat) (x : Surf) (z : Nat) : (s.setSurf i x).evt z = s.evt z := rfl
@[simp] theorem State.setLine_evt (s : State) (g e : Nat) (x : Line) (z : Nat) : (s.setLine g e x).evt z = s.evt z := rfl
@[simp] theorem State.count_evt (s : State) (o : Occ) (z : Nat) : (s.count o).evt z = s.evt z := rfl
@[simp] theorem State.setSurf_surf_self (s : State) (i : Nat) (x : Surf) : (s.setSurf i x).surf i = x := by
  simp [State.setSurf, State.surf]
theorem State.setSurf_surf_ne (s : State) {i n : Nat} (h : n ≠ i) (x : Surf) : (s.setSurf i x).surf n = s.surf n := by
  simp [State.setSurf, State.surf, Tab.get_insert_ne h]
@[simp] theorem State.wr_surf (s : State) (f : Fld) (i j v : Nat) (z : Nat) : (s.wr f i j v).surf z = s.surf z := rfl
@[simp] theorem State.setBit_surf (s : State) (f : Fld) (i j : Nat) (z : Nat) : (s.setBit f i j).surf z = s.surf z := rfl
@[simp] theorem State.bump_surf (s : State) (f : Fld) (i j n : Nat) (z : Nat) : (s.bump f i j n).surf z = s.surf z := rfl
@[simp] theorem State.setPort_surf (s : State) (p : Nat) (x : Port) (z : Nat) : (s.setPort p x).surf z = s.surf z := rfl
@[simp] theorem State.setGroup_surf (s : State) (g : Nat) (x : Group) (z : Nat) : (s.setGroup g x).surf z = s.surf z := rfl
@[simp] theorem State.setChan_surf (s : State) (ch : Nat) (x : Chan) (z : Nat) : (s.setChan ch x).surf z = s.surf z := rfl
@[simp] theorem State.setGate_surf (s : State) (d : Nat) (x : Gate) (z : Nat) : (s.setGate d x).surf z = s.surf z := rfl
@[simp] theorem State.setEvt_surf (s : State) (g : Nat) (x : EvtGrp) (z : Nat) : (s.setEvt g x).surf z = s.surf z := rfl
@[simp] theorem State.setLine_surf (s : State) (g e : Nat) (x : Line) (z : Nat) : (s.setLine g e x).surf z = s.surf z := rfl
@[simp] theorem State.raise_surf (s : State) (g n : Nat) (z : Nat) : (s.raise g n).surf z = s.surf z := rfl
@[simp] theorem State.raisePriv_surf (s : State) (t n : Nat) (z : Nat) : (s.raisePriv t n).surf z = s.surf z := rfl
@[simp] theorem State.raisePort_surf (s : State) (p : Nat) (z : Nat) : (s.raisePort p).surf z = s.surf z := rfl
@[simp] theorem State.raiseChan_surf (s : State) (b ch : Nat) (z : Nat) : (s.raiseChan b ch).surf z = s.surf z := rfl
@[simp] theorem State.count_surf (s : State) (o : Occ) (z : Nat) : (s.count o).surf z = s.surf z := rfl

/-! ### Register fields -/

@[simp] theorem State.setPort_rd (s : State) (p : Nat) (x : Port) (z : Fld) (u w : Nat) : (s.setPort p x).rd z u w = s.rd z u w := rfl
@[simp] theorem State.setGroup_rd (s : State) (g : Nat) (x : Group) (z : Fld) (u w : Nat) : (s.setGroup g x).rd z u w = s.rd z u w := rfl
@[simp] theorem State.setChan_rd (s : State) (ch : Nat) (x : Chan) (z : Fld) (u w : Nat) : (s.setChan ch x).rd z u w = s.rd z u w := rfl
@[simp] theorem State.setGate_rd (s : State) (d : Nat) (x : Gate) (z : Fld) (u w : Nat) : (s.setGate d x).rd z u w = s.rd z u w := rfl
@[simp] theorem State.setEvt_rd (s : State) (g : Nat) (x : EvtGrp) (z : Fld) (u w : Nat) : (s.setEvt g x).rd z u w = s.rd z u w := rfl
@[simp] theorem State.setSurf_rd (s : State) (i : Nat) (x : Surf) (z : Fld) (u w : Nat) : (s.setSurf i x).rd z u w = s.rd z u w := rfl
@[simp] theorem State.setLine_rd (s : State) (g e : Nat) (x : Line) (z : Fld) (u w : Nat) : (s.setLine g e x).rd z u w = s.rd z u w := rfl
@[simp] theorem State.raise_rd (s : State) (g n : Nat) (z : Fld) (u w : Nat) : (s.raise g n).rd z u w = s.rd z u w := rfl
@[simp] theorem State.raisePriv_rd (s : State) (t n : Nat) (z : Fld) (u w : Nat) : (s.raisePriv t n).rd z u w = s.rd z u w := rfl
@[simp] theorem State.raisePort_rd (s : State) (p : Nat) (z : Fld) (u w : Nat) : (s.raisePort p).rd z u w = s.rd z u w := rfl
@[simp] theorem State.raiseChan_rd (s : State) (b ch : Nat) (z : Fld) (u w : Nat) : (s.raiseChan b ch).rd z u w = s.rd z u w := rfl
@[simp] theorem State.count_rd (s : State) (o : Occ) (z : Fld) (u w : Nat) : (s.count o).rd z u w = s.rd z u w := rfl

/-- Fields of different numbers have different keys. -/
theorem Fld.key_ne {f h : Fld} (n : f.ix ≠ h.ix) (i j u w : Nat) : f.key i j ≠ h.key u w := by
  unfold Fld.key
  omega

/-- The value in force of a field just written. -/
@[simp] theorem State.wr_rd_self (s : State) (f : Fld) (i j v : Nat) : (s.wr f i j v).rd f i j = v % 2 ^ f.width := by
  simp [State.wr, State.rd]

/-- A write of one field leaves fields of other numbers alone. -/
theorem State.wr_rd_ne (s : State) {f h : Fld} (n : h.ix ≠ f.ix) (i j v u w : Nat) : (s.wr f i j v).rd h u w = s.rd h u w := by
  simp only [State.wr, State.rd]
  exact Tab.get_insert_ne (Fld.key_ne n u w i j) _ _ _

@[simp] theorem State.setBit_rd_self (s : State) (f : Fld) (i j : Nat) : (s.setBit f i j).rd f i j = 1 % 2 ^ f.width :=
  State.wr_rd_self s f i j 1

theorem State.setBit_rd_ne (s : State) {f h : Fld} (n : h.ix ≠ f.ix) (i j u w : Nat) : (s.setBit f i j).rd h u w = s.rd h u w :=
  State.wr_rd_ne s n i j 1 u w

@[simp] theorem State.bump_rd_self (s : State) (f : Fld) (i j n : Nat) :
    (s.bump f i j n).rd f i j = satAdd f.width (s.rd f i j) n := by
  simp [State.bump, State.rd]

theorem State.bump_rd_ne (s : State) {f h : Fld} (n : h.ix ≠ f.ix) (i j k u w : Nat) : (s.bump f i j k).rd h u w = s.rd h u w := by
  simp only [State.bump, State.rd]
  exact Tab.get_insert_ne (Fld.key_ne n u w i j) _ _ _

/-- A source just raised is pending. -/
theorem State.raise_evt_pending (s : State) (g n : Nat) : ((s.raise g n).evt g).pending = (s.evt g).pending ||| 2 ^ n := by
  simp [State.raise, State.raised]

/-- A raise leaves the other source groups alone. -/
theorem State.raise_evt_ne (s : State) {g k : Nat} (h : k ≠ g) (n : Nat) : (s.raise g n).evt k = s.evt k :=
  State.setEvt_evt_ne s h _

end Sys2Proof.Machine
end

