-- ==== Sys2Proof/Laws/Access.lean ====
section
/-! SUPPORT. The register port: what an access in Run does, what a write of fields can change, and what a refusal changes. -/

set_option Elab.async false

namespace Sys2Proof

/-- `bit` is the library's bit test. -/
theorem bit_eq_testBit (w n : Nat) : bit w n = w.testBit n := by
  simp [bit, Nat.testBit, Nat.shiftRight_eq_div_pow]

theorem bit_or (a b n : Nat) : bit (a ||| b) n = (bit a n || bit b n) := by simp [bit_eq_testBit]
theorem bit_and (a b n : Nat) : bit (a &&& b) n = (bit a n && bit b n) := by simp [bit_eq_testBit]
theorem bit_xor (a b n : Nat) : bit (a ^^^ b) n = (bit a n ^^ bit b n) := by simp [bit_eq_testBit]
theorem bit_two_pow (m n : Nat) : bit (2 ^ m) n = decide (m = n) := by simp [bit_eq_testBit, Nat.testBit_two_pow]

theorem bits_lt (w l n : Nat) : bits w l n < 2 ^ n := Nat.mod_lt _ (Nat.two_pow_pos n)

@[simp] theorem bits_mod (w l n : Nat) : bits w l n % 2 ^ n = bits w l n := Nat.mod_eq_of_lt (bits_lt w l n)

theorem bit_bits (w l k n : Nat) : bit (bits w l k) n = (decide (n < k) && bit w (l + n)) := by
  simp [bits, bit_eq_testBit, Nat.testBit_mod_two_pow, ← Nat.shiftRight_eq_div_pow, Nat.testBit_shiftRight]

theorem bits_one (w l : Nat) : bits w l 1 = if bit w l then 1 else 0 := by
  unfold bits bit
  simp only [beq_iff_eq]
  split <;> omega

/-- A field outside the bits of a mask is not changed by setting them. -/
theorem bits_or_ne (w m l n : Nat) (h : bits m l n = 0) : bits (w ||| m) l n = bits w l n := by
  apply Nat.eq_of_testBit_eq
  intro i
  have e : ∀ x, (bits x l n).testBit i = (decide (i < n) && x.testBit (l + i)) := by
    intro x
    have := bit_bits x l n i
    rwa [bit_eq_testBit, bit_eq_testBit] at this
  have h0 := e m
  rw [h] at h0
  rw [e, e, Nat.testBit_or]
  by_cases hi : i < n
  · simp only [hi, decide_true, Bool.true_and, Nat.zero_testBit] at h0 ⊢
    rw [← h0, Bool.or_false]
  · simp [hi]

end Sys2Proof

namespace Sys2Proof.Machine
open Sys2Proof

theorem bit_clearBits (v m n : Nat) : bit (clearBits v m) n = (bit v n && !bit m n) := by
  unfold clearBits
  rw [bit_xor, bit_and]
  cases bit v n <;> simp

/-- In Run, an access has its effect. -/
theorem State.access_open {s : State} (h : s.portOpen) (hold : Bool × Nat × Word × Nat) (k : State → State) : s.access hold k = k s := by
  unfold State.access
  simp [h.1, h.2]

/-- In Run, a register write has its effect. -/
theorem State.regAccess_open {s : State} (h : s.portOpen) (a : Nat) (w : Word) (tgt : Nat) (k : Nat → State → State) :
    s.regAccess a w tgt k = k w.toNat s := State.access_open h _ _

/-- A field's part of a write changes register fields and the writes waiting for the next tick only. -/
theorem applySlot_eq (s0 : State) (w : Nat) (sb : State × Bool) (x : Slot) :
    ∃ r n, (applySlot s0 w sb x).1 = { sb.1 with regs := r, now := n } := by
  unfold applySlot State.pendTick
  simp only
  repeat' split
  all_goals first
    | exact ⟨sb.1.regs, sb.1.now, rfl⟩
    | exact ⟨sb.1.regs, _, rfl⟩
    | exact ⟨_, sb.1.now, rfl⟩

/-- So does the write of any list of fields. -/
theorem applySlots_eq (s : State) (w : Nat) (xs : List Slot) : ∃ r n, (applySlots s w xs).1 = { s with regs := r, now := n } := by
  unfold applySlots
  suffices h : ∀ sb : State × Bool, (∃ r n, sb.1 = { s with regs := r, now := n }) →
      ∃ r n, (xs.foldl (applySlot s w) sb).1 = { s with regs := r, now := n } from h (s, false) ⟨s.regs, s.now, rfl⟩
  induction xs with
  | nil => exact fun _ h => h
  | cons x xs ih =>
    intro sb hsb
    obtain ⟨r, p, h⟩ := hsb
    obtain ⟨r', p', h'⟩ := applySlot_eq s w sb x
    exact ih _ ⟨r', p', by rw [h', h]⟩

@[simp] theorem applySlots_build (s : State) (w : Nat) (xs : List Slot) : (applySlots s w xs).1.build = s.build := by
  obtain ⟨r, p, h⟩ := applySlots_eq s w xs
  rw [h]
@[simp] theorem applySlots_pend (s : State) (w : Nat) (xs : List Slot) : (applySlots s w xs).1.pend = s.pend := by
  obtain ⟨r, p, h⟩ := applySlots_eq s w xs
  rw [h]
@[simp] theorem applySlots_cclk (s : State) (w : Nat) (xs : List Slot) : (applySlots s w xs).1.cclk = s.cclk := by
  obtain ⟨r, p, h⟩ := applySlots_eq s w xs
  rw [h]
@[simp] theorem applySlots_rdata (s : State) (w : Nat) (xs : List Slot) : (applySlots s w xs).1.rdata = s.rdata := by
  obtain ⟨r, p, h⟩ := applySlots_eq s w xs
  rw [h]
@[simp] theorem applySlots_tick (s : State) (w : Nat) (xs : List Slot) : (applySlots s w xs).1.tick = s.tick := by
  obtain ⟨r, p, h⟩ := applySlots_eq s w xs
  rw [h]
@[simp] theorem applySlots_gates (s : State) (w : Nat) (xs : List Slot) : (applySlots s w xs).1.gates = s.gates := by
  obtain ⟨r, p, h⟩ := applySlots_eq s w xs
  rw [h]
@[simp] theorem applySlots_loader (s : State) (w : Nat) (xs : List Slot) : (applySlots s w xs).1.loader = s.loader := by
  obtain ⟨r, p, h⟩ := applySlots_eq s w xs
  rw [h]
@[simp] theorem applySlots_authReq (s : State) (w : Nat) (xs : List Slot) : (applySlots s w xs).1.authReq = s.authReq := by
  obtain ⟨r, p, h⟩ := applySlots_eq s w xs
  rw [h]
@[simp] theorem applySlots_conf (s : State) (w : Nat) (xs : List Slot) : (applySlots s w xs).1.conf = s.conf := by
  obtain ⟨r, p, h⟩ := applySlots_eq s w xs
  rw [h]
@[simp] theorem applySlots_ports (s : State) (w : Nat) (xs : List Slot) : (applySlots s w xs).1.ports = s.ports := by
  obtain ⟨r, p, h⟩ := applySlots_eq s w xs
  rw [h]
@[simp] theorem applySlots_groups (s : State) (w : Nat) (xs : List Slot) : (applySlots s w xs).1.groups = s.groups := by
  obtain ⟨r, p, h⟩ := applySlots_eq s w xs
  rw [h]
@[simp] theorem applySlots_lines (s : State) (w : Nat) (xs : List Slot) : (applySlots s w xs).1.lines = s.lines := by
  obtain ⟨r, p, h⟩ := applySlots_eq s w xs
  rw [h]
@[simp] theorem applySlots_useCtr (s : State) (w : Nat) (xs : List Slot) : (applySlots s w xs).1.useCtr = s.useCtr := by
  obtain ⟨r, p, h⟩ := applySlots_eq s w xs
  rw [h]
@[simp] theorem applySlots_waits (s : State) (w : Nat) (xs : List Slot) : (applySlots s w xs).1.waits = s.waits := by
  obtain ⟨r, p, h⟩ := applySlots_eq s w xs
  rw [h]
@[simp] theorem applySlots_nextId (s : State) (w : Nat) (xs : List Slot) : (applySlots s w xs).1.nextId = s.nextId := by
  obtain ⟨r, p, h⟩ := applySlots_eq s w xs
  rw [h]
@[simp] theorem applySlots_subs (s : State) (w : Nat) (xs : List Slot) : (applySlots s w xs).1.subs = s.subs := by
  obtain ⟨r, p, h⟩ := applySlots_eq s w xs
  rw [h]
@[simp] theorem applySlots_dec (s : State) (w : Nat) (xs : List Slot) : (applySlots s w xs).1.dec = s.dec := by
  obtain ⟨r, p, h⟩ := applySlots_eq s w xs
  rw [h]
@[simp] theorem applySlots_retry (s : State) (w : Nat) (xs : List Slot) : (applySlots s w xs).1.retry = s.retry := by
  obtain ⟨r, p, h⟩ := applySlots_eq s w xs
  rw [h]
@[simp] theorem applySlots_arr (s : State) (w : Nat) (xs : List Slot) : (applySlots s w xs).1.arr = s.arr := by
  obtain ⟨r, p, h⟩ := applySlots_eq s w xs
  rw [h]
@[simp] theorem applySlots_enc (s : State) (w : Nat) (xs : List Slot) : (applySlots s w xs).1.enc = s.enc := by
  obtain ⟨r, p, h⟩ := applySlots_eq s w xs
  rw [h]
@[simp] theorem applySlots_hdrWait (s : State) (w : Nat) (xs : List Slot) : (applySlots s w xs).1.hdrWait = s.hdrWait := by
  obtain ⟨r, p, h⟩ := applySlots_eq s w xs
  rw [h]
@[simp] theorem applySlots_halves (s : State) (w : Nat) (xs : List Slot) : (applySlots s w xs).1.halves = s.halves := by
  obtain ⟨r, p, h⟩ := applySlots_eq s w xs
  rw [h]
@[simp] theorem applySlots_bitsNow (s : State) (w : Nat) (xs : List Slot) : (applySlots s w xs).1.bitsNow = s.bitsNow := by
  obtain ⟨r, p, h⟩ := applySlots_eq s w xs
  rw [h]
@[simp] theorem applySlots_snoops (s : State) (w : Nat) (xs : List Slot) : (applySlots s w xs).1.snoops = s.snoops := by
  obtain ⟨r, p, h⟩ := applySlots_eq s w xs
  rw [h]
@[simp] theorem applySlots_snoopLast (s : State) (w : Nat) (xs : List Slot) : (applySlots s w xs).1.snoopLast = s.snoopLast := by
  obtain ⟨r, p, h⟩ := applySlots_eq s w xs
  rw [h]
@[simp] theorem applySlots_hdrs (s : State) (w : Nat) (xs : List Slot) : (applySlots s w xs).1.hdrs = s.hdrs := by
  obtain ⟨r, p, h⟩ := applySlots_eq s w xs
  rw [h]
@[simp] theorem applySlots_failed (s : State) (w : Nat) (xs : List Slot) : (applySlots s w xs).1.failed = s.failed := by
  obtain ⟨r, p, h⟩ := applySlots_eq s w xs
  rw [h]
@[simp] theorem applySlots_traffic (s : State) (w : Nat) (xs : List Slot) : (applySlots s w xs).1.traffic = s.traffic := by
  obtain ⟨r, p, h⟩ := applySlots_eq s w xs
  rw [h]
@[simp] theorem applySlots_chans (s : State) (w : Nat) (xs : List Slot) : (applySlots s w xs).1.chans = s.chans := by
  obtain ⟨r, p, h⟩ := applySlots_eq s w xs
  rw [h]
@[simp] theorem applySlots_mem (s : State) (w : Nat) (xs : List Slot) : (applySlots s w xs).1.mem = s.mem := by
  obtain ⟨r, p, h⟩ := applySlots_eq s w xs
  rw [h]
@[simp] theorem applySlots_sm (s : State) (w : Nat) (xs : List Slot) : (applySlots s w xs).1.sm = s.sm := by
  obtain ⟨r, p, h⟩ := applySlots_eq s w xs
  rw [h]
@[simp] theorem applySlots_integ (s : State) (w : Nat) (xs : List Slot) : (applySlots s w xs).1.integ = s.integ := by
  obtain ⟨r, p, h⟩ := applySlots_eq s w xs
  rw [h]
@[simp] theorem applySlots_power (s : State) (w : Nat) (xs : List Slot) : (applySlots s w xs).1.power = s.power := by
  obtain ⟨r, p, h⟩ := applySlots_eq s w xs
  rw [h]
@[simp] theorem applySlots_evts (s : State) (w : Nat) (xs : List Slot) : (applySlots s w xs).1.evts = s.evts := by
  obtain ⟨r, p, h⟩ := applySlots_eq s w xs
  rw [h]
@[simp] theorem applySlots_irq (s : State) (w : Nat) (xs : List Slot) : (applySlots s w xs).1.irq = s.irq := by
  obtain ⟨r, p, h⟩ := applySlots_eq s w xs
  rw [h]
@[simp] theorem applySlots_posts (s : State) (w : Nat) (xs : List Slot) : (applySlots s w xs).1.posts = s.posts := by
  obtain ⟨r, p, h⟩ := applySlots_eq s w xs
  rw [h]
@[simp] theorem applySlots_meas (s : State) (w : Nat) (xs : List Slot) : (applySlots s w xs).1.meas = s.meas := by
  obtain ⟨r, p, h⟩ := applySlots_eq s w xs
  rw [h]
@[simp] theorem applySlots_mbx (s : State) (w : Nat) (xs : List Slot) : (applySlots s w xs).1.mbx = s.mbx := by
  obtain ⟨r, p, h⟩ := applySlots_eq s w xs
  rw [h]
@[simp] theorem applySlots_squall (s : State) (w : Nat) (xs : List Slot) : (applySlots s w xs).1.squall = s.squall := by
  obtain ⟨r, p, h⟩ := applySlots_eq s w xs
  rw [h]
@[simp] theorem applySlots_freeCtr (s : State) (w : Nat) (xs : List Slot) : (applySlots s w xs).1.freeCtr = s.freeCtr := by
  obtain ⟨r, p, h⟩ := applySlots_eq s w xs
  rw [h]
@[simp] theorem applySlots_pending (s : State) (w : Nat) (xs : List Slot) : (applySlots s w xs).1.pending = s.pending := by
  obtain ⟨r, p, h⟩ := applySlots_eq s w xs
  rw [h]
@[simp] theorem applySlots_port (s : State) (w : Nat) (xs : List Slot) (p : Nat) : (applySlots s w xs).1.port p = s.port p := by
  simp [State.port]
@[simp] theorem applySlots_group (s : State) (w : Nat) (xs : List Slot) (g : Nat) : (applySlots s w xs).1.group g = s.group g := by
  simp [State.group]
@[simp] theorem applySlots_chan (s : State) (w : Nat) (xs : List Slot) (ch : Nat) : (applySlots s w xs).1.chan ch = s.chan ch := by
  simp [State.chan]
@[simp] theorem applySlots_gate (s : State) (w : Nat) (xs : List Slot) (d : Nat) : (applySlots s w xs).1.gate d = s.gate d := by
  simp [State.gate]
@[simp] theorem applySlots_evt (s : State) (w : Nat) (xs : List Slot) (g : Nat) : (applySlots s w xs).1.evt g = s.evt g := by
  simp [State.evt]
@[simp] theorem applySlots_surf (s : State) (w : Nat) (xs : List Slot) (i : Nat) : (applySlots s w xs).1.surf i = s.surf i := by
  simp [State.surf]

/-! ### Refusals -/


@[simp] theorem State.cfgBusy_build (s : State) (a tgt : Nat) : (s.cfgBusy a tgt).build = s.build := by
  unfold State.cfgBusy
  simp only
  split <;> simp
@[simp] theorem State.busyIf_build (s : State) (b : Bool) (a tgt : Nat) : (s.busyIf b a tgt).build = s.build := by
  unfold State.busyIf
  split
  · simp
  · rfl
@[simp] theorem State.cfgBusy_cclk (s : State) (a tgt : Nat) : (s.cfgBusy a tgt).cclk = s.cclk := by
  unfold State.cfgBusy
  simp only
  split <;> simp
@[simp] theorem State.busyIf_cclk (s : State) (b : Bool) (a tgt : Nat) : (s.busyIf b a tgt).cclk = s.cclk := by
  unfold State.busyIf
  split
  · simp
  · rfl
@[simp] theorem State.cfgBusy_pend (s : State) (a tgt : Nat) : (s.cfgBusy a tgt).pend = s.pend := by
  unfold State.cfgBusy
  simp only
  split <;> simp
@[simp] theorem State.busyIf_pend (s : State) (b : Bool) (a tgt : Nat) : (s.busyIf b a tgt).pend = s.pend := by
  unfold State.busyIf
  split
  · simp
  · rfl
@[simp] theorem State.cfgBusy_rdata (s : State) (a tgt : Nat) : (s.cfgBusy a tgt).rdata = s.rdata := by
  unfold State.cfgBusy
  simp only
  split <;> simp
@[simp] theorem State.busyIf_rdata (s : State) (b : Bool) (a tgt : Nat) : (s.busyIf b a tgt).rdata = s.rdata := by
  unfold State.busyIf
  split
  · simp
  · rfl
@[simp] theorem State.cfgBusy_tick (s : State) (a tgt : Nat) : (s.cfgBusy a tgt).tick = s.tick := by
  unfold State.cfgBusy
  simp only
  split <;> simp
@[simp] theorem State.busyIf_tick (s : State) (b : Bool) (a tgt : Nat) : (s.busyIf b a tgt).tick = s.tick := by
  unfold State.busyIf
  split
  · simp
  · rfl
@[simp] theorem State.cfgBusy_gates (s : State) (a tgt : Nat) : (s.cfgBusy a tgt).gates = s.gates := by
  unfold State.cfgBusy
  simp only
  split <;> simp
@[simp] theorem State.busyIf_gates (s : State) (b : Bool) (a tgt : Nat) : (s.busyIf b a tgt).gates = s.gates := by
  unfold State.busyIf
  split
  · simp
  · rfl
@[simp] theorem State.cfgBusy_loader (s : State) (a tgt : Nat) : (s.cfgBusy a tgt).loader = s.loader := by
  unfold State.cfgBusy
  simp only
  split <;> simp
@[simp] theorem State.busyIf_loader (s : State) (b : Bool) (a tgt : Nat) : (s.busyIf b a tgt).loader = s.loader := by
  unfold State.busyIf
  split
  · simp
  · rfl
@[simp] theorem State.cfgBusy_authReq (s : State) (a tgt : Nat) : (s.cfgBusy a tgt).authReq = s.authReq := by
  unfold State.cfgBusy
  simp only
  split <;> simp
@[simp] theorem State.busyIf_authReq (s : State) (b : Bool) (a tgt : Nat) : (s.busyIf b a tgt).authReq = s.authReq := by
  unfold State.busyIf
  split
  · simp
  · rfl
@[simp] theorem State.cfgBusy_conf (s : State) (a tgt : Nat) : (s.cfgBusy a tgt).conf = s.conf := by
  unfold State.cfgBusy
  simp only
  split <;> simp
@[simp] theorem State.busyIf_conf (s : State) (b : Bool) (a tgt : Nat) : (s.busyIf b a tgt).conf = s.conf := by
  unfold State.busyIf
  split
  · simp
  · rfl
@[simp] theorem State.cfgBusy_ports (s : State) (a tgt : Nat) : (s.cfgBusy a tgt).ports = s.ports := by
  unfold State.cfgBusy
  simp only
  split <;> simp
@[simp] theorem State.busyIf_ports (s : State) (b : Bool) (a tgt : Nat) : (s.busyIf b a tgt).ports = s.ports := by
  unfold State.busyIf
  split
  · simp
  · rfl
@[simp] theorem State.cfgBusy_groups (s : State) (a tgt : Nat) : (s.cfgBusy a tgt).groups = s.groups := by
  unfold State.cfgBusy
  simp only
  split <;> simp
@[simp] theorem State.busyIf_groups (s : State) (b : Bool) (a tgt : Nat) : (s.busyIf b a tgt).groups = s.groups := by
  unfold State.busyIf
  split
  · simp
  · rfl
@[simp] theorem State.cfgBusy_lines (s : State) (a tgt : Nat) : (s.cfgBusy a tgt).lines = s.lines := by
  unfold State.cfgBusy
  simp only
  split <;> simp
@[simp] theorem State.busyIf_lines (s : State) (b : Bool) (a tgt : Nat) : (s.busyIf b a tgt).lines = s.lines := by
  unfold State.busyIf
  split
  · simp
  · rfl
@[simp] theorem State.cfgBusy_useCtr (s : State) (a tgt : Nat) : (s.cfgBusy a tgt).useCtr = s.useCtr := by
  unfold State.cfgBusy
  simp only
  split <;> simp
@[simp] theorem State.busyIf_useCtr (s : State) (b : Bool) (a tgt : Nat) : (s.busyIf b a tgt).useCtr = s.useCtr := by
  unfold State.busyIf
  split
  · simp
  · rfl
@[simp] theorem State.cfgBusy_waits (s : State) (a tgt : Nat) : (s.cfgBusy a tgt).waits = s.waits := by
  unfold State.cfgBusy
  simp only
  split <;> simp
@[simp] theorem State.busyIf_waits (s : State) (b : Bool) (a tgt : Nat) : (s.busyIf b a tgt).waits = s.waits := by
  unfold State.busyIf
  split
  · simp
  · rfl
@[simp] theorem State.cfgBusy_nextId (s : State) (a tgt : Nat) : (s.cfgBusy a tgt).nextId = s.nextId := by
  unfold State.cfgBusy
  simp only
  split <;> simp
@[simp] theorem State.busyIf_nextId (s : State) (b : Bool) (a tgt : Nat) : (s.busyIf b a tgt).nextId = s.nextId := by
  unfold State.busyIf
  split
  · simp
  · rfl
@[simp] theorem State.cfgBusy_subs (s : State) (a tgt : Nat) : (s.cfgBusy a tgt).subs = s.subs := by
  unfold State.cfgBusy
  simp only
  split <;> simp
@[simp] theorem State.busyIf_subs (s : State) (b : Bool) (a tgt : Nat) : (s.busyIf b a tgt).subs = s.subs := by
  unfold State.busyIf
  split
  · simp
  · rfl
@[simp] theorem State.cfgBusy_dec (s : State) (a tgt : Nat) : (s.cfgBusy a tgt).dec = s.dec := by
  unfold State.cfgBusy
  simp only
  split <;> simp
@[simp] theorem State.busyIf_dec (s : State) (b : Bool) (a tgt : Nat) : (s.busyIf b a tgt).dec = s.dec := by
  unfold State.busyIf
  split
  · simp
  · rfl
@[simp] theorem State.cfgBusy_retry (s : State) (a tgt : Nat) : (s.cfgBusy a tgt).retry = s.retry := by
  unfold State.cfgBusy
  simp only
  split <;> simp
@[simp] theorem State.busyIf_retry (s : State) (b : Bool) (a tgt : Nat) : (s.busyIf b a tgt).retry = s.retry := by
  unfold State.busyIf
  split
  · simp
  · rfl
@[simp] theorem State.cfgBusy_arr (s : State) (a tgt : Nat) : (s.cfgBusy a tgt).arr = s.arr := by
  unfold State.cfgBusy
  simp only
  split <;> simp
@[simp] theorem State.busyIf_arr (s : State) (b : Bool) (a tgt : Nat) : (s.busyIf b a tgt).arr = s.arr := by
  unfold State.busyIf
  split
  · simp
  · rfl
@[simp] theorem State.cfgBusy_enc (s : State) (a tgt : Nat) : (s.cfgBusy a tgt).enc = s.enc := by
  unfold State.cfgBusy
  simp only
  split <;> simp
@[simp] theorem State.busyIf_enc (s : State) (b : Bool) (a tgt : Nat) : (s.busyIf b a tgt).enc = s.enc := by
  unfold State.busyIf
  split
  · simp
  · rfl
@[simp] theorem State.cfgBusy_hdrWait (s : State) (a tgt : Nat) : (s.cfgBusy a tgt).hdrWait = s.hdrWait := by
  unfold State.cfgBusy
  simp only
  split <;> simp
@[simp] theorem State.busyIf_hdrWait (s : State) (b : Bool) (a tgt : Nat) : (s.busyIf b a tgt).hdrWait = s.hdrWait := by
  unfold State.busyIf
  split
  · simp
  · rfl
@[simp] theorem State.cfgBusy_halves (s : State) (a tgt : Nat) : (s.cfgBusy a tgt).halves = s.halves := by
  unfold State.cfgBusy
  simp only
  split <;> simp
@[simp] theorem State.cfgBusy_now (s : State) (a tgt : Nat) : (s.cfgBusy a tgt).now = s.now := by
  unfold State.cfgBusy
  simp only
  split <;> simp
@[simp] theorem State.busyIf_halves (s : State) (b : Bool) (a tgt : Nat) : (s.busyIf b a tgt).halves = s.halves := by
  unfold State.busyIf
  split
  · simp
  · rfl
@[simp] theorem State.busyIf_now (s : State) (b : Bool) (a tgt : Nat) : (s.busyIf b a tgt).now = s.now := by
  unfold State.busyIf
  split
  · simp
  · rfl
@[simp] theorem State.cfgBusy_snoops (s : State) (a tgt : Nat) : (s.cfgBusy a tgt).snoops = s.snoops := by
  unfold State.cfgBusy
  simp only
  split <;> simp
@[simp] theorem State.busyIf_snoops (s : State) (b : Bool) (a tgt : Nat) : (s.busyIf b a tgt).snoops = s.snoops := by
  unfold State.busyIf
  split
  · simp
  · rfl
@[simp] theorem State.cfgBusy_snoopLast (s : State) (a tgt : Nat) : (s.cfgBusy a tgt).snoopLast = s.snoopLast := by
  unfold State.cfgBusy
  simp only
  split <;> simp
@[simp] theorem State.busyIf_snoopLast (s : State) (b : Bool) (a tgt : Nat) : (s.busyIf b a tgt).snoopLast = s.snoopLast := by
  unfold State.busyIf
  split
  · simp
  · rfl
@[simp] theorem State.cfgBusy_hdrs (s : State) (a tgt : Nat) : (s.cfgBusy a tgt).hdrs = s.hdrs := by
  unfold State.cfgBusy
  simp only
  split <;> simp
@[simp] theorem State.busyIf_hdrs (s : State) (b : Bool) (a tgt : Nat) : (s.busyIf b a tgt).hdrs = s.hdrs := by
  unfold State.busyIf
  split
  · simp
  · rfl
@[simp] theorem State.cfgBusy_failed (s : State) (a tgt : Nat) : (s.cfgBusy a tgt).failed = s.failed := by
  unfold State.cfgBusy
  simp only
  split <;> simp
@[simp] theorem State.busyIf_failed (s : State) (b : Bool) (a tgt : Nat) : (s.busyIf b a tgt).failed = s.failed := by
  unfold State.busyIf
  split
  · simp
  · rfl
@[simp] theorem State.cfgBusy_traffic (s : State) (a tgt : Nat) : (s.cfgBusy a tgt).traffic = s.traffic := by
  unfold State.cfgBusy
  simp only
  split <;> simp
@[simp] theorem State.busyIf_traffic (s : State) (b : Bool) (a tgt : Nat) : (s.busyIf b a tgt).traffic = s.traffic := by
  unfold State.busyIf
  split
  · simp
  · rfl
@[simp] theorem State.cfgBusy_chans (s : State) (a tgt : Nat) : (s.cfgBusy a tgt).chans = s.chans := by
  unfold State.cfgBusy
  simp only
  split <;> simp
@[simp] theorem State.busyIf_chans (s : State) (b : Bool) (a tgt : Nat) : (s.busyIf b a tgt).chans = s.chans := by
  unfold State.busyIf
  split
  · simp
  · rfl
@[simp] theorem State.cfgBusy_mem (s : State) (a tgt : Nat) : (s.cfgBusy a tgt).mem = s.mem := by
  unfold State.cfgBusy
  simp only
  split <;> simp
@[simp] theorem State.busyIf_mem (s : State) (b : Bool) (a tgt : Nat) : (s.busyIf b a tgt).mem = s.mem := by
  unfold State.busyIf
  split
  · simp
  · rfl
@[simp] theorem State.cfgBusy_sm (s : State) (a tgt : Nat) : (s.cfgBusy a tgt).sm = s.sm := by
  unfold State.cfgBusy
  simp only
  split <;> simp
@[simp] theorem State.busyIf_sm (s : State) (b : Bool) (a tgt : Nat) : (s.busyIf b a tgt).sm = s.sm := by
  unfold State.busyIf
  split
  · simp
  · rfl
@[simp] theorem State.cfgBusy_integ (s : State) (a tgt : Nat) : (s.cfgBusy a tgt).integ = s.integ := by
  unfold State.cfgBusy
  simp only
  split <;> simp
@[simp] theorem State.busyIf_integ (s : State) (b : Bool) (a tgt : Nat) : (s.busyIf b a tgt).integ = s.integ := by
  unfold State.busyIf
  split
  · simp
  · rfl
@[simp] theorem State.cfgBusy_power (s : State) (a tgt : Nat) : (s.cfgBusy a tgt).power = s.power := by
  unfold State.cfgBusy
  simp only
  split <;> simp
@[simp] theorem State.busyIf_power (s : State) (b : Bool) (a tgt : Nat) : (s.busyIf b a tgt).power = s.power := by
  unfold State.busyIf
  split
  · simp
  · rfl
@[simp] theorem State.cfgBusy_irq (s : State) (a tgt : Nat) : (s.cfgBusy a tgt).irq = s.irq := by
  unfold State.cfgBusy
  simp only
  split <;> simp
@[simp] theorem State.busyIf_irq (s : State) (b : Bool) (a tgt : Nat) : (s.busyIf b a tgt).irq = s.irq := by
  unfold State.busyIf
  split
  · simp
  · rfl
@[simp] theorem State.cfgBusy_posts (s : State) (a tgt : Nat) : (s.cfgBusy a tgt).posts = s.posts := by
  unfold State.cfgBusy
  simp only
  split <;> simp
@[simp] theorem State.busyIf_posts (s : State) (b : Bool) (a tgt : Nat) : (s.busyIf b a tgt).posts = s.posts := by
  unfold State.busyIf
  split
  · simp
  · rfl
@[simp] theorem State.cfgBusy_mbx (s : State) (a tgt : Nat) : (s.cfgBusy a tgt).mbx = s.mbx := by
  unfold State.cfgBusy
  simp only
  split <;> simp
@[simp] theorem State.busyIf_mbx (s : State) (b : Bool) (a tgt : Nat) : (s.busyIf b a tgt).mbx = s.mbx := by
  unfold State.busyIf
  split
  · simp
  · rfl
@[simp] theorem State.cfgBusy_squall (s : State) (a tgt : Nat) : (s.cfgBusy a tgt).squall = s.squall := by
  unfold State.cfgBusy
  simp only
  split <;> simp
@[simp] theorem State.busyIf_squall (s : State) (b : Bool) (a tgt : Nat) : (s.busyIf b a tgt).squall = s.squall := by
  unfold State.busyIf
  split
  · simp
  · rfl
@[simp] theorem State.cfgBusy_freeCtr (s : State) (a tgt : Nat) : (s.cfgBusy a tgt).freeCtr = s.freeCtr := by
  unfold State.cfgBusy
  simp only
  split <;> simp
@[simp] theorem State.busyIf_freeCtr (s : State) (b : Bool) (a tgt : Nat) : (s.busyIf b a tgt).freeCtr = s.freeCtr := by
  unfold State.busyIf
  split
  · simp
  · rfl
@[simp] theorem State.cfgBusy_pending (s : State) (a tgt : Nat) : (s.cfgBusy a tgt).pending = s.pending := by
  unfold State.cfgBusy
  simp only
  split <;> simp
@[simp] theorem State.busyIf_pending (s : State) (b : Bool) (a tgt : Nat) : (s.busyIf b a tgt).pending = s.pending := by
  unfold State.busyIf
  split
  · simp
  · rfl

@[simp] theorem State.busyIf_false (s : State) (a tgt : Nat) : s.busyIf false a tgt = s := rfl
@[simp] theorem State.busyIf_true (s : State) (a tgt : Nat) : s.busyIf true a tgt = s.cfgBusy a tgt := rfl

/-- A refusal changes register fields, with the note of the event bit it sets, source groups and counters only. -/
theorem State.cfgBusy_eq (s : State) (a tgt : Nat) :
    s.cfgBusy a tgt = { s with
      regs := (s.cfgBusy a tgt).regs, bitsNow := (s.cfgBusy a tgt).bitsNow, evts := (s.cfgBusy a tgt).evts, meas := (s.cfgBusy a tgt).meas } := by
  ext1 <;> simp

/-- A refusal leaves every register field but its own bits, counter and capture. -/
theorem State.cfgBusy_rd (s : State) (a tgt : Nat) {f : Fld} (h : f.ix ≠ 525 ∧ f.ix ≠ 526 ∧ f.ix ≠ 527 ∧ f.ix ≠ 528 ∧ f.ix ≠ 529) (i j : Nat) :
    (s.cfgBusy a tgt).rd f i j = s.rd f i j := by
  obtain ⟨h1, h2, h3, h4, h5⟩ := h
  unfold State.cfgBusy
  simp only
  have e1 : f.ix ≠ R.GLB_STATUS_CFG_BUSY.ix := h1
  have e2 : f.ix ≠ R.GLB_BUSY_FIRST_ADDR.ix := h2
  have e3 : f.ix ≠ R.GLB_BUSY_FIRST_TARGET.ix := h3
  have e4 : f.ix ≠ R.GLB_BUSY_FIRST_VALID.ix := h4
  have e5 : f.ix ≠ R.GLB_BUSY_CNT_COUNT.ix := h5
  split
  · rw [State.bump_rd_ne _ e5, State.setBit_rd_ne _ e1]; rfl
  · rw [State.wr_rd_ne _ e4, State.wr_rd_ne _ e3, State.wr_rd_ne _ e2, State.bump_rd_ne _ e5, State.setBit_rd_ne _ e1]; rfl

/-- A refusal sets CFG_BUSY. -/
theorem State.cfgBusy_bit (s : State) (a tgt : Nat) : (s.cfgBusy a tgt).rd R.GLB_STATUS_CFG_BUSY = 1 := by
  unfold State.cfgBusy
  simp only
  have k1 : R.GLB_STATUS_CFG_BUSY.ix ≠ R.GLB_BUSY_FIRST_ADDR.ix := by decide
  have k2 : R.GLB_STATUS_CFG_BUSY.ix ≠ R.GLB_BUSY_FIRST_TARGET.ix := by decide
  have k3 : R.GLB_STATUS_CFG_BUSY.ix ≠ R.GLB_BUSY_FIRST_VALID.ix := by decide
  have k4 : R.GLB_STATUS_CFG_BUSY.ix ≠ R.GLB_BUSY_CNT_COUNT.ix := by decide
  split
  · rw [State.bump_rd_ne _ k4, State.setBit_rd_self]; rfl
  · rw [State.wr_rd_ne _ k3, State.wr_rd_ne _ k2, State.wr_rd_ne _ k1, State.bump_rd_ne _ k4, State.setBit_rd_self]; rfl

/-! ### Fields without a range rule -/

/-- The fields with a range rule, by number. -/
def ruledFields : List Nat := [73, 74, 103, 170, 173, 176, 216, 217, 240, 258, 259, 261, 262, 263, 290, 327, 328, 332, 355, 377, 473, 438, 439]

/-- Every value of a field without a range rule is in range. -/
theorem State.rangeOk_free (s : State) {f : Fld} (h : ruledFields.contains f.ix = false) (i j v : Nat) : s.rangeOk f i j v = true := by
  have key (g : Fld) (hg : ruledFields.contains g.ix = true) : f ≠ g := by
    intro e
    rw [e, hg] at h
    exact Bool.noConfusion h
  unfold State.rangeOk
  rw [if_neg (key R.GRP_WATCHDOG_LIMIT rfl)]
  rw [if_neg (key R.GRP_REFILL_REFILL rfl)]
  rw [if_neg (key R.SM_CTL_LOAD_EPOCHS rfl)]
  rw [if_neg (key R.HALO_CTL_PREFETCH_DEPTH rfl)]
  rw [if_neg (key R.HALO_CTL_LOCK_MAX rfl)]
  rw [if_neg (key R.HALO_INV_CTL_KIND rfl)]
  rw [if_neg (key R.TR_CTL_WINDOWS rfl)]
  rw [if_neg (key R.TR_CTL_OVC_HOLD rfl)]
  rw [if_neg (key R.CLS_QUANTUM_QUANTUM rfl)]
  rw [if_neg (key R.CH_DIR_WR_HIGH rfl)]
  rw [if_neg (key R.CH_DIR_WR_LOW rfl)]
  rw [if_neg (key R.CH_REF_REF_URGENT rfl)]
  rw [if_neg (key R.CH_REF_REF_PULLIN rfl)]
  rw [if_neg (key R.CH_REF_MR4_PERIOD rfl)]
  rw [if_neg (key R.CH_TIMING_VALUE rfl)]
  rw [if_neg (key R.PHY_DRV_SOC_DRV rfl)]
  rw [if_neg (key R.PHY_MAINT_ZQ_PERIOD rfl)]
  rw [if_neg (key R.PHY_DRIFT_CFG_EYE_THRESH rfl)]
  rw [if_neg (key R.INT_CTL_REMAP_CE_THRESH rfl)]
  rw [if_neg (key R.INT_SCRUB_CTL_PERIOD rfl)]
  rw [if_neg (key R.CTR_CTL_K rfl)]
  rw [if_neg (key R.CH_PWR_REQ rfl)]
  rw [if_neg (key R.CH_PWR_DSM_EXIT rfl)]

/-- A write of a present Now-class field without a range rule. -/
theorem applySlot_now (s0 : State) (w : Nat) (sb : State × Bool) (x : Slot) (ha : x.f.acc = .rw) (hc : x.f.cls = .now)
    (hp : x.f.present s0.build x.i = true) (hr : ruledFields.contains x.f.ix = false) :
    applySlot s0 w sb x = (sb.1.wr x.f x.i x.j (bits w x.f.lsb x.f.width), sb.2) := by
  unfold applySlot
  simp [ha, hc, hp, s0.rangeOk_free hr]

/-- A write of a present Tick-class field without a range rule is pending. -/
theorem applySlot_tick (s0 : State) (w : Nat) (sb : State × Bool) (x : Slot) (ha : x.f.acc = .rw) (hc : x.f.cls = .tick)
    (hp : x.f.present s0.build x.i = true) (hr : ruledFields.contains x.f.ix = false) :
    applySlot s0 w sb x = (sb.1.pendTick (x.f.key x.i x.j) (bits w x.f.lsb x.f.width), sb.2) := by
  unfold applySlot
  simp [ha, hc, hp, sb.1.rangeOk_free hr]

/-- A field that is not written directly takes nothing from a write. -/
theorem applySlot_skip (s0 : State) (w : Nat) (sb : State × Bool) (x : Slot) (ha : x.f.acc ≠ .rw) : applySlot s0 w sb x = sb := by
  unfold applySlot
  simp [ha]


/-- A write of one present Now-class field without a range rule, and without actions. -/
theorem State.writeReg_now (s : State) (x : Slot) (a w tgt : Nat) (ha : x.f.acc = .rw) (hc : x.f.cls = .now)
    (hp : x.f.present s.build x.i = true) (hr : ruledFields.contains x.f.ix = false) :
    s.writeReg [x] [] a w tgt = s.wr x.f x.i x.j (bits w x.f.lsb x.f.width) := by
  unfold State.writeReg runActs applySlots
  simp only [List.foldl_cons, List.foldl_nil]
  rw [applySlot_now s w _ x ha hc hp hr]
  rfl

/-- The fields of a write, one after the other. -/
theorem applySlots_cons (s : State) (w : Nat) (x : Slot) (xs : List Slot) :
    applySlots s w (x :: xs) = xs.foldl (applySlot s w) (applySlot s w (s, false) x) := rfl

end Sys2Proof.Machine
end

