-- ==== Sys2Proof/Laws/Memory.lean ====
section
/-! SUPPORT. Tables in canonical form, and the DRAM contents: every memory operation keeps the canonical form, and what a read finds after it. -/

set_option Elab.async false

namespace Sys2Proof

variable {α : Type}

theorem Tab.above_iff (k : Nat) (t : Tab α) : Tab.above k t = true ↔ ∀ e ∈ t, k < e.1 := by
  simp [Tab.above, List.all_eq_true]

/-- The canonical form is the library's notion of strictly rising keys. -/
theorem Tab.rising_iff (t : Tab α) : Tab.rising t = true ↔ t.Pairwise fun a b => a.1 < b.1 := by
  induction t with
  | nil => simp [Tab.rising]
  | cons a t ih => simp [Tab.rising, Tab.above_iff, List.pairwise_cons, ih]

theorem Tab.find_filter (p : Nat → Bool) (t : Tab α) (k : Nat) :
    Tab.find (t.filter fun e => p e.1) k = if p k then Tab.find t k else none := by
  induction t with
  | nil => simp [Tab.find]
  | cons a t ih =>
    by_cases ha : p a.1 = true
    · rw [List.filter_cons_of_pos (by simpa using ha)]
      show (if k = a.1 then some a.2 else Tab.find (List.filter (fun e => p e.1) t) k) = if p k then (if k = a.1 then some a.2 else Tab.find t k) else none
      rw [ih]
      by_cases hk : k = a.1
      · subst hk
        simp [ha]
      · simp [hk]
    · rw [List.filter_cons_of_neg (by simpa using ha), ih]
      show _ = if p k then (if k = a.1 then some a.2 else Tab.find t k) else none
      by_cases hk : k = a.1
      · subst hk
        simp [ha]
      · simp [hk]

/-- What a key of a table finds, where every entry of the table holds `v`. -/
theorem Tab.find_const {t : Tab α} {v : α} {k : Nat} (hv : ∀ e ∈ t, e.2 = v) (hk : ∃ e ∈ t, e.1 = k) : Tab.find t k = some v := by
  induction t with
  | nil => simp at hk
  | cons a t ih =>
    by_cases h : k = a.1
    · simp [Tab.find, h, hv a (by simp)]
    · have : ∃ e ∈ t, e.1 = k := by
        obtain ⟨e, he, rfl⟩ := hk
        rcases List.mem_cons.1 he with rfl | he
        · exact absurd rfl h
        · exact ⟨e, he, rfl⟩
      simp [Tab.find, h, ih (fun e he => hv e (by simp [he])) this]

end Sys2Proof

namespace Sys2Proof.Machine
open Sys2Proof

theorem rising_foldl_insert {α : Type} (l : List (Nat × α)) (m : Tab α) (h : Tab.rising m = true) :
    Tab.rising (l.foldl (fun m c => Tab.insert c.1 c.2 m) m) = true := by
  induction l generalizing m with
  | nil => exact h
  | cons a l ih => exact ih _ (Tab.rising_insert _ _ h)

/-- Three runs of rising keys, each below the next, rise. -/
theorem rising_append3 {α : Type} {a b c : Tab α} {x y : Nat} (ha : Tab.rising a = true) (hb : Tab.rising b = true) (hc : Tab.rising c = true)
    (h1 : ∀ e ∈ a, e.1 < x) (h2 : ∀ e ∈ b, x ≤ e.1 ∧ e.1 < y) (h3 : ∀ e ∈ c, y ≤ e.1) (hxy : x ≤ y) : Tab.rising (a ++ b ++ c) = true := by
  rw [Tab.rising_iff] at ha hb hc ⊢
  rw [List.append_assoc, List.pairwise_append, List.pairwise_append]
  refine ⟨ha, ⟨hb, hc, fun e he f hf => lt_of_lt_of_le (h2 e he).2 (h3 f hf)⟩, fun e he f hf => ?_⟩
  rcases List.mem_append.1 hf with hf | hf
  · exact lt_of_lt_of_le (h1 e he) (h2 f hf).1
  · exact lt_of_lt_of_le (h1 e he) (hxy.trans (h3 f hf))

theorem State.memWrite_ok {s : State} (l : List (Nat × Byte)) (h : s.memOk) : (s.memWrite l).memOk := rising_foldl_insert l s.mem h

theorem State.memFill_ok {s : State} (k : Nat) (l : List Byte) (h : s.memOk) : (s.memFill k l).memOk := by
  refine rising_append3 (x := k) (y := k + l.length) (Tab.rising_filter _ h) ?_ (Tab.rising_filter _ h) ?_ ?_ ?_ (Nat.le_add_right _ _)
  · rw [Tab.rising_iff, List.pairwise_iff_getElem]
    intro i j hi hj hij
    simp only [List.getElem_zipWith, List.getElem_range]
    omega
  · intro e he
    simpa using (List.mem_filter.1 he).2
  · intro e he
    rw [List.mem_iff_getElem] at he
    obtain ⟨i, hi, rfl⟩ := he
    have hl : i < l.length := by simpa using hi
    simp only [List.getElem_zipWith, List.getElem_range]
    omega
  · intro e he
    simpa using (List.mem_filter.1 he).2

theorem State.cellPut_ok {s : State} (c : Nat × Byte) (h : s.memOk) : (s.cellPut c).memOk := by
  unfold State.cellPut
  simp only
  split
  · exact h
  · exact State.memWrite_ok _ h

theorem State.cellsPut_ok {s : State} (l : List (Nat × Byte)) (h : s.memOk) : (s.cellsPut l).memOk := by
  have key : ∀ (l : List (Nat × Byte)) (s : State), s.memOk → (l.foldl State.cellPut s).memOk := by
    intro l
    induction l with
    | nil => exact fun s h => h
    | cons a l ih => exact fun s h => ih _ (State.cellPut_ok a h)
  unfold State.cellsPut
  split
  · exact key l s h
  · exact State.memWrite_ok _ h

theorem State.cellsFill_ok {s : State} (k : Nat) (l : List Byte) (h : s.memOk) : (s.cellsFill k l).memOk := by
  unfold State.cellsFill
  split
  · exact State.memFill_ok k l h
  · exact State.cellsPut_ok _ h

theorem State.loseContents_ok {s : State} (ch : Nat) (h : s.memOk) : (s.loseContents ch).memOk := Tab.rising_filter _ h

theorem State.rowRepaired_ok {s : State} (ch : Nat) (c : Cand) (h : s.memOk) : (s.rowRepaired ch c).memOk := Tab.rising_filter _ h

theorem State.reset_memOk : State.reset.memOk := rfl

theorem State.memAt_eq (s : State) (k : Nat) : s.memAt k = Tab.find s.mem k := rfl

/-- After the contents of a channel are lost no byte of it is listed, and every other byte stands (R344). -/
theorem State.loseContents_memAt (s : State) (ch k : Nat) : (s.loseContents ch).memAt k = if k / 2 ^ 34 = ch then none else s.memAt k := by
  show Tab.find (s.mem.filter fun c => c.1 / 2 ^ 34 != ch) k = _
  rw [Tab.find_filter (fun n => n / 2 ^ 34 != ch)]
  simp [State.memAt]

/-- A write of one byte: that byte, and every other as before. -/
theorem State.memWrite_one (s : State) (k : Nat) (b : Byte) (n : Nat) : (s.memWrite [(k, b)]).memAt n = if n = k then some b else s.memAt n := by
  show Tab.find (Tab.insert k b s.mem) n = _
  by_cases h : n = k
  · subst h
    simp
  · rw [Tab.find_insert_ne h, if_neg h]
    rfl

end Sys2Proof.Machine
end

