-- ==== Sys2Proof/Laws/PerInstr.lean ====
section
/-! SUPPORT. One lemma per command: a well-formed command names only units the machine has (R1, R2): a processor target below 8, a port
below 64, a channel, a port group, a source group or a counter group below 32. -/

set_option Elab.async false

namespace Sys2Proof.Laws

/-- The processor target that made a register or mailbox access (R446); 0 for a command that has none. -/
def target (i : Instr) : Nat :=
  match i with
  | .tickRelockWrite _ _ n => n
  | .gateArm _ _ n => n
  | .gateDisarm _ _ n => n
  | .registerWrite _ _ n => n
  | .busyRearm _ n => n
  | .imgStart _ n => n
  | .imgAbort _ n => n
  | .imgFifoWord _ n => n
  | .portForceDetach _ _ n => n
  | .cancelWait _ _ n => n
  | .violRearm _ _ n => n
  | .linkFreeze _ _ n => n
  | .linkUnfreeze _ _ n => n
  | .haloInvalidate _ _ n => n
  | .haloRearm _ _ n => n
  | .cirRearm _ n => n
  | .channelHold _ _ n => n
  | .phyCold _ _ n => n
  | .phyWarm _ _ n => n
  | .phyLong _ _ n => n
  | .phyRearm _ _ n => n
  | .forceFree _ n => n
  | .evacStart _ n => n
  | .evacCancel _ n => n
  | .migrateStart _ n => n
  | .remapCmdInstall _ _ n => n
  | .remapCmdRemove _ _ n => n
  | .feRearm _ _ n => n
  | .intRearm _ n => n
  | .ringConsWrite _ n => n
  | .pprAdd _ n => n
  | .pprArm _ n => n
  | .pprGo _ n => n
  | .checkerMode _ n => n
  | .duskRequest _ n => n
  | .chSelfRefreshReq _ _ n => n
  | .chRetire _ _ n => n
  | .chReinstate _ _ n => n
  | .softReset _ n => n
  | .evtAck _ n => n
  | .evtDisable _ n => n
  | .counterSnap _ _ n => n
  | .counterClear _ _ n => n
  | .contrailFlush _ n => n
  | .contrailConsWrite _ n => n
  | .mbxGo _ _ n => n
  | .epochRead _ _ n => n
  | .epochSeedRead _ _ n => n
  | .epochSeedWrite _ _ n => n
  | .tickIntervalsRead _ _ n => n
  | .cycleRead _ _ n => n
  | .flowConfigRead _ _ n => n
  | .flowConfigWrite _ _ n => n
  | .flowStateRead _ _ n => n
  | .flowStateWrite _ _ n => n
  | .trainingStateRead _ _ n _ => n
  | .trainingStateWrite _ _ n => n
  | .errorRingRead _ _ n _ => n
  | .perfCounterRead _ _ n => n
  | .perfCounterWrite _ _ n => n
  | .perfSnapshotRead _ _ n => n
  | .contrailRecordRead _ _ n => n
  | .squallKey _ n _ => n
  | .squallSeed _ n => n
  | .guardedInject _ n => n
  | .sealedInject _ n => n
  | .haloInject _ n => n
  | .linkInject _ n => n
  | .registerRead _ n => n
  | .chHoldClear _ _ n => n
  | .pprDisarm _ n => n
  | _ => 0

/-- The port a command names (R1); 0 for a command that names none. -/
def portNo (i : Instr) : Nat :=
  match i with
  | .read n _ _ => n
  | .write n _ _ => n
  | .prefetch n _ _ => n
  | .zero n _ _ => n
  | .preload n _ _ => n
  | .unlock n _ _ => n
  | .hold n _ _ => n
  | .drop n _ _ => n
  | .create n _ _ _ => n
  | .writeDataBeat n _ _ _ _ => n
  | .responseBeat n _ => n
  | .attachRequest n => n
  | .portAttach n => n
  | .detachRequest n => n
  | .portForceDetach n _ _ => n
  | .cancelWait n _ _ => n
  | .violRearm n _ _ => n
  | .spaceWaitTimeout n _ => n
  | .reqDetached n => n
  | .opUnknown n _ _ _ => n
  | _ => 0

/-- The channel a command names (R1); 0 for a command that names none. -/
def chanNo (i : Instr) : Nat :=
  match i with
  | .entryPass n _ => n
  | .dramCommandIssue n _ _ => n
  | .readDataReturn n _ => n
  | .refreshAccrual n _ _ => n
  | .mr4ReadDue n _ => n
  | .oscDue n => n
  | .eyeSweepDone n _ _ _ _ => n
  | .zqDue n _ => n
  | .longTrainingDue n _ => n
  | .maintenanceDone n _ => n
  | .maintStarved n => n
  | .powerDownEntry n _ _ => n
  | .channelHold n _ _ => n
  | .chQuiesced n => n
  | .dawnStepDone n _ _ => n
  | .phyCold n _ _ => n
  | .phyWarm n _ _ => n
  | .phyLong n _ _ => n
  | .phyRearm n _ _ => n
  | .autoEvacStart n => n
  | .contentLossMark n _ => n
  | .scrubStep n => n
  | .remapInstall n => n
  | .remapCmdInstall n _ _ => n
  | .remapCmdRemove n _ _ => n
  | .feRearm n _ _ => n
  | .chSelfRefreshReq n _ _ => n
  | .chRetire n _ _ => n
  | .chReinstate n _ _ => n
  | .chHoldClear n _ _ => n
  | _ => 0

/-- The group a command names, of ports or of event sources or of counters; 0 for a command that names none. -/
def grpNo (i : Instr) : Nat :=
  match i with
  | .linkGrant n => n
  | .linkBeat n _ => n
  | .linkRevoke n => n
  | .linkBite n => n
  | .creditRefill n => n
  | .linkFreeze n _ _ => n
  | .linkUnfreeze n _ _ => n
  | .linkDrained n => n
  | .fillUnitArrive n _ => n
  | .cellCheck n _ => n
  | .cirRetryResult n _ _ => n
  | .cellEncodeDone n _ => n
  | .evictWritebackUnit n => n
  | .haloInvalidate n _ _ => n
  | .haloInvDone n => n
  | .haloRearm n _ _ => n
  | .groupPost n => n
  | .holdoffExpiry n => n
  | .coalesceTimeExpiry n => n
  | .counterSnap n _ _ => n
  | .counterClear n _ _ => n
  | _ => 0

/-- A well-formed command names a target, a port and a channel that exist. -/
def Ranges.Statement (i : Instr) : Prop :=
  i.wf = true → target i < 8 ∧ portNo i < 64 ∧ chanNo i < 32

theorem Ranges.tickEdge (t : Nat) (width : Nat) : Ranges.Statement (.tickEdge t width) := by
  simp [Ranges.Statement, Instr.wf, target, portNo, chanNo]; try omega

theorem Ranges.flywheelTick (t : Nat) : Ranges.Statement (.flywheelTick t) := by
  simp [Ranges.Statement, Instr.wf, target, portNo, chanNo]; try omega

theorem Ranges.tickCycle (c : Nat) : Ranges.Statement (.tickCycle c) := by
  simp [Ranges.Statement, Instr.wf, target, portNo, chanNo]; try omega

theorem Ranges.gateEntryExpiry (d : Nat) (c : Nat) : Ranges.Statement (.gateEntryExpiry d c) := by
  simp [Ranges.Statement, Instr.wf, target, portNo, chanNo]; try omega

theorem Ranges.budgetWindowStart (win : Nat) (c : Nat) : Ranges.Statement (.budgetWindowStart win c) := by
  simp [Ranges.Statement, Instr.wf, target, portNo, chanNo]; try omega

theorem Ranges.tickRelockWrite (t : Nat) (w : Word) (tgt : Nat) : Ranges.Statement (.tickRelockWrite t w tgt) := by
  simp [Ranges.Statement, Instr.wf, target, portNo, chanNo]; try omega

theorem Ranges.gateArm (d : Nat) (w : Word) (tgt : Nat) : Ranges.Statement (.gateArm d w tgt) := by
  simp [Ranges.Statement, Instr.wf, target, portNo, chanNo]; try omega

theorem Ranges.gateDisarm (d : Nat) (w : Word) (tgt : Nat) : Ranges.Statement (.gateDisarm d w tgt) := by
  simp [Ranges.Statement, Instr.wf, target, portNo, chanNo]; try omega

theorem Ranges.registerWrite (a : Nat) (w : Word) (tgt : Nat) : Ranges.Statement (.registerWrite a w tgt) := by
  simp [Ranges.Statement, Instr.wf, target, portNo, chanNo]; try omega

theorem Ranges.busyRearm (w : Word) (tgt : Nat) : Ranges.Statement (.busyRearm w tgt) := by
  simp [Ranges.Statement, Instr.wf, target, portNo, chanNo]; try omega

theorem Ranges.imgStart (w : Word) (tgt : Nat) : Ranges.Statement (.imgStart w tgt) := by
  simp [Ranges.Statement, Instr.wf, target, portNo, chanNo]; try omega

theorem Ranges.imgAbort (w : Word) (tgt : Nat) : Ranges.Statement (.imgAbort w tgt) := by
  simp [Ranges.Statement, Instr.wf, target, portNo, chanNo]; try omega

theorem Ranges.imgFifoWord (w : Word) (tgt : Nat) : Ranges.Statement (.imgFifoWord w tgt) := by
  simp [Ranges.Statement, Instr.wf, target, portNo, chanNo]; try omega

theorem Ranges.imgStreamWord (w : Word) (last : Bool) : Ranges.Statement (.imgStreamWord w last) := by
  simp [Ranges.Statement, Instr.wf, target, portNo, chanNo]; try omega

theorem Ranges.imgCheckDone : Ranges.Statement (.imgCheckDone) := by
  simp [Ranges.Statement, Instr.wf, target, portNo, chanNo]; try omega

theorem Ranges.imgAuthVerdict (ok : Bool) (crc : Word) : Ranges.Statement (.imgAuthVerdict ok crc) := by
  simp [Ranges.Statement, Instr.wf, target, portNo, chanNo]; try omega

theorem Ranges.imgAdmitDone (c : Nat) (t : Nat) : Ranges.Statement (.imgAdmitDone c t) := by
  simp [Ranges.Statement, Instr.wf, target, portNo, chanNo]; try omega

theorem Ranges.channelImageQuiesced : Ranges.Statement (.channelImageQuiesced) := by
  simp [Ranges.Statement, Instr.wf, target, portNo, chanNo]; try omega

theorem Ranges.groupQuiesceDone (c : Nat) : Ranges.Statement (.groupQuiesceDone c) := by
  simp [Ranges.Statement, Instr.wf, target, portNo, chanNo]; try omega

theorem Ranges.quiesceTimeout (c : Nat) : Ranges.Statement (.quiesceTimeout c) := by
  simp [Ranges.Statement, Instr.wf, target, portNo, chanNo]; try omega

theorem Ranges.read (p : Nat) (r : Req) (c : Nat) : Ranges.Statement (.read p r c) := by
  simp [Ranges.Statement, Instr.wf, target, portNo, chanNo]; try omega

theorem Ranges.write (p : Nat) (r : Req) (c : Nat) : Ranges.Statement (.write p r c) := by
  simp [Ranges.Statement, Instr.wf, target, portNo, chanNo]; try omega

theorem Ranges.prefetch (p : Nat) (r : Req) (c : Nat) : Ranges.Statement (.prefetch p r c) := by
  simp [Ranges.Statement, Instr.wf, target, portNo, chanNo]; try omega

theorem Ranges.zero (p : Nat) (r : Req) (c : Nat) : Ranges.Statement (.zero p r c) := by
  simp [Ranges.Statement, Instr.wf, target, portNo, chanNo]; try omega

theorem Ranges.preload (p : Nat) (r : Req) (c : Nat) : Ranges.Statement (.preload p r c) := by
  simp [Ranges.Statement, Instr.wf, target, portNo, chanNo]; try omega

theorem Ranges.unlock (p : Nat) (r : Req) (c : Nat) : Ranges.Statement (.unlock p r c) := by
  simp [Ranges.Statement, Instr.wf, target, portNo, chanNo]; try omega

theorem Ranges.hold (p : Nat) (r : Req) (c : Nat) : Ranges.Statement (.hold p r c) := by
  simp [Ranges.Statement, Instr.wf, target, portNo, chanNo]; try omega

theorem Ranges.drop (p : Nat) (r : Req) (c : Nat) : Ranges.Statement (.drop p r c) := by
  simp [Ranges.Statement, Instr.wf, target, portNo, chanNo]; try omega

theorem Ranges.create (p : Nat) (r : Req) (d : Option (BitVec 512)) (c : Nat) : Ranges.Statement (.create p r d c) := by
  simp [Ranges.Statement, Instr.wf, target, portNo, chanNo]; try omega

theorem Ranges.writeDataBeat (p : Nat) (data : BitVec 512) (mask : BitVec 64) (last : Bool) (c : Nat) : Ranges.Statement (.writeDataBeat p data mask last c) := by
  simp [Ranges.Statement, Instr.wf, target, portNo, chanNo]; try omega

theorem Ranges.responseBeat (p : Nat) (c : Nat) : Ranges.Statement (.responseBeat p c) := by
  simp [Ranges.Statement, Instr.wf, target, portNo, chanNo]; try omega

theorem Ranges.attachRequest (p : Nat) : Ranges.Statement (.attachRequest p) := by
  simp [Ranges.Statement, Instr.wf, target, portNo, chanNo]; try omega

theorem Ranges.portAttach (p : Nat) : Ranges.Statement (.portAttach p) := by
  simp [Ranges.Statement, Instr.wf, target, portNo, chanNo]; try omega

theorem Ranges.detachRequest (p : Nat) : Ranges.Statement (.detachRequest p) := by
  simp [Ranges.Statement, Instr.wf, target, portNo, chanNo]; try omega

theorem Ranges.portForceDetach (p : Nat) (w : Word) (tgt : Nat) : Ranges.Statement (.portForceDetach p w tgt) := by
  simp [Ranges.Statement, Instr.wf, target, portNo, chanNo]; try omega

theorem Ranges.cancelWait (p : Nat) (w : Word) (tgt : Nat) : Ranges.Statement (.cancelWait p w tgt) := by
  simp [Ranges.Statement, Instr.wf, target, portNo, chanNo]; try omega

theorem Ranges.violRearm (p : Nat) (w : Word) (tgt : Nat) : Ranges.Statement (.violRearm p w tgt) := by
  simp [Ranges.Statement, Instr.wf, target, portNo, chanNo]; try omega

theorem Ranges.spaceWaitTimeout (p : Nat) (tag : Nat) : Ranges.Statement (.spaceWaitTimeout p tag) := by
  simp [Ranges.Statement, Instr.wf, target, portNo, chanNo]; try omega

theorem Ranges.createRetry (pool : Nat) : Ranges.Statement (.createRetry pool) := by
  simp [Ranges.Statement, Instr.wf, target, portNo, chanNo]; try omega

theorem Ranges.linkGrant (g : Nat) : Ranges.Statement (.linkGrant g) := by
  simp [Ranges.Statement, Instr.wf, target, portNo, chanNo]; try omega

theorem Ranges.linkBeat (g : Nat) (c : Nat) : Ranges.Statement (.linkBeat g c) := by
  simp [Ranges.Statement, Instr.wf, target, portNo, chanNo]; try omega

theorem Ranges.linkRevoke (g : Nat) : Ranges.Statement (.linkRevoke g) := by
  simp [Ranges.Statement, Instr.wf, target, portNo, chanNo]; try omega

theorem Ranges.linkBite (g : Nat) : Ranges.Statement (.linkBite g) := by
  simp [Ranges.Statement, Instr.wf, target, portNo, chanNo]; try omega

theorem Ranges.creditRefill (g : Nat) : Ranges.Statement (.creditRefill g) := by
  simp [Ranges.Statement, Instr.wf, target, portNo, chanNo]; try omega

theorem Ranges.linkFreeze (g : Nat) (w : Word) (tgt : Nat) : Ranges.Statement (.linkFreeze g w tgt) := by
  simp [Ranges.Statement, Instr.wf, target, portNo, chanNo]; try omega

theorem Ranges.linkUnfreeze (g : Nat) (w : Word) (tgt : Nat) : Ranges.Statement (.linkUnfreeze g w tgt) := by
  simp [Ranges.Statement, Instr.wf, target, portNo, chanNo]; try omega

theorem Ranges.linkDrained (g : Nat) : Ranges.Statement (.linkDrained g) := by
  simp [Ranges.Statement, Instr.wf, target, portNo, chanNo]; try omega

theorem Ranges.fillUnitArrive (g : Nat) (k : Nat) : Ranges.Statement (.fillUnitArrive g k) := by
  simp [Ranges.Statement, Instr.wf, target, portNo, chanNo]; try omega

theorem Ranges.cellCheck (g : Nat) (k : Nat) : Ranges.Statement (.cellCheck g k) := by
  simp [Ranges.Statement, Instr.wf, target, portNo, chanNo]; try omega

theorem Ranges.cirRetryResult (g : Nat) (k : Nat) (linkFail : Bool) : Ranges.Statement (.cirRetryResult g k linkFail) := by
  simp [Ranges.Statement, Instr.wf, target, portNo, chanNo]; try omega

theorem Ranges.cellEncodeDone (g : Nat) (k : Nat) : Ranges.Statement (.cellEncodeDone g k) := by
  simp [Ranges.Statement, Instr.wf, target, portNo, chanNo]; try omega

theorem Ranges.snoopShare : Ranges.Statement (.snoopShare) := by
  simp [Ranges.Statement, Instr.wf, target, portNo, chanNo]; try omega

theorem Ranges.snoopClaim : Ranges.Statement (.snoopClaim) := by
  simp [Ranges.Statement, Instr.wf, target, portNo, chanNo]; try omega

theorem Ranges.snoopAcksDone (k : Nat) : Ranges.Statement (.snoopAcksDone k) := by
  simp [Ranges.Statement, Instr.wf, target, portNo, chanNo]; try omega

theorem Ranges.evictWritebackUnit (g : Nat) : Ranges.Statement (.evictWritebackUnit g) := by
  simp [Ranges.Statement, Instr.wf, target, portNo, chanNo]; try omega

theorem Ranges.haloInvalidate (g : Nat) (w : Word) (tgt : Nat) : Ranges.Statement (.haloInvalidate g w tgt) := by
  simp [Ranges.Statement, Instr.wf, target, portNo, chanNo]; try omega

theorem Ranges.haloInvDone (g : Nat) : Ranges.Statement (.haloInvDone g) := by
  simp [Ranges.Statement, Instr.wf, target, portNo, chanNo]; try omega

theorem Ranges.haloRearm (g : Nat) (w : Word) (tgt : Nat) : Ranges.Statement (.haloRearm g w tgt) := by
  simp [Ranges.Statement, Instr.wf, target, portNo, chanNo]; try omega

theorem Ranges.cirRearm (w : Word) (tgt : Nat) : Ranges.Statement (.cirRearm w tgt) := by
  simp [Ranges.Statement, Instr.wf, target, portNo, chanNo]; try omega

theorem Ranges.subrequestAssign (k : Nat) (c : Nat) : Ranges.Statement (.subrequestAssign k c) := by
  simp [Ranges.Statement, Instr.wf, target, portNo, chanNo]; try omega

theorem Ranges.flowContextFill (f : Nat) (lost : Nat) : Ranges.Statement (.flowContextFill f lost) := by
  simp [Ranges.Statement, Instr.wf, target, portNo, chanNo]; try omega

theorem Ranges.urgencyUpdate (f : Nat) (c : Nat) : Ranges.Statement (.urgencyUpdate f c) := by
  simp [Ranges.Statement, Instr.wf, target, portNo, chanNo]; try omega

theorem Ranges.flowSweep (f : Nat) (c : Nat) : Ranges.Statement (.flowSweep f c) := by
  simp [Ranges.Statement, Instr.wf, target, portNo, chanNo]; try omega

theorem Ranges.capacityTestDone : Ranges.Statement (.capacityTestDone) := by
  simp [Ranges.Statement, Instr.wf, target, portNo, chanNo]; try omega

theorem Ranges.entryPass (ch : Nat) (c : Nat) : Ranges.Statement (.entryPass ch c) := by
  simp [Ranges.Statement, Instr.wf, target, portNo, chanNo]; try omega

theorem Ranges.dramCommandIssue (ch : Nat) (ck : Nat) (mr : MrrData) : Ranges.Statement (.dramCommandIssue ch ck mr) := by
  simp [Ranges.Statement, Instr.wf, target, portNo, chanNo]; try omega

theorem Ranges.readDataReturn (ch : Nat) (link : List Nat) : Ranges.Statement (.readDataReturn ch link) := by
  simp [Ranges.Statement, Instr.wf, target, portNo, chanNo]; try omega

theorem Ranges.refreshAccrual (ch : Nat) (r : Nat) (ck : Nat) : Ranges.Statement (.refreshAccrual ch r ck) := by
  simp [Ranges.Statement, Instr.wf, target, portNo, chanNo]; try omega

theorem Ranges.mr4ReadDue (ch : Nat) (r : Nat) : Ranges.Statement (.mr4ReadDue ch r) := by
  simp [Ranges.Statement, Instr.wf, target, portNo, chanNo]; try omega

theorem Ranges.oscDue (ch : Nat) : Ranges.Statement (.oscDue ch) := by
  simp [Ranges.Statement, Instr.wf, target, portNo, chanNo]; try omega

theorem Ranges.eyeSweepDone (ch : Nat) (r : Nat) (b : Nat) (left : Nat) (right : Nat) : Ranges.Statement (.eyeSweepDone ch r b left right) := by
  simp [Ranges.Statement, Instr.wf, target, portNo, chanNo]; try omega

theorem Ranges.zqDue (ch : Nat) (r : Nat) : Ranges.Statement (.zqDue ch r) := by
  simp [Ranges.Statement, Instr.wf, target, portNo, chanNo]; try omega

theorem Ranges.longTrainingDue (ch : Nat) (r : Nat) : Ranges.Statement (.longTrainingDue ch r) := by
  simp [Ranges.Statement, Instr.wf, target, portNo, chanNo]; try omega

theorem Ranges.maintenanceDone (ch : Nat) (r : LongRes) : Ranges.Statement (.maintenanceDone ch r) := by
  simp [Ranges.Statement, Instr.wf, target, portNo, chanNo]; try omega

theorem Ranges.maintStarved (ch : Nat) : Ranges.Statement (.maintStarved ch) := by
  simp [Ranges.Statement, Instr.wf, target, portNo, chanNo]; try omega

theorem Ranges.powerDownEntry (ch : Nat) (r : Nat) (ck : Nat) : Ranges.Statement (.powerDownEntry ch r ck) := by
  simp [Ranges.Statement, Instr.wf, target, portNo, chanNo]; try omega

theorem Ranges.channelHold (ch : Nat) (w : Word) (tgt : Nat) : Ranges.Statement (.channelHold ch w tgt) := by
  simp [Ranges.Statement, Instr.wf, target, portNo, chanNo]; try omega

theorem Ranges.chQuiesced (ch : Nat) : Ranges.Statement (.chQuiesced ch) := by
  simp [Ranges.Statement, Instr.wf, target, portNo, chanNo]; try omega

theorem Ranges.dawnStepDone (ch : Nat) (us : Nat) (out : DawnOut) : Ranges.Statement (.dawnStepDone ch us out) := by
  simp [Ranges.Statement, Instr.wf, target, portNo, chanNo]; try omega

theorem Ranges.phyCold (ch : Nat) (w : Word) (tgt : Nat) : Ranges.Statement (.phyCold ch w tgt) := by
  simp [Ranges.Statement, Instr.wf, target, portNo, chanNo]; try omega

theorem Ranges.phyWarm (ch : Nat) (w : Word) (tgt : Nat) : Ranges.Statement (.phyWarm ch w tgt) := by
  simp [Ranges.Statement, Instr.wf, target, portNo, chanNo]; try omega

theorem Ranges.phyLong (ch : Nat) (w : Word) (tgt : Nat) : Ranges.Statement (.phyLong ch w tgt) := by
  simp [Ranges.Statement, Instr.wf, target, portNo, chanNo]; try omega

theorem Ranges.phyRearm (ch : Nat) (w : Word) (tgt : Nat) : Ranges.Statement (.phyRearm ch w tgt) := by
  simp [Ranges.Statement, Instr.wf, target, portNo, chanNo]; try omega

theorem Ranges.autoEvacStart (ch : Nat) : Ranges.Statement (.autoEvacStart ch) := by
  simp [Ranges.Statement, Instr.wf, target, portNo, chanNo]; try omega

theorem Ranges.contentLossMark (ch : Nat) (u : Nat) : Ranges.Statement (.contentLossMark ch u) := by
  simp [Ranges.Statement, Instr.wf, target, portNo, chanNo]; try omega

theorem Ranges.tilePrepWrite (idx : Nat) (tile : Nat) : Ranges.Statement (.tilePrepWrite idx tile) := by
  simp [Ranges.Statement, Instr.wf, target, portNo, chanNo]; try omega

theorem Ranges.extentsReturn (idx : Nat) : Ranges.Statement (.extentsReturn idx) := by
  simp [Ranges.Statement, Instr.wf, target, portNo, chanNo]; try omega

theorem Ranges.forceFree (w : Word) (tgt : Nat) : Ranges.Statement (.forceFree w tgt) := by
  simp [Ranges.Statement, Instr.wf, target, portNo, chanNo]; try omega

theorem Ranges.evacStart (w : Word) (tgt : Nat) : Ranges.Statement (.evacStart w tgt) := by
  simp [Ranges.Statement, Instr.wf, target, portNo, chanNo]; try omega

theorem Ranges.evacCancel (w : Word) (tgt : Nat) : Ranges.Statement (.evacCancel w tgt) := by
  simp [Ranges.Statement, Instr.wf, target, portNo, chanNo]; try omega

theorem Ranges.migrateStart (w : Word) (tgt : Nat) : Ranges.Statement (.migrateStart w tgt) := by
  simp [Ranges.Statement, Instr.wf, target, portNo, chanNo]; try omega

theorem Ranges.pieceCopyDone : Ranges.Statement (.pieceCopyDone) := by
  simp [Ranges.Statement, Instr.wf, target, portNo, chanNo]; try omega

theorem Ranges.chunkCopied : Ranges.Statement (.chunkCopied) := by
  simp [Ranges.Statement, Instr.wf, target, portNo, chanNo]; try omega

theorem Ranges.moveResume : Ranges.Statement (.moveResume) := by
  simp [Ranges.Statement, Instr.wf, target, portNo, chanNo]; try omega

theorem Ranges.replaceRound : Ranges.Statement (.replaceRound) := by
  simp [Ranges.Statement, Instr.wf, target, portNo, chanNo]; try omega

theorem Ranges.initUnitWrite (r : Nat) (u : Nat) : Ranges.Statement (.initUnitWrite r u) := by
  simp [Ranges.Statement, Instr.wf, target, portNo, chanNo]; try omega

theorem Ranges.scrubStep (ch : Nat) : Ranges.Statement (.scrubStep ch) := by
  simp [Ranges.Statement, Instr.wf, target, portNo, chanNo]; try omega

theorem Ranges.scrubPeriodExpiry : Ranges.Statement (.scrubPeriodExpiry) := by
  simp [Ranges.Statement, Instr.wf, target, portNo, chanNo]; try omega

theorem Ranges.detectionHandle : Ranges.Statement (.detectionHandle) := by
  simp [Ranges.Statement, Instr.wf, target, portNo, chanNo]; try omega

theorem Ranges.remapInstall (ch : Nat) : Ranges.Statement (.remapInstall ch) := by
  simp [Ranges.Statement, Instr.wf, target, portNo, chanNo]; try omega

theorem Ranges.remapCmdInstall (ch : Nat) (w : Word) (tgt : Nat) : Ranges.Statement (.remapCmdInstall ch w tgt) := by
  simp [Ranges.Statement, Instr.wf, target, portNo, chanNo]; try omega

theorem Ranges.remapCmdRemove (ch : Nat) (w : Word) (tgt : Nat) : Ranges.Statement (.remapCmdRemove ch w tgt) := by
  simp [Ranges.Statement, Instr.wf, target, portNo, chanNo]; try omega

theorem Ranges.feRearm (ch : Nat) (w : Word) (tgt : Nat) : Ranges.Statement (.feRearm ch w tgt) := by
  simp [Ranges.Statement, Instr.wf, target, portNo, chanNo]; try omega

theorem Ranges.intRearm (w : Word) (tgt : Nat) : Ranges.Statement (.intRearm w tgt) := by
  simp [Ranges.Statement, Instr.wf, target, portNo, chanNo]; try omega

theorem Ranges.ringConsWrite (w : Word) (tgt : Nat) : Ranges.Statement (.ringConsWrite w tgt) := by
  simp [Ranges.Statement, Instr.wf, target, portNo, chanNo]; try omega

theorem Ranges.pprAdd (w : Word) (tgt : Nat) : Ranges.Statement (.pprAdd w tgt) := by
  simp [Ranges.Statement, Instr.wf, target, portNo, chanNo]; try omega

theorem Ranges.pprArm (w : Word) (tgt : Nat) : Ranges.Statement (.pprArm w tgt) := by
  simp [Ranges.Statement, Instr.wf, target, portNo, chanNo]; try omega

theorem Ranges.pprGo (w : Word) (tgt : Nat) : Ranges.Statement (.pprGo w tgt) := by
  simp [Ranges.Statement, Instr.wf, target, portNo, chanNo]; try omega

theorem Ranges.pprRowDone (ok : Bool) : Ranges.Statement (.pprRowDone ok) := by
  simp [Ranges.Statement, Instr.wf, target, portNo, chanNo]; try omega

theorem Ranges.checkerMode (w : Word) (tgt : Nat) : Ranges.Statement (.checkerMode w tgt) := by
  simp [Ranges.Statement, Instr.wf, target, portNo, chanNo]; try omega

theorem Ranges.checkerFlushDone : Ranges.Statement (.checkerFlushDone) := by
  simp [Ranges.Statement, Instr.wf, target, portNo, chanNo]; try omega

theorem Ranges.duskRequest (w : Word) (tgt : Nat) : Ranges.Statement (.duskRequest w tgt) := by
  simp [Ranges.Statement, Instr.wf, target, portNo, chanNo]; try omega

theorem Ranges.duskClockStop : Ranges.Statement (.duskClockStop) := by
  simp [Ranges.Statement, Instr.wf, target, portNo, chanNo]; try omega

theorem Ranges.wakeLatch (srcs : Nat) (n : Nat) : Ranges.Statement (.wakeLatch srcs n) := by
  simp [Ranges.Statement, Instr.wf, target, portNo, chanNo]; try omega

theorem Ranges.duskTimerExpiry : Ranges.Statement (.duskTimerExpiry) := by
  simp [Ranges.Statement, Instr.wf, target, portNo, chanNo]; try omega

theorem Ranges.pwrWake (recordOk : Bool) (t : Nat) : Ranges.Statement (.pwrWake recordOk t) := by
  simp [Ranges.Statement, Instr.wf, target, portNo, chanNo]; try omega

theorem Ranges.tempAlert : Ranges.Statement (.tempAlert) := by
  simp [Ranges.Statement, Instr.wf, target, portNo, chanNo]; try omega

theorem Ranges.chSelfRefreshReq (ch : Nat) (w : Word) (tgt : Nat) : Ranges.Statement (.chSelfRefreshReq ch w tgt) := by
  simp [Ranges.Statement, Instr.wf, target, portNo, chanNo]; try omega

theorem Ranges.chRetire (ch : Nat) (w : Word) (tgt : Nat) : Ranges.Statement (.chRetire ch w tgt) := by
  simp [Ranges.Statement, Instr.wf, target, portNo, chanNo]; try omega

theorem Ranges.chReinstate (ch : Nat) (w : Word) (tgt : Nat) : Ranges.Statement (.chReinstate ch w tgt) := by
  simp [Ranges.Statement, Instr.wf, target, portNo, chanNo]; try omega

theorem Ranges.softReset (w : Word) (tgt : Nat) : Ranges.Statement (.softReset w tgt) := by
  simp [Ranges.Statement, Instr.wf, target, portNo, chanNo]; try omega

theorem Ranges.powerOnReset : Ranges.Statement (.powerOnReset) := by
  simp [Ranges.Statement, Instr.wf, target, portNo, chanNo]; try omega

theorem Ranges.coreReset : Ranges.Statement (.coreReset) := by
  simp [Ranges.Statement, Instr.wf, target, portNo, chanNo]; try omega

theorem Ranges.domainResetRelease (dom : Nat) : Ranges.Statement (.domainResetRelease dom) := by
  simp [Ranges.Statement, Instr.wf, target, portNo, chanNo]; try omega

theorem Ranges.railAbsent (rail : Nat) : Ranges.Statement (.railAbsent rail) := by
  simp [Ranges.Statement, Instr.wf, target, portNo, chanNo]; try omega

theorem Ranges.railGood (rail : Nat) : Ranges.Statement (.railGood rail) := by
  simp [Ranges.Statement, Instr.wf, target, portNo, chanNo]; try omega

theorem Ranges.evtAck (w : Word) (tgt : Nat) : Ranges.Statement (.evtAck w tgt) := by
  simp [Ranges.Statement, Instr.wf, target, portNo, chanNo]; try omega

theorem Ranges.evtDisable (w : Word) (tgt : Nat) : Ranges.Statement (.evtDisable w tgt) := by
  simp [Ranges.Statement, Instr.wf, target, portNo, chanNo]; try omega

theorem Ranges.groupPost (g : Nat) : Ranges.Statement (.groupPost g) := by
  simp [Ranges.Statement, Instr.wf, target, portNo, chanNo]; try omega

theorem Ranges.holdoffExpiry (g : Nat) : Ranges.Statement (.holdoffExpiry g) := by
  simp [Ranges.Statement, Instr.wf, target, portNo, chanNo]; try omega

theorem Ranges.coalesceTimeExpiry (g : Nat) : Ranges.Statement (.coalesceTimeExpiry g) := by
  simp [Ranges.Statement, Instr.wf, target, portNo, chanNo]; try omega

theorem Ranges.counterSnap (g : Nat) (w : Word) (tgt : Nat) : Ranges.Statement (.counterSnap g w tgt) := by
  simp [Ranges.Statement, Instr.wf, target, portNo, chanNo]; try omega

theorem Ranges.counterClear (g : Nat) (w : Word) (tgt : Nat) : Ranges.Statement (.counterClear g w tgt) := by
  simp [Ranges.Statement, Instr.wf, target, portNo, chanNo]; try omega

theorem Ranges.contrailFlush (w : Word) (tgt : Nat) : Ranges.Statement (.contrailFlush w tgt) := by
  simp [Ranges.Statement, Instr.wf, target, portNo, chanNo]; try omega

theorem Ranges.contrailConsWrite (w : Word) (tgt : Nat) : Ranges.Statement (.contrailConsWrite w tgt) := by
  simp [Ranges.Statement, Instr.wf, target, portNo, chanNo]; try omega

theorem Ranges.mbxGo (m : Nat) (w : Word) (tgt : Nat) : Ranges.Statement (.mbxGo m w tgt) := by
  simp [Ranges.Statement, Instr.wf, target, portNo, chanNo]; try omega

theorem Ranges.epochRead (m : Nat) (ix : Nat) (tgt : Nat) : Ranges.Statement (.epochRead m ix tgt) := by
  simp [Ranges.Statement, Instr.wf, target, portNo, chanNo]; try omega

theorem Ranges.epochSeedRead (m : Nat) (ix : Nat) (tgt : Nat) : Ranges.Statement (.epochSeedRead m ix tgt) := by
  simp [Ranges.Statement, Instr.wf, target, portNo, chanNo]; try omega

theorem Ranges.epochSeedWrite (m : Nat) (ix : Nat) (tgt : Nat) : Ranges.Statement (.epochSeedWrite m ix tgt) := by
  simp [Ranges.Statement, Instr.wf, target, portNo, chanNo]; try omega

theorem Ranges.tickIntervalsRead (m : Nat) (ix : Nat) (tgt : Nat) : Ranges.Statement (.tickIntervalsRead m ix tgt) := by
  simp [Ranges.Statement, Instr.wf, target, portNo, chanNo]; try omega

theorem Ranges.cycleRead (m : Nat) (ix : Nat) (tgt : Nat) : Ranges.Statement (.cycleRead m ix tgt) := by
  simp [Ranges.Statement, Instr.wf, target, portNo, chanNo]; try omega

theorem Ranges.flowConfigRead (m : Nat) (ix : Nat) (tgt : Nat) : Ranges.Statement (.flowConfigRead m ix tgt) := by
  simp [Ranges.Statement, Instr.wf, target, portNo, chanNo]; try omega

theorem Ranges.flowConfigWrite (m : Nat) (ix : Nat) (tgt : Nat) : Ranges.Statement (.flowConfigWrite m ix tgt) := by
  simp [Ranges.Statement, Instr.wf, target, portNo, chanNo]; try omega

theorem Ranges.flowStateRead (m : Nat) (ix : Nat) (tgt : Nat) : Ranges.Statement (.flowStateRead m ix tgt) := by
  simp [Ranges.Statement, Instr.wf, target, portNo, chanNo]; try omega

theorem Ranges.flowStateWrite (m : Nat) (ix : Nat) (tgt : Nat) : Ranges.Statement (.flowStateWrite m ix tgt) := by
  simp [Ranges.Statement, Instr.wf, target, portNo, chanNo]; try omega

theorem Ranges.trainingStateRead (m : Nat) (ix : Nat) (tgt : Nat) (lost : Bool) : Ranges.Statement (.trainingStateRead m ix tgt lost) := by
  simp [Ranges.Statement, Instr.wf, target, portNo, chanNo]; try omega

theorem Ranges.trainingStateWrite (m : Nat) (ix : Nat) (tgt : Nat) : Ranges.Statement (.trainingStateWrite m ix tgt) := by
  simp [Ranges.Statement, Instr.wf, target, portNo, chanNo]; try omega

theorem Ranges.errorRingRead (m : Nat) (ix : Nat) (tgt : Nat) (lost : Bool) : Ranges.Statement (.errorRingRead m ix tgt lost) := by
  simp [Ranges.Statement, Instr.wf, target, portNo, chanNo]; try omega

theorem Ranges.perfCounterRead (m : Nat) (ix : Nat) (tgt : Nat) : Ranges.Statement (.perfCounterRead m ix tgt) := by
  simp [Ranges.Statement, Instr.wf, target, portNo, chanNo]; try omega

theorem Ranges.perfCounterWrite (m : Nat) (ix : Nat) (tgt : Nat) : Ranges.Statement (.perfCounterWrite m ix tgt) := by
  simp [Ranges.Statement, Instr.wf, target, portNo, chanNo]; try omega

theorem Ranges.perfSnapshotRead (m : Nat) (ix : Nat) (tgt : Nat) : Ranges.Statement (.perfSnapshotRead m ix tgt) := by
  simp [Ranges.Statement, Instr.wf, target, portNo, chanNo]; try omega

theorem Ranges.contrailRecordRead (m : Nat) (ix : Nat) (tgt : Nat) : Ranges.Statement (.contrailRecordRead m ix tgt) := by
  simp [Ranges.Statement, Instr.wf, target, portNo, chanNo]; try omega

theorem Ranges.mbxDone (m : Nat) : Ranges.Statement (.mbxDone m) := by
  simp [Ranges.Statement, Instr.wf, target, portNo, chanNo]; try omega

theorem Ranges.squallKey (w : Word) (tgt : Nat) (c : Nat) : Ranges.Statement (.squallKey w tgt c) := by
  simp [Ranges.Statement, Instr.wf, target, portNo, chanNo]; try omega

theorem Ranges.squallSeed (w : Word) (tgt : Nat) : Ranges.Statement (.squallSeed w tgt) := by
  simp [Ranges.Statement, Instr.wf, target, portNo, chanNo]; try omega

theorem Ranges.squallRevoke : Ranges.Statement (.squallRevoke) := by
  simp [Ranges.Statement, Instr.wf, target, portNo, chanNo]; try omega

theorem Ranges.guardedInject (w : Word) (tgt : Nat) : Ranges.Statement (.guardedInject w tgt) := by
  simp [Ranges.Statement, Instr.wf, target, portNo, chanNo]; try omega

theorem Ranges.sealedInject (w : Word) (tgt : Nat) : Ranges.Statement (.sealedInject w tgt) := by
  simp [Ranges.Statement, Instr.wf, target, portNo, chanNo]; try omega

theorem Ranges.haloInject (w : Word) (tgt : Nat) : Ranges.Statement (.haloInject w tgt) := by
  simp [Ranges.Statement, Instr.wf, target, portNo, chanNo]; try omega

theorem Ranges.linkInject (w : Word) (tgt : Nat) : Ranges.Statement (.linkInject w tgt) := by
  simp [Ranges.Statement, Instr.wf, target, portNo, chanNo]; try omega

theorem Ranges.registerRead (a : Nat) (tgt : Nat) : Ranges.Statement (.registerRead a tgt) := by
  simp [Ranges.Statement, Instr.wf, target, portNo, chanNo]; try omega

theorem Ranges.reqDetached (p : Nat) : Ranges.Statement (.reqDetached p) := by
  simp [Ranges.Statement, Instr.wf, target, portNo, chanNo]; try omega

theorem Ranges.opUnknown (p : Nat) (op : Nat) (r : Req) (c : Nat) : Ranges.Statement (.opUnknown p op r c) := by
  simp [Ranges.Statement, Instr.wf, target, portNo, chanNo]; try omega

theorem Ranges.chHoldClear (ch : Nat) (w : Word) (tgt : Nat) : Ranges.Statement (.chHoldClear ch w tgt) := by
  simp [Ranges.Statement, Instr.wf, target, portNo, chanNo]; try omega

theorem Ranges.pprDisarm (w : Word) (tgt : Nat) : Ranges.Statement (.pprDisarm w tgt) := by
  simp [Ranges.Statement, Instr.wf, target, portNo, chanNo]; try omega

end Sys2Proof.Laws
end

