-- ==== Sys2Proof/Tests/Slice0.lean ====
section
/-! SUPPORT. The model's own tests: ill-formed commands that `Instr.wf` refuses, worked figures of the spec, and for each statement of
Certificates/Slice0/Obligations.lean a state and operands that meet the hypotheses of each of its clauses together. -/

set_option Elab.async false

namespace Sys2Proof.Tests
open Sys2Proof Sys2Proof.Machine

/-! ### Ill-formed commands -/

theorem test_wf_target : (Instr.busyRearm 0 8).wf = false ∧ (Instr.busyRearm 0 7).wf = true := by decide
theorem test_wf_port : (Instr.attachRequest 64).wf = false ∧ (Instr.attachRequest 63).wf = true := by decide
theorem test_wf_group : (Instr.linkGrant 8).wf = false ∧ (Instr.linkGrant 7).wf = true := by decide
theorem test_wf_source_group : (Instr.groupPost 32).wf = false ∧ (Instr.groupPost 31).wf = true := by decide
theorem test_wf_counter_group : (Instr.counterSnap 32 0 0).wf = false ∧ (Instr.counterSnap 31 0 0).wf = true := by decide
theorem test_wf_gate : (Instr.gateEntryExpiry 8 0).wf = false ∧ (Instr.gateEntryExpiry 7 0).wf = true := by decide
theorem test_wf_window : (Instr.budgetWindowStart 16 0).wf = false ∧ (Instr.budgetWindowStart 15 0).wf = true := by decide
theorem test_wf_address : (Instr.registerRead 0x200000 0).wf = false ∧ (Instr.registerRead 0x1FFFFC 0).wf = true := by decide
theorem test_wf_wait_tag : (Instr.spaceWaitTimeout 0 1024).wf = false ∧ (Instr.spaceWaitTimeout 0 1023).wf = true := by decide
theorem test_wf_pool : (Instr.createRetry 8).wf = false ∧ (Instr.createRetry 7).wf = true := by decide
theorem test_wf_flow : (Instr.flowSweep 0x100000 0).wf = false ∧ (Instr.flowSweep 0xFFFFF 0).wf = true := by decide
theorem test_wf_flow_lost : (Instr.flowContextFill 1 4).wf = false ∧ (Instr.flowContextFill 1 3).wf = true := by decide
theorem test_wf_channel : (Instr.oscDue 32).wf = false ∧ (Instr.oscDue 31).wf = true := by decide
theorem test_wf_link_errors : (Instr.readDataReturn 0 [3]).wf = false ∧ (Instr.readDataReturn 0 [2]).wf = true := by decide
theorem test_wf_rank : (Instr.zqDue 0 2).wf = false ∧ (Instr.zqDue 0 1).wf = true := by decide
theorem test_wf_eye_bit : (Instr.eyeSweepDone 0 0 18 0 0).wf = false ∧ (Instr.eyeSweepDone 0 0 17 0 0).wf = true := by decide
theorem test_wf_eye_left : (Instr.eyeSweepDone 0 0 0 256 0).wf = false := by decide
theorem test_wf_eye_right : (Instr.eyeSweepDone 0 0 0 0 256).wf = false := by decide
theorem test_wf_surface : (Instr.extentsReturn 65536).wf = false ∧ (Instr.extentsReturn 65535).wf = true := by decide
theorem test_wf_region : (Instr.initUnitWrite 65 0).wf = false ∧ (Instr.initUnitWrite 64 0).wf = true := by decide
theorem test_wf_wake_sources : (Instr.wakeLatch 32 0).wf = false ∧ (Instr.wakeLatch 31 0).wf = true := by decide
theorem test_wf_domain : (Instr.domainResetRelease 12).wf = false ∧ (Instr.domainResetRelease 11).wf = true := by decide
theorem test_wf_rail : (Instr.railGood 5).wf = false ∧ (Instr.railGood 4).wf = true := by decide
theorem test_wf_mailbox : (Instr.mbxDone 8).wf = false ∧ (Instr.mbxDone 7).wf = true := by decide
theorem test_wf_index : (Instr.cycleRead 0 0x100000 0).wf = false ∧ (Instr.cycleRead 0 0xFFFFF 0).wf = true := by decide
theorem test_wf_opcode : (Instr.opUnknown 0 16 {} 0).wf = false ∧ (Instr.opUnknown 0 15 {} 0).wf = true := by decide
theorem test_wf_req_tag : (Instr.read 0 { tag := 1024 } 0).wf = false := by decide
theorem test_wf_req_flow : (Instr.read 0 { flow := 0x100000 } 0).wf = false := by decide
theorem test_wf_req_colour : (Instr.read 0 { colour := 4 } 0).wf = false := by decide
theorem test_wf_req_priv : (Instr.read 0 { priv := 4 } 0).wf = false := by decide
theorem test_wf_req_handle : (Instr.read 0 { handle := 0x1000000 } 0).wf = false := by decide
theorem test_wf_req_plane : (Instr.read 0 { plane := 4 } 0).wf = false := by decide
theorem test_wf_req_x : (Instr.read 0 { x := 65536 } 0).wf = false := by decide
theorem test_wf_req_y : (Instr.read 0 { y := 65536 } 0).wf = false := by decide
theorem test_wf_req_w : (Instr.read 0 { w := 128 } 0).wf = false := by decide
theorem test_wf_req_h : (Instr.read 0 { h := 64 } 0).wf = false := by decide
theorem test_wf_req_addr : (Instr.read 0 { addr := 0x10000000000 } 0).wf = false := by decide
theorem test_wf_req_len : (Instr.read 0 { len := 64 } 0).wf = false ∧ (Instr.read 0 { len := 63 } 0).wf = true := by decide
theorem test_no_bits : decodeTableWord 0 0 = none := rfl

/-! ### States for the witnesses -/

/-- An image with a tick, one channel with every option, one set and one GUARDED region on it, and every permit. -/
def cfg1 : Image :=
  { tick := some { tclk := 400000, cclk := 1600000, tclkKhz := 100000, cclkKhz := 1333333 }
    chans := [{ ch := 0, ck := 3200000, ranks := 2, density := 1, options := 0x1F }, { ch := 1, ck := 3200000, ranks := 1, density := 1 }]
    isets := [{ set := 0, domain := 0, lanes := [0] }]
    regions := [{ region := 3, set := 0, prot := 2, base := 0, size := 0x200000 }]
    permit := some 0xF }

/-- A configuration is in force. -/
def on : State := { State.reset with conf := some cfg1 }

/-- Channel 0 is in service too. -/
def run0 : State := { on with chans := [(0, { svc := 5 })] }

/-- Channel 0 is held and quiesced. -/
def still0 : State := { on with chans := [(0, { svc := 5, quiesced := true })] }

theorem reset_open : State.reset.portOpen := ⟨rfl, rfl⟩
theorem on_open : on.portOpen := ⟨rfl, rfl⟩
theorem run0_open : run0.portOpen := ⟨rfl, rfl⟩
theorem still0_open : still0.portOpen := ⟨rfl, rfl⟩
theorem on_quiet : on.quiet := ⟨rfl, rfl, fun _ => rfl⟩
theorem run0_quiet : run0.quiet := ⟨rfl, rfl, fun _ => rfl⟩

/-! ### Witnesses: step and registers -/

theorem witness_IdleCycle : State.reset.pending = [] ∧ State.reset.cclkRuns = true ∧ State.reset.sm.inbox = [] ∧
    (∀ g, g < State.reset.G → (State.reset.group g).wake = false ∧
      ∀ i, (State.reset.group g).owner = some i → (State.reset.port (8 * g + i)).queue ≠ []) := by
  refine ⟨rfl, by decide +kernel, rfl, fun g _ => ⟨rfl, fun i h => by cases h⟩⟩
theorem witness_IdleCycle_still : ({ on with power := { st := 2 } } : State).cclkRuns = false := by decide +kernel
/-- Channel 31 is absent from a ZM-9608, and nothing stands at 0x3FFC. -/
theorem witness_AbsentUnitRegisters : ({ State.reset with build := .zm9608 } : State).portOpen ∧
    (slotsAt 0x1F9000 ≠ [] ∧ ∀ x ∈ slotsAt 0x1F9000, x.f.present .zm9608 x.i = false) ∧ slotsAt 0x3FFC = [] := by
  refine ⟨⟨rfl, rfl⟩, ?_, ?_⟩ <;> decide +kernel
theorem witness_RegisterReadClears : State.reset.portOpen ∧ slotsAt 0x310 ≠ [] := ⟨⟨rfl, rfl⟩, by decide +kernel⟩
/-- Mailbox 7 is busy with a read. -/
def mbx7 : State := { State.reset with mbx := [(7, some { writer := 2, res := .read [1, 2] })] }
theorem witness_RefusedWrite : mbx7.portOpen ∧ mbx7.mbxBusy 7 = true := ⟨⟨rfl, rfl⟩, rfl⟩
theorem witness_RefusedWrite_first : State.reset.rd R.GLB_BUSY_FIRST_VALID ≠ 1 := by decide +kernel
theorem witness_RefusedWrite_later : (State.reset.cfgBusy 0x3FFFC 7).rd R.GLB_BUSY_FIRST_VALID = 1 := by decide +kernel

/-! ### Witnesses: tick -/

/-- The tick unit is LOCKED with its last tick at 1000 and an interval of 400,000. -/
def locked : State := { on with tick := { st := 2, ref := 1000, last := 1000, lastReal := true, im := 400000, ic := 1600000 } }
/-- Two runts have come since. -/
def runty : State := { locked with tick := { locked.tick with runts := 2 } }

theorem witness_RuntIgnored : locked.tclkRuns = true ∧ locked.squall.unlocked = false ∧ locked.tick.st ≠ 0 ∧
    ¬ (locked.tick.st = 1 ∧ locked.tick.first = true) ∧ 200999 < locked.tick.ref + locked.tickA ∧ locked.tick.runts ≠ 2 := by decide +kernel
theorem witness_RelockTick : runty.tclkRuns = true ∧ runty.squall.unlocked = false ∧ runty.tick.st ≠ 0 ∧
    ¬ (runty.tick.st = 1 ∧ runty.tick.first = true) ∧ 200999 < runty.tick.ref + runty.tickA ∧ runty.tick.runts = 2 := by decide +kernel
theorem witness_RealTick : locked.tclkRuns = true ∧ locked.squall.unlocked = false ∧ locked.tick.st ≠ 0 ∧
    locked.tick.ref + locked.tickA ≤ 201000 ∧ locked.tick.st = 2 ∧ locked.tick.lastReal = true := by decide +kernel
/-- RELOCK has just been written. -/
def acquiring : State := on.acquire 50 true
theorem witness_RealTick_first : acquiring.tclkRuns = true ∧ acquiring.squall.unlocked = false ∧ acquiring.tick.st = 1 ∧
    acquiring.tick.first = true ∧ acquiring.tick.lastReal = false := by decide +kernel
theorem witness_RealTick_fly : ∀ st ∈ [3, 4], ({ locked with tick := { locked.tick with st := st } } : State).tick.ref +
    ({ locked with tick := { locked.tick with st := st } } : State).tickA ≤ 301000 := by decide +kernel
theorem witness_FlywheelTick : locked.tclkRuns = true ∧ locked.tick.st ≠ 0 ∧ (601000 : Nat) = locked.tick.ref + locked.tickF ∧
    (600999 : Nat) ≠ locked.tick.ref + locked.tickF := by decide +kernel
/-- Squall is unlocked and hides one edge. -/
def hidden : State := ({ locked with squall := { unlocked := true, gens := [(64, 1)] } } : State).wr R.SQ_TICK_DROP 0 0 1
theorem witness_SquallTickLoss : hidden.tclkRuns = true ∧ hidden.squall.unlocked = true ∧ hidden.rd R.SQ_TICK_DROP ≠ 0 ∧
    hidden.rd R.SQ_TICK_DROP < 256 := by decide +kernel
theorem witness_RelockWrite : locked.portOpen ∧ locked.conf.isSome = true := ⟨⟨rfl, rfl⟩, rfl⟩
theorem witness_RelockWrite_bare : State.reset.portOpen ∧ State.reset.conf = none := ⟨⟨rfl, rfl⟩, rfl⟩
/-- A strobe has crossed; the shadow list of domain 7 is armed for the epoch that it begins, that of domain 0 is not armed. -/
def struck : State := { locked with tick := { locked.tick with strobes := [{ avg := true }] }, gates := [(7, { armed := true, act := 1 })] }
theorem witness_TickCycle : struck.cclkRuns = true ∧ struck.tick.strobes = [{ avg := true }] ∧
    ((struck.atCycle 0).gateWas 7).dueAt (struck.atCycle 0).nextEpoch = true ∧
    ((struck.atCycle 0).gateWas 0).dueAt (struck.atCycle 0).nextEpoch = false := by decide +kernel
/-- Domain 7 runs a list of two entries; the first ends in cycle 100 + 64. -/
def gated : State := { on with
  cclk := 164, gates := [(7, { active := { len := 2, ents := [(0, ⟨1, 1⟩), (1, ⟨2, 3⟩)] }, running := true, start := 100, entStart := 100 })] }
theorem witness_GateEntryExpiry : gated.cclk = 164 ∧ (gated.gate 7).running = true ∧ (gated.gate 7).extended = false ∧
    164 = (gated.gate 7).entStart + ((gated.gate 7).active.ent (gated.gate 7).entry).dur * 64 ∧
    (gated.gate 7).active.after (gated.gate 7).entry = some 1 := by decide +kernel
/-- The closing entry of domain 7 ends. -/
def closing : State := { gated with gates := [(7, { running := true, start := 100, entStart := 100 })] }
theorem witness_GateEntryExpiry_closing : 164 = (closing.gate 7).entStart + ((closing.gate 7).active.ent (closing.gate 7).entry).dur * 64 ∧
    (closing.gate 7).active.after (closing.gate 7).entry = none := by decide +kernel
theorem witness_GateArming : on.portOpen ∧ bits (0x00001#32).toNat 0 9 = (on.gate 7).shadow.len ∧ (on.gate 7).armed = false ∧
    (on.gate 7).shadow.running.isEmpty = false ∧ (on.gate 7).isLate on.tick.epoch = true := by
  refine ⟨⟨rfl, rfl⟩, ?_⟩; decide +kernel
/-- Sixteen windows an epoch: window 0 begins in the cycle after the tick cycle, window 15 fifteen window lengths later. -/
def windows : State := ({ on with cclk := 1 } : State).wr R.TR_CTL_WINDOWS 0 0 16
theorem witness_BudgetWindow : windows.conf.isSome = true ∧ 15 < windows.rd R.TR_CTL_WINDOWS ∧
    windows.cclk = windows.tick.lastC + 1 + 0 * windows.windowCycles ∧ 1500001 = windows.tick.lastC + 1 + 15 * windows.windowCycles := by
  decide +kernel
theorem witness_BudgetWindow_later : ({ windows with cclk := 1500001 } : State).windowCycles = 100000 := by decide +kernel

/-! ### Witnesses: events, counters and Contrail -/

theorem witness_EventAckClears : State.reset.portOpen ∧ (∃ w : Word, 15 < 16 ∧ bit w.toNat (16 + 15) = true ∧ bits w.toNat 0 5 = 31) :=
  ⟨⟨rfl, rfl⟩, 0x8000001F#32, by decide⟩
/-- Source 15 of group 23 is pending and enabled. -/
def due23 : State := ({ State.reset with evts := [(23, { pending := 0x8000, raises := 1 })] } : State).wr R.EVT_GRP_EN_ENABLE 23 0 0xFFFF
/-- The group is in MODE 2 with its timer at rest. -/
def due23m : State := due23.wr R.EVT_GRP_CFG_MODE 23 0 2
theorem witness_EventPost : due23.mayPost 23 = true ∧ bit (due23.evt 23).pending 15 = true ∧ bit (due23.rd R.EVT_GRP_EN_ENABLE 23) 15 = true ∧
    due23m.mayPost 23 = true := by decide +kernel
theorem witness_EventControl_holdoff : ({ on with evts := [(31, { holdoff := true })] } : State).cclkRuns = true ∧
    (({ on with evts := [(31, { holdoff := true })] } : State).evt 31).holdoff = true := by decide +kernel
theorem witness_EventControl_time : ((({ on with evts := [(0, { timed := true })] } : State).wr R.EVT_GRP_CFG_MODE 0 0 1).evt 0).timed = true ∧
    (({ on with evts := [(0, { timed := true })] } : State).wr R.EVT_GRP_CFG_MODE 0 0 1).rd R.EVT_GRP_CFG_MODE 0 = 1 := by decide +kernel
theorem witness_EventControl_disable : State.reset.portOpen ∧ bits (1#32).toNat 0 1 = 1 := ⟨⟨rfl, rfl⟩, rfl⟩
theorem witness_CounterSnapAndClear : State.reset.portOpen ∧ State.reset.rd R.PF_GRP_CTL_TICK_SNAP 31 = 0 := ⟨⟨rfl, rfl⟩, by decide +kernel⟩
/-- Three records wait to be read, the first of them at index 511. -/
def records : State := ({ State.reset with meas := { prod := 2 } } : State).wr R.CTR_CONS_CONS 0 0 511
theorem witness_ContrailCons : records.portOpen ∧ bits (0xFFFFFF7E#32).toNat 1 5 = 31 ∧ bits (0x0000000#32).toNat 1 5 ≤ 23 ∧
    (bits (2#32).toNat 0 9 + 512 - records.rd R.CTR_CONS_CONS) % 512 ≤ records.ctrUsed ∧
    records.ctrUsed < (bits (3#32).toNat 0 9 + 512 - records.rd R.CTR_CONS_CONS) % 512 := by
  refine ⟨⟨rfl, rfl⟩, ?_⟩; decide +kernel

/-! ### Witnesses: mailboxes and Squall -/

theorem witness_MailboxReads : on.portOpen ∧ on.mbxBusy 7 = false ∧ on.conf.isSome = true := ⟨⟨rfl, rfl⟩, rfl, rfl⟩
theorem witness_MailboxReads_record : (0 + 256 - records.rd R.CTR_CONS_CONS % 256) % 256 < records.ctrUsed ∧ records.mbxBusy 7 = false := by
  decide +kernel
/-- A saved copy of channel 31 stands, and one entry waits in the error ring. -/
def saved : State := { on with chans := [(31, { copy := [1, 2] })], integ := { prod := 1, ring := [(0, { seq := 1 })] } }
theorem witness_MailboxReserveReads : saved.portOpen ∧ saved.mbxBusy 0 = false ∧ saved.conf.isSome = true ∧ 511 < 16 * saved.C ∧
    (saved.chan (511 / 16)).copy ≠ [] ∧ (0 + 4096 - saved.rd R.INT_RING_CONS_CONS % 4096) % 4096 < saved.ringUsed := by
  refine ⟨⟨rfl, rfl⟩, ?_⟩; decide +kernel
theorem witness_MailboxWrites : on.portOpen ∧ on.mbxBusy 7 = false ∧ on.conf.isSome = true ∧
    (Tab.get ({} : Flow) on.traffic.flows 0xFFFFF).testable (Flow.ofWords (on.mbxWord 7)) = false ∧ Tab.find on.flowPendAll 0xFFFFF = none ∧
    on.rd R.PF_GRP_CTL_EN (255 / 8) = 0 := by
  refine ⟨⟨rfl, rfl⟩, ?_⟩; decide +kernel
theorem witness_MailboxWrites_training : 14 < 16 * still0.C ∧ 14 % 16 ≠ 15 ∧ still0.phyQuiesced (14 / 16) = true := by decide +kernel
theorem witness_MailboxEnds : mbx7.cclkRuns = true ∧ Tab.get none mbx7.mbx 7 = some { writer := 2, res := .read [1, 2] } ∧
    mbx7.mbxFree { writer := 2, res := .read [1, 2] } = true ∧ mbx7.rd R.MBX_CTL_VALID 7 = 0 ∧ mbx7.rd R.MBX_CTL_ERR 7 = 0 := by decide +kernel
/-- Mailbox 7 reads a flow context from the reserve, on channel 0. -/
def mbxRsv : State := { run0 with mbx := [(7, some { writer := 2, res := .read [1, 2], rsv := some 64 })], sm := { lanes := [(2048, 0)] }, integ := { initDone := [(64, 1280)] } }
theorem witness_MailboxEnds_reserve : mbxRsv.mbxFree { writer := 2, res := .read [1, 2], rsv := some 64 } = true := by decide +kernel
theorem witness_MailboxEnds_err : Tab.get none ({ mbx7 with mbx := [(0, some { writer := 7, res := .err 1 })] } : State).mbx 0 =
    some { writer := 7, res := .err 1 } := by decide +kernel
theorem witness_MailboxGo : State.reset.portOpen ∧ State.reset.mbxBusy 7 = false ∧ mbx7.portOpen ∧ mbx7.mbxBusy 7 = true :=
  ⟨⟨rfl, rfl⟩, rfl, ⟨rfl, rfl⟩, rfl⟩
/-- Target 7 wrote KEY_A in cycle 10; it is cycle 65,546 now. -/
def keyed : State := { on with cclk := 65546, squall := { keys := [(7, some 10)] } }
theorem witness_SquallUnlock : keyed.portOpen ∧ keyed.permits 0 = true ∧ keyed.cclk = 65546 ∧ keyed.keyOf (7 % 8) = some 10 ∧
    65546 ≤ 10 + 65536 := ⟨⟨rfl, rfl⟩, rfl, rfl, rfl, by decide⟩
theorem witness_SquallUnlock_late : ({ keyed with cclk := 65547 } : State).keyOf 7 = some 10 ∧ 10 + 65536 < 65547 := ⟨rfl, by decide⟩
theorem witness_SquallRegisters_locked : on.portOpen ∧ on.squall.unlocked = false ∧ bits (0x7FFF#32).toNat 0 15 ≠ on.rd R.SQ_SEED_SEED ∧
    bits (1#32).toNat 0 15 = on.rd R.SQ_SEED_SEED ∧ bits (1#32).toNat 0 5 ≠ on.rd R.SQ_LINJ_CH := ⟨⟨rfl, rfl⟩, rfl, by decide +kernel⟩
theorem witness_SquallRegisters_held : bits (0x100#32).toNat 0 5 = on.rd R.SQ_LINJ_CH ∧ bits (0x100#32).toNat 8 2 = on.rd R.SQ_LINJ_KIND ∧
    bits (0x100#32).toNat 16 8 = on.rd R.SQ_LINJ_COUNT := by decide +kernel
/-- Squall is unlocked and slice 7 holds a line in entry 75. -/
def free0 : State := { on with squall := { unlocked := true }, lines := [(7 * 128 + 75, { valid := true })] }
theorem witness_SquallRegisters : free0.portOpen ∧ free0.squall.unlocked = true ∧ free0.squall.gArmed = false ∧ free0.squall.sArmed = false ∧
    free0.option (bits (0x00FF0100#32).toNat 0 5) 0 = true := ⟨⟨rfl, rfl⟩, by decide +kernel⟩
theorem witness_HaloInject : free0.portOpen ∧ bits (0x002004B7#32).toNat 21 2 = 1 ∧ bits (0x002004B7#32).toNat 0 3 < free0.G ∧
    bits (0x002004B7#32).toNat 4 7 < 76 ∧ (free0.line (bits (0x002004B7#32).toNat 0 3) (bits (0x002004B7#32).toNat 4 7)).valid = true :=
  ⟨⟨rfl, rfl⟩, by decide +kernel⟩

/-! ### Witnesses: images -/

theorem witness_ImageStartAbort : State.reset.portOpen ∧ bits (0x10#32).toNat 0 1 = State.reset.rd R.IMG_CTL_SRC ∧ State.reset.loader.st = 0 ∧
    bit (0x10#32).toNat 5 = false := ⟨⟨rfl, rfl⟩, by decide +kernel⟩
/-- A load is in state `n`. -/
def loading (n : Nat) : State := { on with loader := { st := n, tgt := 7 } }
theorem witness_ImageStartAbort_busy : (loading 1).portOpen ∧ (loading 1).loader.st ≠ 0 ∧ bit (0x10#32).toNat 5 = false :=
  ⟨⟨rfl, rfl⟩, by decide +kernel⟩
theorem witness_ImageStartAbort_abort : 1 ≤ (loading 5).loader.st ∧ (loading 5).loader.st ≤ 5 ∧ bit (0x20#32).toNat 4 = false ∧
    bits (0x20#32).toNat 0 1 = (loading 5).rd R.IMG_CTL_SRC := by decide +kernel
/-- A partial image of group 7: its header, a GROUP record and END, newest word first. -/
def words7 : List Word := [0xFF#32, 0x0#32, 0x0#32, 0x400#32, 0x10000#32, 0x102707#32, 0x3039A5E9#32, 0x0#32, 0x0#32, 0x1234#32, 0x38#32,
  0x9632#32, 0x270100#32, 0x49585253#32]
/-- The same image with SIGNED set and its signature block. -/
def words7s : List Word := List.replicate 24 0#32 ++ [0x100#32, 0x53585253#32, 0xFF#32, 0x0#32, 0x0#32, 0x400#32, 0x10000#32, 0x102707#32,
  0x8B5467A1#32, 0x0#32, 0x0#32, 0x1234#32, 0x38#32, 0x689632#32, 0x1270100#32, 0x49585253#32]
/-- The same image with WATCHDOG 0, which R83 forbids. -/
def words7b : List Word := [0xFF#32, 0x0#32, 0x0#32, 0x400#32, 0x0#32, 0x102707#32, 0x3F50A7C2#32, 0x0#32, 0x0#32, 0x1234#32, 0x38#32,
  0x9632#32, 0x270100#32, 0x49585253#32]
/-- The loader has taken all but the last `n` words of an image. -/
def part (l : List Word) (n : Nat) : State := { on with loader := { st := 1, tgt := 7, words := l.drop n } }

theorem witness_ImageWords : (part words7 1).portOpen ∧ (part words7 1).loader.st = 1 ∧ (part words7 1).loader.hdrErr = none ∧
    (part words7 1).rd R.IMG_CTL_SRC = 0 ∧ (part words7 1).loader.words.length < 2 ^ 24 ∧
    (0xFF#32 :: (part words7 1).loader.words).length = 14 := ⟨⟨rfl, rfl⟩, by decide +kernel⟩
/-- The header of the image is one the build takes. -/
theorem witness_ImageWords_header : headerError on.build on.conf.isSome (wordBytes (words7.drop 6).reverse) = none := by decide +kernel
/-- Eight words of zeros are no header. -/
theorem witness_ImageWords_bad : headerError on.build on.conf.isSome (wordBytes (List.replicate 8 0#32).reverse) = some { code := 1 } := by
  decide +kernel
theorem witness_ImageWords_stream : ((part words7 1).wr R.IMG_CTL_SRC 0 0 1).rd R.IMG_CTL_SRC = 1 ∧
    ((part words7 1).wr R.IMG_CTL_SRC 0 0 1).cclkRuns = true := by decide +kernel

/-- All words of an image are in, and it is being checked. -/
def checking (l : List Word) (auth : Bool) : State := { on with authReq := auth, loader := { st := 2, tgt := 7, words := l } }

theorem witness_ImageCheck_length : (checking words7 false).cclkRuns = true ∧ (checking (words7.drop 1) false).loader.bytes.length ≠
    fieldAt (checking (words7.drop 1) false).loader.bytes 12 4 + fieldAt (checking (words7.drop 1) false).loader.bytes 10 2 := by decide +kernel
theorem witness_ImageCheck_pass : (checking words7 false).loader.st = 2 ∧ (checking words7 false).loader.lastBad = false ∧
    (checking words7 false).loader.bytes.length = 56 ∧ fieldAt (checking words7 false).loader.bytes 12 4 = 56 ∧
    imageCrc ((checking words7 false).loader.bytes.take 56) = fieldAt (checking words7 false).loader.bytes 28 4 := by decide +kernel
theorem witness_ImageCheck_valid : (readImage on.build on.conf (checking words7 false).loader.bytes).2 = none := by decide +kernel
theorem witness_ImageCheck_crc : imageCrc ((checking (0x1FF#32 :: words7.drop 1) false).loader.bytes.take 56) ≠
    fieldAt (checking (0x1FF#32 :: words7.drop 1) false).loader.bytes 28 4 := by decide +kernel
theorem witness_ImageCheck_unsigned : (checking words7 true).authReq = true ∧ bit (fieldAt (checking words7 true).loader.bytes 7 1) 0 = false := by
  decide +kernel
theorem witness_ImageCheck_signed : (checking words7s true).authReq = true ∧ bit (fieldAt (checking words7s true).loader.bytes 7 1) 0 = true ∧
    (checking words7s true).loader.bytes.length = 160 ∧ fieldAt (checking words7s true).loader.bytes 10 2 = 104 ∧
    imageCrc ((checking words7s true).loader.bytes.take 56) = fieldAt (checking words7s true).loader.bytes 28 4 := by decide +kernel
theorem witness_ImageCheck_bad : imageCrc ((checking words7b false).loader.bytes.take 56) = fieldAt (checking words7b false).loader.bytes 28 4 ∧
    ((readImage on.build on.conf (checking words7b false).loader.bytes).2.map (·.code)) = some 0x0B := by decide +kernel
/-- The image waits for its verdict. -/
def waiting : State := { on with loader := { st := 3, img := some { scope := 0x27, crc := 0x8B5467A1 } } }
theorem witness_ImageCheck_verdict : waiting.cclkRuns = true ∧ waiting.loader.st = 3 ∧ waiting.loader.held = none ∧
    (0x8B5467A1#32).toNat = 0x8B5467A1 ∧ (0x8B5467A0#32).toNat ≠ 0x8B5467A1 := by decide +kernel

/-- Image `i` is in admission. -/
def admitting (s : State) (i : Image) : State := { s with loader := { st := 4, img := some i, adm := s.admits i } }
theorem witness_ImageAdmit_full : (admitting State.reset cfg1).cclkRuns = true ∧ cfg1.scope = 0xFF ∧
    (admitting State.reset cfg1).loader.adm.fail = none := by decide +kernel
theorem witness_ImageAdmit_partial : (admitting on { scope := 0x27 }).loader.st = 4 ∧
    (admitting on { scope := 0x27 }).loader.adm.fail = none := by decide +kernel
/-- One flow is guaranteed more than its channel carries. -/
def greedy : Image := { cfg1 with flows := [{ first := 1, count := 1, cls := 0, guarantee := 0xFFFFFFFF, target := 0x80 }] }
theorem witness_ImageAdmit_fails : (admitting State.reset greedy).loader.adm.fail.isSome = true := by decide +kernel

/-- A partial image of channel 0 waits for its drain. -/
def chanImg (c : ChanRec) : State := { on with
  chans := [(0, { svc := 6, out := true, imgHold := true, imgStop := true, retainedSt := { valid := true, ck := 3200000, ranks := 2, density := 1 } })]
  loader := { st := 6, tgt := 7, img := some { scope := 0x40, chans := [c] } } }
/-- Only its options change. -/
def chanWarm : State := chanImg { ch := 0, ck := 3200000, ranks := 2, density := 1 }
/-- Its clock changes. -/
def chanCold : State := chanImg { ch := 0, ck := 2400000, ranks := 2, density := 1 }
theorem witness_PartialImage_channel : chanWarm.imgChannel = some 0 ∧ chanWarm.loader.img.isSome = true ∧ chanWarm.conf.isSome = true ∧
    chanWarm.outOfService 0 = true ∧ (chanWarm.takeChanImage 0).2 = false ∧ (chanWarm.takeChanImage 0).1.retainedOk 0 = true ∧
    (chanWarm.chan 0).wasCold = false := by decide +kernel
theorem witness_PartialImage_cold : chanCold.imgChannel = some 0 ∧ chanCold.outOfService 0 = true ∧ (chanCold.takeChanImage 0).2 = true := by
  decide +kernel
/-- A partial image of group 7 waits for the group to empty. -/
def groupImg : State := { on with
  groups := [(7, { frozenImg := true })], loader := { st := 6, limit := 100, img := some { scope := 0x27, ports := [{ g := 7, port := 7, kind := 1 }] } } }
theorem witness_PartialImage_group : groupImg.imgGroup = some 7 ∧ (groupImg.atCycle 0).groupEmpty 7 = true ∧
    ∀ r ∈ [({ g := 7, port := 7, kind := 1 } : PortRec)], r.g = 7 ∧ r.port < 8 := by decide +kernel
/-- A response of its port 0 has not been taken when the limit passes. -/
def groupLate : State := { groupImg with ports := [(56, { attached := true, rsps := [{ tag := 0, code := 0, beats := [] }] })] }
theorem witness_PartialImage_late : groupLate.imgGroup = some 7 ∧ (groupLate.atCycle 100).groupEmpty 7 = false ∧
    groupLate.loader.since + groupLate.loader.limit ≤ 100 := by decide +kernel

/-! ### Witnesses: ports -/

/-- Port 56 has a request to send. -/
def rival : Nat × Port := (56, { present := true, attached := true, queue := [{ op := 0, req := {} }] })
/-- Port 63 is attached, and port 56 owns its link and has used this cycle. -/
def att : State := { on with
  ports := [rival, (63, { present := true, attached := true, pin := true, tags := [5] })], groups := [(7, { owner := some 0, beatAt := 1 })] }
theorem witness_RequestTaken : att.cclk = 0 ∧ (att.port 63).takeAt ≤ 0 ∧ att.takesRequest 63 = true ∧ att.gclkRuns 63 = true ∧ (1023 : Nat) % 1024 ∉ (att.port 63).tags ∧ (1029 : Nat) % 1024 ∈ (att.port 63).tags := by
  decide +kernel
/-- Port 63 has an open write that wants `n` beats. -/
def wopen (n : Nat) : State := { att with ports := [rival, (63, { present := true, attached := true, queue := [{ op := 1, req := {}, need := n, closed := false }] })] }
theorem witness_PortBeats_write : (wopen 1).cclk = 0 ∧ ((wopen 1).port 63).attached = true ∧ ((wopen 1).port 63).discard = none ∧
    ((wopen 1).port 63).queue = [] ++ [{ op := 1, req := {}, need := 1, closed := false }] ∧
    ((true = true) ↔ ([] : List Beat).length + 1 = 1) ∧ ((false = true) ↔ ([] : List Beat).length + 1 = 2) := by decide +kernel
theorem witness_PortBeats_stays : (wopen 2).gclkRuns 63 = true ∧ ((wopen 2).port 63).takeAt ≤ 0 ∧ ((wopen 2).port 63).forced = false := by
  decide +kernel
theorem witness_PortBeats_detached : (att.port 62).forced = false ∧ (att.port 62).openWrite = none ∧ att.gclkRuns 62 = true := by
  decide +kernel
/-- Port 62 has been detached by force. -/
def att2 : State := { att with ports := [rival, (62, { present := true, forced := true })] }
theorem witness_PortBeats_forced : (att2.port 62).forced = true ∧ att2.gclkRuns 62 = true := by decide +kernel
/-- A response of two beats waits at port 63, its first beat taken or not. -/
def answering (n : Nat) : State := { att with
  ports := [(63, { present := true, attached := true, tags := [5], rsps := [{ tag := 5, code := 0, beats := [{ data := 1 }, { data := 2 }], sent := n }] })] }
theorem witness_PortBeats_response : (answering 1).cclk = 0 ∧
    ((answering 1).port 63).rsps = [{ tag := 5, code := 0, beats := [{ data := 1 }, { data := 2 }], sent := 1 }] ∧
    ([{ data := 1 }, { data := 2 }] : List RBeat)[1]? = some { data := 2 } ∧ ((answering 1).port 63).detaching = false ∧
    ([{ data := 1 }, { data := 2 }] : List RBeat)[0]? = some { data := 1 } := by decide +kernel
/-- Port 63 is present and detached, its pin low or high. -/
def det (pin : Bool) : State := { on with ports := [(63, { present := true, pin := pin })] }
theorem witness_AttachDetach_rise : (det false).power.st = 0 ∧ (det false).powered = true ∧ (det false).gclkRuns 63 = true ∧ (det false).detachOver 63 = true ∧ (det false).presence 63 = true ∧ ((det false).port 63).pin = false ∧
    ((det false).port 63).present = true ∧ ((det false).port 63).attached = false ∧ ((det false).port 63).sawLow = true := by decide +kernel
theorem witness_AttachDetach_attach : (det true).presence 63 = true ∧ (det true).detachOver 63 = true ∧ ((det true).port 63).pin = true ∧ ((det true).port 63).present = true ∧ ((det true).port 63).attached = false ∧
    ((det true).port 63).sawLow = true := by decide +kernel
theorem witness_AttachDetach_fall : att.gclkRuns 63 = true ∧ att.detachOver 63 = true ∧ (att.port 63).pin = true ∧ (att.port 63).attached = true ∧ (att.port 63).openWrite = none ∧
    (att.sm.waits.any fun w => w.port == 63) = false ∧ (att.port 63).queue = [] ∧ (att.port 63).rsps = [] ∧
    (att.wr R.PORT_CTL_KEEP_HOLDS 7 7 1).rd R.PORT_CTL_KEEP_HOLDS (63 / 8) (63 % 8) = 1 := by decide +kernel
/-- Port 63 still owes an answer. -/
def owing : State := { on with
  ports := [(63, { present := true, attached := true, pin := true, rsps := [{ tag := 5, code := 0, beats := [{ data := 1 }] }] })] }
theorem witness_AttachDetach_owing : (owing.port 63).openWrite = none ∧ (owing.port 63).rsps ≠ [] := by decide +kernel
theorem witness_AttachDetach_viol : ((det false).port 63).attached = false ∧ ((det false).port 63).forced = false ∧ (att2.port 62).forced = true ∧ (det false).rd R.PORT_VIOL_FIRST_VALID (63 / 8) (63 % 8) ≠ 1 ∧
    ((det false).viol 63 [10] 0 0).rd R.PORT_VIOL_FIRST_VALID (63 / 8) (63 % 8) = 1 := by decide +kernel
theorem witness_ForcedDetach : att.portOpen ∧ 63 < 8 * att.G ∧ bit (1#32).toNat 1 = false ∧ bit (1#32).toNat 2 = false ∧
    (att.port 63).attached = true ∧ (att.port 62).attached = false := ⟨⟨rfl, rfl⟩, by decide +kernel⟩
/-- A CREATE of port 63 waits for pool 0, of which channel 0 has two free extents. -/
def creating : State := { run0 with
  conf := some { cfg1 with pools := [{ pool := 0, mask := 1, extents := 2 }] }
  ports := [(63, { present := true, attached := true, tags := [9] })]
  sm := { waits := [{ port := 63, wid := 1, xf := { op := 8, req := { tag := 9 }, beats := [{ data := 0x100040#512, mask := 0 }] } }]
          poolFree := [(0, [10, 11])], due := [0] } }
theorem witness_CreateWaits_cancel : creating.portOpen ∧ 63 < 8 * creating.G ∧ bit (2#32).toNat 0 = false ∧ bit (2#32).toNat 2 = false ∧
    (creating.port 63).detaching = false ∧ (creating.sm.waits.map (·.wid)).Nodup := ⟨⟨rfl, rfl⟩, by decide +kernel⟩
theorem witness_CreateWaits_timeout : ((creating.sm.waits.find? fun w => w.port == 63 && w.xf.req.tag == 9).map (·.wid)) = some 1 := by decide +kernel
theorem witness_CreateWaits_retry : ((creating.sm.waits.find? fun w => w.pool == 0).map (·.wid)) = some 1 ∧
    creating.sm.due.contains 0 = true ∧ on.sm.due.contains 0 = false ∧
    ((({ creating with sm := { creating.sm with due := [] } } : State).tryCreate 0x100040 63).map (·.1)) = some 0x10000 := by decide +kernel

/-! ### Witnesses: links -/

/-- Ports 0 and 7 of group 7 request with closed transfers of one beat; the link is idle. Flow 1 has class 0, and its context is cached. -/
def asking (o : Option Nat) : State := { on with
  traffic := { flows := [(1, { defined := true, cls := 0 })], fcache := [1] }
  ports := [(56, { present := true, attached := true, queue := [{ id := 1, op := 0, req := { flow := 1 }, cls := some 0 }] }),
    (63, { present := true, attached := true, tags := [3], queue := [{ id := 2, op := 0, req := { tag := 3, flow := 2 } }] })]
  groups := [(7, { owner := o })] }
theorem witness_LinkGrant : ((asking none).group 7).owner = none ∧ (asking none).frozen 7 = false ∧ (asking none).rd R.GRP_CTL_STYLE 7 = 0 ∧
    ((asking none).group 7).freeAt ≤ (asking none).cclk ∧ (asking none).nextOwner 7 (fun _ => true) = some 0 := by
  decide +kernel
/-- Group 7 decides in the overlapped style, and port 56 has asked two cycles ago and does not any more. -/
def gone56 : State := ({ on with cclk := 2, ports := [(56, { present := true, attached := true, lreqTo := 1 })] } : State).wr R.GRP_CTL_STYLE 7 0 1
theorem witness_LinkGrant_gone : (gone56.group 7).owner = none ∧ gone56.frozen 7 = false ∧ gone56.decide_ 7 = some none ∧ on.decide_ 7 = none := by
  decide +kernel
/-- Port 63 owns the link and has a beat of its open write to send. -/
def sending : State := { on with
  ports := [(63, { present := true, attached := true, queue := [{ id := 2, op := 1, req := {}, need := 2, closed := false }] })]
  groups := [(7, { owner := some 7, credit := [(7, -65536)] })] }
theorem witness_LinkCredit_beat : sending.cclk = 0 ∧ (sending.group 7).owner = some 7 ∧
    (sending.port (8 * 7 + 7)).queue = [{ id := 2, op := 1, req := {}, need := 2, closed := false }] ∧ (0 : Nat) < 1 + ([] : List Beat).length ∧
    (sending.group 7).beatAt ≤ 0 ∧ sending.intakeFull (8 * 7 + 7) = false ∧ sending.rd R.CTR_CTL_EN = 0 := by decide +kernel
/-- Its next beat may cross from cycle 1 on. -/
def sentS : State := { sending with groups := [(7, { owner := some 7, beatAt := 1 })] }
theorem witness_LinkCredit_once : (0 : Nat) < (sentS.group 7).beatAt := by decide +kernel
/-- The refill window of group 7 is 100 cycles, and port 7 has sent a beat in this one, the last of the window or one before. -/
def refilling (c : Nat) : State :=
  ({ on with cclk := c, groups := [(7, { credit := [(7, 4)], beatAt := c + 1, beatOf := some (7, 5) })] } : State).wr R.GRP_REFILL_REFILL 7 0 100
theorem witness_LinkCredit_refill : (refilling 100).conf.isSome = true ∧ (refilling 100).cclkRuns = true ∧ 7 < (refilling 100).G ∧
    ((refilling 100).group 7).refillAt + (refilling 100).rd R.GRP_REFILL_REFILL 7 ≤ (refilling 100).cclk ∧
    (refilling 99).cclk < ((refilling 99).group 7).refillAt + (refilling 99).rd R.GRP_REFILL_REFILL 7 := by decide +kernel
/-- Port 63 owns the link; port 56 may revoke. -/
def taken : State := (asking (some 7)).wr R.GRP_REVOKE_REVOKE_EN 7 0 1
theorem witness_LinkTaken_revoke : (taken.group 7).owner = some 7 ∧ taken.frozen 7 = false ∧
    (taken.port (8 * 7 + 7)).queue = [{ id := 2, op := 0, req := { tag := 3, flow := 2 } }] ∧ (taken.port (8 * 7 + 7)).attached = true ∧
    taken.arbClass (8 * 7 + 7) ≠ some 0 ∧ taken.nextOwner 7 (taken.revokers 7 7) = some 0 := by decide +kernel
/-- Squall revokes in every group, and no port may. -/
def squallTakes : State := (({ (asking (some 7)).wr R.GRP_REVOKE_REVOKE_EN 7 0 0 with squall := { unlocked := true } } : State).wr R.SQ_REVOKE_PERIOD 0 0 1).wr R.SQ_REVOKE_GROUPS 0 0 0xFF
theorem witness_LinkTaken_squall : squallTakes.squall.unlocked = true ∧ squallTakes.rd R.SQ_REVOKE_PERIOD ≠ 0 ∧
    bit (squallTakes.rd R.SQ_REVOKE_GROUPS) 7 = true ∧ 7 < squallTakes.G ∧ (∀ h, h < 7 → (squallTakes.group h).owner = none) ∧
    squallTakes.nextOwner 7 (squallTakes.revokers 7 7) = none := by decide +kernel
/-- Port 63 owns the link and does not take its response, and its slice's intake is full. -/
def stuckS : State := { asking (some 7) with
  groups := [(7, { owner := some 7, stuck := 512 })]
  ports := [(63, { present := true, attached := true, tags := [3, 4], queue := [{ id := 2, op := 0, req := { tag := 3, flow := 2 } }]
                   rsps := [{ tag := 4, code := 0, beats := [{ data := 0 }] }], rrb := 65536 })]
  subs := [{ id := 9, g := 7, port := 63, rq := some { port := 63 }, kind := .fill, atoms := 1, tag := { lin := true } }] }
theorem witness_LinkTaken_early : (stuckS.group 7).stuck < (stuckS.wr R.GRP_WATCHDOG_LIMIT 7 0 3).rd R.GRP_WATCHDOG_LIMIT 7 * 256 := by decide +kernel
theorem witness_LinkTaken_bite : (stuckS.group 7).owner = some 7 ∧ stuckS.frozen 7 = false ∧
    (stuckS.wr R.GRP_WATCHDOG_LIMIT 7 0 2).rd R.GRP_WATCHDOG_LIMIT 7 * 256 ≤ (stuckS.group 7).stuck ∧ stuckS.nextOwner 7 (stuckS.revokers 7 7) = none ∧
    bit (stuckS.rd R.GRP_BITE_VALID_VALID 7) 7 = false ∧ bit ((stuckS.wr R.GRP_BITE_VALID_VALID 7 0 0x80).rd R.GRP_BITE_VALID_VALID 7) 7 = true := by
  decide +kernel
/-- Group 7 is frozen. -/
def frosty : State := on.wr R.GRP_CTL_FREEZE 7 0 1
theorem witness_LinkFreeze_owner : (asking (some 7)).portOpen ∧ (asking (some 7)).frozen 7 = false ∧ ((asking (some 7)).group 7).owner = some 7 ∧
    (asking (some 7)).lreq (8 * 7 + 7) = true := ⟨⟨rfl, rfl⟩, by decide +kernel⟩
theorem witness_LinkFreeze : on.portOpen ∧ on.frozen 7 = false ∧ (on.group 7).owner = none ∧ ((asking (some 7)).group 7).owner ≠ none ∧
    frosty.portOpen ∧ frosty.frozen 7 = true ∧ (frosty.group 7).frozenImg = false ∧ (frosty.group 7).drained = false ∧ frosty.groupEmpty 7 = true := by
  refine ⟨⟨rfl, rfl⟩, ?_, ?_, ?_, ⟨rfl, rfl⟩, ?_⟩ <;> decide +kernel

/-! ### Witnesses: Halo and Cirrus -/

theorem line_all (P : Line → Bool) (h0 : P {} = true) (t : Tab Line) (h : (t.all fun e => P e.2) = true) (k : Nat) : P (Tab.get {} t k) = true := by
  induction t with
  | nil => exact h0
  | cons a t ih =>
    simp only [List.all_cons, Bool.and_eq_true] at h
    by_cases hk : k = a.1
    · simpa [Tab.get, Tab.find, hk] using h.1
    · simpa [Tab.get, Tab.find, hk] using ih h.2
/-- No line is gone where none of those listed is. -/
theorem none_gone (s : State) (h : (s.lines.all fun e => !e.2.gone) = true) (g e : Nat) : (s.line g e).gone = false := by
  simpa [State.line] using line_all (fun l => !l.gone) rfl s.lines h (g * 128 + e)

/-- The last unit that request 1 of port 63 waits for arrives at slice 7. -/
def lastUnit : State := { on with
  ports := [(63, { present := true, attached := true, tags := [3] })]
  waits := [{ id := 1, port := 63, pgen := 1, issued := true, need := [({ lin := true }, 0)], xf := { op := 0, req := { tag := 3 } } }]
  arr := [(7, [{ sub := { id := 9, wait := some 1, g := 7, kind := .stream, tag := { lin := true } }, st := 1, data := [1] }])] }
theorem witness_ReadAnswered : lastUnit.hdrWait = [] ∧ (∀ h, queueOf lastUnit.enc h = []) := ⟨rfl, fun _ => rfl⟩
theorem witness_ReadAnswered_unit : ∃ a w, lastUnit.waits = [w] ∧ (queueOf lastUnit.arr 7)[0]? = some a ∧ a.sub.kind = .stream ∧ a.sub.wait = some w.id ∧
    w.port / 8 = 7 ∧ w.issued = true ∧ w.need = [(a.sub.tag, a.sub.unit)] ∧ w.parts = 0 ∧ w.later = [] ∧ w.xf.op = 0 ∧
    (lastUnit.port w.port).gen = w.pgen := ⟨_, _, rfl, rfl, rfl, rfl, rfl, rfl, rfl, rfl, rfl, rfl, rfl⟩
/-- The last unit of a line in entry 75 of slice 7 arrives. -/
def filling : State := { on with
  lines := [(7 * 128 + 75, { valid := true, tag := { lin := true, line := 4 }, filling := true, sole := true, units := [(255, { fetch := [0] })] })]
  arr := [(7, [{ sub := { id := 9, g := 7, kind := .fill, tag := { lin := true, line := 4 }, unit := 255 }, st := 1, data := [1] }])] }
theorem filling_quiet : filling.quiet ∧ ∀ h f, (filling.line h f).gone = false := ⟨⟨rfl, rfl, fun _ => rfl⟩, none_gone _ rfl⟩
theorem witness_HaloUnits_fill : ((queueOf filling.arr 7)[0]?.map fun a => (a.sub.kind, a.sub.tag, a.sub.unit)) =
      some (.fill, { lin := true, line := 4 }, 255) ∧ filling.findLine 7 { lin := true, line := 4 } = some 75 ∧
    ((filling.line 7 75).unit 255).st = 0 ∧ 0 ∈ ((filling.line 7 75).unit 255).fetch ∧ ((filling.line 7 75).unit 255).merge = [] ∧
    (filling.line 7 75).inval = false ∧ (filling.line 7 75).sharing = false := by decide +kernel
/-- Entry 75 of slice 7 is in the eviction buffer with unit 255 DIRTY. -/
def evicting : State := { on with
  lines := [(7 * 128 + 75, { valid := true, evb := 1, tag := { lin := true, line := 4 }, units := [(255, { st := 1, dirty := true, data := [7] })] })] }
theorem evicting_quiet : evicting.quiet ∧ ∀ h f, (evicting.line h f).gone = false := ⟨⟨rfl, rfl, fun _ => rfl⟩, none_gone _ rfl⟩
theorem witness_HaloUnits_evict : 75 ∈ [72, 73, 74, 75] ∧ (evicting.line 7 75).valid = true ∧ (evicting.line 7 75).evb ≠ 0 ∧
    (∀ f ∈ [72, 73, 74, 75], f ≠ 75 → (evicting.line 7 f).valid = false) ∧ (evicting.line 7 75).tag.lin = true ∧
    (evicting.line 7 75).units.find? (fun u => u.2.dirty) = some (255, (evicting.line 7 75).unit 255) ∧ ((evicting.line 7 75).unit 255).errs = [] := by
  decide +kernel
/-- Slice 7 holds a clean line in entry 75. -/
def clean75 : State := { on with lines := [(7 * 128 + 75, { valid := true, tag := { lin := true, line := 4 }, units := [(255, { st := 1, data := [7] })] })] }
theorem clean75_quiet : clean75.quiet ∧ ∀ h f, (clean75.line h f).gone = false := ⟨⟨rfl, rfl, fun _ => rfl⟩, none_gone _ rfl⟩
theorem witness_HaloUnits_invalidate : clean75.portOpen ∧ 7 < clean75.G ∧ (clean75.group 7).invBusy = false ∧ bits (4#32).toNat 1 2 = 2 ∧
    bits (4#32).toNat 4 1 = 0 ∧
    (∀ e, e < 76 → (clean75.line 7 e).dirty = false ∧ (clean75.line 7 e).filling = false ∧ (clean75.line 7 e).locked = false) ∧
    (∀ e, e < 76 → (clean75.line 7 e).valid = true → clean75.lineSettled 7 (clean75.line 7 e).tag = true) :=
  ⟨⟨rfl, rfl⟩, by decide +kernel⟩
/-- The invalidate of group 7 has finished in its slice. -/
def flushed : State := { on with groups := [(7, { invBusy := true, invSlices := [7] })] }
theorem witness_HaloUnits_done : (flushed.group 7).invBusy = true ∧ (flushed.group 7).invSlices.all flushed.invSettled = true := by decide +kernel
/-- Slice 7 asks the other slices about line 4, which slice 0 holds or not. -/
def asks (claim held sent : Bool) : State := { on with
  lines := (if held then [(71, { valid := true, tag := { lin := true, line := 4 }, own := true })] else []) ++
    [(7 * 128 + 3, { valid := true, tag := { lin := true, line := 4 }, filling := true })]
  snoops := [{ g := 7, claim := claim, sent := sent, tag := { lin := true, line := 4 }
               act := .fill [0, 1] { id := 5, g := 7, kind := .fill, tag := { lin := true, line := 4 } } }] }
theorem asks_quiet (a b c : Bool) : (asks a b c).quiet := ⟨rfl, rfl, fun _ => rfl⟩
theorem witness_SnoopMessages_none : ∀ c, ((asks c false false).snoops[0]?.map fun n => (n.g, n.claim)) = some (7, c) ∧
    (asks c false false).nextSnoop = some 0 ∧ (∀ h, h < 8 → h ≠ 7 → (asks c false false).findLine h { lin := true, line := 4 } = none) := by decide +kernel
theorem witness_SnoopMessages_tags (a b c : Bool) (h e : Nat) : ((asks a b c).line h e).tagErr = false ∧ ((asks a b c).line h e).gone = false :=
  ⟨by simpa [State.line] using line_all (fun l => !l.tagErr) rfl (asks a b c).lines (by cases b <;> rfl) (h * 128 + e), none_gone _ (by cases b <;> rfl) h e⟩
theorem witness_SnoopMessages_held : ∀ c, (asks c true false).nextSnoop = some 0 ∧ (asks c true false).findLine 0 { lin := true, line := 4 } = some 71 ∧
    (∀ j, j < 8 → j ≠ 7 → j ≠ 0 → (asks c true false).findLine j { lin := true, line := 4 } = none) ∧ ((asks c true false).line 0 71).empty = false ∧
    ((asks c true false).line 0 71).dirty = false ∧ (((asks c true false).line 0 71).units.all fun u => !u.2.dirty) = true ∧
    ((asks c true false).line 0 71).filling = false ∧ ((asks c true false).line 0 71).locked = false ∧
    (((asks c true false).line 0 71).units.all fun u => u.2.merge.isEmpty) = true ∧ 71 < 72 := by decide +kernel
theorem witness_SnoopMessages_acks : ((asks false false true).snoops[0]?.map fun n => (n.sent, n.g)) = some (true, 7) ∧
    ((asks false false true).snoops.all fun n => n.more.isEmpty && (List.range 8).all fun h => h == 7 || (asks false false true).acked n h) = true ∧
    ((asks false false true).snoops.all fun n => (asks false false true).snoops.all fun m => !(n.follows m && m.claim && m.sent)) = true ∧
    (asks false false true).findLine 7 { lin := true, line := 4 } = some 3 := by decide +kernel

/-- A cell of a SEALED surface of depth 8 on channel 0, stored RAW with every sample 0. -/
def cirBase : State := { run0 with
  sm := { surfs := [(0, { live := true, width := 32, height := 8, prot := 1, pos := [{ ch := 0, exts := [1] }] })] } }
/-- A read of that cell by slice 7. -/
def cirSub : SubReq := { id := 4, g := 7, kind := .fill, tag := { gen := 1 } }
/-- Its header. -/
def hdr0 : Nat := mkHdr 3 8 (crc16 (List.replicate 256 0))
/-- Its decoder job. -/
def dec0 : DecJob := { sub := cirSub, header := hdr0, payload := List.replicate 256 0 }
def decoding : State := { cirBase with dec := [(7, [dec0, { dec0 with fail := true }])] }
set_option maxRecDepth 100000 in
theorem witness_CirrusCells_ok : (queueOf decoding.dec 7)[0]? = some dec0 ∧ (decoding.judge dec0 == .ok (List.replicate 256 0)) = true :=
  ⟨rfl, by decide +kernel⟩
theorem witness_CirrusCells_retry : (queueOf decoding.dec 7)[1]? = some { dec0 with fail := true } ∧
    decoding.judge { dec0 with fail := true } = .bad 1 ∧ decoding.rd R.CIR_CTL_RETRY_EN = 1 ∧ dec0.lost = false :=
  ⟨rfl, by decide +kernel, by decide +kernel, rfl⟩
theorem witness_CirrusCells_fail : (decoding.wr R.CIR_CTL_RETRY_EN 0 0 0).rd R.CIR_CTL_RETRY_EN ≠ 1 ∧
    (decoding.wr R.CIR_CTL_RETRY_EN 0 0 0).failed.contains (dec0.sub.tag, dec0.sub.unit, dec0.sub.stale) = false := by decide +kernel
/-- Its retry, with the cell and its header in DRAM. -/
def retrying : State :=
  let r := cirBase.cellRoute cirSub.tag 0 false
  let h := cirBase.cellRoute cirSub.tag 0 true
  ({ cirBase with retry := [(7, [dec0])] } : State).memWrite (((List.range 256).map fun k => (memKey r.at_.ch (r.at_.a + k), 0#8)) ++
    (List.range 4).map fun k => (memKey h.at_.ch (h.at_.a + k), BitVec.ofNat 8 (hdr0 / 256 ^ k)))
set_option maxRecDepth 100000 in
theorem witness_CirrusCells_again : (queueOf retrying.retry 7)[0]? = some dec0 ∧ retrying.cellPending cirSub.tag 0 = false ∧
    (∀ r ∈ retrying.retryPlaces cirSub.tag 0, retrying.engineFree r.1 dec0.cls 0 = true) ∧
    retrying.cellReadable cirSub.tag 0 = true ∧ retrying.retryGone cirSub.tag 0 = false ∧
    retrying.failed.contains (cirSub.tag, 0, cirSub.stale) = false := ⟨rfl, by decide +kernel, by decide +kernel, by decide +kernel, by decide +kernel, rfl⟩
set_option maxRecDepth 100000 in
theorem witness_CirrusCells_read : ((retrying.retryRead cirSub.tag 0).1 == hdr0 && (retrying.retryRead cirSub.tag 0).2 == .ok (List.replicate 256 0)) = true ∧
    hdrMode hdr0 = 3 := by decide +kernel
/-- An encoder holds a write of the cell, ready to encode or over a lost cell. -/
def encoding (n : Nat) : State := { cirBase with enc := [(7, [{ wait := none, tag := { gen := 1 }, cell := 0, samples := [(0, 9)], phase := n }])] }
theorem witness_CirrusCells_encode (n : Nat) : (encoding n).waits = [] ∧ (encoding n).hdrWait = [] ∧
    (encoding n).enc = [(7, [{ wait := none, tag := { gen := 1 }, cell := 0, samples := [(0, 9)], phase := n }])] ∧ ((encoding n).surf 0).sealed = true :=
  ⟨rfl, rfl, rfl, rfl⟩
theorem witness_Rearms : on.portOpen ∧ 7 < on.G ∧ 63 < 8 * on.G ∧ 31 < on.C ∧ bits (4#32).toNat 0 2 = 0 ∧ bits (16#32).toNat 0 3 = 0 :=
  ⟨⟨rfl, rfl⟩, by decide, by decide, by decide, rfl, rfl⟩

/-! ### Witnesses: flows and channels -/

/-- The first sub-request reads the cell in class 15; the second waits for the context of flow 2, and the third names no class. -/
def subs3 : State := { cirBase with
  traffic := { flows := [(1, { defined := true, policy := 1, cir := 100, cbs := 50, latency := 1000, pending := 1 })], fwait := [1] }
  sm := { cirBase.sm with surfs := [(0, { (cirBase.surf 0) with prep := 1 })] }
  subs := [{ cirSub with atoms := 8, named := some 15 }, { cirSub with id := 5, flow := 2, atoms := 8 }] }
theorem subs3_quiet : subs3.quiet := ⟨rfl, rfl, fun _ => rfl⟩
theorem witness_FlowContexts_assign : subs3.subs[0]? = some { cirSub with atoms := 8, named := some 15 } ∧
    ((subs3.subs.take 0).any fun e => e.meets { cirSub with atoms := 8, named := some 15 }) = false ∧ subs3.dawning = false ∧
    subs3.subFree { cirSub with atoms := 8, named := some 15 } = true ∧ subs3.isTurn 0 = true :=
  ⟨rfl, by decide +kernel, by decide +kernel, by decide +kernel, by decide +kernel⟩
theorem witness_FlowContexts_ready :
    (subs3.chan 0).remap = [] ∧
    (subs3.subParts { cirSub with atoms := 8, named := some 15 }).map (fun p => (p.2.1, p.2.2.at_.ch)) = [(8, 0)] ∧
    subs3.outOfService 0 = false ∧ subs3.checkerMode { cirSub with atoms := 8, named := some 15 } = 0 := by decide +kernel
theorem witness_FlowContexts_miss : (subs3.subs[1]?.map fun u => (subs3.ctxHere u, u.flow)) = some (false, 2) ∧
    subs3.traffic.fwait.contains 2 = false := by decide +kernel
/-- Lane 1 of the reserve, with flow 1's context, lies on channel 0. -/
def subs3r : State := { subs3 with sm := { subs3.sm with lanes := (List.range 256).map fun l => (2048 + l, 0) }, integ := { initDone := [(64, 1280)] },
                                     mem := (List.range 64).map fun k => (memKey 0 (64 + k), 0) }
theorem witness_FlowContexts_fill : subs3r.traffic.fwait.contains 1 = true ∧ subs3r.dawning = false ∧ subs3r.rsvReady (64 * 1) = true ∧ subs3r.ctxBad 1 = 0 ∧
    (subs3r.traffic.fcache.filter fun g => g != 1 && g % 4096 == 1 % 4096).length < 8 ∧
    subs3r.engineFree (subs3r.rsvChan (64 * 1)) 0 0 = true ∧ subs3r.traffic.pins = [] ∧ subs3r.engineFree (subs3r.rsvChan (64 * 1)) 15 0 = true := by
  decide +kernel
theorem witness_FlowContexts_cached : ({ subs3 with traffic := { subs3.traffic with fcache := [1] } } : State).traffic.fcache.contains 1 = true := rfl
theorem witness_FlowContexts_sweep : (Tab.get ({} : Flow) subs3.traffic.flows 1).defined = true ∧ (Tab.get ({} : Flow) subs3.traffic.flows 1).policy % 4 = 1 := by
  decide +kernel
/-- A request of flow 1 has been pending since cycle 0. -/
def pending1 : State := { subs3 with traffic := { subs3.traffic with live := [(1, (1, 0))] } }
theorem witness_FlowContexts_urgency : (1000 : Nat) = (Tab.get ({} : Flow) pending1.traffic.flows 1).latency ∧ (pending1.pendOf 1).2 ≠ 0 := by
  decide +kernel
theorem witness_FlowContexts_test : ({ on with traffic := { testing := true } } : State).traffic.testing = true ∧
    ({ on with traffic := { testing := true } } : State).conf.isSome = true := ⟨rfl, rfl⟩

/-- Channel 0 has a read in its class queue. -/
def queued : State := { run0 with chans := [(0, { svc := 5, cq := [{ sub := { cirSub with atoms := 1 }, cls := 15, seq := 0, left := [(0, 1)] }] })] }
theorem witness_ChannelCommands_pass : queued.mayPass 0 = true ∧ ((queued.pick 0).map fun r => (r.1.q.sub.id, r.1.q.sub.guarded)) = some (4, false) := by
  decide +kernel
/-- A column command of bank 15 waits with every bank closed. -/
def col15 : CEnt :=
  { seq := 0, write := false, check := false, rank := 0, bank := 15, row := 7, cols := [0], level := 5, cls := 15
    urg := 0, yellow := false, t0 := 0 }
def wanting : State := { run0 with chans := [(0, { svc := 5, ctl := [col15] })] }
theorem witness_ChannelCommands_act :
    let v := (wanting.countChclk 0 1000).accountSlots 0 1000
    let w := v.setChan 0 (v.chan 0)
    v.direction 0 = ((wanting.chan 0).dir, (wanting.chan 0).drain, false) ∧ w.maintStart 0 = none ∧ (∀ e ∈ (wanting.chan 0).ctl, e.cols ≠ []) ∧
    w.choose 0 1000 (w.chan 0) (wanting.chan 0).dir = some (.act 0 15 7 0) := by decide +kernel
/-- Rank 1 owes as many refreshes as force one. -/
def owed : State := ({ run0 with chans := [(0, { svc := 5, ranks := [(1, { debt := 8 })] })] } : State).wr R.CH_CTL_REF_MODE 0 0 1
theorem witness_ChannelCommands_refresh :
    let v := (owed.countChclk 0 100000).accountSlots 0 100000
    let w := v.setChan 0 (v.chan 0)
    v.direction 0 = ((owed.chan 0).dir, (owed.chan 0).drain, false) ∧ w.maintStart 0 = none ∧ owed.refForced 0 1 = true ∧
    w.choose 0 100000 (w.chan 0) (owed.chan 0).dir = some (.refAb 1) := by decide +kernel
/-- A read of one atom is back at channel 0. -/
def read32 : QEnt :=
  { sub := { id := 4, g := 7, kind := .fill, atoms := 1, tag := { lin := true } }, cls := 15, seq := 0, data := List.replicate 32 (some 3#8) }
def back : State := { on with chans := [(0, { svc := 5, done := [read32] })] }
theorem witness_ChannelCommands_return : ∃ q, q.bad = [] ∧ q.cbad = [] ∧ (back.chan 0).done = q :: [] ∧ q.lost = false ∧ q.sub.half = 0 ∧ q.sub.tag.lin = true ∧ q.sub.guarded = false ∧
    q.sub.kind = .fill ∧ q.sub.atoms = 1 ∧ q.data.length = 32 ∧ (q.data.all (·.isSome)) = true ∧ q.cdata = [] ∧ back.returnTurn q.sub.g = some 0 :=
  ⟨read32, rfl, rfl, rfl, rfl, rfl, rfl, rfl, rfl, rfl, rfl, rfl, rfl, by decide +kernel⟩
theorem witness_ChannelCommands_link : back.quiet ∧ ({ back with conf := some { cfg1 with chans := [{ ch := 0 }] } } : State).option 0 0 = false :=
  ⟨⟨rfl, rfl, fun _ => rfl⟩, by decide +kernel⟩
theorem witness_ChannelCommands_accrue : run0.inService 0 = true ∧ (run0.chan 0).pwr < 2 ∧ 1 < run0.ranksOf 0 := by decide +kernel
theorem witness_ChannelCommands_down : (run0.wr R.CH_CTL_PD_EN 0 0 1).pdWaits 0 100000 (run0.chan 0) 1 = true ∧ ((run0.chan 0).rankAt 1).ready ≤ 100000 ∧
    (run0.chan 0).openBanks 1 = [] ∧ (run0.chan 0).cmdAt ≤ 100000 := by decide +kernel

theorem witness_Maintenance : run0.inService 0 = true ∧ 1 < run0.ranksOf 0 ∧ (run0.chan 0).pwr < 2 ∧ 17 < 18 ∧
    (run0.wr R.PHY_MAINT_LONG_PERIOD 0 0 1).rd R.PHY_MAINT_LONG_PERIOD 0 ≠ 0 := by decide +kernel
theorem witness_Maintenance_eye : run0.rd R.PHY_DRIFT_CFG_EYE_THRESH 0 ≤ ((((min 30 32 : Nat) : Int) - (min 4 32 : Nat)).tdiv 2).natAbs := by decide +kernel
/-- Operation `k` of rank 1 runs. -/
def maint (k : Nat) : State := { run0 with chans := [(0, { svc := 5, maint := some (k, 1), mStep := 2 })] }
theorem witness_Maintenance_done : ∀ k ∈ [1, 2, 3], ((maint k).chan 0).maint = some (k, 1) ∧ ((maint k).chan 0).openBanks 1 = [] ∧
    ((maint k).chan 0).mStep = 2 := by decide +kernel
theorem witness_Maintenance_long : (maint 1).longNarrow 0 1 (List.replicate 36 (10, 40)) = none ∧ ((maint 1).longNarrow 0 1 []).isSome = true := by
  decide +kernel
/-- ZQ calibration of rank 1 waits. -/
def starved : State := ({ run0 with chans := [(0, { svc := 5, ranks := [(1, { zq := true })] })] } : State).wr R.PHY_MAINT_MAINT_WAIT_MAX 0 0 1
theorem witness_Maintenance_starved : starved.rd R.PHY_MAINT_MAINT_WAIT_MAX 0 ≠ 0 ∧ starved.maintWaits 0 = true := by decide +kernel
theorem witness_Maintenance_alert : run0.power.st = 0 ∧ run0.cclkRuns = true ∧ 0 < run0.C := by decide +kernel

theorem witness_ChannelControl : still0.portOpen ∧ 0 < still0.C ∧ still0.phyQuiesced 0 = true ∧ still0.seqRuns 0 = false ∧ (still0.chan 0).retired = false ∧
    still0.chPresent 0 = true ∧ bits (1#32).toNat 1 2 = 0 ∧ bits (2#32).toNat 0 1 = 0 ∧ bits (2#32).toNat 2 1 = 0 ∧ bits (4#32).toNat 0 2 = 0 :=
  ⟨⟨rfl, rfl⟩, by decide +kernel⟩
/-- Channel 0 keeps the training state of its configuration. -/
def kept0 : State := { on with chans := [(0, { svc := 5, quiesced := true, retainedSt := { valid := true, ck := 3200000, ranks := 2, density := 1 } })] }
theorem witness_ChannelControl_warm : kept0.phyQuiesced 0 = true ∧ kept0.retainedOk 0 = true ∧ (kept0.chan 0).wasCold = false ∧ kept0.inService 0 = true ∧
    (kept0.chan 0).pwr < 2 ∧ kept0.seqRuns 0 = false ∧ kept0.chPresent 0 = true := by decide +kernel
/-- Channel 0 is in self-refresh. -/
def kept2 : State := { kept0 with chans := [(0, { kept0.chan 0 with pwr := 2 })] }
theorem witness_ChannelControl_asleep : kept2.phyQuiesced 0 = true ∧ kept2.retainedOk 0 = true ∧ 2 ≤ (kept2.chan 0).pwr := by decide +kernel
theorem witness_ChannelControl_refused : run0.portOpen ∧ run0.phyQuiesced 0 = false := ⟨⟨rfl, rfl⟩, by decide +kernel⟩
theorem witness_ChannelControl_drained : (run0.wr R.CH_CTL_HOLD 0 0 1).drainedCh 0 = true ∧ (run0.chan 0).quiesced = false ∧ run0.chPresent 0 = true := by
  decide +kernel
theorem witness_ChannelControl_hold : (still0.chan 0).imgStop = false ∧ (still0.chan 0).pprHold = false ∧ (still0.chan 0).srReq = false := by decide +kernel
theorem witness_ChannelControl_sleep : still0.inService 0 = true ∧ still0.rd R.CH_PWR_REQ 0 = 0 ∧ (still0.chan 0).quiesced = true ∧
    (still0.chan 0).imgHold = false ∧ bits (1#32).toNat 0 2 = 1 ∧ bits (1#32).toNat 16 2 = 0 := by decide +kernel
theorem witness_ChannelControl_retire : bits (0x10000#32).toNat 0 2 = still0.rd R.CH_PWR_REQ 0 ∧ still0.emptyCh 0 = true ∧ still0.chQuiesced 0 = true ∧
    bits (0x10000#32).toNat 17 1 = 0 := by decide +kernel
theorem witness_ChannelControl_reinstate : (({ on with chans := [(0, { svc := 5, retired := true })] } : State).chan 0).retired = true ∧
    bits (0x20000#32).toNat 16 1 = 0 ∧ bits (0x20000#32).toNat 0 2 = on.rd R.CH_PWR_REQ 0 := by decide +kernel
/-- Channel 0 is in step `k` of a cold Dawn. -/
def dawn (k : Nat) : State := { on with chans := [(0, { svc := 1, seq := 1, step := k })] }
theorem witness_ChannelControl_dawn : ((dawn 1).chan 0).seq ≠ 0 ∧ ((dawn 1).chan 0).step ≠ 2 ∧ ((dawn 1).chan 0).step ≠ 12 ∧ (dawn 1).chanImgWaits 0 = false ∧
    nextStep (seqSteps 1) 1 = some 2 ∧ nextStep (seqSteps 1) 15 = none ∧ ((dawn 1).chan 0).tries < (dawn 1).rd R.PHY_CTL_TRAIN_RETRY 0 := by decide +kernel

/-- In step READ_TRAIN every window is 40 steps wide, or none was found. -/
theorem witness_ChannelControl_trained : ((dawn 8).chan 0).seq ≠ 0 ∧ (dawn 8).chanImgWaits 0 = false ∧ (dawn 8).ranksOf 0 ≤ 2 ∧
    (dawn 8).narrow 0 8 (List.replicate 36 (10, 40)) = none ∧ nextStep (seqSteps 1) 8 = some 9 ∧ (dawn 8).narrow 0 8 [] ≠ none ∧
    ((dawn 8).chan 0).tries < (dawn 8).rd R.PHY_CTL_TRAIN_RETRY 0 := by decide +kernel

/-! ### Witnesses: surfaces and moves -/

/-- Surface 65535 is GUARDED and not prepared; surface 0 is freed. -/
def surfs2 : State := { run0 with sm := { surfs := [(0, { gen := 3, freed := true }), (65535, { gen := 2, live := true, width := 200, height := 100, prot := 2 })] } }
theorem witness_Storage_tile : surfs2.power.st = 0 ∧ (surfs2.surf 65535).live = true ∧ (surfs2.surf 65535).prepares = true ∧
    (surfs2.surf 65535).tileCount = 8 ∧ (surfs2.surf 65535).tileReady 0 = false ∧ 0 = (surfs2.surf 65535).prep := by decide +kernel
theorem witness_Storage_open : surfs2.waiterRun ((surfs2.surf 65535).touchesTile 65535 0) = (15, 0) ∧
    surfs2.routesFree (surfs2.prepRoutes (surfs2.surf 65535) { idx := 65535, gen := 2, plane := ((surfs2.surf 65535).tileAt 0).1
                                                               tx := ((surfs2.surf 65535).tileAt 0).2.1
                                                               ty := ((surfs2.surf 65535).tileAt 0).2.2 }) 15 0 = true := by decide +kernel
/-- Surface 0 of it is freed, and an access that came before waits for its first tile. -/
def surfsF : State := { surfs2 with
  sm := { surfs := [(0, { gen := 3, freed := true, width := 200, height := 100, prot := 2 })] }
  subs := [{ cirSub with tag := { gen := 3 }, named := some 2 }] }
theorem witness_Storage_freed : (surfsF.surf 0).live = false ∧ (surfsF.surf 0).freed = true ∧ surfsF.subs.any ((surfsF.surf 0).touchesTile 0 0) = true ∧
    (surfsF.surf 0).prepares = true ∧ 0 < (surfsF.surf 0).tileCount ∧ (surfsF.surf 0).tileReady 0 = false ∧
    surfsF.waiterRun ((surfsF.surf 0).touchesTile 0 0) = (2, 0) ∧
    surfsF.routesFree (surfsF.prepRoutes (surfsF.surf 0) { idx := 0, gen := 3, plane := ((surfsF.surf 0).tileAt 0).1
                                                           tx := ((surfsF.surf 0).tileAt 0).2.1
                                                           ty := ((surfsF.surf 0).tileAt 0).2.2 }) 2 0 = true := by decide +kernel
theorem witness_Storage_return : (surfs2.surf 0).freed = true ∧ surfs2.surfBusy 0 = false ∧ surfs2.sm.move.ofSurf 0 = false := by decide +kernel
theorem witness_Storage_free : surfs2.portOpen ∧ surfs2.sm.inbox = [] ∧ surfs2.handleOk (bits (0x8002FFFF#32).toNat 0 24) = true ∧ surfs2.handleOk (bits (0x8003FFFF#32).toNat 0 24) = false :=
  ⟨⟨rfl, rfl⟩, by decide +kernel⟩
/-- Extent 3 of channel 0, with the data of lane 0 of region 3, is to be marked lost; the last extent of a channel is too. -/
def losing : State := { run0 with
  chans := [(0, { svc := 5, lossTodo := [3, 8191] })], sm := { lanes := [(0, 0)], segs := [(3 * 256, { exts := [3], comps := [4] })] } }
theorem witness_Storage_loss : ∀ k ∈ [3, 8191], (losing.chan 0).lossTodo.contains k = true ∧ losing.inService 0 = true ∧
    losing.engineFree 0 (losing.lossRun 0 k).1 (losing.lossRun 0 k).2 = true := by decide +kernel
theorem witness_Storage_zero : (losing.chan 0).remap = [] ∧ (losing.heldExts 0).filter (fun e => e.1 == 3) = [(3, 1, 0)] := by decide +kernel
/-- Every lane of the reserve lies on channel 0, and all but its last unit is written. -/
def rsvLast : State := { run0 with sm := { lanes := (List.range 256).map fun l => (2048 + l, 0) }, integ := { initDone := [(64, 1279)] } }
theorem witness_Storage_reserve : (rsvLast.guardedRegions.find? fun r => r.region == 64) = some rsvRegion ∧ rsvLast.dawning = false ∧
    rsvLast.unitNext rsvRegion 1279 = true ∧
    (rsvLast.initHome rsvRegion).routesFree ((rsvLast.initHome rsvRegion).unitRoutes rsvRegion 1279) 15 0 = true ∧
    (rsvLast.unitWaiter rsvRegion 1279).getD (15, 0) = (15, 0) := by decide +kernel
/-- The reserve is written, and lane 0 of region 3 lies on channel 0. -/
def region3 : State := { run0 with sm := { lanes := [(0, 0)], segs := [(3 * 256, { exts := [3], comps := [4] })] }, integ := { initDone := [(64, 1280)] } }
/-- Region 3 of the image. -/
def rec3 : RegionRec := { region := 3, set := 0, prot := 2, base := 0, size := 0x200000 }
theorem witness_Storage_unit : (region3.guardedRegions.find? fun r => r.region == 3) = some rec3 ∧ region3.dawning = false ∧
    region3.unitNext rec3 0 = true ∧ (region3.unitWaiter rec3 0).getD (15, 0) = (15, 0) ∧
    (region3.initHome rec3).routesFree ((region3.initHome rec3).unitRoutes rec3 0) 15 0 = true := by decide +kernel

/-- Channel 0 in service carries lane 0 of set 0. -/
def lane0 : State := { run0 with sm := { lanes := [(0, 0)] } }
theorem witness_Moves_evac : run0.portOpen ∧ run0.sm.move = {} ∧ run0.sm.start = {} ∧ run0.sm.parked = {} ∧ bits (0x10000#32).toNat 0 5 = 0 ∧ 0 = run0.rd R.SM_EVAC_CTL_CH ∧
    bits (0x10000#32).toNat 8 1 = run0.rd R.SM_EVAC_CTL_RETIRE ∧ bits (0x10000#32).toNat 17 1 = 0 ∧ run0.chPresent 0 = true ∧
    (run0.chan 0).retired = false ∧ run0.outOfService 0 = false ∧ run0.nextUnit 0 = none ∧ run0.rd R.SM_EVAC_CTL_RETIRE = 0 ∧ run0.emptyCh 0 = true :=
  ⟨⟨rfl, rfl⟩, by decide +kernel⟩
theorem witness_Moves_held : (lane0.nextUnit 0).isSome = true ∧ (∀ d, d < 32 → d ≠ 0 → lane0.inService d = false) ∧ lane0.sm.move = {} ∧ lane0.sm.start = {} ∧ lane0.sm.parked = {} ∧ lane0.allocFree = true := by decide +kernel
/-- An evacuation of channel 0 is between units, or copies lane 0. -/
def evac (u : Option MoveUnit) : State := { lane0 with sm := { lane0.sm with move := { kind := 1, unit := u } } }
theorem witness_Moves_cancel : (evac none).portOpen ∧ (evac none).sm.move.kind = 1 ∧ (evac none).sm.move.unit = none ∧
    bits (0x20000#32).toNat 0 5 = (evac none).rd R.SM_EVAC_CTL_CH ∧ bits (0x20000#32).toNat 8 1 = (evac none).rd R.SM_EVAC_CTL_RETIRE ∧
    bits (0x20000#32).toNat 16 1 = 0 ∧ (evac (some (.lane 0 0))).sm.move.unit ≠ none ∧ (evac none).sm.start.kind ≠ 1 :=
  ⟨⟨rfl, rfl⟩, by decide +kernel⟩
/-- An evacuation waits for a re-placement to give way. -/
def starting : State := { lane0 with sm := { lane0.sm with move := { kind := 3, unit := some (.lane 0 0), dst := 1, piece := 3 }, start := { kind := 1 } } }
theorem witness_Moves_cancel_start : starting.portOpen ∧ starting.sm.start.kind = 1 := ⟨⟨rfl, rfl⟩, rfl⟩
theorem witness_Moves_migrate : lane0.portOpen ∧ lane0.sm.move = {} ∧ lane0.sm.start = {} ∧ lane0.sm.parked = {} ∧ bits (0x1000000#32).toNat 0 3 = lane0.rd R.SM_MIGRATE_CTL_SET ∧
    bits (0x1000000#32).toNat 8 8 = lane0.rd R.SM_MIGRATE_CTL_LANE ∧ bits (0x1000000#32).toNat 16 5 = 0 ∧ 0 = lane0.rd R.SM_MIGRATE_CTL_DEST ∧
    lane0.inService 0 = true ∧ lane0.setDomain (lane0.rd R.SM_MIGRATE_CTL_SET) = some (lane0.domainOf 0) ∧
    lane0.laneCh (lane0.rd R.SM_MIGRATE_CTL_SET) (lane0.rd R.SM_MIGRATE_CTL_LANE) = 0 := ⟨⟨rfl, rfl⟩, by decide +kernel⟩
/-- Channel 0 has gone out of service with a lane on it. -/
def fallen : State := ({ lane0 with chans := [(0, { svc := 6, out := true, autoEvac := true })] } : State).wr R.PHY_CTL_AUTO_EVAC 0 0 1
theorem witness_Moves_auto : fallen.rd R.PHY_CTL_AUTO_EVAC 0 = 1 ∧ fallen.sm.start = {} ∧ fallen.sm.parked = {} ∧ (fallen.chan 0).autoEvac = true ∧ fallen.power.st = 0 ∧ fallen.outOfService 0 = true ∧ fallen.sm.move = {} ∧
    fallen.emptyCh 0 = false := by decide +kernel
/-- The last piece but one of a surface position moves from extent 5 of channel 0 to extent 6 of channel 1. -/
def copyingS : State := { run0 with chans := [(0, { svc := 5 }), (1, { svc := 5 })],
                                    sm := { surfs := [(0, { live := true, pos := [{ ch := 0, exts := [5] }] })]
                                            move := { kind := 3, unit := some (.pos 0 0), dst := 1, dstMain := [6], piece := 15 } } }
theorem witness_Moves_piece : copyingS.sm.start = {} ∧ copyingS.copying = true ∧ copyingS.power.st = 0 ∧ copyingS.sm.move.piece < 16 ∧
    copyingS.sm.move.chunk < copyingS.unitChunks (.pos 0 0) ∧ copyingS.pieceReady = true ∧ copyingS.unitFreed = false ∧ copyingS.pieceFree = true ∧
    ((copyingS.pieceOf 0 15).map fun e => (e.1.ch, e.2.1.ch, e.2.2.1)) = some (0, 1, 4096) ∧
    ((copyingS.pieceOf 0 15).map fun e => (e.2.2.2, decide (e.2.1.a + 4096 ≤ 2 ^ 34))) = some (false, true) ∧ (∀ e ∈ copyingS.chans, e.2.remap = []) := by
  decide +kernel
/-- All pieces of the first chunk of an evacuation are copied. -/
def copiedS : State := { copyingS with sm := { copyingS.sm with move := { copyingS.sm.move with kind := 1, piece := 16 } } }
theorem witness_Moves_chunk : copiedS.sm.move.unit = some (.pos 0 0) ∧ copiedS.sm.start = {} ∧ copiedS.sm.move.lost = false ∧ copiedS.sm.move.held = false ∧
    copiedS.sm.move.chunk + 1 < copiedS.unitChunks (.pos 0 0) ∧ copiedS.sm.move.piece = 16 ∧ copiedS.mirrorsPending = false ∧ copiedS.unitFreed = false ∧ copiedS.sm.move.kind ≠ 3 := by
  decide +kernel
/-- A migration of lane 0 to channel 1 is held, and channel 1 has room. -/
def heldS : State := { lane0 with
  chans := [(0, { svc := 5 }), (1, { svc := 5 })]
  sm := { lane0.sm with spare := [(1, [1, 2, 3, 4])], move := { kind := 2, held := true, dst := 1, dest := 1 } } }
theorem witness_Moves_resume : heldS.sm.move.held = true ∧ heldS.power.st = 0 ∧ heldS.sm.move.unit = none ∧ heldS.sm.move.kind = 2 ∧
    heldS.sm.start = {} ∧ heldS.allocFree = true ∧ heldS.laneCh heldS.sm.move.set heldS.sm.move.lane ≠ heldS.sm.move.dest ∧
    heldS.sm.parked.unit ≠ some (.lane heldS.sm.move.set heldS.sm.move.lane) ∧
    heldS.inService heldS.sm.move.dest = true ∧ heldS.setDomain heldS.sm.move.set = some (heldS.domainOf heldS.sm.move.dest) ∧
    (heldS.beginUnit (.lane heldS.sm.move.set heldS.sm.move.lane) heldS.sm.move.dest).isSome = true := by decide +kernel
/-- Background re-placement is on. -/
def placing (s : State) : State := s.wr R.SM_CTL_REPLACE_EN 0 0 1
theorem witness_Moves_round : (placing on).rd R.SM_CTL_REPLACE_EN ≠ 0 ∧ (placing on).power.st = 0 ∧ (placing on).sm.move.kind = 0 ∧
    (placing on).sm.roundWait = false ∧ (placing on).allocFree = true ∧ (placing on).conf.isSome = true ∧ (placing on).task1 = none ∧ (placing on).task2 = none ∧ (placing on).task3 = none := by
  decide +kernel
/-- A surface has two positions on channel 0, and channel 1 of its pool has room. -/
def doubled : State := placing { on with
  conf := some { cfg1 with pools := [{ pool := 0, mask := 3, extents := 8 }] }
  chans := [(0, { svc := 5 }), (1, { svc := 5 })]
  sm := { surfs := [(0, { live := true, pos := [{ ch := 0, exts := [5] }, { ch := 0, exts := [6] }] })], poolFree := [(1, [10, 11])] } }
theorem witness_Moves_task : (doubled.task1.map (·.2)) = some 1 ∧ doubled.allocFree = true ∧
    (doubled.task1.any fun t => ((doubled.setMove { kind := 3 }).beginUnit t.1 t.2).isSome) = true := by decide +kernel
/-- Channel 1 has no room. -/
def crowded : State := { doubled with sm := { doubled.sm with poolFree := [] } }
theorem witness_Moves_wait : (crowded.task1.any fun t => ((crowded.setMove { kind := 3 }).beginUnit t.1 t.2).isNone) = true ∧ crowded.sm.move.kind = 0 := by
  decide +kernel

/-! ### Witnesses: integrity -/

/-- Channel 0 holds a GUARDED surface in extent 5 with its companion in extent 6, every tile prepared. -/
def guarded0 : State := (placing { run0 with
  sm := { surfs := [(0, { live := true, width := 64, height := 16, prot := 2, pos := [{ ch := 0, exts := [5], comps := [6] }], prep := 16384 })] } }).wr
    R.INT_SCRUB_CTL_EN 0 0 1
/-- Its first block pair holds zeros with their check bytes. -/
def zeros0 : State := { guarded0 with
  mem := (List.range 512).map (fun k => (memKey 0 (5 * extBytes + k), 0)) ++ (List.range 512).map fun k => (memKey 0 (6 * extBytes + k), 0) }
theorem zeros0_byte (a n : Nat) (hn : n < 512) (ha : a = 5 * extBytes ∨ a = 6 * extBytes) : zeros0.cellByte (memKey 0 (a + n)) = 0 := by
  have h : zeros0.memAt (memKey 0 (a + n)) = some 0 := by
    refine Tab.find_const (fun e he => ?_) ?_
    · rcases List.mem_append.1 he with he | he <;> (obtain ⟨k, -, rfl⟩ := List.mem_map.1 he; rfl)
    · rcases ha with rfl | rfl
      · exact ⟨_, List.mem_append_left _ (List.mem_map.2 ⟨n, List.mem_range.2 hn, rfl⟩), rfl⟩
      · exact ⟨_, List.mem_append_right _ (List.mem_map.2 ⟨n, List.mem_range.2 hn, rfl⟩), rfl⟩
  have hc : memKey 0 (a + n) / 2 ^ 34 = 0 := by rcases ha with rfl | rfl <;> (simp only [memKey, extBytes]; omega)
  have hr : ∀ b, (zeros0.chan 0).remapOf b = none := fun _ => rfl
  simp only [State.cellByte, hc, hr, State.memByte, h, Option.getD_some]
theorem witness_Errors_clean (n : Nat) (hn : n < 512) :
    (decodePair (zeros0.cellByte (memKey 0 (5 * extBytes + n))) (zeros0.cellByte (memKey 0 (6 * extBytes + n)))).1 = 0 := by
  rw [zeros0_byte _ n hn (.inl rfl), zeros0_byte _ n hn (.inr rfl)]; rfl
theorem witness_Errors_scrub : zeros0.rd R.INT_SCRUB_CTL_EN ≠ 0 ∧ zeros0.power.st = 0 ∧ zeros0.chPresent 0 = true ∧ zeros0.scrubs 0 = true ∧ (zeros0.chan 0).scrubDone = false ∧
    ((zeros0.scrubExts 0).find? fun x => decide ((zeros0.chan 0).scrubAt < (x + 1) * extBytes)) = some 5 ∧
    zeros0.scrubPair 0 (max (zeros0.chan 0).scrubAt (5 * extBytes)) = some (6 * extBytes, true) ∧
    zeros0.engineFree 0 15 0 = true ∧ (zeros0.chan 0).remap = [] := by decide +kernel
/-- Channel 0 has nothing left to scrub, channel 1 has. -/
def scrubbed : State := { run0.wr R.INT_SCRUB_CTL_EN 0 0 1 with chans := [(0, { svc := 5 }), (1, { svc := 5 })] }
theorem witness_Errors_wait : scrubbed.scrubs 0 = true ∧ ((scrubbed.scrubExts 0).find? fun x => decide ((scrubbed.chan 0).scrubAt < (x + 1) * extBytes)) = none ∧
    1 < scrubbed.C ∧ scrubbed.chPresent 0 = true ∧ scrubbed.chPresent 1 = true ∧ (scrubbed.chan 1).retired = false ∧ (scrubbed.chan 1).scrubDone = false ∧
    (scrubbed.chan 0).scrubDone = false := by decide +kernel
theorem witness_Errors_retired : (({ scrubbed with chans := [(0, { svc := 5, retired := true }), (1, { svc := 5 })] } : State).chan 0).retired = true := rfl
theorem witness_Errors_period : scrubbed.rd R.INT_SCRUB_CTL_EN ≠ 0 ∧ scrubbed.cclkRuns = true ∧ scrubbed.conf.isSome = true ∧
    scrubbed.integ.scrubWait = false ∧ scrubbed.integ.scrubLate = false ∧ ({ scrubbed with integ := { scrubWait := true } } : State).integ.scrubWait = true := by
  decide +kernel
/-- An uncorrectable detection, or a correctable one on a channel that installs a block, heads the queue. -/
def found (k : Nat) : State := { on with
  chans := [(0, { svc := 5, installing := [9] })], sm := { lanes := (List.range 256).map fun l => (2048 + l, 0) }
  integ := { queue := [{ kind := k, unit := 0 }], initDone := [(64, 1280)] } }
theorem witness_Errors_handle : (found 3).integ.queue = { kind := 3, unit := 0 } :: [] ∧ (found 3).cclkRuns = true ∧
    ((found 3).chan 0).installing.contains 0 = false ∧ (found 3).ringReady { kind := 3, unit := 0 } = true ∧ (found 3).ringUsed < 4096 ∧
    (found 3).rd R.INT_ERR_FIRST_VALID ≠ 1 ∧ ((found 1).chan 0).installing ≠ [] ∧
    ({ found 3 with integ := { queue := [{ kind := 3, unit := 0 }] } } : State).ringReady { kind := 3, unit := 0 } = false := ⟨rfl, by decide +kernel⟩
/-- Entry 63 of channel 0's table waits for its installation. -/
def installing0 : State := { run0 with chans := [(0, { svc := 5, installing := [9], remap := [(63, { block := 9 })] })] }
theorem witness_Errors_install : ((installing0.chan 0).remap.find? fun e => !e.2.valid && e.2.block == 9) = some (63, { block := 9 }) ∧
    (installing0.chan 0).removing = [] := by decide +kernel
theorem witness_Errors_cmd : run0.portOpen ∧ (run0.chan 0).remapped (bits (0x08000009#32).toNat 0 27) = false ∧ (installing0.chan 0).remapped (bits (9#32).toNat 0 27) = true ∧
    (run0.chan 0).remapFree.isSome = true ∧ (installing0.chan 0).remapOf (bits (9#32).toNat 0 27) = none := ⟨⟨rfl, rfl⟩, by decide +kernel⟩
/-- Entry 63 is valid. -/
def installed0 : State := { run0 with chans := [(0, { svc := 5, remap := [(63, { block := 9, valid := true, word := List.replicate 64 1#8 })] })] }
theorem witness_Errors_remove : (installed0.chan 0).remapOf (bits (9#32).toNat 0 27) = some 63 ∧ installed0.ownRoom 0 = true ∧ bits (9#32).toNat 0 27 ∉ (installed0.chan 0).removing ∧
    installed0.outOfService 0 = false ∧
    (Tab.get ({} : Remap) (installed0.chan 0).remap 63).word.length = 64 ∧
    ({ installed0.chan 0 with remap := Tab.erase 63 (installed0.chan 0).remap } : Chan).remapOf (bits (9#32).toNat 0 27) = none := by decide +kernel
theorem witness_Errors_cons : saved.portOpen ∧ (bits (1#32).toNat 0 13 + 8192 - saved.rd R.INT_RING_CONS_CONS) % 8192 ≤ saved.ringUsed ∧
    saved.ringUsed < (bits (2#32).toNat 0 13 + 8192 - saved.rd R.INT_RING_CONS_CONS) % 8192 := ⟨⟨rfl, rfl⟩, by decide +kernel⟩
theorem witness_RepairAndChecker : still0.portOpen ∧ bits (0x8000001F#32).toNat 0 5 < still0.C ∧
    (∀ k, k < 8 → (Tab.get ({} : Cand) (still0.chan (bits (0x8000001F#32).toNat 0 5)).cands k).st = 0) ∧ still0.integ.pprSt < 2 ∧ bits (0x100#32).toNat 16 1 = 0 :=
  ⟨⟨rfl, rfl⟩, by decide +kernel⟩
/-- Channel 0 is empty, quiesced and has a candidate. -/
def ailing : State := { on with chans := [(0, { svc := 5, quiesced := true, cands := [(7, { row := 5, st := 1 })] })] }
theorem witness_RepairAndChecker_go : ailing.portOpen ∧ ailing.integ.pprSt < 2 ∧ bits (0x10100#32).toNat 8 1 = 1 ∧ ailing.option (bits (0x10100#32).toNat 0 5) 4 = true ∧
    ailing.emptyCh 0 = true ∧ ailing.chQuiesced 0 = true ∧ (ailing.chan 0).pendingCands ≠ [] ∧ bits (0x10000#32).toNat 8 1 = 0 := ⟨⟨rfl, rfl⟩, by decide +kernel⟩
theorem witness_RepairAndChecker_row : ({ ailing with integ := { pprSt := 2 } } : State).integ.pprSt = 2 ∧ (ailing.chan 0).pendingCands = 7 :: [] := by decide +kernel
theorem witness_RepairAndChecker_rows : (({ ailing with chans := [(0, { cands := [(0, { row := 4, st := 1 }), (7, { row := 5, st := 1 })] })] } : State).chan 0).pendingCands = 0 :: [7] := by
  decide +kernel
theorem witness_RepairAndChecker_mode : on.portOpen ∧ on.quiet ∧ (∀ g e, (on.line g e).valid = false) := ⟨⟨rfl, rfl⟩, on_quiet, fun _ _ => rfl⟩
theorem witness_RepairAndChecker_mode2 : on.rd R.INT_CHECKER_MODE = 0 ∧ on.rd R.INT_CHECKER_BUSY = 0 ∧ bits (0x302#32).toNat 0 2 = 2 ∧
    (on.guardedRegions.any fun r => r.region == bits (0x302#32).toNat 8 6) = true ∧ on.permits 2 = true ∧
    ({ on with conf := some { cfg1 with permit := none } } : State).permits 2 = false := by decide +kernel
theorem witness_RepairAndChecker_flush : ({ on with integ := { checkBusy := true, checkNext := 2 } } : State).integ.checkBusy = true ∧
    (∀ g, g < 8 → ({ on with integ := { checkBusy := true, checkNext := 2 } } : State).invSettled g = true) := by decide +kernel

/-! ### Witnesses: power and reset -/

/-- Every wake source is enabled. -/
def wakeable : State := run0.wr R.PWR_WAKE_EN_EN 0 0 0x1F
theorem witness_Dusk_request : wakeable.portOpen ∧ bit (1#32).toNat 2 = false ∧ wakeable.anyAttached = false ∧ wakeable.rd R.PWR_WAKE_EN_EN ≠ 0 ∧ att.anyAttached = true :=
  ⟨⟨rfl, rfl⟩, by decide +kernel⟩
/-- The device is in power state `n`. -/
def inPower (p : Power) : State := { wakeable with power := p }
theorem witness_Dusk_stop : (inPower { st := 1, prepared := true }).power.aborting = false ∧ (inPower { st := 1, prepared := true }).duskReady = true ∧
    ({ inPower { st := 1, prepared := true } with chans := [(0, { svc := 5, pwr := 2 })] } : State).duskDrained = true := by decide +kernel
theorem witness_Dusk_wake : bit (inPower { st := 2 }).power.rails 0 = true ∧ (inPower { st := 2 }).anyPresent = false ∧
    (1 &&& 0x1D) &&& 0x17 &&& (inPower { st := 2 }).rd R.PWR_WAKE_EN_EN ≠ 0 ∧ (2 &&& 0x1D) &&& 0x17 &&& (inPower { st := 2 }).rd R.PWR_WAKE_EN_EN = 0 ∧
    (inPower { st := 1 }).power.duskChans = [] ∧ (16 &&& 0x1D) &&& 0x17 &&& (inPower { st := 1 }).rd R.PWR_WAKE_EN_EN ≠ 0 := by decide +kernel
theorem witness_Dusk_attach : ({ inPower { st := 2 } with ports := [(63, { present := true })] } : State).anyPresent = true ∧
    2 &&& 0x17 &&& (inPower { st := 2 }).rd R.PWR_WAKE_EN_EN ≠ 0 ∧ ((inPower { st := 2 }).wr R.PWR_TIMER_LOAD 0 0 5).rd R.PWR_TIMER_LOAD = 5 ∧
    (8 &&& 0x1D) &&& (inPower { st := 2 }).rd R.PWR_WAKE_EN_EN ≠ 0 := by decide +kernel
theorem witness_Dusk_timer : ((inPower { st := 2 }).wr R.PWR_TIMER_LOAD 0 0 5).rd R.PWR_TIMER_LOAD ≠ 0 ∧
    bit (((inPower { st := 2 }).wr R.PWR_TIMER_LOAD 0 0 5).rd R.PWR_WAKE_EN_EN) 3 = true := by decide +kernel
theorem witness_Dusk_run : (inPower { st := 3 }).power.st = 3 ∧ (inPower { st := 3 }).power.rails = 0x1F ∧ ((inPower { st := 3 }).power.domains.any (· < 12)) = false ∧
    (inPower { st := 3 }).power.duskChans = [] ∧ (inPower { st := 3 }).power.coreGone = false ∧ (inPower { st := 3 }).power.heldReg = none ∧
    (inPower { st := 3 }).conf.isSome = true := by decide +kernel
theorem witness_Resets_soft : on.portOpen ∧ bit (4#32).toNat 0 = false ∧ on.anyAttached = false ∧ on.loader.st = 0 ∧ att.portOpen ∧ att.anyAttached = true :=
  ⟨⟨rfl, rfl⟩, rfl, rfl, rfl, ⟨rfl, rfl⟩, rfl⟩
theorem witness_Resets_release : (∀ d ∈ [0, 10], (inPower { domains := [0, 10] }).mayRelease d = true ∧ (inPower { domains := [0, 10] }).power.domains.contains d = true) ∧
    (inPower { domains := [0, 11] }).mayRelease 11 = true := by decide +kernel
theorem witness_Resets_absent : ∀ r, r < 5 → bit on.power.rails r = true := by decide +kernel
theorem witness_Resets_bare : bit (inPower { rails := 0x1D }).power.rails 1 = false ∧ bit (inPower { rails := 0x1D }).power.rails 0 = true := by decide +kernel
theorem witness_Resets_dusk : (inPower { st := 2, evtDusk := true }).power.evtDusk = true ∧ on.power.evtDusk = false := by decide +kernel
theorem witness_Resets_good : ∀ r, r < 5 → bit (inPower { st := 4, rails := 0x1F - 2 ^ r }).power.rails r = false ∧
    (inPower { st := 4, rails := 0x1F - 2 ^ r }).power.st ≠ 3 ∧ (inPower { st := 0, rails := 0x1F - 2 ^ r }).power.st ≠ 4 := by decide +kernel
theorem witness_StepKeepsInvariant : State.reset.inv := ⟨rfl, Nat.zero_le 4⟩

/-! ### Worked figures of the spec -/

/-- The check value of CRC-32C over "123456789" (R70, 03_serrix_image.md). -/
theorem test_crc32c : crc32c [0x31, 0x32, 0x33, 0x34, 0x35, 0x36, 0x37, 0x38, 0x39] = 0xE3069283 := by decide +kernel
/-- The check value of the CRC of R223 over the same bytes (07_cirrus_format.md). -/
theorem test_crc16 : [0x31, 0x32, 0x33, 0x34, 0x35, 0x36, 0x37, 0x38, 0x39].foldl crc16Byte 0xFFFF = 0x29B1 := by decide +kernel
/-- R363 and the example of a partial write over damaged bytes (12_data_integrity.md). -/
theorem test_check_bytes : [0x00, 0xA5, 0xA4, 0x11, 0x5A].map checkByte = [0x00, 0x1C, 0x25, 0xE2, 0x7F] := by decide +kernel
/-- The same example: two flipped bits are corrected, a poisoned byte is lost. -/
theorem test_decode_pairs : decodePair 0xA4 0x1E = (1, 0xA5) ∧ decodePair 0 (poisonCheck 0) = (2, 0) := by decide +kernel
/-- R364 counts 136 correctable syndromes, and the clean one. -/
theorem test_syndromes : ((List.range 256).filter fun n => (patternOf n).isSome).length = 136 := by decide +kernel
/-- The linear granule of 10_channel_scheduler.md. -/
theorem test_map_address : mapAddr 16 0x620000 0 = { rank := 0, bank := 4, row := 196, col := 0 } := by decide +kernel
/-- A companion extent's swizzle puts the check atom eight banks away (R185, R311). -/
theorem test_map_companion : (mapAddr 16 0x620000 8).bank = 12 := by decide +kernel

/-- The reference picture of 06_surfaces_placement.md. -/
def picture : Surf := { width := 7680, height := 4320, format := 2, depth := 1, shape := 1, prot := 1 }
theorem test_picture_tile : picture.skew 32 0 = 7 ∧ picture.posOf 32 0 7 62 = 25 ∧ picture.ordinal 32 0 7 62 = 116 ∧ picture.text = 404 := by decide +kernel
theorem test_picture_room : picture.extsAt 32 25 = 2 ∧ picture.tileCount = 16200 ∧ picture.cellOff 116 11 = 623296 ∧ picture.hdrOff 116 11 = 0x1D2C := by
  decide +kernel

/-- Row `y` of the worked cell of 07_cirrus_format.md. -/
def rampRow (y : Nat) : List Nat := (List.range 32).map fun x => if x = 20 ∧ y = 4 then 900 else 300 + 4 * x
/-- The worked cell. -/
def rampCell : List Nat := (List.range 8).flatMap rampRow
/-- Its payload. -/
def rampBytes : List Byte :=
  [0x22, 0x22] ++ List.replicate 14 0 ++
  [0xFF, 0xFF, 0x4B, 0x31, 0x8C, 0x63, 0x18, 0xC6, 0x31, 0x8C, 0x63, 0x18, 0xC6, 0x31, 0x8C, 0x63] ++
  [0x18, 0xC6, 0x31, 0x8C, 0x63, 0x18, 0xC0] ++ List.replicate 9 0 ++
  [0x00, 0x00, 0x00, 0x00, 0x00, 0x7F, 0xFF, 0xF0, 0x9F, 0xFF, 0xEC, 0x00, 0x00, 0x00, 0x00, 0x1F] ++
  [0xFF, 0xEB, 0xE7, 0xF8] ++ List.replicate 28 0
set_option maxRecDepth 100000 in
theorem test_encode_ramp : (encodeCell 10 rampCell).2 = rampBytes ∧ (encodeCell 10 rampCell).1 % 65536 = 0x0043 := by decide +kernel
set_option maxRecDepth 100000 in
theorem test_decode_ramp : decodePred 10 rampBytes = .ok rampCell := by decide +kernel
set_option maxRecDepth 100000 in
theorem test_encode_constant : encodeCell 10 (List.replicate 256 64) = (0x00400020, []) := by decide +kernel

/-- The TICK record of Studio load A passes its checks (03_serrix_image.md). -/
theorem test_tick_record : tickBad [0x2A, 0xD2, 0x1F, 0x00, 0x39, 0xB6, 0xA9, 0x00, 0x90, 0xD0, 0x03, 0x00, 0x55, 0x58, 0x14, 0x00] = none := by decide +kernel

/-- Epoch 1001 of the missing tick of 02_zenith_epoch.md, LOCKED since cycle 2,085,418. -/
def epoch1001 : State := { State.reset with
  conf := some { cfg1 with tick := some { tclk := 2085418, cclk := 11122233, tclkKhz := 250000, cclkKhz := 1333333 } }
  tick := { st := 2, ref := 2085418, last := 2085418, lastReal := true, im := 2085418, ic := 11122233 } }
theorem test_missing_tick : (match exec (.flywheelTick 5213545) epoch1001 with
    | .next t => (t.tick.st, t.tick.ref, t.tickA) | _ => (9, 0, 0)) = (3, 5213545, 521354) := by decide +kernel
/-- The two glitches of epoch 1004 are runts, the third is accepted as a re-lock tick. -/
theorem test_third_runt : (match exec (.tickEdge 9375000 9) { epoch1001 with tick := { epoch1001.tick with ref := 8341672, last := 8341672, runts := 2 } } with
    | .next t => (t.tick.st, t.tick.runts) | _ => (9, 0)) = (1, 0) := by decide +kernel
theorem test_first_runt : (match exec (.tickEdge 8750000 9) { epoch1001 with tick := { epoch1001.tick with ref := 8341672, last := 8341672 } } with
    | .next t => (t.tick.st, t.tick.runts) | _ => (9, 0)) = (2, 1) := by decide +kernel

/-- The two-rate policer of 09_flows_qos.md at the end of unit 0. -/
def policed : Flow := { policy := 1, cir := 6144, pir := 9216, cbs := 65536, pbs := 262144, tc := 32768, tp := 229376 }
theorem test_policer_fill : ((policed.fill 1).tc, (policed.fill 1).tp) = (33152, 229952) := by decide +kernel
theorem test_policer_colours : (policed.colour 512 0).1 = 0 ∧ (({ policed with tc := 256 } : Flow).colour 512 0).1 = 1 ∧
    (({ policed with tc := 0, tp := 0 } : Flow).colour 512 0).1 = 2 := by decide +kernel

end Sys2Proof.Tests
end

section
/-! Reads and writes of absent units: the register port in Run, and what an access finds at an address all of whose fields belong to units that
the build does not have (R3), or at which no register stands (R445). -/

namespace Sys2Proof.Machine
open Sys2Proof

/-! ### Accesses in Run -/

/-- In Run, REGISTER_READ is the read of its address. -/
theorem exec_registerRead_open {s : State} (h : s.portOpen) (a tgt : Nat) : exec (.registerRead a tgt) s = .next (s.readAt a) :=
  congrArg Host.Outcome.next (State.access_open h _ _)

/-- In Run, REGISTER_WRITE is the write to its address. -/
theorem exec_registerWrite_open {s : State} (h : s.portOpen) (a : Nat) (w : Word) (tgt : Nat) :
    exec (.registerWrite a w tgt) s = .next (s.writeAt a w tgt) := by
  have hw : BitVec.ofNat 32 w.toNat = w := (BitVec.ofNat_toNat 32 w).trans (BitVec.setWidth_eq w)
  calc exec (.registerWrite a w tgt) s
      = .next (s.writeAt a (BitVec.ofNat 32 w.toNat) tgt) := congrArg Host.Outcome.next (State.regAccess_open h a w tgt _)
    _ = .next (s.writeAt a w tgt) := by rw [hw]

/-- Address bits [1:0] are ignored (R442). -/
@[simp] theorem slotsAt_align (a : Nat) : slotsAt (a / 4 * 4) = slotsAt a := by
  unfold slotsAt
  rw [Nat.mul_div_cancel _ (by decide : 0 < 4)]

/-! ### Fields of absent units -/

theorem State.readSlot_absent {s : State} {x : Slot} (h : x.f.present s.build x.i = false) : s.readSlot x = 0 :=
  if_pos h

/-- A read leaves a field of an absent unit, whatever its access. -/
theorem State.clearRc_absent {s : State} {x : Slot} (h : x.f.present s.build x.i = false) : s.clearRc x = s :=
  if_pos (.inr (.inl h))

theorem State.readWord_absent {s : State} {xs : List Slot} (h : ∀ x ∈ xs, x.f.present s.build x.i = false) : s.readWord xs = 0 := by
  unfold State.readWord
  refine List.sum_eq_zero fun v hv => ?_
  obtain ⟨x, hx, rfl⟩ := List.mem_map.mp hv
  rw [State.readSlot_absent (h x hx), Nat.zero_mul]

theorem State.foldl_clearRc_absent {s : State} {xs : List Slot} (h : ∀ x ∈ xs, x.f.present s.build x.i = false) :
    xs.foldl State.clearRc s = s := by
  induction xs with
  | nil => rfl
  | cons x xs ih =>
    obtain ⟨hx, hxs⟩ := List.forall_mem_cons.mp h
    rw [List.foldl_cons, State.clearRc_absent hx, ih hxs]

/-! ### Registers of absent units -/

/-- A read of a register without a present field shows 0 and clears nothing (R3, R445). -/
theorem State.readAt_absent {s : State} {a : Nat} (h : ∀ x ∈ slotsAt a, x.f.present s.build x.i = false) :
    s.readAt a = { s with rdata := 0 } := by
  unfold State.readAt
  simp only [State.readWord_absent h, State.foldl_clearRc_absent h]
  rfl

/-- A write to a register without a present field is dropped before any effect of the register, one with a row of its own included: its first
field, if it has one, decides (R3, R445). -/
theorem State.writeAt_absent {s : State} {a : Nat} (h : ∀ x ∈ slotsAt a, x.f.present s.build x.i = false) (w : Word) (tgt : Nat) :
    s.writeAt a w tgt = s := by
  unfold State.writeAt
  simp only [slotsAt_align]
  cases hs : slotsAt a with
  | nil => rfl
  | cons x xs =>
    have hx : x.f.present s.build x.i = false := h x (hs ▸ List.mem_cons_self)
    simp only [hx, if_true]

end Sys2Proof.Machine

open Sys2Proof Sys2Proof.Machine

/-- Settles O3: in Run an access is the read or the write of its address, and neither finds a present field there. -/
theorem absentUnitRegisters : Obligations.AbsentUnitRegisters := by
  unfold Obligations.AbsentUnitRegisters
  intro s a w tgt hopen habsent
  rw [exec_registerRead_open hopen, exec_registerWrite_open hopen, State.readAt_absent habsent, State.writeAt_absent habsent]
  exact ⟨rfl, rfl⟩

end

section
/-! Edges before the acceptance threshold: the runt of R38 and the re-lock tick of R39. Each has one lemma that says what state
it leaves, and one rule per reader of that state. -/

namespace Sys2Proof.Machine
open Sys2Proof

/-! ### Which register fields an update keeps -/

theorem State.regsKept_trans {s t u : State} {l m : List Slot} (h : s.regsKept t l) (k : t.regsKept u m) : s.regsKept u (l ++ m) :=
  fun f i j hne =>
    (k f i j fun x hx => hne x (List.mem_append_right l hx)).trans (h f i j fun x hx => hne x (List.mem_append_left m hx))

theorem State.setBit_regsKept (s : State) (f : Fld) (i j : Nat) : s.regsKept (s.setBit f i j) [⟨f, i, j⟩] :=
  fun _ _ _ hne => Tab.get_insert_ne (hne ⟨f, i, j⟩ List.mem_cons_self).symm _ _ _

theorem State.bump_regsKept (s : State) (f : Fld) (i j n : Nat) : s.regsKept (s.bump f i j n) [⟨f, i, j⟩] :=
  fun _ _ _ hne => Tab.get_insert_ne (hne ⟨f, i, j⟩ List.mem_cons_self).symm _ _ _

/-! ### Raising an event -/

/-- A source just raised is pending at its own bit. -/
theorem State.raise_bit_pending (s : State) (g n : Nat) : bit ((s.raise g n).evt g).pending n = true := by
  rw [State.raise_evt_pending, bit_or, bit_two_pow]
  simp

@[simp] theorem State.raiseTick_rd_self (s : State) (f : Fld) (n : Nat) : (s.raiseTick f n).rd f = 1 % 2 ^ f.width :=
  State.setBit_rd_self s f 0 0

theorem State.raiseTick_rd_ne (s : State) {f h : Fld} (hne : h.ix ≠ f.ix) (n u w : Nat) : (s.raiseTick f n).rd h u w = s.rd h u w :=
  State.setBit_rd_ne s hne 0 0 u w

theorem State.raiseTick_bit_pending (s : State) (f : Fld) (n : Nat) : bit ((s.raiseTick f n).evt 0).pending n = true :=
  State.raise_bit_pending _ 0 n

theorem State.raiseTick_regsKept (s : State) (f : Fld) (n : Nat) : s.regsKept (s.raiseTick f n) [⟨f, 0, 0⟩] :=
  State.setBit_regsKept s f 0 0

/-! ### Wake edges -/

/-- A disabled wake source latches nothing (R401). -/
theorem State.latchMask_disabled {s : State} {src : Nat} (h : s.wakeEn src = false) (n : Nat) : s.latchMask (2 ^ src) n = s := by
  have hmask : 2 ^ src &&& s.rd R.PWR_WAKE_EN_EN = 0 := by
    rw [Nat.two_pow_and, ← bit_eq_testBit, show bit (s.rd R.PWR_WAKE_EN_EN) src = false from h]
    rfl
  unfold State.latchMask
  simp [hmask]

/-- No edge is latched in Run, nor on the way into Dusk from a disabled source (R399, R401). -/
theorem State.latchWake_none {s : State} {src : Nat} (hst : s.power.st < 2) (h : s.power.st = 0 ∨ s.wakeEn src = false) : s.latchWake src = s := by
  unfold State.latchWake
  rcases h with hrun | hoff
  · simp [hrun]
  · rw [State.latchMask_disabled hoff, if_neg (by omega : ¬ s.power.st = 2), ite_self]

/-! ### The edge at the tick unit -/

theorem State.power_lt_of_tclkRuns {s : State} (h : s.tclkRuns = true) : s.power.st < 2 := by
  unfold State.tclkRuns at h
  rw [Bool.and_eq_true, decide_eq_true_eq] at h
  exact h.1

/-- With Squall locked the edge reaches a working tick unit in its own cycle. -/
theorem State.edgeSeen_locked {s : State} (hrun : s.tclkRuns = true) (hlock : s.squall.unlocked = false) (t width : Nat) :
    s.edgeSeen t width = s.edge t width := by
  simp [State.edgeSeen, hrun, hlock]

/-- TICK_EDGE leaves the state that the tick unit's judgement of the edge leaves, where the edge wakes nothing. -/
theorem exec_tickEdge_of_edge {s u : State} {t width : Nat} (hrun : s.tclkRuns = true) (hwake : s.power.st = 0 ∨ s.wakeEn 0 = false)
    (hlock : s.squall.unlocked = false) (hedge : s.edge t width = u) (hpower : u.power = s.power)
    (hen : u.rd R.PWR_WAKE_EN_EN = s.rd R.PWR_WAKE_EN_EN) : exec (.tickEdge t width) s = .next u := by
  have hidle : u.latchWake 0 = u := by
    apply State.latchWake_none
    · rw [hpower]
      exact State.power_lt_of_tclkRuns hrun
    · rw [hpower, show u.wakeEn 0 = s.wakeEn 0 from congrArg (bit · 0) hen]
      exact hwake
  calc exec (.tickEdge t width) s
      = .next ((s.edgeSeen t width).latchWake 0) := rfl
    _ = .next u := by rw [State.edgeSeen_locked hrun hlock, hedge, hidle]

/-- An edge before the acceptance threshold is a runt or, third in a row, a re-lock tick (R38, R39). -/
theorem State.edge_early {s : State} {t width : Nat} (hwidth : 2 ≤ width) (hst : s.tick.st ≠ 0)
    (hfirst : ¬ (s.tick.st = 1 ∧ s.tick.first = true)) (hearly : t < s.tick.ref + s.tickA) :
    s.edge t width = if s.tick.runts = 2 then s.realTick t true else s.runt := by
  unfold State.edge
  rw [if_neg (Nat.not_lt.mpr hwidth), if_neg hst, if_neg hfirst, if_neg (Nat.not_le.mpr hearly)]

/-! ### The runt (R38) -/

theorem State.runt_eq (s : State) :
    s.runt = { s with tick := s.runt.tick, regs := s.runt.regs, bitsNow := s.runt.bitsNow, evts := s.runt.evts, meas := s.runt.meas } := rfl

theorem State.runt_tick (s : State) : s.runt.tick = { s.tick with runts := s.tick.runts + 1 } := rfl

theorem State.runt_bit_pending (s : State) : bit (s.runt.evt 0).pending 1 = true :=
  State.raiseTick_bit_pending _ R.TICK_STATUS_RUNT 1

theorem State.runt_regsKept (s : State) : s.regsKept s.runt [⟨R.TICK_STATUS_RUNT, 0, 0⟩, ⟨R.TICK_RUNT_CNT_COUNT, 0, 0⟩] :=
  State.regsKept_trans (State.raiseTick_regsKept { s with tick := s.runt.tick } R.TICK_STATUS_RUNT 1)
    (State.bump_regsKept _ R.TICK_RUNT_CNT_COUNT 0 0 1)

theorem State.runt_rd_status (s : State) : s.runt.rd R.TICK_STATUS_RUNT = 1 := by
  unfold State.runt
  rw [State.count_rd, State.bump_rd_ne _ (by decide), State.raiseTick_rd_self]
  rfl

theorem State.runt_rd_count (s : State) : s.runt.rd R.TICK_RUNT_CNT_COUNT = satAdd 16 (s.rd R.TICK_RUNT_CNT_COUNT) 1 := by
  unfold State.runt
  rw [State.count_rd, State.bump_rd_self, State.raiseTick_rd_ne _ (by decide)]
  rfl

theorem State.runt_rd_ne (s : State) {f : Fld} (hstatus : f.ix ≠ R.TICK_STATUS_RUNT.ix) (hcount : f.ix ≠ R.TICK_RUNT_CNT_COUNT.ix) (i j : Nat) :
    s.runt.rd f i j = s.rd f i j := by
  apply State.runt_regsKept
  simp [Fld.key_ne hstatus.symm, Fld.key_ne hcount.symm]

/-! ### Changes of I_c -/

/-- What noting a changed I_c can change: the traffic unit, by a run-time capacity test that starts (R302). -/
theorem State.noteIc_cases (s : State) :
    ∃ tr : Traffic, s.noteIc = { s with traffic := tr } ∧ s.onlyTest { s with traffic := tr } := by
  unfold State.noteIc State.testInput
  split
  · split
    · exact ⟨_, rfl, rfl⟩
    · exact ⟨_, rfl, rfl⟩
  · exact ⟨s.traffic, rfl, rfl⟩

/-! ### The re-lock tick (R39) -/

/-- An interval as long as the nominal one lies in the band of R41. -/
theorem inBand_self (nom : Nat) : inBand nom nom = true := by
  simp only [inBand, decide_eq_true_eq]
  omega

/-- A nominal I_m is no anomaly (R41). -/
theorem State.tickAnomaly_nominal {s : State} (h : s.tick.im = s.nomTclk) : s.tickAnomaly = false := by
  simp [State.tickAnomaly, h, inBand_self]

/-- Right after an accepted real tick the tick is not lost (R43). -/
theorem State.tickLost_of_flys_zero {s : State} (h : s.tick.flys = 0) : s.tickLost = false := by
  simp [State.tickLost, h]

/-- TICK_ANOMALY and TICK_LOST are not raised where neither condition holds. -/
theorem State.tickConditions_calm {s : State} (hanomaly : s.tickAnomaly = false) (hlost : s.tickLost = false) (s0 : State) :
    s.tickConditions s0 = s := by
  simp [State.tickConditions, hanomaly, hlost]

/-- The tick unit after a re-lock tick in tclk cycle `t`. No interval that has been measured is averaged any more, nor one whose strobe is on its way to
cclk (log entry 106). -/
def State.relockTick (s : State) (t : Nat) : TickUnit :=
  { s.tick with
    st := 1, ref := t, last := t, first := false, lastReal := false, im := s.nomTclk, ic := s.nomCclk, imList := [], icList := [], inTol := 0
    runts := 0, flys := 0, epochOut := some (t + 2)
    strobes := (s.tick.strobes ++ [Strobe.mk false]).map fun _ => Strobe.mk false }

theorem State.relockTick_strobes (s : State) (t : Nat) :
    (s.relockTick t).strobes = (s.tick.strobes.map fun _ => Strobe.mk false) ++ [Strobe.mk false] := List.map_append

/-- A re-lock tick sets the tick unit, notes the change of I_c and raises TICK_RELOCK; I_m is nominal and no flywheel tick has come since, so that no
condition rises. -/
theorem State.realTick_relock (s : State) (t : Nat) :
    s.realTick t true = ({ s with tick := s.relockTick t } : State).noteIc.raiseTick R.TICK_STATUS_RELOCK 2 := by
  obtain ⟨tr, hnote, -⟩ := State.noteIc_cases { s with tick := s.relockTick t }
  have hreal : s.realTick t true = (({ s with tick := s.relockTick t } : State).noteIc.raiseTick R.TICK_STATUS_RELOCK 2).tickConditions s := by
    simp only [State.realTick, Bool.not_true, Bool.and_false, Bool.false_eq_true, if_false, if_true]
    rfl
  rw [hreal, hnote]
  exact State.tickConditions_calm (State.tickAnomaly_nominal rfl) (State.tickLost_of_flys_zero rfl) s

end Sys2Proof.Machine

open Sys2Proof Sys2Proof.Machine

/-- Settles O7: the edge is judged a runt, and a runt changes the count of runts, its event and its counters only. -/
theorem runtIgnored : Obligations.RuntIgnored := by
  unfold Obligations.RuntIgnored
  intro s t width hrun hwake hlock hwidth hst hfirst hearly hrunts
  have hedge : s.edge t width = s.runt := (State.edge_early hwidth hst hfirst hearly).trans (if_neg hrunts)
  have hexec := exec_tickEdge_of_edge hrun hwake hlock hedge rfl (s.runt_rd_ne (by decide) (by decide) 0 0)
  exact ⟨s.runt, hexec, s.runt_tick, s.runt_rd_status, s.runt_bit_pending, s.runt_rd_count, s.runt_eq, s.runt_regsKept⟩

/-- Settles O8: the third runt is accepted as the re-lock tick, whose state `State.realTick_relock` gives. -/
theorem relockTick : Obligations.RelockTick := by
  unfold Obligations.RelockTick
  intro s t width hrun hwake hlock hwidth hst hfirst hearly hrunts
  obtain ⟨tr, hnote, htest⟩ := State.noteIc_cases { s with tick := s.relockTick t }
  have hedge : s.edge t width = ({ s with tick := s.relockTick t, traffic := tr } : State).raiseTick R.TICK_STATUS_RELOCK 2 := by
    rw [State.edge_early hwidth hst hfirst hearly, if_pos hrunts, State.realTick_relock, hnote]
  have hkeep {f : Fld} (hne : f.ix ≠ R.TICK_STATUS_RELOCK.ix) :
      (({ s with tick := s.relockTick t, traffic := tr } : State).raiseTick R.TICK_STATUS_RELOCK 2).rd f = s.rd f :=
    State.raiseTick_rd_ne _ hne 2 0 0
  refine ⟨_, exec_tickEdge_of_edge hrun hwake hlock hedge rfl (hkeep (by decide)), rfl, rfl, rfl, rfl, rfl, s.relockTick_strobes t, rfl, rfl, ?_⟩
  refine ⟨State.raiseTick_rd_self _ _ 2, State.raiseTick_bit_pending _ _ 2, hkeep (by decide), hkeep (by decide), htest, rfl,
    State.raiseTick_regsKept _ _ 2⟩

end

section
/-! The refused register write (R451). A refusal is noted, with its event, status bit and counter, and then captured unless an earlier capture
stands; each part has one rule per reader. -/

namespace Sys2Proof.Machine
open Sys2Proof

/-! ### The two parts of a refusal -/

/-- What every refusal of a write by target `tgt` does, before the capture (R451). -/
def State.busyNoted (s : State) (tgt : Nat) : State :=
  (((s.raisePriv tgt 1).count { ev := 0x008 }).setBit R.GLB_STATUS_CFG_BUSY 0 0).bump R.GLB_BUSY_CNT_COUNT 0 0 1

/-- The capture of a refused write to address `a` by target `tgt` in GLB_BUSY_FIRST. -/
def State.busyCaptured (s : State) (a tgt : Nat) : State :=
  ((s.wr R.GLB_BUSY_FIRST_ADDR 0 0 (a / 4 * 4)).wr R.GLB_BUSY_FIRST_TARGET 0 0 (tgt % 8)).wr R.GLB_BUSY_FIRST_VALID 0 0 1

theorem State.busyNoted_rd_ne (s : State) (tgt : Nat) {f : Fld} (hstatus : f.ix ≠ R.GLB_STATUS_CFG_BUSY.ix)
    (hcount : f.ix ≠ R.GLB_BUSY_CNT_COUNT.ix) (i j : Nat) : (s.busyNoted tgt).rd f i j = s.rd f i j := by
  unfold State.busyNoted
  rw [State.bump_rd_ne _ hcount, State.setBit_rd_ne _ hstatus, State.count_rd, State.raisePriv_rd]

theorem State.busyNoted_rd_count (s : State) (tgt : Nat) :
    (s.busyNoted tgt).rd R.GLB_BUSY_CNT_COUNT = satAdd 16 (s.rd R.GLB_BUSY_CNT_COUNT) 1 := by
  unfold State.busyNoted
  rw [State.bump_rd_self, State.setBit_rd_ne _ (by decide), State.count_rd, State.raisePriv_rd]
  rfl

theorem State.busyNoted_bit_pending (s : State) (tgt : Nat) : bit ((s.busyNoted tgt).evt (24 + tgt % 8)).pending 1 = true :=
  State.raise_bit_pending s (24 + tgt % 8) 1

theorem State.busyNoted_regsKept (s : State) (tgt : Nat) :
    s.regsKept (s.busyNoted tgt) [⟨R.GLB_STATUS_CFG_BUSY, 0, 0⟩, ⟨R.GLB_BUSY_CNT_COUNT, 0, 0⟩] :=
  State.regsKept_trans (State.setBit_regsKept ((s.raisePriv tgt 1).count { ev := 0x008 }) R.GLB_STATUS_CFG_BUSY 0 0)
    (State.bump_regsKept _ R.GLB_BUSY_CNT_COUNT 0 0 1)

theorem State.wr_regsKept (s : State) (f : Fld) (i j v : Nat) : s.regsKept (s.wr f i j v) [⟨f, i, j⟩] :=
  fun _ _ _ hne => Tab.get_insert_ne (hne ⟨f, i, j⟩ List.mem_cons_self).symm _ _ _

/-- The capture holds every address of the register space, aligned to its word. -/
theorem State.busyCaptured_rd_addr (s : State) {a : Nat} (ha : a < 2 ^ 21) (tgt : Nat) :
    (s.busyCaptured a tgt).rd R.GLB_BUSY_FIRST_ADDR = a / 4 * 4 := by
  unfold State.busyCaptured
  rw [State.wr_rd_ne _ (by decide), State.wr_rd_ne _ (by decide), State.wr_rd_self]
  exact Nat.mod_eq_of_lt ((Nat.div_mul_le_self a 4).trans_lt ha)

theorem State.busyCaptured_rd_target (s : State) (a tgt : Nat) : (s.busyCaptured a tgt).rd R.GLB_BUSY_FIRST_TARGET = tgt % 8 := by
  unfold State.busyCaptured
  rw [State.wr_rd_ne _ (by decide), State.wr_rd_self]
  exact Nat.mod_mod tgt 8

theorem State.busyCaptured_rd_valid (s : State) (a tgt : Nat) : (s.busyCaptured a tgt).rd R.GLB_BUSY_FIRST_VALID = 1 :=
  State.wr_rd_self _ R.GLB_BUSY_FIRST_VALID 0 0 1

theorem State.busyCaptured_regsKept (s : State) (a tgt : Nat) : s.regsKept (s.busyCaptured a tgt)
    [⟨R.GLB_BUSY_FIRST_ADDR, 0, 0⟩, ⟨R.GLB_BUSY_FIRST_TARGET, 0, 0⟩, ⟨R.GLB_BUSY_FIRST_VALID, 0, 0⟩] :=
  State.regsKept_trans (State.regsKept_trans (State.wr_regsKept s _ 0 0 _) (State.wr_regsKept _ _ 0 0 _)) (State.wr_regsKept _ _ 0 0 _)

/-! ### The refusal as a whole -/

/-- With a capture in place, a refusal is noted only. -/
theorem State.cfgBusy_later {s : State} (hvalid : s.rd R.GLB_BUSY_FIRST_VALID = 1) (a tgt : Nat) : s.cfgBusy a tgt = s.busyNoted tgt :=
  if_pos ((s.busyNoted_rd_ne tgt (by decide) (by decide) 0 0).trans hvalid)

/-- The first refusal after BUSY_REARM is noted and captured. -/
theorem State.cfgBusy_first {s : State} (hvalid : s.rd R.GLB_BUSY_FIRST_VALID ≠ 1) (a tgt : Nat) :
    s.cfgBusy a tgt = (s.busyNoted tgt).busyCaptured a tgt :=
  if_neg fun hnoted => hvalid ((s.busyNoted_rd_ne tgt (by decide) (by decide) 0 0).symm.trans hnoted)

theorem State.cfgBusy_bit_pending (s : State) (a tgt : Nat) : bit ((s.cfgBusy a tgt).evt (24 + tgt % 8)).pending 1 = true := by
  by_cases hvalid : s.rd R.GLB_BUSY_FIRST_VALID = 1
  · rw [State.cfgBusy_later hvalid]
    exact s.busyNoted_bit_pending tgt
  · rw [State.cfgBusy_first hvalid]
    exact s.busyNoted_bit_pending tgt

theorem State.cfgBusy_rd_count (s : State) (a tgt : Nat) :
    (s.cfgBusy a tgt).rd R.GLB_BUSY_CNT_COUNT = satAdd 16 (s.rd R.GLB_BUSY_CNT_COUNT) 1 := by
  by_cases hvalid : s.rd R.GLB_BUSY_FIRST_VALID = 1
  · rw [State.cfgBusy_later hvalid, State.busyNoted_rd_count]
  · rw [State.cfgBusy_first hvalid, State.busyCaptured_regsKept _ a tgt _ 0 0 (by decide), State.busyNoted_rd_count]

/-- A refusal changes no register field but those of R451. -/
theorem State.cfgBusy_regsKept (s : State) (a tgt : Nat) : s.regsKept (s.cfgBusy a tgt) busySlots := by
  by_cases hvalid : s.rd R.GLB_BUSY_FIRST_VALID = 1
  · rw [State.cfgBusy_later hvalid]
    exact fun f i j hne => s.busyNoted_regsKept tgt f i j fun x hx => hne x (List.mem_append_left _ hx)
  · rw [State.cfgBusy_first hvalid]
    exact State.regsKept_trans (s.busyNoted_regsKept tgt) (State.busyCaptured_regsKept _ a tgt)

/-! ### GO on a busy mailbox (R455) -/

theorem State.writeMbxCtl_busy {s : State} {m w : Nat} (hm : m < 8) (hgo : bit w 0 = true) (hbusy : s.mbxBusy m = true) (tgt : Nat) :
    s.writeMbxCtl m w tgt = s.cfgBusy (mbxAddr m 4) tgt := by
  unfold State.writeMbxCtl
  rw [if_neg (by simp [hgo, hm]), if_pos hbusy]

/-- In Run, MBX_GO writes MBX_CTL with its GO bit set. -/
theorem exec_mbxGo_open {s : State} (h : s.portOpen) (m : Nat) (w : Word) (tgt : Nat) :
    exec (.mbxGo m w tgt) s = .next (s.writeMbxCtl m (w ||| 1).toNat tgt) :=
  congrArg Host.Outcome.next (State.regAccess_open h (mbxAddr m 4) (w ||| 1) tgt _)

theorem bit_toNat_or_one (w : Word) : bit (w ||| 1).toNat 0 = true := by
  rw [BitVec.toNat_or, bit_or, Bool.or_eq_true]
  exact Or.inr rfl

end Sys2Proof.Machine

open Sys2Proof Sys2Proof.Machine

/-- Settles O6: a refusal is noted, and captured only where no capture stands; MBX_GO on a busy mailbox is refused. -/
theorem refusedWrite : Obligations.RefusedWrite := by
  unfold Obligations.RefusedWrite
  refine ⟨fun s a tgt ha => ⟨s.cfgBusy_bit_pending a tgt, s.cfgBusy_bit a tgt, s.cfgBusy_rd_count a tgt, fun hfirst => ?_, fun hlater => ?_,
    s.cfgBusy_eq a tgt, s.cfgBusy_regsKept a tgt⟩, fun s m w tgt hopen hm hbusy => ?_⟩
  · rw [State.cfgBusy_first hfirst]
    exact ⟨State.busyCaptured_rd_valid _ a tgt, State.busyCaptured_rd_addr _ ha tgt, State.busyCaptured_rd_target _ a tgt⟩
  · have hkeep {f : Fld} := s.busyNoted_rd_ne tgt (f := f)
    rw [State.cfgBusy_later hlater]
    exact ⟨(hkeep (by decide) (by decide) 0 0).trans hlater, hkeep (by decide) (by decide) 0 0, hkeep (by decide) (by decide) 0 0⟩
  · rw [exec_mbxGo_open hopen, State.writeMbxCtl_busy hm (bit_toNat_or_one w) hbusy]

end

section
/-! What every step keeps. `State.keeps s₀ t` says it of a state `t` that a command reaches on its way from `s₀`; each function of the model has one
lemma that says that it keeps it, which `simp` uses for the functions that call it. An update that `keeps` does not see is an `↔`; one of the DRAM
contents or of the device state, and whatever makes one, is an implication. `State.keepsToo` adds what most functions keep as well. -/

namespace Sys2Proof.Machine
open Sys2Proof

/-- `t` has what a step keeps of `s₀`: the build, the level of the authentication input, the commands that wait, and, where `s₀` has them, canonical
DRAM contents and a device state that R390 names. -/
def State.keepsBase (s₀ t : State) : Prop :=
  t.build = s₀.build ∧ t.authReq = s₀.authReq ∧ t.pending = s₀.pending ∧ (s₀.memOk → t.memOk) ∧ (s₀.legalPower → t.legalPower)

/-- `t` stands in the cycle of `s₀`: with the same count, tick unit and gates, and the same writes waiting for the end of the cycle and for the tick. -/
def State.sameTime (s₀ t : State) : Prop :=
  t.cclk = s₀.cclk ∧ t.pend = s₀.pend ∧ t.now = s₀.now ∧ t.tick = s₀.tick ∧ t.gates = s₀.gates

/-- `t` has the image in force of `s₀` and its loader. -/
def State.sameImage (s₀ t : State) : Prop := t.loader = s₀.loader ∧ t.conf = s₀.conf

/-- `t` has what a step keeps of `s₀`, its time where `tm` says so and its image where `im` does. -/
def State.keepsToo (tm im : Bool) (s₀ t : State) : Prop := s₀.keepsBase t ∧ (tm = true → s₀.sameTime t) ∧ (im = true → s₀.sameImage t)

/-- `t` has what a step keeps of `s₀`. -/
abbrev State.keeps (s₀ t : State) : Prop := s₀.keepsToo false false t

variable {tm im : Bool}

/-- A state built from another by replacing fields that `keepsToo` does not read. -/
@[simp] theorem State.keepsToo_mk (s₀ x : State) {v3 v6 v7 v13 v14 v15 v16 v17 v18 v19 v20 v21 v22 v23 v24 v25 v26 v27 v28 v29 v30 v31 v33 v34 v36 v37
    v38 v39 v40 v41 v42} :
    s₀.keepsToo tm im ⟨x.build, x.cclk, v3, x.pend, x.now, v6, v7, x.tick, x.gates, x.loader, x.authReq, x.conf, v13, v14, v15, v16, v17, v18, v19,
      v20, v21, v22, v23, v24, v25, v26, v27, v28, v29, v30, v31, x.mem, v33, v34, x.power, v36, v37, v38, v39, v40, v41, v42, x.pending⟩ ↔
      s₀.keepsToo tm im x := Iff.rfl

/-- So does one with another image and loader, where only the time is asked for. -/
@[simp] theorem State.keepsToo_mk_image (s₀ x : State) {v3 v6 v7 v10 v12 v13 v14 v15 v16 v17 v18 v19 v20 v21 v22 v23 v24 v25 v26 v27 v28 v29 v30 v31 v33
    v34 v36 v37 v38 v39 v40 v41 v42} :
    s₀.keepsToo tm false ⟨x.build, x.cclk, v3, x.pend, x.now, v6, v7, x.tick, x.gates, v10, x.authReq, v12, v13, v14, v15, v16, v17, v18, v19,
      v20, v21, v22, v23, v24, v25, v26, v27, v28, v29, v30, v31, x.mem, v33, v34, x.power, v36, v37, v38, v39, v40, v41, v42, x.pending⟩ ↔
      s₀.keepsToo tm false x :=
  and_congr Iff.rfl (and_congr Iff.rfl (by simp))

/-- A state built from another by replacing fields that `keeps` does not read. -/
@[simp] theorem State.keeps_mk (s₀ x : State) {v2 v3 v4 v5 v6 v7 v8 v9 v10 v12 v13 v14 v15 v16 v17 v18 v19 v20 v21 v22 v23 v24 v25 v26 v27 v28 v29 v30
    v31 v33 v34 v36 v37 v38 v39 v40 v41 v42} :
    s₀.keeps ⟨x.build, v2, v3, v4, v5, v6, v7, v8, v9, v10, x.authReq, v12, v13, v14, v15, v16, v17, v18, v19, v20, v21, v22, v23, v24, v25, v26, v27,
      v28, v29, v30, v31, x.mem, v33, v34, x.power, v36, v37, v38, v39, v40, v41, v42, x.pending⟩ ↔ s₀.keeps x :=
  and_congr Iff.rfl (by simp)

/-- So does one whose power controller keeps the device state. -/
@[simp] theorem State.keepsToo_mk_power (s₀ x : State) {p : Power} (hp : p.st = x.power.st) {v3 v6 v7 v13 v14 v15 v16 v17 v18 v19 v20 v21 v22 v23 v24 v25 v26
    v27 v28 v29 v30 v31 v33 v34 v36 v37 v38 v39 v40 v41 v42} :
    s₀.keepsToo tm im ⟨x.build, x.cclk, v3, x.pend, x.now, v6, v7, x.tick, x.gates, x.loader, x.authReq, x.conf, v13, v14, v15, v16, v17, v18, v19,
      v20, v21, v22, v23, v24, v25, v26, v27, v28, v29, v30, v31, x.mem, v33, v34, p, v36, v37, v38, v39, v40, v41, v42, x.pending⟩ ↔
      s₀.keepsToo tm im x :=
  and_congr (by simp only [State.keepsBase, State.memOk, State.legalPower, hp]) Iff.rfl

@[simp] theorem State.keeps_mk_power (s₀ x : State) {p : Power} (hp : p.st = x.power.st) {v2 v3 v4 v5 v6 v7 v8 v9 v10 v12 v13 v14 v15 v16 v17 v18 v19 v20
    v21 v22 v23 v24 v25 v26 v27 v28 v29 v30 v31 v33 v34 v36 v37 v38 v39 v40 v41 v42} :
    s₀.keeps ⟨x.build, v2, v3, v4, v5, v6, v7, v8, v9, v10, x.authReq, v12, v13, v14, v15, v16, v17, v18, v19, v20, v21, v22, v23, v24, v25, v26, v27,
      v28, v29, v30, v31, x.mem, v33, v34, p, v36, v37, v38, v39, v40, v41, v42, x.pending⟩ ↔ s₀.keeps x :=
  and_congr (by simp only [State.keepsBase, State.memOk, State.legalPower, hp]) (by simp)

/-- One that keeps less than the whole still has what a step keeps. -/
theorem State.keepsToo.keeps {s₀ t : State} (h : s₀.keepsToo tm im t) : s₀.keeps t := ⟨h.1, nofun, nofun⟩

theorem State.keepsToo_refl (s : State) : s.keepsToo tm im s :=
  ⟨⟨rfl, rfl, rfl, id, id⟩, fun _ => ⟨rfl, rfl, rfl, rfl, rfl⟩, fun _ => ⟨rfl, rfl⟩⟩

@[simp] theorem State.keeps_ite (s₀ : State) (c : Prop) [Decidable c] (x y : State) :
    s₀.keepsToo tm im (if c then x else y) ↔ if c then s₀.keepsToo tm im x else s₀.keepsToo tm im y := by
  split <;> rfl

@[simp] theorem State.keeps_fst_ite {β : Type} (s₀ : State) (c : Prop) [Decidable c] (x y : State × β) :
    s₀.keepsToo tm im (if c then x else y).1 ↔ if c then s₀.keepsToo tm im x.1 else s₀.keepsToo tm im y.1 := by
  split <;> rfl

@[simp] theorem State.keeps_snd_ite {β : Type} (s₀ : State) (c : Prop) [Decidable c] (x y : β × State) :
    s₀.keepsToo tm im (if c then x else y).2 ↔ if c then s₀.keepsToo tm im x.2 else s₀.keepsToo tm im y.2 := by
  split <;> rfl

@[simp] theorem State.keeps_foldl {α : Type} {s₀ : State} {g : State → α → State} (hg : ∀ s a, s₀.keepsToo tm im (g s a) ↔
    s₀.keepsToo tm im s) (l : List α) (s : State) :
    s₀.keepsToo tm im (l.foldl g s) ↔ s₀.keepsToo tm im s := by
  induction l generalizing s with
  | nil => rfl
  | cons a l ih => rw [List.foldl_cons, ih, hg]

@[simp] theorem State.keeps_foldl_of {α : Type} {s₀ : State} {g : State → α → State} (hg : ∀ s a, s₀.keepsToo tm im s → s₀.keepsToo tm im (g s a)) (l : List α) {s :
    State}
    (h : s₀.keepsToo tm im s) : s₀.keepsToo tm im (l.foldl g s) :=
  foldl_keeps (s₀.keepsToo tm im) g hg l s h

/-- An update of the DRAM contents that keeps them canonical. -/
theorem State.keeps.of_mem {s₀ s t : State} (h : s₀.keepsToo tm im s)
    (hsame : t.build = s.build ∧ t.authReq = s.authReq ∧ t.pending = s.pending ∧ t.power = s.power) (htime : s.sameTime t) (himage : s.sameImage t)
    (hmem : s.memOk → t.memOk) : s₀.keepsToo tm im t := by
  obtain ⟨⟨hb, ha, hq, hm, hp⟩, hck, him⟩ := h
  obtain ⟨eb, ea, eq, ep⟩ := hsame
  refine ⟨⟨eb.trans hb, ea.trans ha, eq.trans hq, hmem ∘ hm, fun h => by rw [State.legalPower, ep]; exact hp h⟩, fun h => ?_, fun h => ?_⟩
  · obtain ⟨h1, h2, h3, h4, h5⟩ := hck h
    obtain ⟨e1, e2, e3, e4, e5⟩ := htime
    exact ⟨e1.trans h1, e2.trans h2, e3.trans h3, e4.trans h4, e5.trans h5⟩
  · obtain ⟨h1, h2⟩ := him h
    obtain ⟨e1, e2⟩ := himage
    exact ⟨e1.trans h1, e2.trans h2⟩

/-- A new device state that R390 names. -/
theorem State.keeps_power {s₀ s : State} (h : s₀.keepsToo tm im s) {p : Power} (hp : s₀.legalPower → p.st ≤ 4) :
    s₀.keepsToo tm im { s with power := p } := by
  obtain ⟨⟨hb, ha, hq, hm, -⟩, htime, himage⟩ := h
  exact ⟨⟨hb, ha, hq, hm, hp⟩, htime, himage⟩

/-- A state that another takes the place of, where there is one. -/
theorem State.keeps_getD {s₀ t : State} {o : Option State} (ho : ∀ u, o = some u → s₀.keepsToo tm im u) (ht : s₀.keepsToo tm im t) :
    s₀.keepsToo tm im (o.getD t) := by
  cases o with
  | none => exact ht
  | some u => exact ho u rfl

/-- A step taken on a condition. -/
theorem State.keeps_ite_left {s₀ s t : State} {c : Prop} [Decidable c] (hstep : s₀.keepsToo tm im s → s₀.keepsToo tm im t) (h : s₀.keepsToo tm im s) :
    s₀.keepsToo tm im (if c then t else s) := by
  split
  · exact hstep h
  · exact h

/-- A step taken where a condition fails. -/
theorem State.keeps_ite_right {s₀ s t : State} {c : Prop} [Decidable c] (hstep : s₀.keepsToo tm im s → s₀.keepsToo tm im t) (h : s₀.keepsToo tm im s) :
    s₀.keepsToo tm im (if c then s else t) := by
  split
  · exact h
  · exact hstep h

/-- A choice of two states. -/
theorem State.keeps_ite_of {s₀ s t : State} {c : Prop} [Decidable c] (hs : s₀.keepsToo tm im s) (ht : s₀.keepsToo tm im t) :
    s₀.keepsToo tm im (if c then s else t) := by
  split
  · exact hs
  · exact ht

/-- The outcome is a next state that has what a step keeps of `s₀`. -/
def Ends (s₀ : State) (o : Host.Outcome State Fault Refusal) : Prop := ∃ t, o = .next t ∧ s₀.keeps t

@[simp] theorem ends_next (s₀ t : State) : Ends s₀ (.next t) ↔ s₀.keeps t := by
  constructor
  · rintro ⟨u, hu, hkeeps⟩
    cases hu
    exact hkeeps
  · exact fun hkeeps => ⟨t, rfl, hkeeps⟩

@[simp] theorem ends_ite (s₀ : State) (c : Prop) [Decidable c] (x y : Host.Outcome State Fault Refusal) :
    Ends s₀ (if c then x else y) ↔ if c then Ends s₀ x else Ends s₀ y := by
  split <;> rfl

/-! ### Registers -/

@[simp] theorem State.wr_keeps {s₀ : State} (s : State) (f : Fld) (i j v : Nat) :
    s₀.keepsToo tm im (s.wr f i j v) ↔ s₀.keepsToo tm im s := by simp [State.wr]

@[simp] theorem State.setBit_keeps {s₀ : State} (s : State) (f : Fld) (i j : Nat) :
    s₀.keepsToo tm im (s.setBit f i j) ↔ s₀.keepsToo tm im s := by simp [State.setBit]

@[simp] theorem State.bump_keeps {s₀ : State} (s : State) (f : Fld) (i j n : Nat) :
    s₀.keepsToo tm im (s.bump f i j n) ↔ s₀.keepsToo tm im s := by simp [State.bump]

@[simp] theorem State.resetRegs_keeps {s₀ : State} (s : State) (keep : Fld → Bool) : s₀.keepsToo tm im (s.resetRegs keep) ↔ s₀.keepsToo tm im s := by
  simp [State.resetRegs]

/-! ### Ops -/

@[simp] theorem State.setPort_keeps {s₀ : State} (s : State) (p : Nat) (x : Port) :
    s₀.keepsToo tm im (s.setPort p x) ↔ s₀.keepsToo tm im s := by simp [State.setPort]

@[simp] theorem State.setGroup_keeps {s₀ : State} (s : State) (g : Nat) (x : Group) : s₀.keepsToo tm im (s.setGroup g x) ↔ s₀.keepsToo tm im s := by
  simp [State.setGroup]

@[simp] theorem State.setChan_keeps {s₀ : State} (s : State) (ch : Nat) (x : Chan) :
    s₀.keepsToo tm im (s.setChan ch x) ↔ s₀.keepsToo tm im s := by simp [State.setChan]

@[simp] theorem State.setGate_keeps {s₀ : State} (s : State) (d : Nat) (x : Gate) : s₀.keeps (s.setGate d x) ↔ s₀.keeps s := by simp [State.setGate]

@[simp] theorem State.setEvt_keeps {s₀ : State} (s : State) (g : Nat) (x : EvtGrp) :
    s₀.keepsToo tm im (s.setEvt g x) ↔ s₀.keepsToo tm im s := by simp [State.setEvt]

@[simp] theorem State.setSurf_keeps {s₀ : State} (s : State) (i : Nat) (x : Surf) :
    s₀.keepsToo tm im (s.setSurf i x) ↔ s₀.keepsToo tm im s := by simp [State.setSurf]

@[simp] theorem State.setLine_keeps {s₀ : State} (s : State) (g e : Nat) (x : Line) : s₀.keepsToo tm im (s.setLine g e x) ↔ s₀.keepsToo tm im s := by
  simp [State.setLine]

@[simp] theorem State.fresh_keeps {s₀ : State} (s : State) : s₀.keepsToo tm im s.fresh.2 ↔ s₀.keepsToo tm im s := by simp [State.fresh]

@[simp] theorem State.count_keeps {s₀ : State} (s : State) (o : Occ) : s₀.keepsToo tm im (s.count o) ↔ s₀.keepsToo tm im s := by simp [State.count]

@[simp] theorem State.raise_keeps {s₀ : State} (s : State) (g n : Nat) :
    s₀.keepsToo tm im (s.raise g n) ↔ s₀.keepsToo tm im s := by simp [State.raise]

@[simp] theorem State.raisePriv_keeps {s₀ : State} (s : State) (t n : Nat) :
    s₀.keepsToo tm im (s.raisePriv t n) ↔ s₀.keepsToo tm im s := by simp [State.raisePriv]

@[simp] theorem State.raisePort_keeps {s₀ : State} (s : State) (p : Nat) :
    s₀.keepsToo tm im (s.raisePort p) ↔ s₀.keepsToo tm im s := by simp [State.raisePort]

@[simp] theorem State.raiseChan_keeps {s₀ : State} (s : State) (base ch : Nat) : s₀.keepsToo tm im (s.raiseChan base ch) ↔ s₀.keepsToo tm im s := by
  simp [State.raiseChan]

@[simp] theorem State.raisePrivChan_keeps {s₀ : State} (s : State) (t n ch : Nat) :
    s₀.keepsToo tm im (s.raisePrivChan t n ch) ↔ s₀.keepsToo tm im s := by
  simp [State.raisePrivChan]

@[simp] theorem State.cfgBusy_keeps {s₀ : State} (s : State) (a tgt : Nat) : s₀.keepsToo tm im (s.cfgBusy a tgt) ↔ s₀.keepsToo tm im s := by
    simp [State.cfgBusy]

@[simp] theorem State.busyIf_keeps {s₀ : State} (s : State) (b : Bool) (a tgt : Nat) : s₀.keepsToo tm im (s.busyIf b a tgt) ↔
    s₀.keepsToo tm im s := by
  simp [State.busyIf]

@[simp] theorem State.pendTick_keeps {s₀ : State} (s : State) (k v : Nat) : s₀.keeps (s.pendTick k v) ↔ s₀.keeps s := by simp [State.pendTick]

@[simp] theorem State.newCycle_keeps {s₀ : State} (s : State) : s₀.keeps s.newCycle ↔ s₀.keeps s := by simp [State.newCycle]

@[simp] theorem State.squallLock_keeps {s₀ : State} (s : State) : s₀.keepsToo tm im s.squallLock ↔ s₀.keepsToo tm im s := by simp [State.squallLock]

@[simp] theorem State.retryDue_keeps {s₀ : State} (s : State) (f : PoolRec → Bool) : s₀.keepsToo tm im (s.retryDue f) ↔ s₀.keepsToo tm im s := by
  unfold State.retryDue
  repeat' split
  all_goals simp

/-! ### Seq -/

@[simp] theorem State.loseContents_keeps {s₀ s : State} (h : s₀.keepsToo tm im s) (ch : Nat) : s₀.keepsToo tm im (s.loseContents ch) :=
  State.keeps.of_mem h ⟨rfl, rfl, rfl, rfl⟩ ⟨rfl, rfl, rfl, rfl, rfl⟩ ⟨rfl, rfl⟩ (State.loseContents_ok ch)

@[simp] theorem State.loadRank_keeps {s₀ : State} (s : State) (ch : Nat) (vals : List Int) (r : Nat) :
    s₀.keepsToo tm im (s.loadRank ch vals r) ↔ s₀.keepsToo tm im s := by simp [State.loadRank]

@[simp] theorem State.loadTrained_keeps {s₀ : State} (s : State) (ch : Nat) : s₀.keepsToo tm im (s.loadTrained ch) ↔ s₀.keepsToo tm im s := by
    simp [State.loadTrained]

@[simp] theorem State.seqEnd_keeps {s₀ : State} (s : State) (ch : Nat) : s₀.keepsToo tm im (s.seqEnd ch) ↔ s₀.keepsToo tm im s := by
    simp [State.seqEnd]

@[simp] theorem State.holdChclk_keeps {s₀ : State} (s : State) (chs : List Nat) : s₀.keepsToo tm im (s.holdChclk chs) ↔
    s₀.keepsToo tm im s := by simp [State.holdChclk]

@[simp] theorem State.freeChclk_keeps {s₀ : State} (s : State) (ch : Nat) : s₀.keepsToo tm im (s.freeChclk ch) ↔ s₀.keepsToo tm im s := by
    simp [State.freeChclk]

@[simp] theorem State.testInput_keeps {s₀ : State} (s : State) : s₀.keepsToo tm im s.testInput ↔ s₀.keepsToo tm im s := by simp [State.testInput]

@[simp] theorem State.startSeq_keeps {s₀ s : State} (h : s₀.keepsToo tm im s) (ch kind : Nat) (tgt : Option Nat) (full : Bool) :
    s₀.keepsToo tm im (s.startSeq ch kind tgt full) := by simp [State.startSeq, h]

@[simp] theorem State.endFlush_keeps {s₀ : State} (s : State) : s₀.keepsToo tm im s.endFlush ↔ s₀.keepsToo tm im s := by simp [State.endFlush]

@[simp] theorem State.abortDusk_keeps {s₀ s : State} (h : s₀.keepsToo tm im s) : s₀.keepsToo tm im s.abortDusk := by
  unfold State.abortDusk
  refine State.keeps_power ?_ fun _ => ?_; swap
  · dsimp only
    split <;> decide
  exact State.keeps_foldl_of (fun _ ch hs => State.startSeq_keeps hs ch 3 none false) _ (by simp [h])

@[simp] theorem State.startWake_keeps {s₀ s : State} (h : s₀.keepsToo tm im s) : s₀.keepsToo tm im s.startWake := by
  unfold State.startWake
  split
  · exact h
  · split
    · simp [h]
    · exact State.keeps_foldl_of (fun _ ch hs => State.startSeq_keeps hs ch 3 none false) _ (by simp [h])

@[simp] theorem State.latchMask_keeps {s₀ s : State} (h : s₀.keepsToo tm im s) (m n : Nat) : s₀.keepsToo tm im (s.latchMask m n) := by
  unfold State.latchMask
  simp only []
  split
  · exact h
  · split
    · split
      · simp [h]
      · exact State.abortDusk_keeps (by simp [h])
    · split
      · exact State.startWake_keeps (State.keeps_power (by simp [h]) fun _ => (by decide : 3 ≤ 4))
      · exact h

@[simp] theorem State.latchWake_keeps {s₀ s : State} (h : s₀.keepsToo tm im s) (src : Nat) : s₀.keepsToo tm im (s.latchWake src) := by
    simp [State.latchWake, h]

@[simp] theorem State.imgEnd_keeps {s₀ : State} (s : State) (e : ImgErr) :
    s₀.keepsToo tm false (s.imgEnd e) ↔ s₀.keepsToo tm false s := by simp [State.imgEnd]

@[simp] theorem State.putTiming_keeps {s₀ : State} (s : State) (t : TimRec) :
    s₀.keepsToo tm im (s.putTiming t) ↔ s₀.keepsToo tm im s := by simp [State.putTiming]

@[simp] theorem State.takeChanImage_keeps {s₀ : State} (s : State) (ch : Nat) :
    s₀.keepsToo tm false (s.takeChanImage ch).1 ↔ s₀.keepsToo tm false s := by
  unfold State.takeChanImage
  repeat' split
  all_goals simp

@[simp] theorem State.applyChanImage_keeps {s₀ s : State} (h : s₀.keeps s) (ch : Nat) : s₀.keeps (s.applyChanImage ch) := by
  simp [State.applyChanImage, h]

@[simp] theorem State.resumeChanImage_keeps {s₀ : State} (s : State) (ch : Nat) : s₀.keeps (s.resumeChanImage ch) ↔ s₀.keeps s := by
  simp [State.resumeChanImage]

/-! ### Gates -/

@[simp] theorem State.raiseGate_keeps {s₀ : State} (s : State) (f : Fld) (d : Nat) : s₀.keepsToo tm im (s.raiseGate f d) ↔ s₀.keepsToo tm im s := by
  simp [State.raiseGate]

@[simp] theorem State.armTest_keeps {s₀ : State} (s : State) (d : Nat) : s₀.keeps (s.armTest d) ↔ s₀.keeps s := by simp [State.armTest]

@[simp] theorem State.unraiseLate_keeps {s₀ : State} (s : State) (d : Nat) : s₀.keepsToo tm im (s.unraiseLate d) ↔ s₀.keepsToo tm im s := by
  unfold State.unraiseLate
  repeat' split
  all_goals simp

@[simp] theorem State.noteGate_keeps {s₀ : State} (s : State) (d : Nat) : s₀.keeps (s.noteGate d) ↔ s₀.keeps s := by simp [State.noteGate]

@[simp] theorem State.shadowCtl_keeps {s₀ : State} (s : State) (d w : Nat) : s₀.keeps (s.shadowCtl d w).1 ↔ s₀.keeps s := by simp [State.shadowCtl]

@[simp] theorem State.actEpochWrite_keeps {s₀ : State} (s : State) (d w : Nat) : s₀.keeps (s.actEpochWrite d w).1 ↔ s₀.keeps s := by
  simp [State.actEpochWrite]

@[simp] theorem State.shadowEntWrite_keeps {s₀ : State} (s : State) (d n w : Nat) (mask : Bool) :
    s₀.keeps (s.shadowEntWrite d n w mask).1 ↔ s₀.keeps s := by simp [State.shadowEntWrite]

/-! ### Detect -/

@[simp] theorem State.detect_keeps {s₀ : State} (s : State) (d : Det) : s₀.keepsToo tm im (s.detect d) ↔ s₀.keepsToo tm im s := by simp [State.detect]

/-! ### RegOps -/

@[simp] theorem applySlot_keeps {s₀ : State} (s0 : State) (w : Nat) (sb : State × Bool) (x : Slot) :
    s₀.keeps (applySlot s0 w sb x).1 ↔ s₀.keeps sb.1 := by
  obtain ⟨r, n, h⟩ := applySlot_eq s0 w sb x
  simp [h]

@[simp] theorem applySlots_keeps {s₀ : State} (s0 : State) (w : Nat) (xs : List Slot) : s₀.keeps (applySlots s0 w xs).1 ↔ s₀.keeps s0 := by
  obtain ⟨r, n, h⟩ := applySlots_eq s0 w xs
  simp [h]

/-- The actions of a write keep what each of them keeps. -/
@[simp] theorem runActs_keeps {s₀ : State} {w : Nat} {acts : List (Nat × Act)} {sb : State × Bool}
    (hacts : ∀ e ∈ acts, ∀ s, s₀.keeps s → s₀.keeps (e.2 s).1) (h : s₀.keeps sb.1) : s₀.keeps (runActs w acts sb).1 := by
  unfold runActs
  induction acts generalizing sb with
  | nil => exact h
  | cons e l ih =>
    obtain ⟨he, hl⟩ := List.forall_mem_cons.mp hacts
    refine ih hl ?_
    dsimp only
    split
    · exact he _ h
    · exact h

@[simp] theorem State.writeReg_keeps {s₀ s : State} (xs : List Slot) {acts : List (Nat × Act)} (a w tgt : Nat)
    (hacts : ∀ e ∈ acts, ∀ s, s₀.keeps s → s₀.keeps (e.2 s).1) (h : s₀.keeps s) : s₀.keeps (s.writeReg xs acts a w tgt) := by
  simp [State.writeReg, runActs_keeps hacts, h]

@[simp] theorem State.access_keeps {s₀ s : State} (hold : Bool × Nat × Word × Nat) {k : State → State}
    (hk : ∀ s, s₀.keepsToo tm im s → s₀.keepsToo tm im (k s)) (h : s₀.keepsToo tm im s) : s₀.keepsToo tm im (s.access hold k) := by
  have hlatch : s₀.keepsToo tm im (s.latchWake 2) := State.latchWake_keeps h 2
  have hheld (p : Option (Bool × Nat × Word × Nat)) : s₀.keepsToo tm im { s with power := { s.power with heldReg := p } } := by simp [h]
  unfold State.access
  simp only []
  repeat' split
  · exact h
  · exact hk _ h
  · exact hk _ h
  · exact hk _ hlatch
  · exact h
  · exact hheld _
  · exact State.latchWake_keeps (hheld _) 2
  · simp [h]
  · simp [h]

@[simp] theorem State.regAccess_keeps {s₀ s : State} (a : Nat) (w : Word) (tgt : Nat) {k : Nat → State → State}
    (hk : ∀ n s, s₀.keepsToo tm im s → s₀.keepsToo tm im (k n s)) (h : s₀.keepsToo tm im s) : s₀.keepsToo tm im (s.regAccess a w tgt k) :=
  State.access_keeps _ (hk w.toNat) h

/-! ### Time -/

@[simp] theorem State.shapeAll_keeps {s₀ : State} (s : State) (n : Nat) :
    s₀.keepsToo tm im (s.shapeAll n) ↔ s₀.keepsToo tm im s := by simp [State.shapeAll]

@[simp] theorem State.countSub_keeps {s₀ : State} (s : State) (n : Nat) (u : SubReq) : s₀.keepsToo tm im (s.countSub n u) ↔ s₀.keepsToo tm im s := by
  simp [State.countSub]

@[simp] theorem State.countGroup_keeps {s₀ : State} (s : State) (n g : Nat) : s₀.keepsToo tm im (s.countGroup n g) ↔ s₀.keepsToo tm im s := by
  unfold State.countGroup
  simp only [State.count_keeps]
  rw [State.keeps_foldl]
  · simp
  · intro s i
    split
    · rfl
    · simp

@[simp] theorem State.countChan_keeps {s₀ : State} (s : State) (n ch : Nat) : s₀.keepsToo tm im (s.countChan n ch) ↔ s₀.keepsToo tm im s := by
  unfold State.countChan
  dsimp only
  repeat' split
  all_goals simp

@[simp] theorem State.countCycles_keeps {s₀ : State} (s : State) (n : Nat) :
    s₀.keepsToo tm im (s.countCycles n) ↔ s₀.keepsToo tm im s := by simp [State.countCycles]

@[simp] theorem State.watchLinks_keeps {s₀ : State} (s : State) (n : Nat) :
    s₀.keepsToo tm im (s.watchLinks n) ↔ s₀.keepsToo tm im s := by simp [State.watchLinks]

@[simp] theorem State.runCycles_keeps {s₀ : State} (s : State) (n : Nat) :
    s₀.keepsToo tm im (s.runCycles n) ↔ s₀.keepsToo tm im s := by simp [State.runCycles]

/-! ### FrontEnd -/

@[simp] theorem State.stamp_keeps {s₀ : State} (s : State) (tg : Option Nat) (k : Nat) : s₀.keepsToo tm im (s.stamp tg k) ↔ s₀.keepsToo tm im s := by
  unfold State.stamp
  repeat' split
  all_goals simp

@[simp] theorem State.modTrail_keeps {s₀ : State} (s : State) (tg : Option Nat) (f : Trail → Trail) :
    s₀.keepsToo tm im (s.modTrail tg f) ↔ s₀.keepsToo tm im s := by
  unfold State.modTrail
  repeat' split
  all_goals simp

@[simp] theorem State.setFlow_keeps {s₀ : State} (s : State) (f : Nat) (x : Flow) :
    s₀.keepsToo tm im (s.setFlow f x) ↔ s₀.keepsToo tm im s := by simp [State.setFlow]

@[simp] theorem State.notePend_keeps {s₀ : State} (s : State) (f : Nat) :
    s₀.keepsToo tm im (s.notePend f) ↔ s₀.keepsToo tm im s := by simp [State.notePend]

@[simp] theorem State.settle_keeps {s₀ : State} (s : State) (id : Option Nat) : s₀.keepsToo tm im (s.settle id) ↔ s₀.keepsToo tm im s := by
  unfold State.settle
  repeat' split
  all_goals simp

@[simp] theorem State.passEntry_keeps {s₀ : State} (s : State) (ch : Nat) (p : Piece) (x : Chan) : s₀.keepsToo tm im (s.passEntry ch p x) ↔
    s₀.keepsToo tm im s := by
  simp [State.passEntry]

/-! ### Sched -/

@[simp] theorem State.beginMaint_keeps {s₀ : State} (s : State) (ch ck : Nat) : s₀.keepsToo tm im (s.beginMaint ch ck) ↔ s₀.keepsToo tm im s := by
  unfold State.beginMaint
  repeat' split
  all_goals simp

@[simp] theorem State.debtMax_keeps {s₀ : State} (s : State) (ch r : Nat) :
    s₀.keepsToo tm im (s.debtMax ch r) ↔ s₀.keepsToo tm im s := by simp [State.debtMax]

@[simp] theorem State.oscResult_keeps {s₀ : State} (s : State) (ch r : Nat) : s₀.keepsToo tm im (s.oscResult ch r) ↔ s₀.keepsToo tm im s := by
    simp [State.oscResult]

@[simp] theorem State.rateRead_keeps {s₀ : State} (s : State) (ch r code : Nat) : s₀.keepsToo tm im (s.rateRead ch r code) ↔ s₀.keepsToo tm im s := by
  simp [State.rateRead]

@[simp] theorem State.issueCol_keeps {s₀ : State} (s : State) (ch ck : Nat) (e : CEnt) : s₀.keepsToo tm im (s.issueCol ch ck e) ↔
    s₀.keepsToo tm im s := by
  unfold State.issueCol
  repeat' split
  all_goals simp

@[simp] theorem State.issue_keeps {s₀ s : State} (h : s₀.keepsToo tm im s) (ch ck : Nat) (c : DCmd) (mr : MrrData) :
    s₀.keepsToo tm im (s.issue ch ck c mr) := by
  unfold State.issue
  dsimp only
  repeat' split
  all_goals simp [h]

@[simp] theorem State.countSlots_keeps {s₀ : State} (s : State) (ch row n : Nat) : s₀.keepsToo tm im (s.countSlots ch row n) ↔
    s₀.keepsToo tm im s := by
  simp [State.countSlots]

@[simp] theorem State.accountSlots_keeps {s₀ : State} (s : State) (ch ck : Nat) : s₀.keepsToo tm im (s.accountSlots ch ck) ↔ s₀.keepsToo tm im s := by
  simp [State.accountSlots]

@[simp] theorem State.countChclk_keeps {s₀ : State} (s : State) (ch ck : Nat) : s₀.keepsToo tm im (s.countChclk ch ck) ↔ s₀.keepsToo tm im s := by
  unfold State.countChclk
  dsimp only
  repeat' split
  all_goals simp

@[simp] theorem State.endRetire_keeps {s₀ : State} (s : State) (ch : Nat) : s₀.keepsToo tm im (s.endRetire ch) ↔ s₀.keepsToo tm im s := by
    simp [State.endRetire]

@[simp] theorem execDramCommandIssue_keeps {s₀ s : State} (h : s₀.keeps s) (ch ck : Nat) (mr : MrrData) :
    Ends s₀ (execDramCommandIssue ch ck mr s) := by
  unfold execDramCommandIssue
  extract_lets s₁ d _ s₂ s₃ s₄
  have h₂ : s₀.keeps s₂ := by simp [s₂, s₁, h]
  have h₃ : s₀.keeps s₃ := by unfold s₃; split <;> simp [h₂]
  have h₄ : s₀.keeps s₄ := (State.beginMaint_keeps s₃ ch ck).mpr h₃
  split
  · exact (ends_next s₀ s₄).mpr h₄
  · next c _ =>
    extract_lets r s₅ s₆
    have h₅ : s₀.keeps s₅ := by unfold s₅; split <;> simp [h₄]
    have h₆ : s₀.keeps s₆ := State.issue_keeps h₅ ch ck c mr
    simp [h₆]

@[simp] theorem execRefreshAccrual_keeps {s₀ s : State} (h : s₀.keeps s) (ch r _ck : Nat) : Ends s₀ (execRefreshAccrual ch r _ck s) := by
  simp [execRefreshAccrual, h]

@[simp] theorem execMr4ReadDue_keeps {s₀ s : State} (h : s₀.keeps s) (ch r : Nat) : Ends s₀ (execMr4ReadDue ch r s) := by simp [execMr4ReadDue, h]

@[simp] theorem execOscDue_keeps {s₀ s : State} (h : s₀.keeps s) (ch : Nat) : Ends s₀ (execOscDue ch s) := by simp [execOscDue, h]

@[simp] theorem execPowerDownEntry_keeps {s₀ s : State} (h : s₀.keeps s) (ch r ck : Nat) : Ends s₀ (execPowerDownEntry ch r ck s) := by
  simp [execPowerDownEntry, h]

@[simp] theorem execChQuiesced_keeps {s₀ s : State} (h : s₀.keeps s) (ch : Nat) : Ends s₀ (execChQuiesced ch s) := by simp [execChQuiesced, h]

@[simp] theorem State.unquiesce_keeps {s₀ : State} (s : State) (ch : Nat) :
    s₀.keepsToo tm im (s.unquiesce ch) ↔ s₀.keepsToo tm im s := by simp [State.unquiesce]

@[simp] theorem State.writeChCtl_keeps {s₀ s : State} (h : s₀.keeps s) (ch w tgt : Nat) : s₀.keeps (s.writeChCtl ch w tgt) := by
  simp [State.writeChCtl, h]

@[simp] theorem execChannelHold_keeps {s₀ s : State} (h : s₀.keeps s) (ch : Nat) (w : Word) (tgt : Nat) : Ends s₀ (execChannelHold ch w tgt s) := by
  simp +contextual [execChannelHold, h]

@[simp] theorem execChHoldClear_keeps {s₀ s : State} (h : s₀.keeps s) (ch : Nat) (w : Word) (tgt : Nat) : Ends s₀ (execChHoldClear ch w tgt s) := by
  simp +contextual [execChHoldClear, h]

/-! ### Phy -/

@[simp] theorem State.phyFail_keeps {s₀ s : State} (h : s₀.keepsToo tm im s) (ch step rank cause b : Nat) :
    s₀.keepsToo tm im (s.phyFail ch step rank cause b) := by
  simp [State.phyFail, h]

@[simp] theorem State.raiseSeq_keeps {s₀ : State} (s : State) (f : Fld) (n ch : Nat) (tgt : Option Nat) :
    s₀.keepsToo tm im (s.raiseSeq f n ch tgt) ↔ s₀.keepsToo tm im s := by
  unfold State.raiseSeq
  repeat' split
  all_goals simp

@[simp] theorem State.retain_keeps {s₀ : State} (s : State) (ch : Nat) : s₀.keepsToo tm im (s.retain ch) ↔ s₀.keepsToo tm im s := by
  unfold State.retain
  repeat' split
  all_goals simp

@[simp] theorem State.setTrained_keeps {s₀ : State} (s : State) (ch r k v : Nat) : s₀.keepsToo tm im (s.setTrained ch r k v) ↔
    s₀.keepsToo tm im s := by
  simp [State.setTrained]

@[simp] theorem State.setWidth_keeps {s₀ : State} (s : State) (ch r b w n : Nat) : s₀.keepsToo tm im (s.setWidth ch r b w n) ↔
    s₀.keepsToo tm im s := by
  simp [State.setWidth]

@[simp] theorem State.placeStep_keeps {s₀ s : State} (h : s₀.keepsToo tm im s) (ch step : Nat) (wins : List (Nat × Nat)) (codes : List Nat) :
    s₀.keepsToo tm im (s.placeStep ch step wins codes) := by simp [State.placeStep, h]

@[simp] theorem State.moveDelay_keeps {s₀ : State} (s : State) (f : Fld) (ch j : Nat) (n : Int) : s₀.keepsToo tm im (s.moveDelay f ch j n) ↔
    s₀.keepsToo tm im s := by
  simp [State.moveDelay]

@[simp] theorem State.applyDrift_keeps {s₀ : State} (s : State) (ch r : Nat) (w o : Int) (eye : Tab Int) :
    s₀.keepsToo tm im (s.applyDrift ch r w o eye) ↔ s₀.keepsToo tm im s := by simp [State.applyDrift]

@[simp] theorem State.oscBase_keeps {s₀ : State} (s : State) (ch r oi oo : Nat) : s₀.keepsToo tm im (s.oscBase ch r oi oo) ↔ s₀.keepsToo tm im s := by
  simp [State.oscBase]

@[simp] theorem State.oscCompare_keeps {s₀ : State} (s : State) (ch r oi oo : Nat) : s₀.keepsToo tm im (s.oscCompare ch r oi oo) ↔
    s₀.keepsToo tm im s := by
  simp [State.oscCompare]

@[simp] theorem State.pprEnd_keeps {s₀ : State} (s : State) (ch : Nat) : s₀.keepsToo tm im (s.pprEnd ch) ↔ s₀.keepsToo tm im s := by
  unfold State.pprEnd
  dsimp only
  repeat' split
  all_goals simp

@[simp] theorem State.dawnPower_keeps {s₀ s : State} (h : s₀.keepsToo tm im s) (ch : Nat) : s₀.keepsToo tm im (s.dawnPower ch) := by
  unfold State.dawnPower
  simp only []
  split
  · exact State.keeps_power h fun _ => (by decide : 0 ≤ 4)
  · simp [h]

@[simp] theorem State.goOut_keeps {s₀ s : State} (h : s₀.keeps s) (ch : Nat) : s₀.keeps (s.goOut ch) := by simp [State.goOut, h]

@[simp] theorem State.lostContents_keeps {s₀ : State} (s : State) (ch : Nat) : s₀.keepsToo tm im (s.lostContents ch) ↔ s₀.keepsToo tm im s := by
  simp [State.lostContents]

@[simp] theorem State.enter_keeps {s₀ s : State} (h : s₀.keeps s) (ch : Nat) : s₀.keeps (s.enter ch) := by simp [State.enter, h]

@[simp] theorem State.loadDie_keeps {s₀ : State} (s : State) (ch r : Nat) (d : DieId) : s₀.keepsToo tm im (s.loadDie ch r d) ↔
    s₀.keepsToo tm im s := by
  simp [State.loadDie]

@[simp] theorem State.seeDie_keeps {s₀ : State} (s : State) (ch r : Nat) (d : DieId) : s₀.keepsToo tm im (s.seeDie ch r d) ↔ s₀.keepsToo tm im s := by
  simp [State.seeDie]

@[simp] theorem State.stepPassed_keeps {s₀ s : State} (h : s₀.keeps s) (ch : Nat) : s₀.keeps (s.stepPassed ch) := by
  unfold State.stepPassed
  dsimp only
  repeat' split
  all_goals simp [h]

@[simp] theorem State.identified_keeps {s₀ s : State} (h : s₀.keeps s) (ch : Nat) (r0 r1 : DieId) : s₀.keeps (s.identified ch r0 r1) := by
  unfold State.identified
  split
  · exact h
  · simp only []
    split
    · split
      · exact State.applyChanImage_keeps (by simp [h]) ch
      · exact State.dawnPower_keeps (State.goOut_keeps (by simp [h]) ch) ch
    · exact State.stepPassed_keeps (by simp [h]) ch

@[simp] theorem State.measured_keeps {s₀ s : State} (h : s₀.keeps s) (ch i0 o0 i1 o1 : Nat) : s₀.keeps (s.measured ch i0 o0 i1 o1) := by
  simp [State.measured, h]

@[simp] theorem State.stepFailed_keeps {s₀ s : State} (h : s₀.keeps s) (ch rank cause b : Nat) : s₀.keeps (s.stepFailed ch rank cause b) := by
  have hfail (u : Nat) (t : Option Nat) : s₀.keeps ((s.phyFail ch u rank cause b).raiseSeq R.PHY_STATUS_TRAIN_FAIL 5 ch t) := by simp [h]
  unfold State.stepFailed
  simp only []
  repeat' split
  · exact State.applyChanImage_keeps h ch
  · simp [h]
  · exact State.applyChanImage_keeps (hfail _ _) ch
  · exact State.dawnPower_keeps (State.goOut_keeps (hfail _ _) ch) ch
  · exact State.startSeq_keeps (hfail _ _) ch 4 none false

@[simp] theorem State.trainedStep_keeps {s₀ s : State} (h : s₀.keeps s) (ch : Nat) (wins : List (Nat × Nat)) (codes : List Nat) :
    s₀.keeps (s.trainedStep ch wins codes) := by
  unfold State.trainedStep
  dsimp only
  repeat' split
  all_goals simp [h]

@[simp] theorem execDawnStepDone_keeps {s₀ s : State} (h : s₀.keeps s) (ch us : Nat) (out : DawnOut) : Ends s₀ (execDawnStepDone ch us out s) := by
  unfold execDawnStepDone
  repeat' split
  all_goals simp [h]

@[simp] theorem execEyeSweepDone_keeps {s₀ s : State} (h : s₀.keeps s) (ch r b left right : Nat) :
    Ends s₀ (execEyeSweepDone ch r b left right s) := by simp [execEyeSweepDone, h]

@[simp] theorem execZqDue_keeps {s₀ s : State} (h : s₀.keeps s) (ch r : Nat) : Ends s₀ (execZqDue ch r s) := by simp [execZqDue, h]

@[simp] theorem execLongTrainingDue_keeps {s₀ s : State} (h : s₀.keeps s) (ch r : Nat) : Ends s₀ (execLongTrainingDue ch r s) := by
  simp [execLongTrainingDue, h]

@[simp] theorem State.longPlace_keeps {s₀ : State} (s : State) (ch r : Nat) (l : LongRes) : s₀.keepsToo tm im (s.longPlace ch r l) ↔
    s₀.keepsToo tm im s := by
  simp [State.longPlace]

@[simp] theorem State.longDone_keeps {s₀ s : State} (h : s₀.keepsToo tm im s) (ch r : Nat) (l : LongRes) : s₀.keepsToo tm im (s.longDone ch r l) := by
  unfold State.longDone
  dsimp only
  repeat' split
  all_goals simp [h]

@[simp] theorem State.driftDone_keeps {s₀ : State} (s : State) (ch r : Nat) : s₀.keepsToo tm im (s.driftDone ch r) ↔ s₀.keepsToo tm im s := by
    simp [State.driftDone]

@[simp] theorem State.zqDone_keeps {s₀ : State} (s : State) (ch r : Nat) : s₀.keepsToo tm im (s.zqDone ch r) ↔ s₀.keepsToo tm im s := by
    simp [State.zqDone]

@[simp] theorem execMaintenanceDone_keeps {s₀ s : State} (h : s₀.keeps s) (ch : Nat) (l : LongRes) : Ends s₀ (execMaintenanceDone ch l s) := by
  unfold execMaintenanceDone
  dsimp only
  repeat' split
  all_goals simp [h]

@[simp] theorem execMaintStarved_keeps {s₀ s : State} (h : s₀.keeps s) (ch : Nat) : Ends s₀ (execMaintStarved ch s) := by simp [execMaintStarved, h]

@[simp] theorem State.phyStart_keeps {s₀ s : State} (h : s₀.keepsToo tm im s) (ch kind tgt : Nat) : s₀.keepsToo tm im (s.phyStart ch kind tgt).1 := by
  simp [State.phyStart, h]

@[simp] theorem State.phyLongReq_keeps {s₀ : State} (s : State) (ch : Nat) : s₀.keepsToo tm im (s.phyLongReq ch).1 ↔ s₀.keepsToo tm im s := by
    simp [State.phyLongReq]

@[simp] theorem State.writePhyCtl_keeps {s₀ s : State} (h : s₀.keeps s) (ch w tgt : Nat) : s₀.keeps (s.writePhyCtl ch w tgt) := by
  simp +contextual [State.writePhyCtl, h]

@[simp] theorem execPhyCold_keeps {s₀ s : State} (h : s₀.keeps s) (ch : Nat) (w : Word) (tgt : Nat) : Ends s₀ (execPhyCold ch w tgt s) := by
  simp +contextual [execPhyCold, h]

@[simp] theorem execPhyWarm_keeps {s₀ s : State} (h : s₀.keeps s) (ch : Nat) (w : Word) (tgt : Nat) : Ends s₀ (execPhyWarm ch w tgt s) := by
  simp +contextual [execPhyWarm, h]

@[simp] theorem execPhyLong_keeps {s₀ s : State} (h : s₀.keeps s) (ch : Nat) (w : Word) (tgt : Nat) : Ends s₀ (execPhyLong ch w tgt s) := by
  simp +contextual [execPhyLong, h]

@[simp] theorem execPhyRearm_keeps {s₀ s : State} (h : s₀.keeps s) (ch : Nat) (w : Word) (tgt : Nat) : Ends s₀ (execPhyRearm ch w tgt s) := by
  simp +contextual [execPhyRearm, h]

/-! ### Place -/

@[simp] theorem State.memWrite_keeps {s₀ s : State} (h : s₀.keepsToo tm im s) (l : List (Nat × Byte)) : s₀.keepsToo tm im (s.memWrite l) :=
  State.keeps.of_mem h ⟨rfl, rfl, rfl, rfl⟩ ⟨rfl, rfl, rfl, rfl, rfl⟩ ⟨rfl, rfl⟩ (State.memWrite_ok l)

@[simp] theorem State.memFill_keeps {s₀ s : State} (h : s₀.keepsToo tm im s) (k : Nat) (l : List Byte) : s₀.keepsToo tm im (s.memFill k l) :=
  State.keeps.of_mem h ⟨rfl, rfl, rfl, rfl⟩ ⟨rfl, rfl, rfl, rfl, rfl⟩ ⟨rfl, rfl⟩ (State.memFill_ok k l)

@[simp] theorem State.cellPut_keeps {s₀ s : State} (h : s₀.keepsToo tm im s) (c : Nat × Byte) : s₀.keepsToo tm im (s.cellPut c) := by
  unfold State.cellPut
  dsimp only
  repeat' split
  all_goals simp [h]

@[simp] theorem State.cellsPut_keeps {s₀ s : State} (h : s₀.keepsToo tm im s) (l : List (Nat × Byte)) : s₀.keepsToo tm im (s.cellsPut l) := by
  unfold State.cellsPut
  split
  · exact State.keeps_foldl_of (fun _ c hs => State.cellPut_keeps hs c) l h
  · exact State.memWrite_keeps h l

@[simp] theorem State.cellsFill_keeps {s₀ s : State} (h : s₀.keepsToo tm im s) (k : Nat) (l : List Byte) : s₀.keepsToo tm im (s.cellsFill k l) := by
  simp [State.cellsFill, h]

@[simp] theorem State.engineBytes_keeps {s₀ : State} (s : State) (ch cls n : Nat) :
    s₀.keepsToo tm im (s.engineBytes ch cls n) ↔ s₀.keepsToo tm im s := by
  simp [State.engineBytes]

@[simp] theorem State.rsvWrite_keeps {s₀ s : State} (h : s₀.keepsToo tm im s) (o : Nat) (l : List Byte) (cls : Nat) :
    s₀.keepsToo tm im (s.rsvWrite o l cls) := by
  have hput {s : State} (h : s₀.keepsToo tm im s) (p : At) (c : Nat) : s₀.keepsToo tm im (if s.inService p.ch then
      ((s.cellsPut ((List.range l.length).zipWith (fun k b => (memKey p.ch (p.a + k), b)) l)).cellsPut
        ((List.range l.length).zipWith (fun k b => (memKey p.ch (p.ca + k), checkByte b)) l)).engineBytes p.ch c (2 * l.length)
      else s) := by
    split
    · exact (State.engineBytes_keeps _ _ _ _).mpr (State.cellsPut_keeps (State.cellsPut_keeps h _) _)
    · exact h
  unfold State.rsvWrite
  simp only []
  split
  · exact hput (hput h _ _) _ _
  · exact hput h _ _

@[simp] theorem State.poolUpdate_keeps {s₀ : State} (s : State) (n : Nat) : s₀.keepsToo tm im (s.poolUpdate n) ↔ s₀.keepsToo tm im s := by
  unfold State.poolUpdate
  repeat' split
  all_goals simp

@[simp] theorem State.takePool_keeps {s₀ : State} (s : State) (n ch k : Nat) : s₀.keepsToo tm im (s.takePool n ch k).2 ↔ s₀.keepsToo tm im s := by
  simp [State.takePool]

@[simp] theorem State.givePool_keeps {s₀ : State} (s : State) (n ch : Nat) (l : List Nat) :
    s₀.keepsToo tm im (s.givePool n ch l) ↔ s₀.keepsToo tm im s := by
  simp [State.givePool]

@[simp] theorem State.setSpare_keeps {s₀ : State} (s : State) (ch : Nat) (l : List Nat) : s₀.keepsToo tm im (s.setSpare ch l) ↔
    s₀.keepsToo tm im s := by
  simp [State.setSpare]

@[simp] theorem State.giveSpare_keeps {s₀ : State} (s : State) (ch : Nat) (l : List Nat) : s₀.keepsToo tm im (s.giveSpare ch l) ↔
    s₀.keepsToo tm im s := by
  simp [State.giveSpare]

@[simp] theorem State.giveBack_keeps {s₀ : State} (s : State) (m : Move) (l : List Nat) : s₀.keepsToo tm im (s.giveBack m l) ↔
    s₀.keepsToo tm im s := by
  unfold State.giveBack
  refine State.keeps_foldl (fun s x => ?_) l s
  split
  · simp
  · simp

theorem State.placeSurf_keeps {s₀ s t : State} {x : Surf} {l : List Pos} (hplace : s.placeSurf x = some (l, t)) (h : s₀.keepsToo tm im s) :
    s₀.keepsToo tm im t := by
  unfold State.placeSurf at hplace
  simp only [Option.ite_none_left_eq_some, Option.ite_none_right_eq_some, Option.some.injEq, Prod.mk.injEq] at hplace
  obtain ⟨-, -, -, rfl⟩ := hplace
  refine (State.poolUpdate_keeps _ _).mpr (foldl_keeps (fun b : List Pos × State => s₀.keepsToo tm im b.2) _ (fun b p hb => ?_) _ _ h)
  dsimp only
  split
  · simpa using hb
  · simpa using hb

theorem State.freeIndex_keeps {s₀ s t : State} {i : Nat} (hfree : s.freeIndex = some (i, t)) (h : s₀.keepsToo tm im s) : s₀.keepsToo tm im t := by
  unfold State.freeIndex at hfree
  split at hfree
  · cases hfree
    simpa using h
  · split at hfree
    · cases hfree
    · cases hfree
      simpa using h

/-! ### Slice -/

@[simp] theorem State.modWait_keeps {s₀ : State} (s : State) (id : Nat) (f : Wait → Wait) :
    s₀.keepsToo tm im (s.modWait id f) ↔ s₀.keepsToo tm im s := by
  simp [State.modWait]

@[simp] theorem State.partDone_keeps {s₀ : State} (s : State) (id : Option Nat) (code : Nat) : s₀.keepsToo tm im (s.partDone id code) ↔
    s₀.keepsToo tm im s := by
  unfold State.partDone
  split
  · rfl
  · simp

@[simp] theorem State.push_keeps {s₀ : State} (s : State) (u : SubReq) : s₀.keepsToo tm im (s.push u) ↔ s₀.keepsToo tm im s := by
  unfold State.push
  repeat' split
  all_goals simp

@[simp] theorem State.writeBytes_keeps {s₀ : State} (s : State) (u : SubReq) (l : List (Nat × Byte)) :
    s₀.keepsToo tm im (s.writeBytes u l) ↔ s₀.keepsToo tm im s := by
  simp [State.writeBytes]

@[simp] theorem State.spareCheck_keeps {s₀ : State} (s : State) (ch a n init cls : Nat) : s₀.keepsToo tm im (s.spareCheck ch a n init cls) ↔
    s₀.keepsToo tm im s := by
  simp [State.spareCheck]

@[simp] theorem State.hdrFront_keeps {s₀ : State} (s : State) (x : HdrEnt) :
    s₀.keepsToo tm im (s.hdrFront x) ↔ s₀.keepsToo tm im s := by simp [State.hdrFront]

@[simp] theorem State.hdrPut_keeps {s₀ : State} (s : State) (t : LTag) (half : Nat) (l : List Nat) : s₀.keepsToo tm im (s.hdrPut t half l) ↔
    s₀.keepsToo tm im s := by
  simp [State.hdrPut]

@[simp] theorem State.hdrCheck_keeps {s₀ : State} (s : State) (u : SubReq) (c : Nat) : s₀.keepsToo tm im (s.hdrCheck u c) ↔ s₀.keepsToo tm im s := by
  simp [State.hdrCheck]

@[simp] theorem State.hdrTouch_keeps {s₀ : State} (s : State) (t : LTag) (c : Nat) : s₀.keepsToo tm im (s.hdrTouch t c) ↔ s₀.keepsToo tm im s := by
  unfold State.hdrTouch
  dsimp only
  repeat' split
  all_goals simp

@[simp] theorem State.hdrSetCell_keeps {s₀ : State} (s : State) (t : LTag) (c h : Nat) :
    s₀.keepsToo tm im (s.hdrSetCell t c h) ↔ s₀.keepsToo tm im s := by
  unfold State.hdrSetCell
  dsimp only
  repeat' split
  all_goals simp

@[simp] theorem State.hdrDrop_keeps {s₀ : State} (s : State) (idx : Nat) :
    s₀.keepsToo tm im (s.hdrDrop idx) ↔ s₀.keepsToo tm im s := by simp [State.hdrDrop]

@[simp] theorem State.outdate_keeps {s₀ : State} (s : State) (t : LTag) (c : Nat) :
    s₀.keepsToo tm im (s.outdate t c) ↔ s₀.keepsToo tm im s := by simp [State.outdate]

@[simp] theorem State.chargeRaw_keeps {s₀ : State} (s : State) (u : SubReq) :
    s₀.keepsToo tm im (s.chargeRaw u) ↔ s₀.keepsToo tm im s := by simp [State.chargeRaw]

@[simp] theorem State.writeHdr_keeps {s₀ : State} (s : State) (u : SubReq) (h : Nat) : s₀.keepsToo tm im (s.writeHdr u h) ↔ s₀.keepsToo tm im s := by
  simp [State.writeHdr]

@[simp] theorem State.hdrsLost_keeps {s₀ : State} (s : State) (hit : LTag → Nat → Bool) : s₀.keepsToo tm im (s.hdrsLost hit) ↔
    s₀.keepsToo tm im s := by
  simp [State.hdrsLost]

@[simp] theorem State.arrive_keeps {s₀ : State} (s : State) (g : Nat) (a : Arrival) : s₀.keepsToo tm im (s.arrive g a) ↔
    s₀.keepsToo tm im s := by simp [State.arrive]

@[simp] theorem State.byHeader_keeps {s₀ : State} (s : State) (u : SubReq) (h : Nat) : s₀.keepsToo tm im (s.byHeader u h) ↔ s₀.keepsToo tm im s := by
  simp [State.byHeader]

@[simp] theorem State.noPayload_keeps {s₀ : State} (s : State) (u : SubReq) (cls : Nat) : s₀.keepsToo tm im (s.noPayload u cls) ↔
    s₀.keepsToo tm im s := by
  simp [State.noPayload]

@[simp] theorem State.fetchCells_keeps {s₀ : State} (s : State) (u : SubReq) (l : List Nat) :
    s₀.keepsToo tm im (s.fetchCells u l) ↔ s₀.keepsToo tm im s := by
  simp [State.fetchCells]

@[simp] theorem State.streamAtoms_keeps {s₀ : State} (s : State) (u : SubReq) (l : List Nat) :
    s₀.keepsToo tm im (s.streamAtoms u l) ↔ s₀.keepsToo tm im s := by
  simp [State.streamAtoms]

@[simp] theorem State.fetch_keeps {s₀ : State} (s : State) (u : SubReq) (l : List Nat) :
    s₀.keepsToo tm im (s.fetch u l) ↔ s₀.keepsToo tm im s := by simp [State.fetch]

@[simp] theorem State.touch_keeps {s₀ : State} (s : State) (g e : Nat) :
    s₀.keepsToo tm im (s.touch g e) ↔ s₀.keepsToo tm im s := by simp [State.touch]

@[simp] theorem State.writeBack_keeps {s₀ : State} (s : State) (g : Nat) (x : Line) (n : Nat) :
    s₀.keepsToo tm im (s.writeBack g x n) ↔ s₀.keepsToo tm im s := by
  simp [State.writeBack]

@[simp] theorem State.haloErr_keeps {s₀ : State} (s : State) (g e cause unit : Nat) :
    s₀.keepsToo tm im (s.haloErr g e cause unit) ↔ s₀.keepsToo tm im s := by
  simp [State.haloErr]

@[simp] theorem State.raiseHalo_keeps {s₀ : State} (s : State) (f : Fld) (g : Nat) : s₀.keepsToo tm im (s.raiseHalo f g) ↔ s₀.keepsToo tm im s := by
  simp [State.raiseHalo]

@[simp] theorem State.poisonBack_keeps {s₀ : State} (s : State) (g : Nat) (x : Line) (n : Nat) :
    s₀.keepsToo tm im (s.poisonBack g x n) ↔ s₀.keepsToo tm im s := by
  simp [State.poisonBack]

@[simp] theorem State.readUnit_keeps {s₀ : State} (s : State) (g e n : Nat) :
    s₀.keepsToo tm im (s.readUnit g e n) ↔ s₀.keepsToo tm im s := by simp [State.readUnit]

@[simp] theorem State.handOver_keeps {s₀ : State} (s : State) (g e : Nat) : s₀.keepsToo tm im (s.handOver g e) ↔ s₀.keepsToo tm im s := by
  unfold State.handOver
  dsimp only
  repeat' split
  all_goals simp

@[simp] theorem State.flushLine_keeps {s₀ : State} (s : State) (g e : Nat) :
    s₀.keepsToo tm im (s.flushLine g e) ↔ s₀.keepsToo tm im s := by simp [State.flushLine]

@[simp] theorem State.dropLine_keeps {s₀ : State} (s : State) (g e : Nat) :
    s₀.keepsToo tm im (s.dropLine g e) ↔ s₀.keepsToo tm im s := by simp [State.dropLine]

theorem State.evbPlace_keeps {s₀ s : State} {g : Nat} {r : Nat × State} (hplace : s.evbPlace g = some r) (h : s₀.keepsToo tm im s) :
    s₀.keepsToo tm im r.2 := by
  unfold State.evbPlace at hplace
  split at hplace
  · cases hplace
    exact h
  · obtain ⟨e, -, rfl⟩ := Option.map_eq_some_iff.mp hplace
    simpa using h

@[simp] theorem State.evictTo_keeps {s₀ : State} (s : State) (g e p : Nat) :
    s₀.keepsToo tm im (s.evictTo g e p) ↔ s₀.keepsToo tm im s := by simp [State.evictTo]

theorem State.takeEntry_keeps {s₀ s t : State} {g e : Nat} (htake : s.takeEntry g = some (e, t)) (h : s₀.keepsToo tm im s) : s₀.keepsToo tm im t := by
  unfold State.takeEntry at htake
  split at htake
  · cases htake
  · split at htake
    · obtain ⟨r, hr, hrt⟩ := Option.map_eq_some_iff.mp htake
      cases hrt
      simpa using State.evbPlace_keeps hr h
    · cases htake
      exact h

@[simp] theorem State.promote_keeps {s₀ s : State} (h : s₀.keepsToo tm im s) (g e : Nat) : s₀.keepsToo tm im (s.promote g e).2 := by
  unfold State.promote
  simp only []
  repeat' split
  · simpa using h
  · exact h
  · next htake => simpa using State.takeEntry_keeps htake h
  · exact h
  · simpa using h

@[simp] theorem State.leave_keeps {s₀ : State} (s : State) (g e : Nat) :
    s₀.keepsToo tm im (s.leave g e) ↔ s₀.keepsToo tm im s := by simp [State.leave]

@[simp] theorem State.leaveGone_keeps {s₀ : State} (s : State) : s₀.keepsToo tm im s.leaveGone ↔ s₀.keepsToo tm im s := by simp [State.leaveGone]

@[simp] theorem State.endFill_keeps {s₀ : State} (s : State) (g e : Nat) :
    s₀.keepsToo tm im (s.endFill g e) ↔ s₀.keepsToo tm im s := by simp [State.endFill]

@[simp] theorem State.checkTags_keeps {s₀ : State} (s : State) (g : Nat) :
    s₀.keepsToo tm im (s.checkTags g) ↔ s₀.keepsToo tm im s := by simp [State.checkTags]

@[simp] theorem State.sendSnoop_keeps {s₀ : State} (s : State) (n : Snoop) :
    s₀.keepsToo tm im (s.sendSnoop n) ↔ s₀.keepsToo tm im s := by simp [State.sendSnoop]

@[simp] theorem State.beginFill_keeps {s₀ : State} (s : State) (g e : Nat) (t : LTag) (need : List Nat) (u : SubReq) :
    s₀.keepsToo tm im (s.beginFill g e t need u) ↔ s₀.keepsToo tm im s := by simp [State.beginFill]

@[simp] theorem State.dropPrefetch_keeps {s₀ : State} (s : State) (g e : Nat) : s₀.keepsToo tm im (s.dropPrefetch g e) ↔ s₀.keepsToo tm im s := by
  simp [State.dropPrefetch]

@[simp] theorem State.trimSide_keeps {s₀ : State} (s : State) (g n : Nat) (any : Bool) :
    s₀.keepsToo tm im (s.trimSide g n any) ↔ s₀.keepsToo tm im s := by
  simp [State.trimSide]

@[simp] theorem State.prefetchLine_keeps {s₀ : State} (s : State) (g : Nat) (t : LTag) (u : SubReq) :
    s₀.keepsToo tm im (s.prefetchLine g t u).1 ↔ s₀.keepsToo tm im s := by
  unfold State.prefetchLine
  dsimp only
  repeat' split
  all_goals simp

/-! ### Serve -/

@[simp] theorem State.endTrail_keeps {s₀ : State} (s : State) (id : Option Nat) : s₀.keepsToo tm im (s.endTrail id) ↔ s₀.keepsToo tm im s := by
  unfold State.endTrail
  repeat' split
  all_goals simp

@[simp] theorem State.respond_keeps {s₀ : State} (s : State) (p : Nat) (x : Resp) :
    s₀.keepsToo tm im (s.respond p x) ↔ s₀.keepsToo tm im s := by simp [State.respond]

@[simp] theorem State.answer_keeps {s₀ : State} (s : State) (p : Nat) (x : Xfer) (code v : Nat) :
    s₀.keepsToo tm im (s.answer p x code v) ↔ s₀.keepsToo tm im s := by
  simp [State.answer]

@[simp] theorem State.dropFreed_keeps {s₀ : State} (s : State) (i : Nat) :
    s₀.keepsToo tm im (s.dropFreed i) ↔ s₀.keepsToo tm im s := by simp [State.dropFreed]

@[simp] theorem State.finish_keeps {s₀ : State} (s : State) (w : Wait) : s₀.keepsToo tm im (s.finish w) ↔ s₀.keepsToo tm im s := by
  unfold State.finish
  repeat' split
  all_goals simp

@[simp] theorem State.give_keeps {s₀ : State} (s : State) (g : Nat) (a : Got) (only : Option Nat) :
    s₀.keepsToo tm im (s.give g a only) ↔ s₀.keepsToo tm im s := by
  simp [State.give]

@[simp] theorem State.addNeed_keeps {s₀ : State} (s : State) (id : Nat) (t : LTag) (l : List Nat) :
    s₀.keepsToo tm im (s.addNeed id t l) ↔ s₀.keepsToo tm im s := by
  simp [State.addNeed]

@[simp] theorem State.addJob_keeps {s₀ : State} (s : State) (g : Nat) (j : EncJob) : s₀.keepsToo tm im (s.addJob g j) ↔ s₀.keepsToo tm im s := by
  unfold State.addJob
  repeat' split
  all_goals simp

@[simp] theorem State.toDram_keeps {s₀ : State} (s : State) (w : Wait) (t : LTag) (u : Nat) (l : List (Nat × Nat)) :
    s₀.keepsToo tm im (s.toDram w t u l) ↔ s₀.keepsToo tm im s := by simp [State.toDram]

@[simp] theorem State.throughLine_keeps {s₀ : State} (s : State) (w : Wait) (t : LTag) (u : Nat) (l : List (Nat × Nat)) (data : List Nat) :
    s₀.keepsToo tm im (s.throughLine w t u l data) ↔ s₀.keepsToo tm im s := by simp [State.throughLine]

@[simp] theorem State.demand_keeps {s₀ : State} (s : State) (t : LTag) (l : List Nat) (u : SubReq) :
    s₀.keepsToo tm im (s.demand t l u) ↔ s₀.keepsToo tm im s := by
  simp [State.demand]

@[simp] theorem State.present_keeps {s₀ : State} (s : State) (g : Nat) (t : LTag) (n : Nat) :
    s₀.keepsToo tm im (s.present g t n) ↔ s₀.keepsToo tm im s := by
  unfold State.present
  split
  · simp
  · rfl

@[simp] theorem State.writeInLine_keeps {s₀ : State} (s : State) (w : Wait) (g e : Nat) (t : LTag) (u : Nat) (l : List (Nat × Nat)) :
    s₀.keepsToo tm im (s.writeInLine w g e t u l) ↔ s₀.keepsToo tm im s := by simp [State.writeInLine]

@[simp] theorem State.zeroUnitIn_keeps {s₀ : State} (s : State) (w : Wait) (g e : Nat) (t : LTag) (u : Nat) (l : List (Nat × Nat)) :
    s₀.keepsToo tm im (s.zeroUnitIn w g e t u l) ↔ s₀.keepsToo tm im s := by simp [State.zeroUnitIn]

@[simp] theorem State.lookup_keeps {s₀ : State} (s : State) (w : Wait) (t : LTag) : s₀.keepsToo tm im (s.lookup w t) ↔ s₀.keepsToo tm im s := by
  unfold State.lookup
  dsimp only
  repeat' split
  all_goals simp

@[simp] theorem State.bypass_keeps {s₀ : State} (s : State) (w : Wait) : s₀.keepsToo tm im (s.bypass w) ↔ s₀.keepsToo tm im s := by
  unfold State.bypass
  dsimp only
  repeat' split
  all_goals simp

@[simp] theorem State.noteMiss_keeps {s₀ : State} (s : State) (w : Wait) (t : LTag) : s₀.keepsToo tm im (s.noteMiss w t) ↔ s₀.keepsToo tm im s := by
  simp [State.noteMiss]

@[simp] theorem State.prompt_keeps {s₀ : State} (s : State) (w : Wait) (t : LTag) (last : Option Nat) :
    s₀.keepsToo tm im (s.prompt w t last) ↔ s₀.keepsToo tm im s := by
  unfold State.prompt
  dsimp only
  repeat' split
  all_goals simp

@[simp] theorem State.writeLine_keeps {s₀ s : State} (h : s₀.keepsToo tm im s) (id : Nat) (t : LTag) : s₀.keepsToo tm im (s.writeLine id t) := by
  unfold State.writeLine
  split
  · exact h
  dsimp only
  split
  · split
    · split
      · simp [h]
      · simp [h]
    · repeat' split
      all_goals simp [h]
  · split
    · split
      · next htake =>
        have htaken := State.takeEntry_keeps htake ((State.noteMiss_keeps _ _ _).mpr h)
        simp [htaken]
      · simp [h]
    · simp [h]

@[simp] theorem State.writeStart_keeps {s₀ s : State} (h : s₀.keepsToo tm im s) (w : Wait) (t : LTag) : s₀.keepsToo tm im (s.writeStart w t) := by
  unfold State.writeStart
  dsimp only
  repeat' split
  all_goals simp [h]

@[simp] theorem State.writeLines_keeps {s₀ s : State} (h : s₀.keepsToo tm im s) (w : Wait) (l : List LTag) :
    s₀.keepsToo tm im (s.writeLines w l) := by
  simp +contextual [State.writeLines, h]

@[simp] theorem State.readHeld_keeps {s₀ s : State} (h : s₀.keepsToo tm im s) (w : Wait) (e : Nat) (t : LTag) (l : List Nat) :
    s₀.keepsToo tm im (s.readHeld w e t l) := by simp [State.readHeld, h]

@[simp] theorem State.readStream_keeps {s₀ : State} (s : State) (w : Wait) (t : LTag) (l : List Nat) :
    s₀.keepsToo tm im (s.readStream w t l) ↔ s₀.keepsToo tm im s := by simp [State.readStream]

@[simp] theorem State.readLine_keeps {s₀ s : State} (h : s₀.keepsToo tm im s) (w : Wait) (t : LTag) (l : List Nat) :
    s₀.keepsToo tm im (s.readLine w t l) := by
  have hlook : s₀.keepsToo tm im (s.lookup w t) := by simpa using h
  unfold State.readLine
  simp only []
  split
  · exact State.readHeld_keeps (State.promote_keeps hlook _ _) _ _ _ _
  · split
    · simpa using h
    · split
      · simpa using h
      · next htake => simpa using State.takeEntry_keeps htake ((State.noteMiss_keeps _ _ _).mpr hlook)

@[simp] theorem State.readLines_keeps {s₀ s : State} (h : s₀.keepsToo tm im s) (w : Wait) (l : List LTag) : s₀.keepsToo tm im (s.readLines w l) := by
  unfold State.readLines
  refine State.keeps_foldl_of (fun s t hs => ?_) l h
  split
  · simpa using hs
  · exact State.readLine_keeps hs _ _ _

@[simp] theorem State.startRead_keeps {s₀ s : State} (h : s₀.keepsToo tm im s) (w : Wait) :
    s₀.keepsToo tm im (s.startRead w) := by simp [State.startRead, h]

@[simp] theorem State.pullBack_keeps {s₀ s : State} (h : s₀.keepsToo tm im s) (g : Nat) (t : LTag) : s₀.keepsToo tm im (s.pullBack g t) := by
  unfold State.pullBack
  repeat' split
  · exact State.promote_keeps h g _
  · exact h
  · exact h

@[simp] theorem State.prefetchLines_keeps {s₀ s : State} (h : s₀.keepsToo tm im s) (w : Wait) (l : List LTag) :
    s₀.keepsToo tm im (s.prefetchLines w l) := by
  simp +contextual [State.prefetchLines, h]

@[simp] theorem State.preloadLine_keeps {s₀ s : State} (h : s₀.keepsToo tm im s) (w : Wait) (t : LTag) : s₀.keepsToo tm im (s.preloadLine w t).1 := by
  have hlook : s₀.keepsToo tm im (s.lookup w t) := by simpa using h
  have hlock {s : State} (hs : s₀.keepsToo tm im s) (c : Prop) [Decidable c] (g e : Nat) (x : Line) :
  s₀.keepsToo tm im (if c then s else s.setLine g e x) := by
    simpa using hs
  unfold State.preloadLine
  simp only []
  split
  · exact h
  split
  · exact h
  split
  · split
    · exact State.promote_keeps hlook _ _
    · exact State.readHeld_keeps ((State.count_keeps _ _).mpr (hlock (State.promote_keeps hlook _ _) _ _ _ _)) _ _ _ _
  · split
    · exact hlook
    · next htake =>
      rw [State.count_keeps, State.prompt_keeps]
      refine hlock ?_ _ _ _ _
      simpa using State.takeEntry_keeps htake hlook

@[simp] theorem State.preloadLines_keeps {s₀ s : State} (h : s₀.keepsToo tm im s) (id : Nat) (l : List LTag) :
    s₀.keepsToo tm im (s.preloadLines id l) := by
  unfold State.preloadLines
  refine State.keeps_foldl_of (fun s t hs => ?_) l h
  split
  · exact hs
  · dsimp only
    split
    · simpa using State.preloadLine_keeps hs _ _
    · exact State.preloadLine_keeps hs _ _

@[simp] theorem State.startPreload_keeps {s₀ s : State} (h : s₀.keepsToo tm im s) (w : Wait) :
    s₀.keepsToo tm im (s.startPreload w) := by simp [State.startPreload, h]

@[simp] theorem State.resumeWait_keeps {s₀ s : State} (h : s₀.keepsToo tm im s) (w : Wait) :
    s₀.keepsToo tm im (s.resumeWait w) := by simp [State.resumeWait, h]

@[simp] theorem State.startUnlock_keeps {s₀ s : State} (h : s₀.keepsToo tm im s) (w : Wait) : s₀.keepsToo tm im (s.startUnlock w) := by
  unfold State.startUnlock
  refine State.keeps_foldl_of (fun s t hs => ?_) _ h
  have hpull : s₀.keepsToo tm im ((s.lookup w t).pullBack (w.port / 8) t) := State.pullBack_keeps (by simpa using hs) _ _
  dsimp only
  repeat' split
  · simpa using hpull
  · simpa using hpull
  · simpa using hpull

@[simp] theorem State.serve_keeps {s₀ s : State} (h : s₀.keepsToo tm im s) (w : Wait) : s₀.keepsToo tm im (s.serve w) := by simp [State.serve, h]

@[simp] theorem State.startJob_keeps {s₀ : State} (s : State) (g k : Nat) : s₀.keepsToo tm im (s.startJob g k) ↔ s₀.keepsToo tm im s := by
  unfold State.startJob
  repeat' split
  all_goals simp

@[simp] theorem State.startJobs_keeps {s₀ : State} (s : State) : s₀.keepsToo tm im s.startJobs ↔ s₀.keepsToo tm im s := by simp [State.startJobs]

@[simp] theorem State.wakeReaders_keeps {s₀ : State} (s : State) :
    s₀.keepsToo tm im s.wakeReaders ↔ s₀.keepsToo tm im s := by simp [State.wakeReaders]

theorem State.round_keeps {s₀ s t : State} (hround : s.round = some t) (h : s₀.keepsToo tm im s) : s₀.keepsToo tm im t := by
  unfold State.round at hround
  split at hround
  · cases hround
    simpa using h
  · split at hround
    · cases hround
      exact State.serve_keeps h _
    · obtain ⟨w, -, rfl⟩ := Option.map_eq_some_iff.mp hround
      exact State.resumeWait_keeps h w

@[simp] theorem State.rounds_keeps {s₀ s : State} (h : s₀.keepsToo tm im s) (n : Nat) : s₀.keepsToo tm im (State.rounds n s) := by
  induction n generalizing s with
  | zero => exact h
  | succ n ih =>
    unfold State.rounds
    split
    · exact h
    · next hround => exact ih (State.round_keeps hround h)

@[simp] theorem State.pumpOnce_keeps {s₀ s : State} (h : s₀.keepsToo tm im s) : s₀.keepsToo tm im s.pumpOnce :=
  State.rounds_keeps (by simpa using h) _

@[simp] theorem State.pump_keeps {s₀ s : State} (h : s₀.keepsToo tm im s) : s₀.keepsToo tm im s.pump := by simp [State.pump, h]

/-! ### Surfaces -/

@[simp] theorem State.descPut_keeps {s₀ s : State} (h : s₀.keepsToo tm im s) (i : Nat) (p : Nat × Nat) :
    s₀.keepsToo tm im (s.descPut i p) := by simp [State.descPut, h]

@[simp] theorem State.descFront_keeps {s₀ : State} (s : State) (i : Nat) :
    s₀.keepsToo tm im (s.descFront i) ↔ s₀.keepsToo tm im s := by simp [State.descFront]

@[simp] theorem State.descWrite_keeps {s₀ s : State} (h : s₀.keepsToo tm im s) (i : Nat) : s₀.keepsToo tm im (s.descWrite i) := by
  unfold State.descWrite
  rw [State.descFront_keeps]
  exact State.keeps_foldl_of (fun _ p hs => State.descPut_keeps hs i p) _ h

theorem State.tryCreate_keeps {s₀ s t : State} {d p i : Nat} (htry : s.tryCreate d p = some (i, t)) (h : s₀.keepsToo tm im s) :
    s₀.keepsToo tm im t := by
  unfold State.tryCreate at htry
  simp only [] at htry
  split at htry
  · cases htry
  split at htry
  · cases htry
  next hfree =>
  split at htry
  · cases htry
  next hplace =>
  have hdesc (x : Surf) (n i : Nat) (o : Occ) {u : State} (hu : s₀.keepsToo tm im u) : s₀.keepsToo tm im (((u.setSurf n x).descWrite i).count o) :=
    (State.count_keeps _ _).mpr (State.descWrite_keeps (by simpa using hu) i)
  have hplaced := State.placeSurf_keeps hplace (State.freeIndex_keeps hfree h)
  cases htry
  split
  · exact (State.raise_keeps _ _ _).mpr (hdesc _ _ _ _ hplaced)
  · exact hdesc _ _ _ _ hplaced

@[simp] theorem State.reply_keeps {s₀ : State} (s : State) (p gen : Nat) (x : Xfer) (code v : Nat) :
    s₀.keepsToo tm im (s.reply p gen x code v) ↔ s₀.keepsToo tm im s := by simp [State.reply]

@[simp] theorem State.noSpace_keeps {s₀ : State} (s : State) (p gen : Nat) (x : Xfer) (pool : Nat) :
    s₀.keepsToo tm im (s.noSpace p gen x pool) ↔ s₀.keepsToo tm im s := by simp [State.noSpace]

@[simp] theorem State.joinQueue_keeps {s₀ : State} (s : State) (w : CreateWait) :
    s₀.keepsToo tm im (s.joinQueue w) ↔ s₀.keepsToo tm im s := by simp [State.joinQueue]

@[simp] theorem State.takeAlloc_keeps {s₀ : State} (s : State) : s₀.keepsToo tm im s.takeAlloc ↔ s₀.keepsToo tm im s := by simp [State.takeAlloc]

@[simp] theorem State.create_keeps {s₀ s : State} (h : s₀.keepsToo tm im s) (p gen : Nat) (x : Xfer) : s₀.keepsToo tm im (s.create p gen x) := by
  have halloc : s₀.keepsToo tm im s.takeAlloc := (State.takeAlloc_keeps s).mpr h
  have hwait (c d : Prop) [Decidable c] [Decidable d] (w : CreateWait) : s₀.keepsToo tm im (if c then s.takeAlloc.reply p gen x 0xB 0
      else if d then s.takeAlloc.joinQueue w else s.takeAlloc.noSpace p gen x w.pool) := by
    simpa using h
  unfold State.create
  dsimp only
  split
  · simpa using h
  split
  · simpa using h
  split
  · exact hwait _ _ _
  split
  · next htry => exact (State.reply_keeps _ _ _ _ _ _).mpr (State.tryCreate_keeps htry halloc)
  · exact hwait _ _ _

@[simp] theorem State.dropWait_keeps {s₀ : State} (s : State) (w : CreateWait) :
    s₀.keepsToo tm im (s.dropWait w) ↔ s₀.keepsToo tm im s := by simp [State.dropWait]

@[simp] theorem State.endWaits_keeps {s₀ : State} (s : State) (p : Nat) (tell : Bool) :
    s₀.keepsToo tm im (s.endWaits p tell) ↔ s₀.keepsToo tm im s := by
  simp [State.endWaits]

@[simp] theorem execCreateRetry_keeps {s₀ s : State} (h : s₀.keeps s) (pool : Nat) : Ends s₀ (execCreateRetry pool s) := by
  unfold execCreateRetry
  split
  · exact (ends_next _ _).mpr h
  split
  · exact (ends_next _ _).mpr h
  dsimp only
  split
  · simpa using h
  · next htry => simpa using State.tryCreate_keeps htry (by simpa using h)

@[simp] theorem execSpaceWaitTimeout_keeps {s₀ s : State} (h : s₀.keeps s) (p tag : Nat) : Ends s₀ (execSpaceWaitTimeout p tag s) := by
  unfold execSpaceWaitTimeout
  split
  · simpa using h
  · simpa using h

@[simp] theorem State.freeSurf_keeps {s₀ : State} (s : State) (i : Nat) :
    s₀.keepsToo tm im (s.freeSurf i) ↔ s₀.keepsToo tm im s := by simp [State.freeSurf]

@[simp] theorem State.descRead_keeps {s₀ s : State} (h : s₀.keepsToo tm im s) (i : Nat) : s₀.keepsToo tm im (s.descRead i) := by
  unfold State.descRead
  dsimp only
  repeat' split
  all_goals simp +contextual [h]

@[simp] theorem State.unpark_keeps {s₀ : State} (s : State) (i : Nat) : s₀.keepsToo tm im (s.unpark i) ↔ s₀.keepsToo tm im s := by simp [State.unpark]

@[simp] theorem State.dropHold_keeps {s₀ : State} (s : State) (i p : Nat) :
    s₀.keepsToo tm im (s.dropHold i p) ↔ s₀.keepsToo tm im s := by simp [State.dropHold]

@[simp] theorem State.smArrive_keeps {s₀ : State} (s : State) (slice : Nat) (a : SmAct) :
    s₀.keepsToo tm im (s.smArrive slice a) ↔ s₀.keepsToo tm im s := by
  simp [State.smArrive]

@[simp] theorem State.dropHolds_keeps {s₀ : State} (s : State) (p : Nat) :
    s₀.keepsToo tm im (s.dropHolds p) ↔ s₀.keepsToo tm im s := by simp [State.dropHolds]

@[simp] theorem execExtentsReturn_keeps {s₀ s : State} (h : s₀.keeps s) (i : Nat) : Ends s₀ (execExtentsReturn i s) := by simp [execExtentsReturn, h]

@[simp] theorem State.holdReq_keeps {s₀ s : State} (h : s₀.keepsToo tm im s) (p gen : Nat) (x : Xfer) : s₀.keepsToo tm im (s.holdReq p gen x) := by
  simp [State.holdReq, h]

@[simp] theorem State.dropReq_keeps {s₀ s : State} (h : s₀.keepsToo tm im s) (p gen : Nat) (x : Xfer) : s₀.keepsToo tm im (s.dropReq p gen x) := by
  simp [State.dropReq, h]

@[simp] theorem State.forceFree_keeps {s₀ : State} (s : State) (w : Nat) :
    s₀.keepsToo tm im (s.forceFree w) ↔ s₀.keepsToo tm im s := by simp [State.forceFree]

@[simp] theorem State.writeSmForce_keeps {s₀ : State} (s : State) (w _tgt : Nat) : s₀.keepsToo tm im (s.writeSmForce w _tgt) ↔
    s₀.keepsToo tm im s := by
  simp [State.writeSmForce]

@[simp] theorem State.smApply_keeps {s₀ s : State} (h : s₀.keepsToo tm im s) (a : SmItem) : s₀.keepsToo tm im (s.smApply a) := by
  unfold State.smApply
  repeat' split
  all_goals simp [h]

@[simp] theorem execForceFree_keeps {s₀ s : State} (h : s₀.keeps s) (w : Word) (tgt : Nat) : Ends s₀ (execForceFree w tgt s) := by
  simp [execForceFree, h]

@[simp] theorem State.prepPut_keeps {s₀ s : State} (h : s₀.keepsToo tm im s) (x : Surf) (cls : Nat) (l : List Byte) (a : At) :
    s₀.keepsToo tm im (s.prepPut x cls l a) := by simp [State.prepPut, h]

@[simp] theorem State.prepRoute_keeps {s₀ s : State} (h : s₀.keepsToo tm im s) (x : Surf) (cls : Nat) (l : List Byte) (r : Route) :
    s₀.keepsToo tm im (s.prepRoute x cls l r) := by
  unfold State.prepRoute
  repeat' split
  all_goals simp [h]

@[simp] theorem State.prepCell_keeps {s₀ s : State} (h : s₀.keepsToo tm im s) (x : Surf) (t : LTag) (cls c : Nat) :
    s₀.keepsToo tm im (s.prepCell x t cls c) := by
  simp +contextual [State.prepCell, h]

@[simp] theorem execTilePrepWrite_keeps {s₀ s : State} (h : s₀.keeps s) (i k : Nat) : Ends s₀ (execTilePrepWrite i k s) := by
  simp +contextual [execTilePrepWrite, h]

/-! ### Links -/

@[simp] theorem State.arriveSlice_keeps {s₀ s : State} (h : s₀.keepsToo tm im s) (p : Nat) (x : Xfer) : s₀.keepsToo tm im (s.arriveSlice p x) := by
  unfold State.arriveSlice
  dsimp only
  repeat' split
  all_goals simp [h]

@[simp] theorem State.candidate_keeps {s₀ : State} (s : State) (p : Nat) (x : Xfer) :
    s₀.keepsToo tm im (s.candidate p x).2 ↔ s₀.keepsToo tm im s := by
  simp [State.candidate]

@[simp] theorem State.endGrant_keeps {s₀ : State} (s : State) (g e : Nat) : s₀.keepsToo tm im (s.endGrant g e) ↔ s₀.keepsToo tm im s := by
  unfold State.endGrant
  dsimp only
  repeat' split
  all_goals simp

@[simp] theorem State.setQueue_keeps {s₀ : State} (s : State) (p : Nat) (l : List Xfer) :
    s₀.keepsToo tm im (s.setQueue p l) ↔ s₀.keepsToo tm im s := by
  simp [State.setQueue]

@[simp] theorem State.cutTrail_keeps {s₀ : State} (s : State) (x : Xfer) (tell : Bool) :
    s₀.keepsToo tm im (s.cutTrail x tell) ↔ s₀.keepsToo tm im s := by
  simp [State.cutTrail]

@[simp] theorem State.restart_keeps {s₀ : State} (s : State) (p : Nat) :
    s₀.keepsToo tm im (s.restart p) ↔ s₀.keepsToo tm im s := by simp [State.restart]

@[simp] theorem State.freezePorts_keeps {s₀ : State} (s : State) (g : Nat) :
    s₀.keepsToo tm im (s.freezePorts g) ↔ s₀.keepsToo tm im s := by simp [State.freezePorts]

@[simp] theorem State.passOn_keeps {s₀ : State} (s : State) (g e : Nat) :
    s₀.keepsToo tm im (s.passOn g e) ↔ s₀.keepsToo tm im s := by simp [State.passOn]

@[simp] theorem State.linkNow_keeps {s₀ : State} (s : State) (g : Nat) : s₀.keepsToo tm im (s.linkNow g) ↔ s₀.keepsToo tm im s := by
  unfold State.linkNow
  split
  · rfl
  · simp

@[simp] theorem State.grantTo_keeps {s₀ : State} (s : State) (g i t : Nat) :
    s₀.keepsToo tm im (s.grantTo g i t) ↔ s₀.keepsToo tm im s := by simp [State.grantTo]

@[simp] theorem State.crossBeat_keeps {s₀ s : State} (h : s₀.keepsToo tm im s) (p : Nat) : s₀.keepsToo tm im (s.crossBeat p) := by
  unfold State.crossBeat
  dsimp only
  repeat' split
  all_goals simp [h]

@[simp] theorem State.decideLink_keeps {s₀ : State} (s : State) (g : Nat) : s₀.keepsToo tm im (s.decideLink g) ↔ s₀.keepsToo tm im s := by
  unfold State.decideLink
  repeat' split
  all_goals simp

@[simp] theorem State.moveLink_keeps {s₀ s : State} (h : s₀.keepsToo tm im s) (g : Nat) : s₀.keepsToo tm im (s.moveLink g) := by
  unfold State.moveLink
  dsimp only
  repeat' split
  all_goals simp [h]

@[simp] theorem State.smCycle_keeps {s₀ s : State} (h : s₀.keepsToo tm im s) : s₀.keepsToo tm im s.smCycle := by
  unfold State.smCycle
  split
  · exact h
  · split
    · exact h
    · exact State.smApply_keeps h _

@[simp] theorem State.closeCycle_keeps {s₀ s : State} (h : s₀.keepsToo tm im s) : s₀.keepsToo tm im s.closeCycle := by
  unfold State.closeCycle
  refine State.smCycle_keeps (State.keeps_foldl_of (fun s g hs => ?_) _ h)
  split
  · exact (State.setGroup_keeps _ _ _).mpr (State.moveLink_keeps hs g)
  · exact hs

@[simp] theorem State.elapseGo_keeps {s₀ s : State} (h : s₀.keeps s) (f n : Nat) : s₀.keeps (State.elapseGo f n s) := by
  induction f generalizing n s with
  | zero => exact h
  | succ f ih =>
    cases n with
    | zero => exact h
    | succ n =>
      unfold State.elapseGo
      refine ih ((State.keeps_foldl State.linkNow_keeps _ _).mpr ?_) _
      simpa using State.closeCycle_keeps h

@[simp] theorem State.elapse_keeps {s₀ s : State} (h : s₀.keeps s) (n : Nat) : s₀.keeps (s.elapse n) := by
  unfold State.elapse
  split
  · exact State.elapseGo_keeps h n n
  · exact h

@[simp] theorem State.atCycle_keeps {s₀ s : State} (h : s₀.keeps s) (c : Nat) : s₀.keeps (s.atCycle c) := by simp [State.atCycle, h]

/-! ### Ports -/

@[simp] theorem State.viol_keeps {s₀ : State} (s : State) (p : Nat) (codes : List Nat) (tag op : Nat) :
    s₀.keepsToo tm im (s.viol p codes tag op) ↔ s₀.keepsToo tm im s := by
  unfold State.viol
  dsimp only
  repeat' split
  all_goals simp

@[simp] theorem State.wakeLink_keeps {s₀ : State} (s : State) (g : Nat) : s₀.keepsToo tm im (s.wakeLink g) ↔ s₀.keepsToo tm im s := by
    simp [State.wakeLink]

@[simp] theorem State.takeRequest_keeps {s₀ : State} (s : State) (p op : Nat) (r0 : Req) : s₀.keepsToo tm im (s.takeRequest p op r0) ↔
    s₀.keepsToo tm im s := by
  simp [State.takeRequest]

@[simp] theorem State.takeData_keeps {s₀ : State} (s : State) (p : Nat) (b : Beat) (last : Bool) : s₀.keepsToo tm im (s.takeData p b last) ↔
    s₀.keepsToo tm im s := by
  unfold State.takeData
  dsimp only
  repeat' split
  all_goals simp

@[simp] theorem State.dataBeat_keeps {s₀ s : State} (h : s₀.keeps s) (p : Nat) (b : Beat) (last : Bool) (c : Nat) :
    s₀.keeps (s.dataBeat p b last c) := by simp [State.dataBeat, h]

@[simp] theorem State.request_keeps {s₀ s : State} (h : s₀.keeps s) (p op : Nat) (r : Req) (c : Nat) : s₀.keeps (s.request p op r c) := by
  simp [State.request, h]

@[simp] theorem execRead_keeps {s₀ s : State} (h : s₀.keeps s) (p : Nat) (r : Req) (c : Nat) : Ends s₀ (execRead p r c s) := by simp [execRead, h]

@[simp] theorem execWrite_keeps {s₀ s : State} (h : s₀.keeps s) (p : Nat) (r : Req) (c : Nat) : Ends s₀ (execWrite p r c s) := by simp [execWrite, h]

@[simp] theorem execPrefetch_keeps {s₀ s : State} (h : s₀.keeps s) (p : Nat) (r : Req) (c : Nat) : Ends s₀ (execPrefetch p r c s) := by
  simp [execPrefetch, h]

@[simp] theorem execZero_keeps {s₀ s : State} (h : s₀.keeps s) (p : Nat) (r : Req) (c : Nat) : Ends s₀ (execZero p r c s) := by simp [execZero, h]

@[simp] theorem execPreload_keeps {s₀ s : State} (h : s₀.keeps s) (p : Nat) (r : Req) (c : Nat) : Ends s₀ (execPreload p r c s) := by
  simp [execPreload, h]

@[simp] theorem execUnlock_keeps {s₀ s : State} (h : s₀.keeps s) (p : Nat) (r : Req) (c : Nat) : Ends s₀ (execUnlock p r c s) := by
  simp [execUnlock, h]

@[simp] theorem execHold_keeps {s₀ s : State} (h : s₀.keeps s) (p : Nat) (r : Req) (c : Nat) : Ends s₀ (execHold p r c s) := by simp [execHold, h]

@[simp] theorem execDrop_keeps {s₀ s : State} (h : s₀.keeps s) (p : Nat) (r : Req) (c : Nat) : Ends s₀ (execDrop p r c s) := by simp [execDrop, h]

@[simp] theorem execCreate_keeps {s₀ s : State} (h : s₀.keeps s) (p : Nat) (r : Req) (d : Option (BitVec 512)) (c : Nat) :
    Ends s₀ (execCreate p r d c s) := by
  unfold execCreate
  repeat' split
  all_goals simp [h]

@[simp] theorem execOpUnknown_keeps {s₀ s : State} (h : s₀.keeps s) (p op : Nat) (r : Req) (c : Nat) : Ends s₀ (execOpUnknown p op r c s) := by
  simp [execOpUnknown, h]

@[simp] theorem execWriteDataBeat_keeps {s₀ s : State} (h : s₀.keeps s) (p : Nat) (data : BitVec 512) (mask : BitVec 64) (last : Bool) (c : Nat) :
    Ends s₀ (execWriteDataBeat p data mask last c s) := by simp [execWriteDataBeat, h]

@[simp] theorem State.tryDetach_keeps {s₀ : State} (s : State) (p : Nat) : s₀.keepsToo tm im (s.tryDetach p) ↔ s₀.keepsToo tm im s := by
    simp [State.tryDetach]

@[simp] theorem State.forceDetach_keeps {s₀ : State} (s : State) (p cause : Nat) :
    s₀.keepsToo tm im (s.forceDetach p cause) ↔ s₀.keepsToo tm im s := by
  have hpass (s : State) (c : Prop) [Decidable c] (g e : Nat) : s₀.keepsToo tm im (if c then s.passOn g e else s) ↔ s₀.keepsToo tm im s := by
    split
    · simp
    · rfl
  unfold State.forceDetach
  dsimp only
  split
  · rfl
  · rw [State.raisePort_keeps, State.setBit_keeps, State.wr_keeps, State.dropHolds_keeps, hpass, State.endWaits_keeps,
      State.keeps_foldl (fun s r => by simp), State.keeps_foldl (fun s x => by simp), State.setPort_keeps, State.setQueue_keeps]

@[simp] theorem State.freezeChanged_keeps {s₀ : State} (s : State) (g : Nat) : s₀.keepsToo tm im (s.freezeChanged g) ↔ s₀.keepsToo tm im s := by
  simp [State.freezeChanged]

@[simp] theorem State.writeGrpCtl_keeps {s₀ s : State} (h : s₀.keeps s) (g w tgt : Nat) : s₀.keeps (s.writeGrpCtl g w tgt) := by
  simp [State.writeGrpCtl, h]

@[simp] theorem execLinkFreeze_keeps {s₀ s : State} (h : s₀.keeps s) (g : Nat) (w : Word) (tgt : Nat) : Ends s₀ (execLinkFreeze g w tgt s) := by
  simp +contextual [execLinkFreeze, h]

@[simp] theorem execLinkUnfreeze_keeps {s₀ s : State} (h : s₀.keeps s) (g : Nat) (w : Word) (tgt : Nat) : Ends s₀ (execLinkUnfreeze g w tgt s) := by
  simp +contextual [execLinkUnfreeze, h]

@[simp] theorem execLinkDrained_keeps {s₀ s : State} (h : s₀.keeps s) (g : Nat) : Ends s₀ (execLinkDrained g s) := by simp [execLinkDrained, h]

@[simp] theorem execResponseBeat_keeps {s₀ s : State} (h : s₀.keeps s) (p c : Nat) : Ends s₀ (execResponseBeat p c s) := by
  unfold execResponseBeat
  dsimp only
  repeat' split
  all_goals simp [h]

@[simp] theorem execAttachRequest_keeps {s₀ s : State} (h : s₀.keeps s) (p : Nat) : Ends s₀ (execAttachRequest p s) := by simp [execAttachRequest, h]

@[simp] theorem execPortAttach_keeps {s₀ s : State} (h : s₀.keeps s) (p : Nat) : Ends s₀ (execPortAttach p s) := by simp [execPortAttach, h]

@[simp] theorem execDetachRequest_keeps {s₀ s : State} (h : s₀.keeps s) (p : Nat) : Ends s₀ (execDetachRequest p s) := by
  unfold execDetachRequest
  dsimp only
  repeat' split
  all_goals simp [h]

@[simp] theorem execReqDetached_keeps {s₀ s : State} (h : s₀.keeps s) (p : Nat) : Ends s₀ (execReqDetached p s) := by simp [execReqDetached, h]

@[simp] theorem State.writePortCtl_keeps {s₀ s : State} (h : s₀.keeps s) (p w tgt : Nat) : s₀.keeps (s.writePortCtl p w tgt) := by
  simp [State.writePortCtl, h]

@[simp] theorem execPortForceDetach_keeps {s₀ s : State} (h : s₀.keeps s) (p : Nat) (w : Word) (tgt : Nat) :
    Ends s₀ (execPortForceDetach p w tgt s) := by simp +contextual [execPortForceDetach, h]

@[simp] theorem execCancelWait_keeps {s₀ s : State} (h : s₀.keeps s) (p : Nat) (w : Word) (tgt : Nat) : Ends s₀ (execCancelWait p w tgt s) := by
  simp +contextual [execCancelWait, h]

@[simp] theorem execViolRearm_keeps {s₀ s : State} (h : s₀.keeps s) (p : Nat) (w : Word) (tgt : Nat) : Ends s₀ (execViolRearm p w tgt s) := by
  simp +contextual [execViolRearm, h]

@[simp] theorem execLinkGrant_keeps {s₀ s : State} (h : s₀.keeps s) (g : Nat) : Ends s₀ (execLinkGrant g s) := by simp [execLinkGrant, h]

@[simp] theorem execLinkBeat_keeps {s₀ s : State} (h : s₀.keeps s) (g c : Nat) : Ends s₀ (execLinkBeat g c s) := by
  unfold execLinkBeat
  dsimp only
  repeat' split
  all_goals simp [h]

@[simp] theorem State.revokeOwner_keeps {s₀ : State} (s : State) (g i : Nat) : s₀.keepsToo tm im (s.revokeOwner g i) ↔ s₀.keepsToo tm im s := by
  simp [State.revokeOwner]

@[simp] theorem State.countRevoke_keeps {s₀ : State} (s : State) (g i : Nat) : s₀.keepsToo tm im (s.countRevoke g i) ↔ s₀.keepsToo tm im s := by
  simp [State.countRevoke]

@[simp] theorem execLinkRevoke_keeps {s₀ s : State} (h : s₀.keeps s) (g : Nat) : Ends s₀ (execLinkRevoke g s) := by
  unfold execLinkRevoke
  dsimp only
  repeat' split
  all_goals simp [h]

@[simp] theorem execLinkBite_keeps {s₀ s : State} (h : s₀.keeps s) (g : Nat) : Ends s₀ (execLinkBite g s) := by
  unfold execLinkBite
  dsimp only
  repeat' split
  all_goals simp [h]

@[simp] theorem execCreditRefill_keeps {s₀ s : State} (h : s₀.keeps s) (g : Nat) : Ends s₀ (execCreditRefill g s) := by simp [execCreditRefill, h]

@[simp] theorem execSquallRevoke_keeps {s₀ s : State} (h : s₀.keeps s) : Ends s₀ (execSquallRevoke s) := by
  unfold execSquallRevoke
  split
  · simpa using h
  · refine (ends_next _ _).mpr (State.keeps_foldl_of (fun s g hs => ?_) _ h)
    split
    · exact hs
    · split
      · exact hs
      · dsimp only
        split
        · simpa using hs
        · simpa using hs

/-! ### Halo -/

@[simp] theorem State.lostMerge_keeps {s₀ : State} (s : State) (g e n : Nat) (x : Line) (u : HUnit) :
    s₀.keepsToo tm im (s.lostMerge g e n x u) ↔ s₀.keepsToo tm im s := by
  unfold State.lostMerge
  split
  · simp
  · split
    · simp
    · simp

@[simp] theorem State.endShare_keeps {s₀ : State} (s : State) (g e : Nat) : s₀.keepsToo tm im (s.endShare g e) ↔ s₀.keepsToo tm im s := by
    simp [State.endShare]

@[simp] theorem State.placeUnit_keeps {s₀ : State} (s : State) (g e : Nat) (a : Arrival) : s₀.keepsToo tm im (s.placeUnit g e a) ↔
    s₀.keepsToo tm im s := by
  simp [State.placeUnit]

@[simp] theorem State.mergeArrives_keeps {s₀ : State} (s : State) (g : Nat) (a : Arrival) : s₀.keepsToo tm im (s.mergeArrives g a) ↔
    s₀.keepsToo tm im s := by
  simp [State.mergeArrives]

@[simp] theorem State.finishRaw_keeps {s₀ : State} (s : State) (g : Nat) (j : EncJob) : s₀.keepsToo tm im (s.finishRaw g j) ↔
    s₀.keepsToo tm im s := by
  simp [State.finishRaw]

@[simp] theorem State.finishRaws_keeps {s₀ : State} (s : State) (g : Nat) : s₀.keepsToo tm im (s.finishRaws g) ↔ s₀.keepsToo tm im s := by
    simp [State.finishRaws]

@[simp] theorem execFillUnitArrive_keeps {s₀ s : State} (h : s₀.keeps s) (g k : Nat) : Ends s₀ (execFillUnitArrive g k s) := by
  unfold execFillUnitArrive
  dsimp only
  repeat' split
  all_goals simp [h]

@[simp] theorem State.snoopAt_keeps {s₀ : State} (s : State) (g e : Nat) (claim : Bool) : s₀.keepsToo tm im (s.snoopAt g e claim) ↔
    s₀.keepsToo tm im s := by
  simp [State.snoopAt]

@[simp] theorem State.takeBus_keeps {s₀ : State} (s : State) (k : Nat) (n : Snoop) : s₀.keepsToo tm im (s.takeBus k n) ↔ s₀.keepsToo tm im s := by
  have hfold (l : List Nat) (b : State × Bool) (f : State × Bool → Nat → State × Bool) (hf : ∀ b g, s₀.keepsToo tm im (f b g).1 ↔
  s₀.keepsToo tm im b.1) :
      s₀.keepsToo tm im (l.foldl f b).1 ↔ s₀.keepsToo tm im b.1 := by
    induction l generalizing b with
    | nil => rfl
    | cons g l ih => rw [List.foldl_cons, ih, hf]
  unfold State.takeBus
  simp only []
  refine hfold _ _ _ fun b g => ?_
  split
  · simp
  · split
    · simp
    · simp

@[simp] theorem State.snoopStep_keeps {s₀ s : State} (h : s₀.keepsToo tm im s) (claim : Bool) : s₀.keepsToo tm im (s.snoopStep claim) := by
  unfold State.snoopStep
  repeat' split
  · exact h
  · exact h
  · exact State.pump_keeps ((State.takeBus_keeps _ _ _).mpr h)
  · exact h

@[simp] theorem execSnoopShare_keeps {s₀ s : State} (h : s₀.keeps s) : Ends s₀ (execSnoopShare s) := by simp [execSnoopShare, h]

@[simp] theorem execSnoopClaim_keeps {s₀ s : State} (h : s₀.keeps s) : Ends s₀ (execSnoopClaim s) := by simp [execSnoopClaim, h]

@[simp] theorem State.followUp_keeps {s₀ : State} (s : State) (n : Snoop) : s₀.keepsToo tm im (s.followUp n) ↔ s₀.keepsToo tm im s := by
  unfold State.followUp
  refine State.keeps_foldl (fun s k => ?_) _ s
  split
  · simp
  · rfl

@[simp] theorem State.snoopAct_keeps {s₀ s : State} (h : s₀.keepsToo tm im s) (n : Snoop) : s₀.keepsToo tm im (s.snoopAct n) := by
  unfold State.snoopAct
  repeat' split
  all_goals simp [h]

@[simp] theorem State.dropClaimed_keeps {s₀ : State} (s : State) (n : Snoop) : s₀.keepsToo tm im (s.dropClaimed n) ↔ s₀.keepsToo tm im s := by
    simp [State.dropClaimed]

@[simp] theorem execSnoopAcksDone_keeps {s₀ s : State} (h : s₀.keeps s) (k : Nat) : Ends s₀ (execSnoopAcksDone k s) := by
  unfold execSnoopAcksDone
  repeat' split
  all_goals simp [h]

@[simp] theorem execEvictWritebackUnit_keeps {s₀ s : State} (h : s₀.keeps s) (g : Nat) : Ends s₀ (execEvictWritebackUnit g s) := by
  unfold execEvictWritebackUnit
  split
  · simpa using h
  · exact (ends_next _ _).mpr (State.pump_keeps (by simpa using h))

@[simp] theorem State.invEntry_keeps {s₀ : State} (s : State) (g e : Nat) (discard : Bool) : s₀.keepsToo tm im (s.invEntry g e discard) ↔
    s₀.keepsToo tm im s := by
  simp [State.invEntry]

@[simp] theorem State.invSlice_keeps {s₀ : State} (s : State) (g : Nat) (cover : LTag → Bool) (discard : Bool) :
    s₀.keepsToo tm im (s.invSlice g cover discard) ↔ s₀.keepsToo tm im s := by simp [State.invSlice]

@[simp] theorem State.invGo_keeps {s₀ s : State} (h : s₀.keepsToo tm im s) (g : Nat) : s₀.keepsToo tm im (s.invGo g).1 := by simp [State.invGo, h]

@[simp] theorem execHaloInvDone_keeps {s₀ s : State} (h : s₀.keeps s) (g : Nat) : Ends s₀ (execHaloInvDone g s) := by simp [execHaloInvDone, h]

@[simp] theorem State.writeInv_keeps {s₀ s : State} (h : s₀.keeps s) (g o w tgt : Nat) : s₀.keeps (s.writeInv g o w tgt) := by
  simp +contextual [State.writeInv, h]

@[simp] theorem execHaloInvalidate_keeps {s₀ s : State} (h : s₀.keeps s) (g : Nat) (w : Word) (tgt : Nat) :
    Ends s₀ (execHaloInvalidate g w tgt s) := by simp +contextual [execHaloInvalidate, h]

@[simp] theorem State.writeHaloCtl_keeps {s₀ s : State} (h : s₀.keeps s) (g w tgt : Nat) : s₀.keeps (s.writeHaloCtl g w tgt) := by
  simp [State.writeHaloCtl, h]

@[simp] theorem execHaloRearm_keeps {s₀ s : State} (h : s₀.keeps s) (g : Nat) (w : Word) (tgt : Nat) : Ends s₀ (execHaloRearm g w tgt s) := by
  simp +contextual [execHaloRearm, h]

/-! ### Cirrus -/

@[simp] theorem State.cirCapture_keeps {s₀ : State} (s : State) (t : LTag) (c cause write retried : Nat) :
    s₀.keepsToo tm im (s.cirCapture t c cause write retried) ↔ s₀.keepsToo tm im s := by simp [State.cirCapture]

@[simp] theorem State.raiseCir_keeps {s₀ : State} (s : State) (f : Fld) (n : Nat) : s₀.keepsToo tm im (s.raiseCir f n) ↔
    s₀.keepsToo tm im s := by simp [State.raiseCir]

@[simp] theorem State.cellOk_keeps {s₀ : State} (s : State) (g : Nat) (u : SubReq) (l : List Nat) : s₀.keepsToo tm im (s.cellOk g u l) ↔
    s₀.keepsToo tm im s := by
  simp [State.cellOk]

@[simp] theorem State.cellFails_keeps {s₀ : State} (s : State) (g : Nat) (j : DecJob) (cause : Nat) (retried : Bool) :
    s₀.keepsToo tm im (s.cellFails g j cause retried) ↔ s₀.keepsToo tm im s := by simp [State.cellFails]

@[simp] theorem execCellCheck_keeps {s₀ s : State} (h : s₀.keeps s) (g k : Nat) : Ends s₀ (execCellCheck g k s) := by
  unfold execCellCheck
  dsimp only
  repeat' split
  all_goals simp [h]

@[simp] theorem execCirRetryResult_keeps {s₀ s : State} (h : s₀.keeps s) (g k : Nat) (linkFail : Bool) :
    Ends s₀ (execCirRetryResult g k linkFail s) := by
  unfold execCirRetryResult
  dsimp only
  repeat' split
  all_goals simp [h]

@[simp] theorem State.encodePoison_keeps {s₀ : State} (s : State) (g : Nat) (j : EncJob) (u : SubReq) :
    s₀.keepsToo tm im (s.encodePoison g j u) ↔ s₀.keepsToo tm im s := by simp [State.encodePoison]

@[simp] theorem State.encode_keeps {s₀ : State} (s : State) (g : Nat) (j : EncJob) (u : SubReq) : s₀.keepsToo tm im (s.encode g j u) ↔
    s₀.keepsToo tm im s := by
  simp [State.encode]

@[simp] theorem execCellEncodeDone_keeps {s₀ s : State} (h : s₀.keeps s) (g k : Nat) : Ends s₀ (execCellEncodeDone g k s) := by
  unfold execCellEncodeDone
  repeat' split
  all_goals simp [h]

@[simp] theorem State.writeCirCtl_keeps {s₀ s : State} (h : s₀.keeps s) (w tgt : Nat) : s₀.keeps (s.writeCirCtl w tgt) := by
  simp [State.writeCirCtl, h]

@[simp] theorem execCirRearm_keeps {s₀ s : State} (h : s₀.keeps s) (w : Word) (tgt : Nat) : Ends s₀ (execCirRearm w tgt s) := by
  simp +contextual [execCirRearm, h]

/-! ### Flow -/

@[simp] theorem State.assignFlow_keeps {s₀ : State} (s : State) (f b colour : Nat) : s₀.keepsToo tm im (s.assignFlow f b colour).2.2.2 ↔
    s₀.keepsToo tm im s := by
  unfold State.assignFlow
  dsimp only
  repeat' split
  all_goals simp

@[simp] theorem State.injectG_keeps {s₀ : State} (s : State) (ch a : Nat) (l m : List (Nat × Byte)) :
    s₀.keepsToo tm im (s.injectG ch a l m).2.2 ↔ s₀.keepsToo tm im s := by
  unfold State.injectG
  dsimp only
  split
  · rfl
  · split
    · rfl
    · simp

@[simp] theorem State.injectS_keeps {s₀ : State} (s : State) (u : SubReq) : s₀.keepsToo tm im (s.injectS u).2 ↔ s₀.keepsToo tm im s := by
    simp [State.injectS]

@[simp] theorem State.noteWritten_keeps {s₀ : State} (s : State) (ch : Nat) (l : List Nat) : s₀.keepsToo tm im (s.noteWritten ch l) ↔
    s₀.keepsToo tm im s := by
  simp [State.noteWritten]

@[simp] theorem State.enqueue_keeps {s₀ s : State} (h : s₀.keepsToo tm im s) (u : SubReq) (p : At) (guarded : Bool) (mode cls : Nat) (yellow : Bool) (urg :
    Nat) :
    s₀.keepsToo tm im (s.enqueue u p guarded mode cls yellow urg) := by
  have hinject (c : Prop) [Decidable c] (l m : List (Nat × Byte)) : s₀.keepsToo tm im (if c then s.injectG p.ch p.a l m else (l, m, s)).2.2 := by
    split
    · exact (State.injectG_keeps _ _ _ _ _).mpr h
    · exact h
  unfold State.enqueue
  refine State.keeps_ite_of ?_ ?_
  · exact State.keeps_ite_right (fun hs => (State.setChan_keeps _ _ _).mpr hs)
      ((State.count_keeps _ _).mpr ((State.bump_keeps _ _ _ _ _).mpr (hinject _ _ _)))
  · refine State.cellsPut_keeps (State.cellsPut_keeps ?_ _) _
    refine State.keeps_ite_left (fun hs => (State.noteWritten_keeps _ _ _).mpr hs) ((State.setChan_keeps _ _ _).mpr ?_)
    refine State.keeps_ite_right (fun hs => (State.count_keeps _ _).mpr hs) ?_
    refine State.keeps_ite_right (fun hs => ?_) (State.keeps_ite_left (fun hs => (State.count_keeps _ _).mpr hs) (hinject _ _ _))
    exact State.keeps_ite_left (fun hs => (State.spareCheck_keeps _ _ _ _ _ _).mpr hs) ((State.spareCheck_keeps _ _ _ _ _ _).mpr hs)

@[simp] theorem State.countAssign_keeps {s₀ : State} (s : State) (u : SubReq) (cls colour row urg : Nat) :
    s₀.keepsToo tm im (s.countAssign u cls colour row urg) ↔ s₀.keepsToo tm im s := by simp [State.countAssign]

@[simp] theorem State.trailSub_keeps {s₀ : State} (s : State) (u : SubReq) (cls ch : Nat) : s₀.keepsToo tm im (s.trailSub u cls ch).2 ↔
    s₀.keepsToo tm im s := by
  unfold State.trailSub
  repeat' split
  all_goals simp

@[simp] theorem State.enterPart_keeps {s₀ s : State} (h : s₀.keepsToo tm im s) (u : SubReq) (p : Nat × Nat × Route) (guarded : Bool) (cls : Nat) (yellow :
    Bool) (urg : Nat) :
    s₀.keepsToo tm im (s.enterPart u p guarded cls yellow urg) := by
  unfold State.enterPart
  repeat' split
  all_goals simp [h]

@[simp] theorem State.assignTo_keeps {s₀ s : State} (h : s₀.keepsToo tm im s) (u : SubReq) (parts : List (Nat × Nat × Route)) (guarded : Bool) :
    s₀.keepsToo tm im (s.assignTo u parts guarded) := by
  have hnamed (f b colour c : Nat) (d : Prop) [Decidable d] (o : Option Nat) {t : State} (ht : s₀.keepsToo tm im t) : s₀.keepsToo tm im (match o with
      | some n => (n, 0, 0, t)
      | none => if d then (c, 0, 0, t) else t.assignFlow f b colour).2.2.2 := by
    repeat' split
    · exact ht
    · exact ht
    · exact (State.assignFlow_keeps _ _ _ _).mpr ht
  unfold State.assignTo
  refine State.pump_keeps ((State.settle_keeps _ _).mpr (State.keeps_ite_left (fun hs => (State.partDone_keeps _ _ _).mpr hs) ?_))
  refine State.keeps_ite_of (State.keeps_ite_right (fun hs => (State.noPayload_keeps _ _ _).mpr hs) ?_)
    (State.keeps_ite_right (fun hs => (State.setPort_keeps _ _ _).mpr hs) (State.keeps_foldl_of (fun _ p hs => State.enterPart_keeps hs _ p _ _ _ _)
    _ ?_))
  all_goals
    refine (State.injectS_keeps _ _).mpr (State.keeps_ite_left (fun hs => (State.count_keeps _ _).mpr hs) ((State.trailSub_keeps _ _ _ _).mpr ?_))
    refine State.keeps_ite_of ((State.count_keeps _ _).mpr ?_) ((State.countAssign_keeps _ _ _ _ _ _).mpr ?_)
    all_goals
      exact State.keeps_ite_right (fun hs => (State.count_keeps _ _).mpr hs) (hnamed _ _ _ _ _ _ h)

@[simp] theorem State.noteWait_keeps {s₀ : State} (s : State) (u : SubReq) : s₀.keepsToo tm im (s.noteWait u) ↔ s₀.keepsToo tm im s := by
  unfold State.noteWait
  dsimp only
  repeat' split
  all_goals simp

@[simp] theorem State.touchFlow_keeps {s₀ : State} (s : State) (f : Nat) : s₀.keepsToo tm im (s.touchFlow f) ↔ s₀.keepsToo tm im s := by
    simp [State.touchFlow]

@[simp] theorem State.servedAt_keeps {s₀ : State} (s : State) (u : SubReq) : s₀.keepsToo tm im (s.servedAt u) ↔ s₀.keepsToo tm im s := by
  unfold State.servedAt
  repeat' split
  all_goals simp

@[simp] theorem execSubrequestAssign_keeps {s₀ s : State} (h : s₀.keeps s) (k c : Nat) : Ends s₀ (execSubrequestAssign k c s) := by
  unfold execSubrequestAssign
  dsimp only
  repeat' split
  all_goals simp [h]

@[simp] theorem execBudgetWindowStart_keeps {s₀ s : State} (h : s₀.keeps s) (i c : Nat) : Ends s₀ (execBudgetWindowStart i c s) := by
  simp [execBudgetWindowStart, h]

@[simp] theorem State.ctxWrite_keeps {s₀ s : State} (h : s₀.keepsToo tm im s) (f : Nat) : s₀.keepsToo tm im (s.ctxWrite f) := by
    simp [State.ctxWrite, h]

@[simp] theorem State.ctxLost_keeps {s₀ : State} (s : State) (f lost cls : Nat) : s₀.keepsToo tm im (s.ctxLost f lost cls) ↔ s₀.keepsToo tm im s := by
  simp [State.ctxLost]

@[simp] theorem State.cacheFlow_keeps {s₀ s : State} (h : s₀.keepsToo tm im s) (f : Nat) : s₀.keepsToo tm im (s.cacheFlow f) := by
  unfold State.cacheFlow
  dsimp only
  repeat' split
  all_goals simp [h]

@[simp] theorem State.classKnown_keeps {s₀ : State} (s : State) (f : Nat) : s₀.keepsToo tm im (s.classKnown f) ↔ s₀.keepsToo tm im s := by
    simp [State.classKnown]

@[simp] theorem execFlowContextFill_keeps {s₀ s : State} (h : s₀.keeps s) (f lost : Nat) : Ends s₀ (execFlowContextFill f lost s) := by
  simp [execFlowContextFill, h]

@[simp] theorem execUrgencyUpdate_keeps {s₀ s : State} (h : s₀.keeps s) (f c : Nat) : Ends s₀ (execUrgencyUpdate f c s) := by
  simp [execUrgencyUpdate, h]

@[simp] theorem execFlowSweep_keeps {s₀ s : State} (h : s₀.keeps s) (f c : Nat) : Ends s₀ (execFlowSweep f c s) := by simp [execFlowSweep, h]

@[simp] theorem State.readAtoms_keeps {s₀ : State} (s : State) (ch : Nat) (q : QEnt) : s₀.keepsToo tm im (s.readAtoms ch q).2 ↔
    s₀.keepsToo tm im s := by
  have hfold (l : List Nat) (b : List (Nat × List Byte) × State) (f : List (Nat × List Byte) × State → Nat → List (Nat × List Byte) × State)
      (hf : ∀ b i, s₀.keepsToo tm im (f b i).2 ↔ s₀.keepsToo tm im b.2) : s₀.keepsToo tm im (l.foldl f b).2 ↔ s₀.keepsToo tm im b.2 := by
    induction l generalizing b with
    | nil => rfl
    | cons i l ih => rw [List.foldl_cons, ih, hf]
  unfold State.readAtoms
  dsimp only
  rw [hfold]
  · simp
  · intro b i
    repeat' split
    all_goals simp

@[simp] theorem State.deliver_keeps {s₀ : State} (s : State) (q : QEnt) (l : List (Nat × List Byte)) (failed : Bool) :
    s₀.keepsToo tm im (s.deliver q l failed) ↔ s₀.keepsToo tm im s := by simp [State.deliver]

@[simp] theorem State.linkOutcome_keeps {s₀ : State} (s : State) (ch : Nat) (again : Bool) (b : CEnt) (link : Nat) :
    s₀.keepsToo tm im (s.linkOutcome ch again b link).2.2 ↔ s₀.keepsToo tm im s := by
  unfold State.linkOutcome
  dsimp only
  repeat' split
  all_goals simp

@[simp] theorem State.linkError_keeps {s₀ : State} (s : State) (ch link rank : Nat) (again : Bool) :
    s₀.keepsToo tm im (s.linkError ch link rank again) ↔ s₀.keepsToo tm im s := by simp [State.linkError]

@[simp] theorem State.linkBursts_keeps {s₀ : State} (s : State) (ch : Nat) (q : QEnt) (link : List Nat) :
    s₀.keepsToo tm im (s.linkBursts ch q link).2 ↔ s₀.keepsToo tm im s := by
  have hfold (l : List Nat) (b : (List CEnt × QEnt) × State) (f : (List CEnt × QEnt) × State → Nat → (List CEnt × QEnt) × State)
      (hf : ∀ b i, s₀.keepsToo tm im (f b i).2 ↔ s₀.keepsToo tm im b.2) : s₀.keepsToo tm im (l.foldl f b).2 ↔ s₀.keepsToo tm im b.2 := by
    induction l generalizing b with
    | nil => rfl
    | cons i l ih => rw [List.foldl_cons, ih, hf]
  unfold State.linkBursts
  refine hfold _ _ _ fun b i => ?_
  repeat' split
  · rfl
  all_goals simp

@[simp] theorem State.deliverPart_keeps {s₀ : State} (s : State) (q : QEnt) (l : List (Nat × List Byte)) (failed : Bool) :
    s₀.keepsToo tm im (s.deliverPart q l failed) ↔ s₀.keepsToo tm im s := by
  unfold State.deliverPart
  repeat' split
  all_goals simp

@[simp] theorem State.readBack_keeps {s₀ s : State} (h : s₀.keepsToo tm im s) (ch : Nat) (q : QEnt) : s₀.keepsToo tm im (s.readBack ch q) := by
  unfold State.readBack
  dsimp only
  refine State.pump_keeps ?_
  split
  · simpa using h
  · simpa using h

@[simp] theorem execReadDataReturn_keeps {s₀ s : State} (h : s₀.keeps s) (ch : Nat) (link : List Nat) : Ends s₀ (execReadDataReturn ch link s) := by
  unfold execReadDataReturn
  repeat' split
  all_goals simp [h]

@[simp] theorem execEntryPass_keeps {s₀ s : State} (h : s₀.keeps s) (ch c : Nat) : Ends s₀ (execEntryPass ch c s) := by
  unfold execEntryPass
  dsimp only
  repeat' split
  all_goals simp [h]

/-! ### Moves -/

@[simp] theorem State.setMove_keeps {s₀ : State} (s : State) (m : Move) : s₀.keepsToo tm im (s.setMove m) ↔ s₀.keepsToo tm im s := by
    simp [State.setMove]

theorem State.takeMove_keeps {s₀ s t : State} {d kind k : Nat} {l : List Nat} (htake : s.takeMove d kind k = some (l, t)) (h : s₀.keepsToo tm im s) :
    s₀.keepsToo tm im t := by
  unfold State.takeMove at htake
  simp only [Option.ite_none_left_eq_some, Option.some.injEq, Prod.mk.injEq] at htake
  obtain ⟨-, -, rfl⟩ := htake
  rw [State.keeps_foldl (fun s n => by simp), State.count_keeps, State.keeps_foldl (fun s e => by simp)]
  simpa using h

@[simp] theorem State.giveMove_keeps {s₀ : State} (s : State) (l : List Nat) : s₀.keepsToo tm im (s.giveMove l) ↔ s₀.keepsToo tm im s := by
    simp [State.giveMove]

@[simp] theorem State.poisonRsv_keeps {s₀ s : State} (h : s₀.keepsToo tm im s) (ch e : Nat) : s₀.keepsToo tm im (s.poisonRsv ch e) := by
  have hfill {s : State} (h : s₀.keepsToo tm im s) (c : Prop) [Decidable c] (k : Nat) (l : List Byte) :
  s₀.keepsToo tm im (if c then s.cellsFill k l else s) := by
    split
    · exact State.cellsFill_keeps h _ _
    · exact h
  unfold State.poisonRsv
  exact State.keeps_foldl_of (fun s _ hs => State.keeps_foldl_of (fun s _ hs => hfill (hfill hs _ _ _) _ _ _) _ hs) _ h

@[simp] theorem State.poisonExt_keeps {s₀ s : State} (h : s₀.keepsToo tm im s) (ch : Nat) (e : Nat × Nat × Nat) (o : Nat) :
    s₀.keepsToo tm im (s.poisonExt ch e o) := by
  unfold State.poisonExt
  dsimp only
  repeat' split
  · exact State.cellsFill_keeps h _ _
  · exact State.cellsFill_keeps h _ _
  · exact State.poisonRsv_keeps h _ _
  · exact State.cellsFill_keeps h _ _

@[simp] theorem State.poisonRun_keeps {s₀ s : State} (h : s₀.keepsToo tm im s) (ch role n skip : Nat) (l : List Nat) :
    s₀.keepsToo tm im (s.poisonRun ch role n skip l) := by
  unfold State.poisonRun
  refine State.keeps_foldl_of (fun s i hs => ?_) _ h
  dsimp only
  split
  · exact hs
  · exact (State.engineBytes_keeps _ _ _ _).mpr (State.poisonExt_keeps hs _ _ _)

@[simp] theorem State.poisonUnit_keeps {s₀ s : State} (h : s₀.keepsToo tm im s) (u : MoveUnit) (m : Move) : s₀.keepsToo tm im (s.poisonUnit u m) := by
  unfold State.poisonUnit
  split
  · refine State.keeps_foldl_of (fun s r hs => ?_) _ h
    split
    · exact hs
    · exact State.poisonRun_keeps (State.poisonRun_keeps hs _ _ _ _ _) _ _ _ _ _
  · dsimp only
    repeat' split
    · exact (State.hdrsLost_keeps _ _).mpr (State.poisonRun_keeps h _ _ _ _ _)
    · exact State.poisonRun_keeps (State.poisonRun_keeps h _ _ _ _ _) _ _ _ _ _
    · exact h

theorem State.beginUnit_keeps {s₀ s t : State} {u : MoveUnit} {d : Nat} (hbegin : s.beginUnit u d = some t) (h : s₀.keepsToo tm im s) :
    s₀.keepsToo tm im t := by
  unfold State.beginUnit at hbegin
  dsimp only at hbegin
  split at hbegin
  · cases hbegin
  · next htake =>
    cases hbegin
    simpa using State.takeMove_keeps htake (by simpa using h)

@[simp] theorem State.holdMove_keeps {s₀ : State} (s : State) : s₀.keepsToo tm im s.holdMove ↔ s₀.keepsToo tm im s := by simp [State.holdMove]

@[simp] theorem State.retire_keeps {s₀ s : State} (h : s₀.keepsToo tm im s) (ch : Nat) : s₀.keepsToo tm im (s.retire ch) := by simp [State.retire, h]

@[simp] theorem State.moveEnd_keeps {s₀ s : State} (h : s₀.keepsToo tm im s) (m : Move) : s₀.keepsToo tm im (s.moveEnd m) := by
    simp [State.moveEnd, h]

@[simp] theorem State.endMove_keeps {s₀ s : State} (h : s₀.keepsToo tm im s) : s₀.keepsToo tm im s.endMove := by simp [State.endMove, h]

@[simp] theorem State.adopt_keeps {s₀ : State} (s : State) : s₀.keepsToo tm im s.adopt ↔ s₀.keepsToo tm im s := by simp [State.adopt]

theorem State.tryUnit_keeps {s₀ s t : State} {u : MoveUnit} (htry : s.tryUnit u = some t) (h : s₀.keepsToo tm im s) : s₀.keepsToo tm im t := by
  unfold State.tryUnit at htry
  split at htry
  · cases htry
    simpa using h
  · obtain ⟨d, -, hbegin⟩ := Option.bind_eq_some_iff.mp htry
    exact State.beginUnit_keeps hbegin h

@[simp] theorem State.goOn_keeps {s₀ s : State} (h : s₀.keepsToo tm im s) : s₀.keepsToo tm im s.goOn := by
  unfold State.goOn
  dsimp only
  repeat' split
  · exact h
  · exact State.endMove_keeps h
  · exact State.endMove_keeps h
  · exact h
  · exact State.keeps_getD (fun _ ht => State.tryUnit_keeps ht h) (by simpa using h)

@[simp] theorem State.dropUnit_keeps {s₀ : State} (s : State) : s₀.keepsToo tm im s.dropUnit ↔ s₀.keepsToo tm im s := by simp [State.dropUnit]

@[simp] theorem State.park_keeps {s₀ : State} (s : State) : s₀.keepsToo tm im s.park ↔ s₀.keepsToo tm im s := by simp [State.park]

@[simp] theorem State.handOn_keeps {s₀ s : State} (h : s₀.keepsToo tm im s) : s₀.keepsToo tm im s.handOn := by simp [State.handOn, h]

@[simp] theorem State.laneMoved_keeps {s₀ : State} (s : State) (set l d : Nat) (main comp : List Nat) :
    s₀.keepsToo tm im (s.laneMoved set l d main comp) ↔ s₀.keepsToo tm im s := by simp [State.laneMoved]

@[simp] theorem State.finishUnit_keeps {s₀ s : State} (h : s₀.keepsToo tm im s) : s₀.keepsToo tm im s.finishUnit := by
  unfold State.finishUnit
  dsimp only
  repeat' split
  all_goals simp [h]

@[simp] theorem State.stopUnit_keeps {s₀ s : State} (h : s₀.keepsToo tm im s) : s₀.keepsToo tm im s.stopUnit := by simp [State.stopUnit, h]

@[simp] theorem State.stopFreed_keeps {s₀ s : State} (h : s₀.keepsToo tm im s) : s₀.keepsToo tm im s.stopFreed := by simp [State.stopFreed, h]

@[simp] theorem State.copyAtom_keeps {s₀ s : State} (h : s₀.keepsToo tm im s) (src dst : At) (o cls : Nat) :
    s₀.keepsToo tm im (s.copyAtom src dst o cls) := by
  simp [State.copyAtom, h]

@[simp] theorem State.copyRaw_keeps {s₀ s : State} (h : s₀.keepsToo tm im s) (sc sa dc da n cls : Nat) :
    s₀.keepsToo tm im (s.copyRaw sc sa dc da n cls) := by
  simp [State.copyRaw, h]

@[simp] theorem State.copyPiece_keeps {s₀ s : State} (h : s₀.keepsToo tm im s) (chunk piece cls : Nat) :
    s₀.keepsToo tm im (s.copyPiece chunk piece cls) := by
  unfold State.copyPiece
  repeat' split
  · exact h
  · exact State.copyRaw_keeps (State.copyRaw_keeps h _ _ _ _ _ _) _ _ _ _ _ _
  · exact State.keeps_foldl_of (fun s k hs => State.copyAtom_keeps hs _ _ _ _) _ h
  · exact State.copyRaw_keeps h _ _ _ _ _ _

@[simp] theorem State.pieceBytes_keeps {s₀ : State} (s : State) (chunk piece cls : Nat) : s₀.keepsToo tm im (s.pieceBytes chunk piece cls) ↔
    s₀.keepsToo tm im s := by
  unfold State.pieceBytes
  split
  · rfl
  · simp

@[simp] theorem execPieceCopyDone_keeps {s₀ s : State} (h : s₀.keeps s) : Ends s₀ (execPieceCopyDone s) := by
  unfold execPieceCopyDone
  dsimp only
  repeat' split
  all_goals simp [h]

@[simp] theorem State.replaceStops_keeps {s₀ : State} (s : State) : s₀.keepsToo tm im s.replaceStops ↔ s₀.keepsToo tm im s := by
    simp [State.replaceStops]

@[simp] theorem execChunkCopied_keeps {s₀ s : State} (h : s₀.keeps s) : Ends s₀ (execChunkCopied s) := by
  have hnext (m : Move) : s₀.keeps ((s.setMove m).count { ev := 0x079 }) := by simpa using h
  unfold execChunkCopied
  dsimp only
  repeat' split
  · exact (ends_next _ _).mpr (State.handOn_keeps h)
  · exact (ends_next _ _).mpr (State.goOn_keeps h)
  · exact (ends_next _ _).mpr h
  · exact (ends_next _ _).mpr (State.stopFreed_keeps h)
  · exact (ends_next _ _).mpr h
  · exact (ends_next _ _).mpr (State.handOn_keeps (State.finishUnit_keeps (State.poisonUnit_keeps h _ _)))
  · exact (ends_next _ _).mpr h
  · exact (ends_next _ _).mpr (State.handOn_keeps (State.finishUnit_keeps h))
  · exact (ends_next _ _).mpr h
  · exact (ends_next _ _).mpr (State.handOn_keeps (State.finishUnit_keeps (hnext _)))
  · exact (ends_next _ _).mpr (State.handOn_keeps ((State.replaceStops_keeps _).mpr (hnext _)))

@[simp] theorem State.startMove_keeps {s₀ s : State} (h : s₀.keepsToo tm im s) (m : Move) : s₀.keepsToo tm im (s.startMove m) := by
    simp [State.startMove, h]

@[simp] theorem State.startEvac_keeps {s₀ s : State} (h : s₀.keepsToo tm im s) (ch : Nat) (retire : Bool) :
    s₀.keepsToo tm im (s.startEvac ch retire) := by
  simp [State.startEvac, h]

@[simp] theorem State.evacGo_keeps {s₀ s : State} (h : s₀.keepsToo tm im s) : s₀.keepsToo tm im s.evacGo.1 := by simp [State.evacGo, h]

@[simp] theorem State.evacCancel_keeps {s₀ s : State} (h : s₀.keepsToo tm im s) : s₀.keepsToo tm im s.evacCancel := by simp [State.evacCancel, h]

@[simp] theorem State.writeEvacCtl_keeps {s₀ s : State} (h : s₀.keeps s) (w tgt : Nat) : s₀.keeps (s.writeEvacCtl w tgt) := by
  simp +contextual [State.writeEvacCtl, h]

@[simp] theorem execEvacStart_keeps {s₀ s : State} (h : s₀.keeps s) (w : Word) (tgt : Nat) : Ends s₀ (execEvacStart w tgt s) := by
  simp +contextual [execEvacStart, h]

@[simp] theorem execEvacCancel_keeps {s₀ s : State} (h : s₀.keeps s) (w : Word) (tgt : Nat) : Ends s₀ (execEvacCancel w tgt s) := by
  simp +contextual [execEvacCancel, h]

@[simp] theorem State.migrateGo_keeps {s₀ s : State} (h : s₀.keepsToo tm im s) : s₀.keepsToo tm im s.migrateGo.1 := by simp [State.migrateGo, h]

@[simp] theorem State.writeMigrateCtl_keeps {s₀ s : State} (h : s₀.keeps s) (w tgt : Nat) : s₀.keeps (s.writeMigrateCtl w tgt) := by
  simp +contextual [State.writeMigrateCtl, h]

@[simp] theorem execMigrateStart_keeps {s₀ s : State} (h : s₀.keeps s) (w : Word) (tgt : Nat) : Ends s₀ (execMigrateStart w tgt s) := by
  simp +contextual [execMigrateStart, h]

@[simp] theorem execAutoEvacStart_keeps {s₀ s : State} (h : s₀.keeps s) (ch : Nat) : Ends s₀ (execAutoEvacStart ch s) := by
  simp [execAutoEvacStart, h]

theorem State.retake_keeps {s₀ s t : State} {u : MoveUnit} (htake : s.retake u = some t) (h : s₀.keepsToo tm im s) : s₀.keepsToo tm im t := by
  unfold State.retake at htake
  dsimp only at htake
  split at htake
  · cases htake
  · split at htake
    · cases htake
    · next hmove =>
      cases htake
      simpa using State.takeMove_keeps hmove h

@[simp] theorem execReplaceRound_keeps {s₀ s : State} (h : s₀.keeps s) : Ends s₀ (execReplaceRound s) := by
  unfold execReplaceRound
  repeat' split
  · exact (ends_next _ _).mpr h
  · simpa using h
  · exact (ends_next _ _).mpr (State.keeps_getD (fun _ ht => State.beginUnit_keeps ht (by simpa using h)) (by simpa using h))

@[simp] theorem State.resumeUnit_keeps {s₀ s : State} (h : s₀.keepsToo tm im s) : s₀.keepsToo tm im s.resumeUnit := by
  unfold State.resumeUnit
  repeat' split
  · exact h
  · simpa using h
  · exact State.keeps_getD (fun _ ht => State.beginUnit_keeps ht h) h
  · exact State.endMove_keeps h
  · exact State.keeps_getD (fun _ ht => State.tryUnit_keeps ht h) h

@[simp] theorem execMoveResume_keeps {s₀ s : State} (h : s₀.keeps s) : Ends s₀ (execMoveResume s) := by
  unfold execMoveResume
  dsimp only
  repeat' split
  · exact (ends_next _ _).mpr h
  · exact (ends_next _ _).mpr (State.handOn_keeps h)
  · exact (ends_next _ _).mpr (State.goOn_keeps h)
  · exact (ends_next _ _).mpr h
  · exact (ends_next _ _).mpr (State.stopFreed_keeps h)
  · exact (ends_next _ _).mpr (State.keeps_getD (fun _ ht => State.retake_keeps ht h) h)
  · exact (ends_next _ _).mpr (State.resumeUnit_keeps h)

@[simp] theorem State.rehomeReserve_keeps {s₀ s : State} (h : s₀.keepsToo tm im s) : s₀.keepsToo tm im s.rehomeReserve := by
  unfold State.rehomeReserve
  refine State.keeps_foldl_of (fun s ch hs => ?_) _ h
  split
  · exact hs
  · refine State.keeps_foldl_of (fun s l hs => ?_) _ hs
    split
    · exact hs
    · split
      · exact hs
      · next htake => simpa using State.takeMove_keeps htake hs

/-! ### Integrity -/

@[simp] theorem State.raiseInt_keeps {s₀ : State} (s : State) (f : Fld) (n : Nat) : s₀.keepsToo tm im (s.raiseInt f n) ↔
    s₀.keepsToo tm im s := by simp [State.raiseInt]

@[simp] theorem State.zeroUnit_keeps {s₀ s : State} (h : s₀.keepsToo tm im s) (r : RegionRec) (u cls : Nat) :
    s₀.keepsToo tm im (s.zeroUnit r u cls) := by
  have hone {s : State} (h : s₀.keepsToo tm im s) (p : At) (c : Nat) (l : List Byte) : s₀.keepsToo tm im (if s.inService p.ch then
      ((s.cellsFill (memKey p.ch p.a) l).cellsFill (memKey p.ch p.ca) l).engineBytes p.ch c 1024 else s) := by
    split
    · exact (State.engineBytes_keeps _ _ _ _).mpr (State.cellsFill_keeps (State.cellsFill_keeps h _ _) _ _)
    · exact h
  unfold State.zeroUnit
  refine State.keeps_foldl_of (fun s t hs => ?_) _ h
  dsimp only
  split
  · exact hone (hone hs _ _ _) _ _ _
  · exact hone hs _ _ _

@[simp] theorem State.initHome_keeps {s₀ s : State} (h : s₀.keepsToo tm im s) (r : RegionRec) : s₀.keepsToo tm im (s.initHome r) := by
    simp [State.initHome, h]

@[simp] theorem State.markUnit_keeps {s₀ : State} (s : State) (r : RegionRec) (u : Nat) : s₀.keepsToo tm im (s.markUnit r u) ↔
    s₀.keepsToo tm im s := by
  simp [State.markUnit]

@[simp] theorem execInitUnitWrite_keeps {s₀ s : State} (h : s₀.keeps s) (r u : Nat) : Ends s₀ (execInitUnitWrite r u s) := by
  unfold execInitUnitWrite
  repeat' split
  all_goals simp [h]

@[simp] theorem execContentLossMark_keeps {s₀ s : State} (h : s₀.keeps s) (ch u : Nat) : Ends s₀ (execContentLossMark ch u s) := by
  have hpoison (l : List (Nat × Nat × Nat)) (c : Nat) : s₀.keeps (l.foldl (fun (s : State) e => (s.poisonExt ch e).engineBytes ch c (lostBytes e 0))
    s) :=
    State.keeps_foldl_of (fun _ e hs => (State.engineBytes_keeps _ _ _ _).mpr (State.poisonExt_keeps hs ch e 0)) l h
  unfold execContentLossMark
  dsimp only
  split
  · exact (ends_next _ _).mpr h
  · exact (ends_next _ _).mpr ((State.setChan_keeps _ _ _).mpr ((State.hdrsLost_keeps _ _).mpr (hpoison _ _)))

@[simp] theorem State.scrubBlock_keeps {s₀ : State} (s : State) (ch a ca : Nat) : s₀.keepsToo tm im (s.scrubBlock ch a ca) ↔ s₀.keepsToo tm im s := by
  simp [State.scrubBlock]

@[simp] theorem State.startPass_keeps {s₀ : State} (s : State) : s₀.keepsToo tm im s.startPass ↔ s₀.keepsToo tm im s := by simp [State.startPass]

@[simp] theorem State.scrubEnd_keeps {s₀ : State} (s : State) (ch : Nat) : s₀.keepsToo tm im (s.scrubEnd ch) ↔ s₀.keepsToo tm im s := by
  unfold State.scrubEnd
  dsimp only
  repeat' split
  all_goals simp

@[simp] theorem execScrubStep_keeps {s₀ s : State} (h : s₀.keeps s) (ch : Nat) : Ends s₀ (execScrubStep ch s) := by
  unfold execScrubStep
  dsimp only
  repeat' split
  all_goals simp [h]

@[simp] theorem execScrubPeriodExpiry_keeps {s₀ s : State} (h : s₀.keeps s) : Ends s₀ (execScrubPeriodExpiry s) := by simp [execScrubPeriodExpiry, h]

@[simp] theorem State.addCand_keeps {s₀ : State} (s : State) (ch : Nat) (row : Nat × Nat × Nat) (firmware : Bool) :
    s₀.keepsToo tm im (s.addCand ch row firmware).1 ↔ s₀.keepsToo tm im s := by
  unfold State.addCand
  dsimp only
  repeat' split
  all_goals simp

@[simp] theorem State.autoCand_keeps {s₀ : State} (s : State) (ch : Nat) (row : Nat × Nat × Nat) : s₀.keepsToo tm im (s.autoCand ch row).1 ↔
    s₀.keepsToo tm im s := by
  simp [State.autoCand]

@[simp] theorem State.beginInstall_keeps {s₀ : State} (s : State) (ch b k : Nat) (manual : Bool) :
    s₀.keepsToo tm im (s.beginInstall ch b k manual) ↔ s₀.keepsToo tm im s := by simp [State.beginInstall]

@[simp] theorem State.installDue_keeps {s₀ : State} (s : State) (ch b : Nat) (manual : Bool) :
    s₀.keepsToo tm im (s.installDue ch b manual).1 ↔ s₀.keepsToo tm im s := by
  unfold State.installDue
  dsimp only
  repeat' split
  all_goals simp

@[simp] theorem State.secondEntry_keeps {s₀ : State} (s : State) (ch b : Nat) (row : Nat × Nat × Nat) :
    s₀.keepsToo tm im (s.secondEntry ch b row) ↔ s₀.keepsToo tm im s := by simp [State.secondEntry]

@[simp] theorem State.installed_keeps {s₀ : State} (s : State) (ch : Nat) : s₀.keepsToo tm im (s.installed ch) ↔ s₀.keepsToo tm im s := by
  unfold State.installed
  dsimp only
  repeat' split
  all_goals simp

@[simp] theorem State.ownWrite_keeps {s₀ s : State} (h : s₀.keepsToo tm im s) (p : At) (x : Home) (atoms cls : Nat) (guarded : Bool) (l m : List (Nat × Byte)) :
    s₀.keepsToo tm im (s.ownWrite p x atoms cls guarded l m) := by
  unfold State.ownWrite
  exact State.enqueue_keeps (by simpa using h) _ _ _ _ _ _ _

@[simp] theorem State.remapRemove_keeps {s₀ s : State} (h : s₀.keepsToo tm im s) (ch b : Nat) : s₀.keepsToo tm im (s.remapRemove ch b) := by
  unfold State.remapRemove
  dsimp only
  repeat' split
  all_goals simp [h]

@[simp] theorem State.askRemove_keeps {s₀ s : State} (h : s₀.keepsToo tm im s) (ch b : Nat) : s₀.keepsToo tm im (s.askRemove ch b) := by
    simp [State.askRemove, h]

@[simp] theorem execRemapInstall_keeps {s₀ s : State} (h : s₀.keeps s) (ch : Nat) : Ends s₀ (execRemapInstall ch s) := by
  unfold execRemapInstall
  dsimp only
  repeat' split
  all_goals simp [h]

@[simp] theorem State.correct_keeps {s₀ s : State} (h : s₀.keepsToo tm im s) (d : Det) : s₀.keepsToo tm im (s.correct d).1 := by
  unfold State.correct
  repeat' split
  all_goals simp [h]

@[simp] theorem State.recentError_keeps {s₀ : State} (s : State) (ch b : Nat) : s₀.keepsToo tm im (s.recentError ch b).2 ↔ s₀.keepsToo tm im s := by
  simp [State.recentError]

@[simp] theorem State.tabulate_keeps {s₀ : State} (s : State) (d : Det) : s₀.keepsToo tm im (s.tabulate d).1 ↔ s₀.keepsToo tm im s := by
    simp [State.tabulate]

@[simp] theorem State.ringPut_keeps {s₀ s : State} (h : s₀.keepsToo tm im s) (d : Det) : s₀.keepsToo tm im (s.ringPut d) := by simp [State.ringPut, h]

@[simp] theorem State.capture_keeps {s₀ : State} (s : State) (d : Det) (logged : Bool) : s₀.keepsToo tm im (s.capture d logged) ↔
    s₀.keepsToo tm im s := by
  simp [State.capture]

@[simp] theorem State.countDet_keeps {s₀ : State} (s : State) (d : Det) : s₀.keepsToo tm im (s.countDet d) ↔ s₀.keepsToo tm im s := by
    simp [State.countDet]

@[simp] theorem State.logDet_keeps {s₀ s : State} (h : s₀.keepsToo tm im s) (d : Det) (rest : List Det) : s₀.keepsToo tm im (s.logDet d rest) := by
  simp [State.logDet, h]

@[simp] theorem State.endDet_keeps {s₀ s : State} (h : s₀.keepsToo tm im s) (d : Det) (rest : List Det) : s₀.keepsToo tm im (s.endDet d rest) := by
  simp [State.endDet, h]

@[simp] theorem execDetectionHandle_keeps {s₀ s : State} (h : s₀.keeps s) : Ends s₀ (execDetectionHandle s) := by
  unfold execDetectionHandle
  repeat' split
  all_goals simp [h]

@[simp] theorem State.writeRemapCmd_keeps {s₀ s : State} (h : s₀.keepsToo tm im s) (ch w tgt : Nat) :
    s₀.keepsToo tm im (s.writeRemapCmd ch w tgt) := by
  simp [State.writeRemapCmd, h]

@[simp] theorem execRemapCmdInstall_keeps {s₀ s : State} (h : s₀.keeps s) (ch : Nat) (w : Word) (tgt : Nat) :
    Ends s₀ (execRemapCmdInstall ch w tgt s) := by simp +contextual [execRemapCmdInstall, h]

@[simp] theorem execRemapCmdRemove_keeps {s₀ s : State} (h : s₀.keeps s) (ch : Nat) (w : Word) (tgt : Nat) :
    Ends s₀ (execRemapCmdRemove ch w tgt s) := by simp +contextual [execRemapCmdRemove, h]

@[simp] theorem State.writeFeCtl_keeps {s₀ : State} (s : State) (ch w _tgt : Nat) : s₀.keepsToo tm im (s.writeFeCtl ch w _tgt) ↔
    s₀.keepsToo tm im s := by
  simp [State.writeFeCtl]

@[simp] theorem execFeRearm_keeps {s₀ s : State} (h : s₀.keeps s) (ch : Nat) (w : Word) (tgt : Nat) : Ends s₀ (execFeRearm ch w tgt s) := by
  simp [execFeRearm, h]

@[simp] theorem State.writeIntCtl_keeps {s₀ s : State} (h : s₀.keeps s) (w tgt : Nat) : s₀.keeps (s.writeIntCtl w tgt) := by
  simp [State.writeIntCtl, h]

@[simp] theorem execIntRearm_keeps {s₀ s : State} (h : s₀.keeps s) (w : Word) (tgt : Nat) : Ends s₀ (execIntRearm w tgt s) := by
  simp +contextual [execIntRearm, h]

@[simp] theorem State.writeRingCons_keeps {s₀ : State} (s : State) (w tgt : Nat) : s₀.keepsToo tm im (s.writeRingCons w tgt) ↔
    s₀.keepsToo tm im s := by
  simp [State.writeRingCons]

@[simp] theorem execRingConsWrite_keeps {s₀ s : State} (h : s₀.keeps s) (w : Word) (tgt : Nat) : Ends s₀ (execRingConsWrite w tgt s) := by
  simp [execRingConsWrite, h]

@[simp] theorem State.writePprAdd_keeps {s₀ : State} (s : State) (w _tgt : Nat) : s₀.keepsToo tm im (s.writePprAdd w _tgt) ↔ s₀.keepsToo tm im s := by
  simp [State.writePprAdd]

@[simp] theorem execPprAdd_keeps {s₀ s : State} (h : s₀.keeps s) (w : Word) (tgt : Nat) : Ends s₀ (execPprAdd w tgt s) := by simp [execPprAdd, h]

@[simp] theorem State.pprGo_keeps {s₀ : State} (s : State) (tgt : Nat) : s₀.keepsToo tm im (s.pprGo tgt).1 ↔ s₀.keepsToo tm im s := by
    simp [State.pprGo]

@[simp] theorem State.writePprCtl_keeps {s₀ s : State} (h : s₀.keeps s) (w tgt : Nat) : s₀.keeps (s.writePprCtl w tgt) := by
  simp [State.writePprCtl, h]

@[simp] theorem execPprArm_keeps {s₀ s : State} (h : s₀.keeps s) (w : Word) (tgt : Nat) : Ends s₀ (execPprArm w tgt s) := by
  simp +contextual [execPprArm, h]

@[simp] theorem execPprDisarm_keeps {s₀ s : State} (h : s₀.keeps s) (w : Word) (tgt : Nat) : Ends s₀ (execPprDisarm w tgt s) := by
  simp +contextual [execPprDisarm, h]

@[simp] theorem execPprGo_keeps {s₀ s : State} (h : s₀.keeps s) (w : Word) (tgt : Nat) : Ends s₀ (execPprGo w tgt s) := by
  simp +contextual [execPprGo, h]

@[simp] theorem State.rowRepaired_keeps {s₀ s : State} (h : s₀.keepsToo tm im s) (ch : Nat) (c : Cand) : s₀.keepsToo tm im (s.rowRepaired ch c) :=
  State.keeps.of_mem h ⟨rfl, rfl, rfl, rfl⟩ ⟨rfl, rfl, rfl, rfl, rfl⟩ ⟨rfl, rfl⟩ (State.rowRepaired_ok ch c)

@[simp] theorem execPprRowDone_keeps {s₀ s : State} (h : s₀.keeps s) (ok : Bool) : Ends s₀ (execPprRowDone ok s) := by
  unfold execPprRowDone
  dsimp only
  repeat' split
  all_goals simp [h]

@[simp] theorem State.writeChecker_keeps {s₀ s : State} (h : s₀.keepsToo tm im s) (w tgt : Nat) : s₀.keepsToo tm im (s.writeChecker w tgt) := by
  simp [State.writeChecker, h]

@[simp] theorem execCheckerMode_keeps {s₀ s : State} (h : s₀.keeps s) (w : Word) (tgt : Nat) : Ends s₀ (execCheckerMode w tgt s) := by
  simp +contextual [execCheckerMode, h]

@[simp] theorem execCheckerFlushDone_keeps {s₀ s : State} (h : s₀.keeps s) : Ends s₀ (execCheckerFlushDone s) := by simp [execCheckerFlushDone, h]

/-! ### Capacity -/

@[simp] theorem State.admLast_keeps {s₀ : State} (s : State) (source : Nat) (a : Adm) : s₀.keepsToo tm im (s.admLast source a) ↔
    s₀.keepsToo tm im s := by
  simp [State.admLast]

@[simp] theorem State.figures_keeps {s₀ : State} (s : State) (c : CapIn) : s₀.keepsToo tm im (s.figures c) ↔ s₀.keepsToo tm im s := by
  unfold State.figures
  dsimp only
  rw [State.keeps_foldl]
  · simp
  · intro s ch
    split
    · simp
    · simp

@[simp] theorem State.figuresNow_keeps {s₀ : State} (s : State) : s₀.keepsToo tm im s.figuresNow ↔ s₀.keepsToo tm im s := by simp [State.figuresNow]

@[simp] theorem State.setSusp_keeps {s₀ : State} (s : State) (f : Nat) (b : Bool) :
    s₀.keepsToo tm im (s.setSusp f b) ↔ s₀.keepsToo tm im s := by simp [State.setSusp]

@[simp] theorem State.ovcChanged_keeps {s₀ : State} (s : State) (before : List Nat) :
    s₀.keepsToo tm im (s.ovcChanged before) ↔ s₀.keepsToo tm im s := by
  simp [State.ovcChanged]

@[simp] theorem State.suspendAll_keeps {s₀ : State} (s : State) : s₀.keepsToo tm im s.suspendAll ↔ s₀.keepsToo tm im s := by simp [State.suspendAll]

@[simp] theorem State.restoreAll_keeps {s₀ : State} (s : State) (n : Nat) : s₀.keepsToo tm im (s.restoreAll n) ↔ s₀.keepsToo tm im s := by
  induction n generalizing s with
  | zero => rfl
  | succ n ih =>
    unfold State.restoreAll
    split
    · rfl
    · dsimp only
      split
      all_goals
        rw [State.keeps_ite, ih]
        simp

@[simp] theorem State.overcastTick_keeps {s₀ : State} (s : State) (c : Nat) : s₀.keepsToo tm im (s.overcastTick c) ↔ s₀.keepsToo tm im s := by
  unfold State.overcastTick
  dsimp only
  repeat' split
  all_goals simp

@[simp] theorem execCapacityTestDone_keeps {s₀ s : State} (h : s₀.keeps s) : Ends s₀ (execCapacityTestDone s) := by
  unfold execCapacityTestDone
  dsimp only
  repeat' split
  all_goals simp [h]

/-! ### Events -/

@[simp] theorem execGroupPost_keeps {s₀ s : State} (h : s₀.keeps s) (g : Nat) : Ends s₀ (execGroupPost g s) := by simp [execGroupPost, h]

@[simp] theorem execHoldoffExpiry_keeps {s₀ s : State} (h : s₀.keeps s) (g : Nat) : Ends s₀ (execHoldoffExpiry g s) := by simp [execHoldoffExpiry, h]

@[simp] theorem execCoalesceTimeExpiry_keeps {s₀ s : State} (h : s₀.keeps s) (g : Nat) : Ends s₀ (execCoalesceTimeExpiry g s) := by
  simp [execCoalesceTimeExpiry, h]

@[simp] theorem State.writeEvtAck_keeps {s₀ : State} (s : State) (w : Nat) : s₀.keepsToo tm im (s.writeEvtAck w) ↔ s₀.keepsToo tm im s := by
    simp [State.writeEvtAck]

@[simp] theorem execEvtAck_keeps {s₀ s : State} (h : s₀.keeps s) (w : Word) (tgt : Nat) : Ends s₀ (execEvtAck w tgt s) := by simp [execEvtAck, h]

@[simp] theorem State.writeEvtCtl_keeps {s₀ s : State} (h : s₀.keeps s) (w tgt : Nat) : s₀.keeps (s.writeEvtCtl w tgt) := by
  simp [State.writeEvtCtl, h]

@[simp] theorem execEvtDisable_keeps {s₀ s : State} (h : s₀.keeps s) (w : Word) (tgt : Nat) : Ends s₀ (execEvtDisable w tgt s) := by
  simp +contextual [execEvtDisable, h]

@[simp] theorem State.writeEvtEn_keeps {s₀ : State} (s : State) (g w : Nat) : s₀.keepsToo tm im (s.writeEvtEn g w) ↔ s₀.keepsToo tm im s := by
    simp [State.writeEvtEn]

@[simp] theorem State.writeEvtCfg_keeps {s₀ s : State} (h : s₀.keeps s) (g o w tgt : Nat) : s₀.keeps (s.writeEvtCfg g o w tgt) := by
  simp [State.writeEvtCfg, h]

@[simp] theorem State.retarget_keeps {s₀ : State} (s : State) (g t : Nat) :
    s₀.keepsToo tm im (s.retarget g t) ↔ s₀.keepsToo tm im s := by simp [State.retarget]

/-! ### Tick -/

@[simp] theorem State.raiseTick_keeps {s₀ : State} (s : State) (f : Fld) (n : Nat) : s₀.keepsToo tm im (s.raiseTick f n) ↔ s₀.keepsToo tm im s := by
  simp [State.raiseTick]

@[simp] theorem State.tickConditions_keeps {s₀ : State} (s s0 : State) : s₀.keepsToo tm im (s.tickConditions s0) ↔ s₀.keepsToo tm im s := by
  simp [State.tickConditions]

@[simp] theorem State.noteIc_keeps {s₀ : State} (s : State) : s₀.keepsToo tm im s.noteIc ↔ s₀.keepsToo tm im s := by simp [State.noteIc]

@[simp] theorem State.acquire_keeps {s₀ : State} (s : State) (t : Nat) (first : Bool) : s₀.keeps (s.acquire t first) ↔ s₀.keeps s := by
  simp [State.acquire]

@[simp] theorem State.gather_keeps {s₀ : State} (s : State) (x : Nat) : s₀.keeps (s.gather x) ↔ s₀.keeps s := by
  unfold State.gather
  dsimp only
  repeat' split
  all_goals simp

@[simp] theorem State.realTick_keeps {s₀ : State} (s : State) (t : Nat) (relock : Bool) : s₀.keeps (s.realTick t relock) ↔ s₀.keeps s := by
  unfold State.realTick
  dsimp only
  refine (State.tickConditions_keeps _ _).trans ?_
  repeat' split
  all_goals simp

@[simp] theorem State.runt_keeps {s₀ : State} (s : State) : s₀.keeps s.runt ↔ s₀.keeps s := by simp [State.runt]

@[simp] theorem State.edge_keeps {s₀ : State} (s : State) (t width : Nat) : s₀.keeps (s.edge t width) ↔ s₀.keeps s := by simp [State.edge]

@[simp] theorem State.edgeSeen_keeps {s₀ : State} (s : State) (t width : Nat) : s₀.keeps (s.edgeSeen t width) ↔ s₀.keeps s := by simp [State.edgeSeen]

@[simp] theorem execTickEdge_keeps {s₀ s : State} (h : s₀.keeps s) (t width : Nat) : Ends s₀ (execTickEdge t width s) := by simp [execTickEdge, h]

@[simp] theorem execFlywheelTick_keeps {s₀ s : State} (h : s₀.keeps s) (t : Nat) : Ends s₀ (execFlywheelTick t s) := by
  unfold execFlywheelTick
  split
  · simpa using h
  · simpa using h

@[simp] theorem execGateEntryExpiry_keeps {s₀ s : State} (h : s₀.keeps s) (d c : Nat) : Ends s₀ (execGateEntryExpiry d c s) := by
  unfold execGateEntryExpiry
  dsimp only
  repeat' split
  all_goals simp [h]

@[simp] theorem State.relockWrite_keeps {s₀ : State} (s : State) (t : Nat) : s₀.keeps (s.relockWrite t).1 ↔ s₀.keeps s := by
  simp [State.relockWrite]

@[simp] theorem State.writeTickCtl_keeps {s₀ s : State} (h : s₀.keeps s) (t w tgt : Nat) : s₀.keeps (s.writeTickCtl t w tgt) := by
  simp [State.writeTickCtl, h]

@[simp] theorem execTickRelockWrite_keeps {s₀ s : State} (h : s₀.keeps s) (t : Nat) (w : Word) (tgt : Nat) :
    Ends s₀ (execTickRelockWrite t w tgt s) := by simp +contextual [execTickRelockWrite, h]

@[simp] theorem State.writeShadowCtl_keeps {s₀ : State} (s : State) (d w tgt : Nat) : s₀.keeps (s.writeShadowCtl d w tgt) ↔ s₀.keeps s := by
  simp [State.writeShadowCtl]

@[simp] theorem execGateArm_keeps {s₀ s : State} (h : s₀.keeps s) (d : Nat) (w : Word) (tgt : Nat) : Ends s₀ (execGateArm d w tgt s) := by
  simp [execGateArm, h]

@[simp] theorem execGateDisarm_keeps {s₀ s : State} (h : s₀.keeps s) (d : Nat) (w : Word) (tgt : Nat) : Ends s₀ (execGateDisarm d w tgt s) := by
  simp [execGateDisarm, h]

/-! ### Image -/

@[simp] theorem State.setLoader_keeps {s₀ : State} (s : State) (l : Loader) :
    s₀.keepsToo tm false (s.setLoader l) ↔ s₀.keepsToo tm false s := by simp [State.setLoader]

@[simp] theorem State.imgAbort_keeps {s₀ : State} (s : State) : s₀.keeps s.imgAbort.1 ↔ s₀.keeps s := by simp [State.imgAbort]

@[simp] theorem State.imgSrc_keeps {s₀ : State} (s : State) (v : Nat) : s₀.keepsToo tm im (s.imgSrc v).1 ↔ s₀.keepsToo tm im s := by
    simp [State.imgSrc]

@[simp] theorem State.imgGo_keeps {s₀ : State} (s : State) (tgt : Nat) : s₀.keeps (s.imgGo tgt).1 ↔ s₀.keeps s := by simp [State.imgGo]

@[simp] theorem State.writeImgCtl_keeps {s₀ : State} (s : State) (w tgt : Nat) : s₀.keeps (s.writeImgCtl w tgt) ↔ s₀.keeps s := by
  simp [State.writeImgCtl]

@[simp] theorem State.takeWord_keeps {s₀ : State} (s : State) (w : Word) (last : Option Bool) : s₀.keeps (s.takeWord w last) ↔ s₀.keeps s := by
  unfold State.takeWord
  dsimp only
  repeat' split
  all_goals simp

@[simp] theorem State.writeImgFifo_keeps {s₀ : State} (s : State) (w : Word) (tgt : Nat) : s₀.keeps (s.writeImgFifo w tgt) ↔ s₀.keeps s := by
  simp [State.writeImgFifo]

@[simp] theorem execImgStart_keeps {s₀ s : State} (h : s₀.keeps s) (w : Word) (tgt : Nat) : Ends s₀ (execImgStart w tgt s) := by
  simp [execImgStart, h]

@[simp] theorem execImgAbort_keeps {s₀ s : State} (h : s₀.keeps s) (w : Word) (tgt : Nat) : Ends s₀ (execImgAbort w tgt s) := by
  simp [execImgAbort, h]

@[simp] theorem execImgFifoWord_keeps {s₀ s : State} (h : s₀.keeps s) (w : Word) (tgt : Nat) : Ends s₀ (execImgFifoWord w tgt s) := by
  simp [execImgFifoWord, h]

@[simp] theorem execImgStreamWord_keeps {s₀ s : State} (h : s₀.keeps s) (w : Word) (last : Bool) : Ends s₀ (execImgStreamWord w last s) := by
  simp [execImgStreamWord, h]

@[simp] theorem State.imgChecked_keeps {s₀ : State} (s : State) : s₀.keeps s.imgChecked ↔ s₀.keeps s := by
  unfold State.imgChecked
  repeat' split
  all_goals simp

@[simp] theorem execImgCheckDone_keeps {s₀ s : State} (h : s₀.keeps s) : Ends s₀ (execImgCheckDone s) := by
  unfold execImgCheckDone
  dsimp only
  repeat' split
  all_goals simp [h]

@[simp] theorem execImgAuthVerdict_keeps {s₀ s : State} (h : s₀.keeps s) (ok : Bool) (crc : Word) : Ends s₀ (execImgAuthVerdict ok crc s) := by
  unfold execImgAuthVerdict
  repeat' split
  all_goals simpa using h

@[simp] theorem State.wrImg_keeps {s₀ : State} (s : State) (f : Fld) (i j v : Nat) : s₀.keepsToo tm im (s.wrImg f i j v) ↔
    s₀.keepsToo tm im s := by simp [State.wrImg]

@[simp] theorem State.applyClass_keeps {s₀ : State} (s : State) (r : ClassRec) : s₀.keepsToo tm im (s.applyClass r) ↔ s₀.keepsToo tm im s := by
    simp [State.applyClass]

@[simp] theorem State.applyRoute_keeps {s₀ : State} (s : State) (r : RouteRec) : s₀.keepsToo tm im (s.applyRoute r) ↔ s₀.keepsToo tm im s := by
    simp [State.applyRoute]

@[simp] theorem State.applyGroup_keeps {s₀ : State} (s : State) (r : GroupRec) : s₀.keepsToo tm im (s.applyGroup r) ↔ s₀.keepsToo tm im s := by
    simp [State.applyGroup]

@[simp] theorem State.applyPort_keeps {s₀ : State} (s : State) (r : PortRec) : s₀.keepsToo tm im (s.applyPort r) ↔ s₀.keepsToo tm im s := by
    simp [State.applyPort]

@[simp] theorem State.applyCache_keeps {s₀ : State} (s : State) (r : CacheRec) : s₀.keepsToo tm im (s.applyCache r) ↔ s₀.keepsToo tm im s := by
    simp [State.applyCache]

@[simp] theorem State.configure_keeps {s₀ : State} (s : State) (i : Image) (t : Nat) : s₀.keeps (s.configure i t) ↔ s₀.keeps s := by
  unfold State.configure
  dsimp only
  repeat' split
  all_goals simp

@[simp] theorem State.applyFull_keeps {s₀ s : State} (h : s₀.keeps s) (i : Image) (t : Nat) : s₀.keeps (s.applyFull i t) := by
  simp +contextual [State.applyFull, h]

@[simp] theorem execImgAdmitDone_keeps {s₀ s : State} (h : s₀.keeps s) (c t : Nat) : Ends s₀ (execImgAdmitDone c t s) := by
  unfold execImgAdmitDone
  dsimp only
  repeat' split
  all_goals simp [h]

@[simp] theorem State.stagedTick_keeps {s₀ : State} (s : State) (c : Nat) : s₀.keepsToo tm false (s.stagedTick c) ↔ s₀.keepsToo tm false s := by
  unfold State.stagedTick
  repeat' split
  all_goals simp

@[simp] theorem execChannelImageQuiesced_keeps {s₀ s : State} (h : s₀.keeps s) : Ends s₀ (execChannelImageQuiesced s) := by
  unfold execChannelImageQuiesced
  repeat' split
  · exact (ends_next _ _).mpr h
  · exact (ends_next _ _).mpr h
  · exact (ends_next _ _).mpr ((State.figuresNow_keeps _).mpr (State.applyChanImage_keeps h _))

@[simp] theorem State.thaw_keeps {s₀ : State} (s : State) (g : Nat) : s₀.keepsToo tm im (s.thaw g) ↔ s₀.keepsToo tm im s := by simp [State.thaw]

@[simp] theorem State.emptySlice_keeps {s₀ : State} (s : State) (g : Nat) : s₀.keepsToo tm im (s.emptySlice g) ↔ s₀.keepsToo tm im s := by
    simp [State.emptySlice]

@[simp] theorem State.removePort_keeps {s₀ : State} (s : State) (g p : Nat) : s₀.keepsToo tm im (s.removePort g p) ↔ s₀.keepsToo tm im s := by
    simp [State.removePort]

@[simp] theorem State.takeGroupImage_keeps {s₀ : State} (s : State) (g : Nat) (i : Image) : s₀.keeps (s.takeGroupImage g i) ↔ s₀.keeps s := by
  have happly (s : State) : s₀.keeps (((i.ports.foldl State.applyPort (i.groups.foldl State.applyGroup
      ((List.range 8).foldl (fun (s : State) p =>
        if (i.ports.find? fun r => r.port == p).isSome then s.setPort (8 * g + p) { s.port (8 * g + p) with present := true } else s.removePort g p)
        s)))).applyCache (i.cacheOf g)) ↔ s₀.keeps s := by
    simp
  unfold State.takeGroupImage
  dsimp only
  split
  all_goals
    simp only [State.keeps_mk, happly]
    refine State.keeps_foldl (fun s p => ?_) _ s
    repeat' split
    all_goals simp

@[simp] theorem execGroupQuiesceDone_keeps {s₀ s : State} (h : s₀.keeps s) (c : Nat) : Ends s₀ (execGroupQuiesceDone c s) := by
  unfold execGroupQuiesceDone
  repeat' split
  all_goals simp [h]

@[simp] theorem execQuiesceTimeout_keeps {s₀ s : State} (h : s₀.keeps s) (c : Nat) : Ends s₀ (execQuiesceTimeout c s) := by
  unfold execQuiesceTimeout
  repeat' split
  all_goals simp [h]

/-! ### TickCycle -/

@[simp] theorem State.tickIntervals_keeps {s₀ : State} (s : State) (c : Nat) (avg : Bool) : s₀.keeps (s.tickIntervals c avg) ↔ s₀.keeps s := by
  simp [State.tickIntervals]

@[simp] theorem State.tickEpoch_keeps {s₀ : State} (s : State) : s₀.keeps s.tickEpoch ↔ s₀.keeps s := by simp [State.tickEpoch]

@[simp] theorem State.rearmTest_keeps {s₀ : State} (s : State) (d : Nat) : s₀.keeps (s.rearmTest d) ↔ s₀.keeps s := by simp [State.rearmTest]

@[simp] theorem State.tickGate_keeps {s₀ : State} (s : State) (seeded : Bool) (d : Nat) : s₀.keeps (s.tickGate seeded d) ↔ s₀.keeps s := by
  simp [State.tickGate]

@[simp] theorem State.applyTick_keeps {s₀ : State} (s : State) (k v : Nat) :
    s₀.keepsToo tm im (s.applyTick k v) ↔ s₀.keepsToo tm im s := by simp [State.applyTick]

@[simp] theorem State.applyPending_keeps {s₀ : State} (s : State) : s₀.keeps s.applyPending ↔ s₀.keeps s := by simp [State.applyPending]

@[simp] theorem State.spillChannel_keeps {s₀ : State} (s : State) (ch : Nat) : s₀.keepsToo tm im (s.spillChannel ch) ↔ s₀.keepsToo tm im s := by
  simp [State.spillChannel]

@[simp] theorem State.tickSpill_keeps {s₀ : State} (s : State) : s₀.keepsToo tm im s.tickSpill ↔ s₀.keepsToo tm im s := by simp [State.tickSpill]

@[simp] theorem State.restartGate_keeps {s₀ : State} (s : State) (c : Nat) (d : Nat) : s₀.keeps (s.restartGate c d) ↔ s₀.keeps s := by
  simp [State.restartGate]

@[simp] theorem State.truncate_keeps {s₀ : State} (s : State) (d : Nat) :
    s₀.keepsToo tm im (s.truncate d) ↔ s₀.keepsToo tm im s := by simp [State.truncate]

@[simp] theorem State.raiseSpill_keeps {s₀ : State} (s : State) (d : Nat) :
    s₀.keepsToo tm im (s.raiseSpill d) ↔ s₀.keepsToo tm im s := by simp [State.raiseSpill]

@[simp] theorem State.snapshot_keeps {s₀ : State} (s : State) (G : Nat) :
    s₀.keepsToo tm im (s.snapshot G) ↔ s₀.keepsToo tm im s := by simp [State.snapshot]

@[simp] theorem State.clearGroup_keeps {s₀ : State} (s : State) (G : Nat) :
    s₀.keepsToo tm im (s.clearGroup G) ↔ s₀.keepsToo tm im s := by simp [State.clearGroup]

@[simp] theorem State.tickSnaps_keeps {s₀ : State} (s : State) : s₀.keepsToo tm im s.tickSnaps ↔ s₀.keepsToo tm im s := by simp [State.tickSnaps]

@[simp] theorem State.tickOvercast_keeps {s₀ : State} (s : State) (c : Nat) (changed : Bool) :
    s₀.keepsToo tm im (s.tickOvercast c changed) ↔ s₀.keepsToo tm im s := by
  simp [State.tickOvercast]

@[simp] theorem State.boundary_keeps {s₀ : State} (s : State) (c : Nat) (b : Strobe) : s₀.keeps (s.boundary c b) ↔ s₀.keeps s := by
  simp [State.boundary]

@[simp] theorem execTickCycle_keeps {s₀ s : State} (h : s₀.keeps s) (c : Nat) : Ends s₀ (execTickCycle c s) := by
  unfold execTickCycle
  repeat' split
  all_goals simp [h]

/-! ### Power -/

@[simp] theorem State.duskGo_keeps {s₀ s : State} (h : s₀.keepsToo tm im s) (tgt : Nat) : s₀.keepsToo tm im (s.duskGo tgt).1 := by
  unfold State.duskGo
  split
  · exact h
  · exact State.keeps_power ((State.squallLock_keeps s).mpr h) fun _ => (by decide : 1 ≤ 4)

@[simp] theorem State.flushAll_keeps {s₀ s : State} (h : s₀.keepsToo tm im s) : s₀.keepsToo tm im s.flushAll := by
  unfold State.flushAll
  refine State.keeps_foldl_of (fun s f hs => State.ctxWrite_keeps hs f) _ ?_
  rw [State.keeps_foldl]
  · exact h
  · exact fun s g => State.keeps_foldl (fun s e => by simp) _ s

@[simp] theorem State.clockStop_keeps {s₀ s : State} (h : s₀.keeps s) : s₀.keeps s.clockStop :=
  (State.keeps_mk s₀ { s with power := _ }).mpr (State.keeps_power h fun _ => (by decide : 2 ≤ 4))

@[simp] theorem execDuskClockStop_keeps {s₀ s : State} (h : s₀.keeps s) : Ends s₀ (execDuskClockStop s) := by
  have hflush (c : Bool) : s₀.keeps (if c = true then s else { s.flushAll.pump with power := { s.power with prepared := true } }) := by
    split
    · exact h
    · obtain ⟨⟨-, -, -, -, hp⟩, -, -⟩ := id h
      exact State.keeps_power (State.pump_keeps (State.flushAll_keeps h)) hp
  unfold execDuskClockStop
  split
  · exact (ends_next _ _).mpr h
  · refine (ends_next _ _).mpr (State.keeps_ite_of ?_ ?_)
    · exact State.clockStop_keeps (hflush s.power.prepared)
    · exact (State.endFlush_keeps _).mpr (hflush s.power.prepared)

@[simp] theorem execWakeLatch_keeps {s₀ s : State} (h : s₀.keeps s) (srcs n : Nat) : Ends s₀ (execWakeLatch srcs n s) := by simp [execWakeLatch, h]

@[simp] theorem execDuskTimerExpiry_keeps {s₀ s : State} (h : s₀.keeps s) : Ends s₀ (execDuskTimerExpiry s) := by simp [execDuskTimerExpiry, h]

@[simp] theorem execTempAlert_keeps {s₀ s : State} (h : s₀.keeps s) : Ends s₀ (execTempAlert s) := by simp [execTempAlert, h]

@[simp] theorem State.reqChanged_keeps {s₀ s : State} (h : s₀.keepsToo tm im s) (ch was : Nat) : s₀.keepsToo tm im (s.reqChanged ch was) := by
  simp [State.reqChanged, h]

@[simp] theorem State.retireGo_keeps {s₀ s : State} (h : s₀.keepsToo tm im s) (ch : Nat) : s₀.keepsToo tm im (s.retireGo ch).1 := by
    simp [State.retireGo, h]

@[simp] theorem State.reinstateGo_keeps {s₀ s : State} (h : s₀.keepsToo tm im s) (ch : Nat) : s₀.keepsToo tm im (s.reinstateGo ch).1 := by
    simp [State.reinstateGo, h]

@[simp] theorem State.writeChPwr_keeps {s₀ s : State} (h : s₀.keeps s) (ch w tgt : Nat) : s₀.keeps (s.writeChPwr ch w tgt) := by
  simp +contextual [State.writeChPwr, h]

@[simp] theorem execChSelfRefreshReq_keeps {s₀ s : State} (h : s₀.keeps s) (ch : Nat) (w : Word) (tgt : Nat) :
    Ends s₀ (execChSelfRefreshReq ch w tgt s) := by simp +contextual [execChSelfRefreshReq, h]

@[simp] theorem execChRetire_keeps {s₀ s : State} (h : s₀.keeps s) (ch : Nat) (w : Word) (tgt : Nat) : Ends s₀ (execChRetire ch w tgt s) := by
  simp +contextual [execChRetire, h]

@[simp] theorem execChReinstate_keeps {s₀ s : State} (h : s₀.keeps s) (ch : Nat) (w : Word) (tgt : Nat) : Ends s₀ (execChReinstate ch w tgt s) := by
  simp +contextual [execChReinstate, h]

@[simp] theorem State.coreReset_keeps {s₀ s : State} (h : s₀.keeps s) : s₀.keeps s.coreReset := by
  obtain ⟨⟨hb, ha, hq, -, -⟩, -, -⟩ := h
  refine ⟨⟨hb, ha, hq, fun _ => rfl, fun _ => ?_⟩, nofun, nofun⟩
  unfold State.legalPower State.coreReset
  dsimp only
  split <;> decide

@[simp] theorem State.fullReset_keeps {s₀ s : State} (h : s₀.keeps s) : s₀.keeps s.fullReset := by simp [State.fullReset, h]

@[simp] theorem State.softGo_keeps {s₀ s : State} (h : s₀.keeps s) : s₀.keeps s.softGo.1 := by simp [State.softGo, h]

@[simp] theorem State.writePwrCtl_keeps {s₀ s : State} (h : s₀.keeps s) (w tgt : Nat) : s₀.keeps (s.writePwrCtl w tgt) := by
  simp +contextual [State.writePwrCtl, h]

@[simp] theorem execDuskRequest_keeps {s₀ s : State} (h : s₀.keeps s) (w : Word) (tgt : Nat) : Ends s₀ (execDuskRequest w tgt s) := by
  simp +contextual [execDuskRequest, h]

@[simp] theorem execSoftReset_keeps {s₀ s : State} (h : s₀.keeps s) (w : Word) (tgt : Nat) : Ends s₀ (execSoftReset w tgt s) := by
  simp +contextual [execSoftReset, h]

@[simp] theorem execPowerOnReset_keeps {s₀ s : State} (h : s₀.keeps s) : Ends s₀ (execPowerOnReset s) := by simp [execPowerOnReset, h]

@[simp] theorem execCoreReset_keeps {s₀ s : State} (h : s₀.keeps s) : Ends s₀ (execCoreReset s) := by simp [execCoreReset, h]

@[simp] theorem State.releaseValues_keeps {s₀ : State} (s : State) (dom : Nat) : s₀.keeps (s.releaseValues dom) ↔ s₀.keeps s := by
  simp [State.releaseValues]

@[simp] theorem execDomainResetRelease_keeps {s₀ s : State} (h : s₀.keeps s) (dom : Nat) : Ends s₀ (execDomainResetRelease dom s) := by
  simp [execDomainResetRelease, h]

@[simp] theorem State.dropPresence_keeps {s₀ : State} (s : State) : s₀.keepsToo tm im s.dropPresence ↔ s₀.keepsToo tm im s := by
    simp [State.dropPresence]

@[simp] theorem execRailAbsent_keeps {s₀ s : State} (h : s₀.keeps s) (rail : Nat) : Ends s₀ (execRailAbsent rail s) := by simp [execRailAbsent, h]

@[simp] theorem execRailGood_keeps {s₀ s : State} (h : s₀.keeps s) (rail : Nat) : Ends s₀ (execRailGood rail s) := by
  obtain ⟨⟨-, -, -, -, hp⟩, -, -⟩ := id h
  unfold execRailGood
  split
  · exact (ends_next _ _).mpr h
  · refine (ends_next _ _).mpr (State.startWake_keeps (State.keeps_power h fun hlegal => ?_))
    dsimp only
    split
    · exact Nat.zero_le 4
    · exact hp hlegal

/-! ### Counters -/

@[simp] theorem State.snapGo_keeps {s₀ : State} (s : State) (G : Nat) : s₀.keepsToo tm im (s.snapGo G).1 ↔ s₀.keepsToo tm im s := by
    simp [State.snapGo]

@[simp] theorem State.writePfCtl_keeps {s₀ s : State} (h : s₀.keeps s) (G w tgt : Nat) : s₀.keeps (s.writePfCtl G w tgt) := by
  simp [State.writePfCtl, h]

@[simp] theorem execCounterSnap_keeps {s₀ s : State} (h : s₀.keeps s) (g : Nat) (w : Word) (tgt : Nat) : Ends s₀ (execCounterSnap g w tgt s) := by
  simp +contextual [execCounterSnap, h]

@[simp] theorem execCounterClear_keeps {s₀ s : State} (h : s₀.keeps s) (g : Nat) (w : Word) (tgt : Nat) : Ends s₀ (execCounterClear g w tgt s) := by
  simp +contextual [execCounterClear, h]

@[simp] theorem State.ctrFlush_keeps {s₀ : State} (s : State) : s₀.keepsToo tm im s.ctrFlush ↔ s₀.keepsToo tm im s := by simp [State.ctrFlush]

@[simp] theorem State.writeCtrCtl_keeps {s₀ s : State} (h : s₀.keeps s) (w tgt : Nat) : s₀.keeps (s.writeCtrCtl w tgt) := by
  simp [State.writeCtrCtl, h]

@[simp] theorem execContrailFlush_keeps {s₀ s : State} (h : s₀.keeps s) (w : Word) (tgt : Nat) : Ends s₀ (execContrailFlush w tgt s) := by
  simp +contextual [execContrailFlush, h]

@[simp] theorem State.writeCtrSeed_keeps {s₀ : State} (s : State) (w tgt : Nat) : s₀.keepsToo tm im (s.writeCtrSeed w tgt) ↔ s₀.keepsToo tm im s := by
  simp [State.writeCtrSeed]

@[simp] theorem State.writeCtrCons_keeps {s₀ : State} (s : State) (w tgt : Nat) : s₀.keepsToo tm im (s.writeCtrCons w tgt) ↔ s₀.keepsToo tm im s := by
  simp [State.writeCtrCons]

@[simp] theorem execContrailConsWrite_keeps {s₀ s : State} (h : s₀.keeps s) (w : Word) (tgt : Nat) : Ends s₀ (execContrailConsWrite w tgt s) := by
  simp [execContrailConsWrite, h]

/-! ### Mailbox -/

@[simp] theorem State.flowConfigWrite_keeps {s₀ : State} (s : State) (f : Nat) (d : Nat → Nat) : s₀.keeps (s.flowConfigWrite f d).1 ↔ s₀.keeps s := by
  simp [State.flowConfigWrite]

@[simp] theorem State.trainingRead_keeps {s₀ : State} (s : State) (ch k : Nat) (lost : Bool) :
    s₀.keepsToo tm im (s.trainingRead ch k lost).1 ↔ s₀.keepsToo tm im s := by
  unfold State.trainingRead
  dsimp only
  repeat' split
  all_goals simp

@[simp] theorem State.trainingWrite_keeps {s₀ : State} (s : State) (ch k : Nat) (l : List Byte) :
    s₀.keepsToo tm im (s.trainingWrite ch k l).1 ↔ s₀.keepsToo tm im s := by simp [State.trainingWrite]

@[simp] theorem State.counterWrite_keeps {s₀ : State} (s : State) (n v : Nat) : s₀.keepsToo tm im (s.counterWrite n v).1 ↔ s₀.keepsToo tm im s := by
  simp [State.counterWrite]

@[simp] theorem State.ctxSeen_keeps {s₀ : State} (s : State) (f : Nat) : s₀.keepsToo tm im (s.ctxSeen f) ↔ s₀.keepsToo tm im s := by
    simp [State.ctxSeen]

@[simp] theorem State.objRead_keeps {s₀ : State} (s : State) (obj ix : Nat) (lost : Bool) : s₀.keepsToo tm im (s.objRead obj ix lost).1 ↔
    s₀.keepsToo tm im s := by
  simp [State.objRead]

@[simp] theorem State.objWrite_keeps {s₀ : State} (s : State) (obj ix m : Nat) : s₀.keeps (s.objWrite obj ix m).1 ↔ s₀.keeps s := by
  simp [State.objWrite]

@[simp] theorem State.mbxOp_keeps {s₀ : State} (s : State) (m : Nat) (lost : Bool) : s₀.keeps (s.mbxOp m lost).1 ↔ s₀.keeps s := by
  unfold State.mbxOp
  dsimp only
  repeat' split
  all_goals simp

@[simp] theorem State.mbxStart_keeps {s₀ : State} (s : State) (m tgt : Nat) (lost : Bool) : s₀.keeps (s.mbxStart m tgt lost) ↔ s₀.keeps s := by
  simp [State.mbxStart]

@[simp] theorem State.writeMbxSel_keeps {s₀ : State} (s : State) (m w tgt : Nat) (lost : Bool) :
    s₀.keeps (s.writeMbxSel m w tgt lost) ↔ s₀.keeps s := by simp [State.writeMbxSel]

@[simp] theorem State.writeMbxCtl_keeps {s₀ : State} (s : State) (m w tgt : Nat) : s₀.keeps (s.writeMbxCtl m w tgt) ↔ s₀.keeps s := by
  simp [State.writeMbxCtl]

@[simp] theorem State.writeMbxData_keeps {s₀ : State} (s : State) (m k w tgt : Nat) : s₀.keepsToo tm im (s.writeMbxData m k w tgt) ↔
    s₀.keepsToo tm im s := by
  simp [State.writeMbxData]

@[simp] theorem execMbxGo_keeps {s₀ s : State} (h : s₀.keeps s) (m : Nat) (w : Word) (tgt : Nat) : Ends s₀ (execMbxGo m w tgt s) := by
  simp [execMbxGo, h]

@[simp] theorem State.mbxSelect_keeps {s₀ s : State} (h : s₀.keeps s) (m obj ix wr tgt : Nat) (lost : Bool) :
    s₀.keeps (s.mbxSelect m obj ix wr tgt lost) := by simp [State.mbxSelect, h]

@[simp] theorem execEpochRead_keeps {s₀ s : State} (h : s₀.keeps s) (m ix tgt : Nat) : Ends s₀ (execEpochRead m ix tgt s) := by
  simp [execEpochRead, h]

@[simp] theorem execEpochSeedRead_keeps {s₀ s : State} (h : s₀.keeps s) (m ix tgt : Nat) : Ends s₀ (execEpochSeedRead m ix tgt s) := by
  simp [execEpochSeedRead, h]

@[simp] theorem execEpochSeedWrite_keeps {s₀ s : State} (h : s₀.keeps s) (m ix tgt : Nat) : Ends s₀ (execEpochSeedWrite m ix tgt s) := by
  simp [execEpochSeedWrite, h]

@[simp] theorem execTickIntervalsRead_keeps {s₀ s : State} (h : s₀.keeps s) (m ix tgt : Nat) : Ends s₀ (execTickIntervalsRead m ix tgt s) := by
  simp [execTickIntervalsRead, h]

@[simp] theorem execCycleRead_keeps {s₀ s : State} (h : s₀.keeps s) (m ix tgt : Nat) : Ends s₀ (execCycleRead m ix tgt s) := by
  simp [execCycleRead, h]

@[simp] theorem execFlowConfigRead_keeps {s₀ s : State} (h : s₀.keeps s) (m ix tgt : Nat) : Ends s₀ (execFlowConfigRead m ix tgt s) := by
  simp [execFlowConfigRead, h]

@[simp] theorem execFlowConfigWrite_keeps {s₀ s : State} (h : s₀.keeps s) (m ix tgt : Nat) : Ends s₀ (execFlowConfigWrite m ix tgt s) := by
  simp [execFlowConfigWrite, h]

@[simp] theorem execFlowStateRead_keeps {s₀ s : State} (h : s₀.keeps s) (m ix tgt : Nat) : Ends s₀ (execFlowStateRead m ix tgt s) := by
  simp [execFlowStateRead, h]

@[simp] theorem execFlowStateWrite_keeps {s₀ s : State} (h : s₀.keeps s) (m ix tgt : Nat) : Ends s₀ (execFlowStateWrite m ix tgt s) := by
  simp [execFlowStateWrite, h]

@[simp] theorem execTrainingStateRead_keeps {s₀ s : State} (h : s₀.keeps s) (m ix tgt : Nat) (lost : Bool) :
    Ends s₀ (execTrainingStateRead m ix tgt lost s) := by simp [execTrainingStateRead, h]

@[simp] theorem execTrainingStateWrite_keeps {s₀ s : State} (h : s₀.keeps s) (m ix tgt : Nat) : Ends s₀ (execTrainingStateWrite m ix tgt s) := by
  simp [execTrainingStateWrite, h]

@[simp] theorem execErrorRingRead_keeps {s₀ s : State} (h : s₀.keeps s) (m ix tgt : Nat) (lost : Bool) :
    Ends s₀ (execErrorRingRead m ix tgt lost s) := by simp [execErrorRingRead, h]

@[simp] theorem execPerfCounterRead_keeps {s₀ s : State} (h : s₀.keeps s) (m ix tgt : Nat) : Ends s₀ (execPerfCounterRead m ix tgt s) := by
  simp [execPerfCounterRead, h]

@[simp] theorem execPerfCounterWrite_keeps {s₀ s : State} (h : s₀.keeps s) (m ix tgt : Nat) : Ends s₀ (execPerfCounterWrite m ix tgt s) := by
  simp [execPerfCounterWrite, h]

@[simp] theorem execPerfSnapshotRead_keeps {s₀ s : State} (h : s₀.keeps s) (m ix tgt : Nat) : Ends s₀ (execPerfSnapshotRead m ix tgt s) := by
  simp [execPerfSnapshotRead, h]

@[simp] theorem execContrailRecordRead_keeps {s₀ s : State} (h : s₀.keeps s) (m ix tgt : Nat) : Ends s₀ (execContrailRecordRead m ix tgt s) := by
  simp [execContrailRecordRead, h]

@[simp] theorem State.mbxLoad_keeps {s₀ : State} (s : State) (m : Nat) (r : MbxEnd) : s₀.keepsToo tm im (s.mbxLoad m r) ↔ s₀.keepsToo tm im s := by
  cases r <;> simp [State.mbxLoad]

@[simp] theorem State.mbxCharge_keeps {s₀ : State} (s : State) (o : MbxOp) : s₀.keepsToo tm im (s.mbxCharge o) ↔ s₀.keepsToo tm im s := by
  unfold State.mbxCharge
  split
  · simp
  · rfl

@[simp] theorem execMbxDone_keeps {s₀ s : State} (h : s₀.keeps s) (m : Nat) : Ends s₀ (execMbxDone m s) := by
  unfold execMbxDone
  repeat' split
  all_goals simpa using h

/-! ### Squall -/

@[simp] theorem State.loadGens_keeps {s₀ : State} (s : State) : s₀.keepsToo tm im s.loadGens ↔ s₀.keepsToo tm im s := by simp [State.loadGens]

@[simp] theorem State.setKey_keeps {s₀ : State} (s : State) (t : Nat) (k : Option Nat) : s₀.keepsToo tm im (s.setKey t k) ↔ s₀.keepsToo tm im s := by
  simp [State.setKey]

@[simp] theorem State.writeTestKey_keeps {s₀ : State} (s : State) (w tgt : Nat) : s₀.keepsToo tm im (s.writeTestKey w tgt) ↔ s₀.keepsToo tm im s := by
  unfold State.writeTestKey
  dsimp only
  repeat' split
  all_goals simp

@[simp] theorem execSquallKey_keeps {s₀ s : State} (h : s₀.keeps s) (w : Word) (tgt c : Nat) : Ends s₀ (execSquallKey w tgt c s) := by
  simp +contextual [execSquallKey, h]

@[simp] theorem State.squallWrite_keeps {s₀ s : State} (a w tgt : Nat) {acts : List (Nat × Act)}
    (hacts : ∀ e ∈ acts, ∀ s, s₀.keeps s → s₀.keeps (e.2 s).1) (h : s₀.keeps s) : s₀.keeps (s.squallWrite a w tgt acts) := by
  unfold State.squallWrite
  split
  · simpa using h
  · exact State.writeReg_keeps _ _ _ _ hacts h

@[simp] theorem State.writeSqSeed_keeps {s₀ s : State} (h : s₀.keeps s) (w tgt : Nat) : s₀.keeps (s.writeSqSeed w tgt) := by
  simp [State.writeSqSeed, h]

@[simp] theorem execSquallSeed_keeps {s₀ s : State} (h : s₀.keeps s) (w : Word) (tgt : Nat) : Ends s₀ (execSquallSeed w tgt s) := by
  simp +contextual [execSquallSeed, h]

@[simp] theorem State.writeGinj_keeps {s₀ s : State} (h : s₀.keeps s) (w tgt : Nat) : s₀.keeps (s.writeGinj w tgt) := by simp [State.writeGinj, h]

@[simp] theorem execGuardedInject_keeps {s₀ s : State} (h : s₀.keeps s) (w : Word) (tgt : Nat) : Ends s₀ (execGuardedInject w tgt s) := by
  simp +contextual [execGuardedInject, h]

@[simp] theorem State.writeSinj_keeps {s₀ s : State} (h : s₀.keeps s) (w tgt : Nat) : s₀.keeps (s.writeSinj w tgt) := by simp [State.writeSinj, h]

@[simp] theorem execSealedInject_keeps {s₀ s : State} (h : s₀.keeps s) (w : Word) (tgt : Nat) : Ends s₀ (execSealedInject w tgt s) := by
  simp +contextual [execSealedInject, h]

@[simp] theorem State.haloGo_keeps {s₀ : State} (s : State) : s₀.keepsToo tm im s.haloGo ↔ s₀.keepsToo tm im s := by simp [State.haloGo]

@[simp] theorem State.writeHinj_keeps {s₀ s : State} (h : s₀.keeps s) (w tgt : Nat) : s₀.keeps (s.writeHinj w tgt) := by simp [State.writeHinj, h]

@[simp] theorem execHaloInject_keeps {s₀ s : State} (h : s₀.keeps s) (w : Word) (tgt : Nat) : Ends s₀ (execHaloInject w tgt s) := by
  simp +contextual [execHaloInject, h]

@[simp] theorem State.writeLinj_keeps {s₀ s : State} (h : s₀.keeps s) (w tgt : Nat) : s₀.keeps (s.writeLinj w tgt) := by simp [State.writeLinj, h]

@[simp] theorem execLinkInject_keeps {s₀ s : State} (h : s₀.keeps s) (w : Word) (tgt : Nat) : Ends s₀ (execLinkInject w tgt s) := by
  simp +contextual [execLinkInject, h]

/-! ### RegPort -/

@[simp] theorem State.writeGlbCtl_keeps {s₀ : State} (s : State) (w : Nat) : s₀.keepsToo tm im (s.writeGlbCtl w) ↔ s₀.keepsToo tm im s := by
    simp [State.writeGlbCtl]

@[simp] theorem execBusyRearm_keeps {s₀ s : State} (h : s₀.keeps s) (w : Word) (tgt : Nat) : Ends s₀ (execBusyRearm w tgt s) := by
  simp [execBusyRearm, h]

@[simp] theorem State.writeGate_keeps {s₀ : State} (s : State) (f : Fld) (d n w : Nat) : s₀.keeps (s.writeGate f d n w).1 ↔ s₀.keeps s := by
  simp [State.writeGate]

/-- Every effect of a register with a row of its own. -/
theorem State.special_keeps {s₀ s : State} (h : s₀.keeps s) (i j : Nat) (w : Word) (tgt : Nat) :
    ∀ e ∈ s.special i j w tgt, s₀.keeps (e.2 ()) := by
  unfold State.special
  repeat' refine List.forall_mem_cons.mpr ⟨?_, ?_⟩
  all_goals simp [h]

@[simp] theorem State.writeAt_keeps {s₀ s : State} (h : s₀.keeps s) (a : Nat) (w : Word) (tgt : Nat) : s₀.keeps (s.writeAt a w tgt) := by
  unfold State.writeAt
  dsimp only
  repeat' split
  · exact h
  · exact h
  · simpa using h
  · next hfind => exact State.special_keeps h _ _ _ _ _ (List.mem_of_find?_eq_some hfind)
  · exact State.squallWrite_keeps _ _ _ (by simp) h
  · exact State.writeReg_keeps _ _ _ _ (by simp) h

@[simp] theorem execRegisterWrite_keeps {s₀ s : State} (h : s₀.keeps s) (a : Nat) (w : Word) (tgt : Nat) : Ends s₀ (execRegisterWrite a w tgt s) := by
  simp +contextual [execRegisterWrite, h]

@[simp] theorem State.clearRc_keeps {s₀ : State} (s : State) (x : Slot) : s₀.keepsToo tm im (s.clearRc x) ↔ s₀.keepsToo tm im s := by
    simp [State.clearRc]

@[simp] theorem State.readAt_keeps {s₀ : State} (s : State) (a : Nat) : s₀.keepsToo tm im (s.readAt a) ↔ s₀.keepsToo tm im s := by simp [State.readAt]

@[simp] theorem execRegisterRead_keeps {s₀ s : State} (h : s₀.keeps s) (a tgt : Nat) : Ends s₀ (execRegisterRead a tgt s) := by
  simp [execRegisterRead, h]

/-! ### Wake -/

@[simp] theorem State.restore_keeps {s₀ : State} (s : State) : s₀.keepsToo tm im s.restore ↔ s₀.keepsToo tm im s := by simp [State.restore]

@[simp] theorem State.abandonRestore_keeps {s₀ s : State} (h : s₀.keeps s) : s₀.keeps s.abandonRestore := by simp [State.abandonRestore, h]

@[simp] theorem State.reachRun_keeps {s₀ s : State} (h : s₀.keeps s) (t : Nat) : s₀.keeps (s.reachRun t) := by
  have hrun : s₀.keeps { s with power := { s.power with st := 0 } } := State.keeps_power h fun _ => Nat.zero_le 4
  unfold State.reachRun
  dsimp only
  split
  · simpa using hrun
  · simpa using hrun

@[simp] theorem State.heldAccess_keeps {s₀ s : State} (h : s₀.keeps s) (a : Option (Bool × Nat × Word × Nat)) : s₀.keeps (s.heldAccess a) := by
  unfold State.heldAccess
  split
  · exact h
  · exact State.regAccess_keeps _ _ _ (fun n s hs => State.writeAt_keeps hs _ _ _) h
  · exact State.access_keeps _ (fun s hs => by simpa using hs) h

@[simp] theorem execPwrWake_keeps {s₀ s : State} (h : s₀.keeps s) (ok : Bool) (t : Nat) : Ends s₀ (execPwrWake ok t s) := by
  have hrestore (s : State) (c : Bool) : s₀.keeps (if c = true then s.restore else s) ↔ s₀.keeps s := by
    split
    · simp
    · rfl
  unfold execPwrWake
  split
  · exact (ends_next _ _).mpr h
  · refine (ends_next _ _).mpr (State.heldAccess_keeps ?_ _)
    split
    · exact State.reachRun_keeps ((hrestore _ _).mpr (by simpa using h)) t
    · exact State.abandonRestore_keeps (by simpa using h)

/-! ### One step -/

/-- Every command runs to a next state that has what a step keeps. -/
theorem exec_keeps {s₀ s : State} (h : s₀.keeps s) (i : Instr) : Ends s₀ (exec i s) :=
  match i with
  | .tickEdge t width => execTickEdge_keeps h t width
  | .flywheelTick t => execFlywheelTick_keeps h t
  | .tickCycle c => execTickCycle_keeps h c
  | .gateEntryExpiry d c => execGateEntryExpiry_keeps h d c
  | .budgetWindowStart win c => execBudgetWindowStart_keeps h win c
  | .tickRelockWrite t w tgt => execTickRelockWrite_keeps h t w tgt
  | .gateArm d w tgt => execGateArm_keeps h d w tgt
  | .gateDisarm d w tgt => execGateDisarm_keeps h d w tgt
  | .registerWrite a w tgt => execRegisterWrite_keeps h a w tgt
  | .busyRearm w tgt => execBusyRearm_keeps h w tgt
  | .imgStart w tgt => execImgStart_keeps h w tgt
  | .imgAbort w tgt => execImgAbort_keeps h w tgt
  | .imgFifoWord w tgt => execImgFifoWord_keeps h w tgt
  | .imgStreamWord w last => execImgStreamWord_keeps h w last
  | .imgCheckDone => execImgCheckDone_keeps h
  | .imgAuthVerdict ok crc => execImgAuthVerdict_keeps h ok crc
  | .imgAdmitDone c t => execImgAdmitDone_keeps h c t
  | .channelImageQuiesced => execChannelImageQuiesced_keeps h
  | .groupQuiesceDone c => execGroupQuiesceDone_keeps h c
  | .quiesceTimeout c => execQuiesceTimeout_keeps h c
  | .read p r c => execRead_keeps h p r c
  | .write p r c => execWrite_keeps h p r c
  | .prefetch p r c => execPrefetch_keeps h p r c
  | .zero p r c => execZero_keeps h p r c
  | .preload p r c => execPreload_keeps h p r c
  | .unlock p r c => execUnlock_keeps h p r c
  | .hold p r c => execHold_keeps h p r c
  | .drop p r c => execDrop_keeps h p r c
  | .create p r d c => execCreate_keeps h p r d c
  | .writeDataBeat p data mask last c => execWriteDataBeat_keeps h p data mask last c
  | .responseBeat p c => execResponseBeat_keeps h p c
  | .attachRequest p => execAttachRequest_keeps h p
  | .portAttach p => execPortAttach_keeps h p
  | .detachRequest p => execDetachRequest_keeps h p
  | .portForceDetach p w tgt => execPortForceDetach_keeps h p w tgt
  | .cancelWait p w tgt => execCancelWait_keeps h p w tgt
  | .violRearm p w tgt => execViolRearm_keeps h p w tgt
  | .spaceWaitTimeout p tag => execSpaceWaitTimeout_keeps h p tag
  | .createRetry pool => execCreateRetry_keeps h pool
  | .linkGrant g => execLinkGrant_keeps h g
  | .linkBeat g c => execLinkBeat_keeps h g c
  | .linkRevoke g => execLinkRevoke_keeps h g
  | .linkBite g => execLinkBite_keeps h g
  | .creditRefill g => execCreditRefill_keeps h g
  | .linkFreeze g w tgt => execLinkFreeze_keeps h g w tgt
  | .linkUnfreeze g w tgt => execLinkUnfreeze_keeps h g w tgt
  | .linkDrained g => execLinkDrained_keeps h g
  | .fillUnitArrive g k => execFillUnitArrive_keeps h g k
  | .cellCheck g k => execCellCheck_keeps h g k
  | .cirRetryResult g k linkFail => execCirRetryResult_keeps h g k linkFail
  | .cellEncodeDone g k => execCellEncodeDone_keeps h g k
  | .snoopShare => execSnoopShare_keeps h
  | .snoopClaim => execSnoopClaim_keeps h
  | .snoopAcksDone k => execSnoopAcksDone_keeps h k
  | .evictWritebackUnit g => execEvictWritebackUnit_keeps h g
  | .haloInvalidate g w tgt => execHaloInvalidate_keeps h g w tgt
  | .haloInvDone g => execHaloInvDone_keeps h g
  | .haloRearm g w tgt => execHaloRearm_keeps h g w tgt
  | .cirRearm w tgt => execCirRearm_keeps h w tgt
  | .subrequestAssign k c => execSubrequestAssign_keeps h k c
  | .flowContextFill f lost => execFlowContextFill_keeps h f lost
  | .urgencyUpdate f c => execUrgencyUpdate_keeps h f c
  | .flowSweep f c => execFlowSweep_keeps h f c
  | .capacityTestDone => execCapacityTestDone_keeps h
  | .entryPass ch c => execEntryPass_keeps h ch c
  | .dramCommandIssue ch ck mr => execDramCommandIssue_keeps h ch ck mr
  | .readDataReturn ch link => execReadDataReturn_keeps h ch link
  | .refreshAccrual ch r ck => execRefreshAccrual_keeps h ch r ck
  | .mr4ReadDue ch r => execMr4ReadDue_keeps h ch r
  | .oscDue ch => execOscDue_keeps h ch
  | .eyeSweepDone ch r b left right => execEyeSweepDone_keeps h ch r b left right
  | .zqDue ch r => execZqDue_keeps h ch r
  | .longTrainingDue ch r => execLongTrainingDue_keeps h ch r
  | .maintenanceDone ch r => execMaintenanceDone_keeps h ch r
  | .maintStarved ch => execMaintStarved_keeps h ch
  | .powerDownEntry ch r ck => execPowerDownEntry_keeps h ch r ck
  | .channelHold ch w tgt => execChannelHold_keeps h ch w tgt
  | .chQuiesced ch => execChQuiesced_keeps h ch
  | .dawnStepDone ch us out => execDawnStepDone_keeps h ch us out
  | .phyCold ch w tgt => execPhyCold_keeps h ch w tgt
  | .phyWarm ch w tgt => execPhyWarm_keeps h ch w tgt
  | .phyLong ch w tgt => execPhyLong_keeps h ch w tgt
  | .phyRearm ch w tgt => execPhyRearm_keeps h ch w tgt
  | .autoEvacStart ch => execAutoEvacStart_keeps h ch
  | .contentLossMark ch u => execContentLossMark_keeps h ch u
  | .tilePrepWrite idx tile => execTilePrepWrite_keeps h idx tile
  | .extentsReturn idx => execExtentsReturn_keeps h idx
  | .forceFree w tgt => execForceFree_keeps h w tgt
  | .evacStart w tgt => execEvacStart_keeps h w tgt
  | .evacCancel w tgt => execEvacCancel_keeps h w tgt
  | .migrateStart w tgt => execMigrateStart_keeps h w tgt
  | .pieceCopyDone => execPieceCopyDone_keeps h
  | .chunkCopied => execChunkCopied_keeps h
  | .moveResume => execMoveResume_keeps h
  | .replaceRound => execReplaceRound_keeps h
  | .initUnitWrite r u => execInitUnitWrite_keeps h r u
  | .scrubStep ch => execScrubStep_keeps h ch
  | .scrubPeriodExpiry => execScrubPeriodExpiry_keeps h
  | .detectionHandle => execDetectionHandle_keeps h
  | .remapInstall ch => execRemapInstall_keeps h ch
  | .remapCmdInstall ch w tgt => execRemapCmdInstall_keeps h ch w tgt
  | .remapCmdRemove ch w tgt => execRemapCmdRemove_keeps h ch w tgt
  | .feRearm ch w tgt => execFeRearm_keeps h ch w tgt
  | .intRearm w tgt => execIntRearm_keeps h w tgt
  | .ringConsWrite w tgt => execRingConsWrite_keeps h w tgt
  | .pprAdd w tgt => execPprAdd_keeps h w tgt
  | .pprArm w tgt => execPprArm_keeps h w tgt
  | .pprGo w tgt => execPprGo_keeps h w tgt
  | .pprRowDone ok => execPprRowDone_keeps h ok
  | .checkerMode w tgt => execCheckerMode_keeps h w tgt
  | .checkerFlushDone => execCheckerFlushDone_keeps h
  | .duskRequest w tgt => execDuskRequest_keeps h w tgt
  | .duskClockStop => execDuskClockStop_keeps h
  | .wakeLatch srcs n => execWakeLatch_keeps h srcs n
  | .duskTimerExpiry => execDuskTimerExpiry_keeps h
  | .pwrWake recordOk t => execPwrWake_keeps h recordOk t
  | .tempAlert => execTempAlert_keeps h
  | .chSelfRefreshReq ch w tgt => execChSelfRefreshReq_keeps h ch w tgt
  | .chRetire ch w tgt => execChRetire_keeps h ch w tgt
  | .chReinstate ch w tgt => execChReinstate_keeps h ch w tgt
  | .softReset w tgt => execSoftReset_keeps h w tgt
  | .powerOnReset => execPowerOnReset_keeps h
  | .coreReset => execCoreReset_keeps h
  | .domainResetRelease dom => execDomainResetRelease_keeps h dom
  | .railAbsent rail => execRailAbsent_keeps h rail
  | .railGood rail => execRailGood_keeps h rail
  | .evtAck w tgt => execEvtAck_keeps h w tgt
  | .evtDisable w tgt => execEvtDisable_keeps h w tgt
  | .groupPost g => execGroupPost_keeps h g
  | .holdoffExpiry g => execHoldoffExpiry_keeps h g
  | .coalesceTimeExpiry g => execCoalesceTimeExpiry_keeps h g
  | .counterSnap g w tgt => execCounterSnap_keeps h g w tgt
  | .counterClear g w tgt => execCounterClear_keeps h g w tgt
  | .contrailFlush w tgt => execContrailFlush_keeps h w tgt
  | .contrailConsWrite w tgt => execContrailConsWrite_keeps h w tgt
  | .mbxGo m w tgt => execMbxGo_keeps h m w tgt
  | .epochRead m ix tgt => execEpochRead_keeps h m ix tgt
  | .epochSeedRead m ix tgt => execEpochSeedRead_keeps h m ix tgt
  | .epochSeedWrite m ix tgt => execEpochSeedWrite_keeps h m ix tgt
  | .tickIntervalsRead m ix tgt => execTickIntervalsRead_keeps h m ix tgt
  | .cycleRead m ix tgt => execCycleRead_keeps h m ix tgt
  | .flowConfigRead m ix tgt => execFlowConfigRead_keeps h m ix tgt
  | .flowConfigWrite m ix tgt => execFlowConfigWrite_keeps h m ix tgt
  | .flowStateRead m ix tgt => execFlowStateRead_keeps h m ix tgt
  | .flowStateWrite m ix tgt => execFlowStateWrite_keeps h m ix tgt
  | .trainingStateRead m ix tgt lost => execTrainingStateRead_keeps h m ix tgt lost
  | .trainingStateWrite m ix tgt => execTrainingStateWrite_keeps h m ix tgt
  | .errorRingRead m ix tgt lost => execErrorRingRead_keeps h m ix tgt lost
  | .perfCounterRead m ix tgt => execPerfCounterRead_keeps h m ix tgt
  | .perfCounterWrite m ix tgt => execPerfCounterWrite_keeps h m ix tgt
  | .perfSnapshotRead m ix tgt => execPerfSnapshotRead_keeps h m ix tgt
  | .contrailRecordRead m ix tgt => execContrailRecordRead_keeps h m ix tgt
  | .mbxDone m => execMbxDone_keeps h m
  | .squallKey w tgt c => execSquallKey_keeps h w tgt c
  | .squallSeed w tgt => execSquallSeed_keeps h w tgt
  | .squallRevoke => execSquallRevoke_keeps h
  | .guardedInject w tgt => execGuardedInject_keeps h w tgt
  | .sealedInject w tgt => execSealedInject_keeps h w tgt
  | .haloInject w tgt => execHaloInject_keeps h w tgt
  | .linkInject w tgt => execLinkInject_keeps h w tgt
  | .registerRead a tgt => execRegisterRead_keeps h a tgt
  | .reqDetached p => execReqDetached_keeps h p
  | .opUnknown p op r c => execOpUnknown_keeps h p op r c
  | .chHoldClear ch w tgt => execChHoldClear_keeps h ch w tgt
  | .pprDisarm w tgt => execPprDisarm_keeps h w tgt

end Sys2Proof.Machine

open Sys2Proof Sys2Proof.Machine

/-- Settles O60: a step runs the front command on the rest of the queue, and every command has its `_keeps` lemma. -/
theorem stepKeepsInvariant : Obligations.StepKeepsInvariant := by
  unfold Obligations.StepKeepsInvariant
  intro s ⟨hmem, hpower⟩
  unfold step
  split
  · next hnil =>
    obtain ⟨⟨hb, ha, hq, hm, hp⟩, -, -⟩ := State.elapse_keeps (State.keepsToo_refl s) 1
    exact ⟨_, rfl, ⟨hm hmem, hp hpower⟩, hb, ha, hq.trans (by rw [hnil]; rfl)⟩
  · next i rest hcons =>
    obtain ⟨t, ht, ⟨hb, ha, hq, hm, hp⟩, -, -⟩ := exec_keeps (State.keepsToo_refl { s with pending := rest }) i
    exact ⟨t, ht, ⟨hm hmem, hp hpower⟩, hb, ha, hq.trans (by rw [hcons]; rfl)⟩

end

section
/-! The step and the register port: what a read shows and clears, the scratch register and the capture of refused writes. -/

namespace Sys2Proof

theorem Tab.find_erase_ne {α : Type} {k m : Nat} (hne : m ≠ k) (t : Tab α) : Tab.find (Tab.erase k t) m = Tab.find t m := by
  induction t with
  | nil => rfl
  | cons e t ih =>
    unfold Tab.erase
    split
    · next hkey => simp [Tab.find, ← hkey, hne]
    · simp [Tab.find, ih]

theorem Tab.find_none_of_notMem {α : Type} {t : Tab α} {k : Nat} (hkey : k ∉ t.map (·.1)) : Tab.find t k = none := by
  induction t with
  | nil => rfl
  | cons e t ih =>
    simp only [List.map_cons, List.mem_cons, not_or] at hkey
    simp [Tab.find, hkey.1, ih hkey.2]

theorem Tab.find_erase_self {α : Type} {t : Tab α} (hnodup : (t.map (·.1)).Nodup) (k : Nat) : Tab.find (Tab.erase k t) k = none := by
  induction t with
  | nil => rfl
  | cons e t ih =>
    simp only [List.map_cons, List.nodup_cons] at hnodup
    unfold Tab.erase
    split
    · next hkey => exact Tab.find_none_of_notMem (hkey ▸ hnodup.1)
    · next hkey => simp [Tab.find, hkey, ih hnodup.2]

theorem Tab.erase_sublist {α : Type} (k : Nat) (t : Tab α) : (Tab.erase k t).Sublist t := by
  induction t with
  | nil => exact List.Sublist.refl _
  | cons e t ih =>
    unfold Tab.erase
    split
    · exact List.sublist_cons_self e t
    · exact ih.cons_cons e

theorem Tab.find_erase_none {α : Type} {t : Tab α} {k : Nat} (hfind : Tab.find t k = none) (m : Nat) : Tab.find (Tab.erase m t) k = none := by
  induction t with
  | nil => rfl
  | cons e t ih =>
    by_cases hkey : k = e.1
    · simp [Tab.find, hkey] at hfind
    · simp only [Tab.find, hkey, if_false] at hfind
      unfold Tab.erase
      split
      · exact hfind
      · simp [Tab.find, hkey, ih hfind]

end Sys2Proof

namespace Sys2Proof.Machine
open Sys2Proof

/-! ### Reads clear RC fields -/

/-- What the clearing of RC fields leaves of a state. -/
def State.cleared (s t : State) : Prop := t = { s with regs := t.regs, meas := { s.meas with ovf := t.meas.ovf } }

theorem State.clearRc_cleared (s : State) (x : Slot) : s.cleared (s.clearRc x) := by
  unfold State.clearRc State.cleared
  repeat' split
  all_goals rfl

theorem State.cleared_trans {s t u : State} (h : s.cleared t) (k : t.cleared u) : s.cleared u := by
  unfold State.cleared at *
  rw [k, h]

theorem State.cleared_rdata {s t : State} (h : s.cleared t) (v : Word) :
    ({ t with rdata := v } : State) = { s with rdata := v, regs := t.regs, meas := { s.meas with ovf := t.meas.ovf } } := by
  unfold State.cleared at h
  rw [h]

theorem State.foldl_clearRc_cleared (s : State) (xs : List Slot) : s.cleared (xs.foldl State.clearRc s) := by
  induction xs generalizing s with
  | nil => rfl
  | cons x xs ih => exact State.cleared_trans (s.clearRc_cleared x) (ih _)

@[simp] theorem State.clearRc_build (s : State) (x : Slot) : (s.clearRc x).build = s.build := by rw [s.clearRc_cleared x]

@[simp] theorem State.clearRc_bitsNow (s : State) (x : Slot) : (s.clearRc x).bitsNow = s.bitsNow := by rw [s.clearRc_cleared x]

/-- A slot with another key, or whose bits were set in this cycle, leaves a field as it is. -/
theorem State.clearRc_rd_keeps (s : State) {x : Slot} {f : Fld} {i j : Nat}
    (h : x.f.key x.i x.j ≠ f.key i j ∨ s.bitsNow.contains (x.f.key x.i x.j) = true) : (s.clearRc x).rd f i j = s.rd f i j := by
  unfold State.clearRc
  split
  · rfl
  · next hclears =>
    split
    · rfl
    · rcases h with hne | hnow
      · simp only [State.rd, Tab.get, Tab.find_erase_ne (Ne.symm hne)]
      · exact (hclears (Or.inr (Or.inr hnow))).elim

theorem State.foldl_clearRc_rd_keeps (s : State) {xs : List Slot} {f : Fld} {i j : Nat}
    (h : ∀ x ∈ xs, x.f.key x.i x.j ≠ f.key i j ∨ s.bitsNow.contains (x.f.key x.i x.j) = true) :
    (xs.foldl State.clearRc s).rd f i j = s.rd f i j := by
  induction xs generalizing s with
  | nil => rfl
  | cons x xs ih =>
    rw [List.foldl_cons, ih _ (by simpa using fun y hy => h y (List.mem_cons_of_mem _ hy))]
    exact s.clearRc_rd_keeps (h x List.mem_cons_self)

theorem State.clearRc_find_none {s : State} {k : Nat} (h : Tab.find s.regs k = none) (x : Slot) : Tab.find (s.clearRc x).regs k = none := by
  unfold State.clearRc
  repeat' split
  · exact h
  · exact h
  · exact Tab.find_erase_none h _

theorem State.foldl_clearRc_find_none {s : State} {k : Nat} (h : Tab.find s.regs k = none) (xs : List Slot) :
    Tab.find (xs.foldl State.clearRc s).regs k = none := by
  induction xs generalizing s with
  | nil => exact h
  | cons x xs ih => exact ih (State.clearRc_find_none h x)

theorem State.clearRc_nodup {s : State} (h : (s.regs.map (·.1)).Nodup) (x : Slot) : ((s.clearRc x).regs.map (·.1)).Nodup := by
  unfold State.clearRc
  repeat' split
  · exact h
  · exact h
  · exact ((Tab.erase_sublist _ _).map _).nodup h

/-- An RC field that a read returns and that is not the bits of the counters is unlisted by it. -/
theorem State.foldl_clearRc_find_self {s : State} {x : Slot} (hacc : x.f.acc = .rc) (hpresent : x.f.present s.build x.i = true)
    (hnow : s.bitsNow.contains (x.f.key x.i x.j) = false) (hovf : x.f.ix ≠ R.PF_GRP_STATUS_OVF.ix) (hnodup : (s.regs.map (·.1)).Nodup)
    {xs : List Slot} (hx : x ∈ xs) : Tab.find (xs.foldl State.clearRc s).regs (x.f.key x.i x.j) = none := by
  induction xs generalizing s with
  | nil => cases hx
  | cons y ys ih =>
    rcases List.mem_cons.mp hx with rfl | hx
    · refine State.foldl_clearRc_find_none ?_ ys
      have herase : s.clearRc x = { s with regs := Tab.erase (x.f.key x.i x.j) s.regs } := by
        unfold State.clearRc
        rw [if_neg (by simp only [hacc, hpresent, hnow]; decide), if_neg hovf]
      rw [herase]
      exact Tab.find_erase_self hnodup _
    · exact ih (by simpa using hpresent) (by simpa using hnow) (State.clearRc_nodup hnodup y) hx

theorem State.readSlot_writeOnly (s : State) {x : Slot} (h : x.f.acc = .wo ∨ x.f.acc = .w1t) : s.readSlot x = 0 := by
  unfold State.readSlot
  rcases h with h | h <;> simp [h]

/-! ### Writes of the global registers -/

theorem slotsAt_scratch : slotsAt 0xC = [⟨R.GLB_SCRATCH_VALUE, 0, 0⟩] := by decide +kernel

theorem State.writeAt_scratch (s : State) (w : Word) (tgt : Nat) : s.writeAt 0xC w tgt = s.wr R.GLB_SCRATCH_VALUE 0 0 w.toNat := by
  have hword : bits w.toNat 0 32 = w.toNat := by simp [bits, Nat.mod_eq_of_lt w.isLt]
  have hwrite : s.writeReg [⟨R.GLB_SCRATCH_VALUE, 0, 0⟩] [] 0xC w.toNat tgt = s.wr R.GLB_SCRATCH_VALUE 0 0 (bits w.toNat 0 32) :=
    s.writeReg_now ⟨R.GLB_SCRATCH_VALUE, 0, 0⟩ 0xC w.toNat tgt rfl rfl rfl rfl
  have hpresent : R.GLB_SCRATCH_VALUE.present s.build 0 = true := rfl
  unfold State.writeAt
  simp only [show 0xC / 4 * 4 = 0xC from rfl, slotsAt_scratch]
  rw [if_neg (by simp [hpresent]), if_neg (by decide)]
  exact hwrite.trans (by rw [hword])

theorem exec_busyRearm_open {s : State} (h : s.portOpen) (w : Word) (tgt : Nat) :
    exec (.busyRearm w tgt) s = .next (s.wr R.GLB_BUSY_FIRST_VALID 0 0 0) := by
  change Host.Outcome.next (s.regAccess 0x10 (w ||| 1) tgt fun w s => s.writeGlbCtl w) = _
  rw [State.regAccess_open h, State.writeGlbCtl, if_pos (bit_toNat_or_one w)]

end Sys2Proof.Machine

open Sys2Proof Sys2Proof.Machine

/-- Settles O1: `step` matches on the queue. -/
theorem stepRunsFront : Obligations.StepRunsFront := by
  unfold Obligations.StepRunsFront
  intro c rest s
  rfl

/-- Settles O59: the state after reset lists no register and no byte, so each field reads as its reset value. -/
theorem resetState : Obligations.ResetState := by
  unfold Obligations.ResetState
  refine ⟨⟨rfl, Nat.zero_le 4⟩, rfl, by decide +kernel, rfl, rfl, rfl, ?_⟩
  intro f i j
  rfl

/-- Settles O4: the read folds `clearRc` over the slots of its address, and each step unlists at most the field of its own slot. -/
theorem registerReadClears : Obligations.RegisterReadClears := by
  unfold Obligations.RegisterReadClears
  intro s a tgt hopen
  refine ⟨s.readAt a, exec_registerRead_open hopen a tgt, ?_, rfl, ?_, ?_, ?_, ?_⟩
  · exact State.cleared_rdata (s.foldl_clearRc_cleared (slotsAt a)) _
  · exact fun x _ hacc => s.readSlot_writeOnly hacc
  · intro x _ _ hnow
    refine s.foldl_clearRc_rd_keeps fun y _ => ?_
    by_cases hkey : y.f.key y.i y.j = x.f.key x.i x.j
    · exact Or.inr (by rw [hkey]; exact hnow)
    · exact Or.inl hkey
  · intro x hx hacc hpresent hnow hovf hnodup
    have hnone := State.foldl_clearRc_find_self hacc hpresent hnow hovf hnodup hx
    have hbuild : ((slotsAt a).foldl State.clearRc s).build = s.build := by rw [s.foldl_clearRc_cleared (slotsAt a)]
    change (Tab.find ((slotsAt a).foldl State.clearRc s).regs _).getD (x.f.reset ((slotsAt a).foldl State.clearRc s).build x.i) = _
    rw [hnone, hbuild]
    rfl
  · intro f i j hkeys
    exact s.foldl_clearRc_rd_keeps fun y hy => Or.inl (hkeys y hy)

/-- Settles O5: the scratch field is a Now-class field of 32 bits, and BUSY_REARM clears VALID only. -/
theorem scratchAndRearm : Obligations.ScratchAndRearm := by
  unfold Obligations.ScratchAndRearm
  intro s w tgt hopen
  constructor
  · refine ⟨s.wr R.GLB_SCRATCH_VALUE 0 0 w.toNat, ?_, ?_, rfl, fun f i j hne => State.wr_rd_ne _ hne ..⟩
    · rw [exec_registerWrite_open hopen, State.writeAt_scratch]
    · rw [State.wr_rd_self]
      exact Nat.mod_eq_of_lt w.isLt
  · exact ⟨_, exec_busyRearm_open hopen w tgt, by rw [State.wr_rd_self]; rfl, rfl, fun f i j hne => State.wr_rd_ne _ hne ..⟩

end

section
/-! Accepted ticks: the real tick, the flywheel tick, Squall's hidden edges and the RELOCK write. -/

namespace Sys2Proof.Machine
open Sys2Proof

/-! ### Register fields and conditions -/

theorem State.regsKept_refl (s : State) (l : List Slot) : s.regsKept s l := fun _ _ _ _ => rfl

theorem State.regsKept_mono {s t : State} {l m : List Slot} (h : s.regsKept t l) (hsub : ∀ x ∈ l, x ∈ m) : s.regsKept t m :=
  fun f i j hne => h f i j fun x hx => hne x (hsub x hx)

/-- Two states with the same registers in the same build read alike. -/
theorem State.regsKept_of_regs {s t : State} (hregs : t.regs = s.regs) (hbuild : t.build = s.build) (l : List Slot) : s.regsKept t l := by
  intro f i j _
  unfold State.rd
  rw [hregs, hbuild]

theorem State.regsKept_congr {s t u : State} {l : List Slot} (h : s.regsKept t l) (hregs : u.regs = t.regs) (hbuild : u.build = t.build) :
    s.regsKept u l := by
  intro f i j hne
  rw [← h f i j hne]
  unfold State.rd
  rw [hregs, hbuild]

/-- The conditions of the tick unit raise events and change nothing else (R41, R43). -/
theorem State.tickConditions_cases (s s0 : State) : ∃ e, s.tickConditions s0 = { s with evts := e } ∧
    ∀ g n, bit (s.evt g).pending n = true → bit ((s.tickConditions s0).evt g).pending n = true := by
  have hraise (t : State) (k g n : Nat) (h : bit (t.evt g).pending n = true) : bit ((t.raise 0 k).evt g).pending n = true := by
    by_cases hg : g = 0
    · subst hg
      rw [State.raise_evt_pending, bit_or, h, Bool.true_or]
    · rwa [State.raise_evt_ne _ hg]
  unfold State.tickConditions
  dsimp only
  split <;> split
  · exact ⟨_, rfl, fun g n h => hraise _ 6 g n (hraise _ 5 g n h)⟩
  · exact ⟨_, rfl, fun g n h => hraise _ 5 g n h⟩
  · exact ⟨_, rfl, fun g n h => hraise _ 6 g n h⟩
  · exact ⟨_, rfl, fun _ _ h => h⟩

/-! ### The averaged interval -/

/-- The fields that an interval out of tolerance, or the lock, changes. -/
def gatherSlots : List Slot := [⟨R.TICK_STATUS_OUTLIER, 0, 0⟩, ⟨R.TICK_OUTLIER_CNT_COUNT, 0, 0⟩, ⟨R.TICK_STATUS_LOCKED, 0, 0⟩]

/-- The tick unit with the interval `x` gathered, in state `st` with `n` intervals in tolerance (R41). -/
def State.gathered (s : State) (x st n : Nat) : TickUnit :=
  { s.tick with interval := x, imList := (x :: s.tick.imList).take 8, im := meanOf s.nomTclk ((x :: s.tick.imList).take 8), st := st, inTol := n }

/-- An interval outside the band notes an outlier, and the second in the band in ACQUIRE locks (R37, R41). -/
theorem State.gather_cases (s : State) (x : Nat) :
    ∃ st n r b e, s.gather x = { s with tick := s.gathered x st n, regs := r, bitsNow := b, evts := e } ∧ (s.tick.st ≠ 1 → st = s.tick.st) ∧
      (s.tick.st = 1 → st = 1 ∨ st = 2) ∧ s.regsKept { s with regs := r } gatherSlots := by
  have hout (t : State) : t.regsKept ((t.raiseTick R.TICK_STATUS_OUTLIER 4).bump R.TICK_OUTLIER_CNT_COUNT 0 0 1) gatherSlots :=
    State.regsKept_mono (State.regsKept_trans (State.raiseTick_regsKept t R.TICK_STATUS_OUTLIER 4) (State.bump_regsKept _ _ 0 0 1))
      (by simp [gatherSlots])
  have hlock (t : State) : t.regsKept (t.raiseTick R.TICK_STATUS_LOCKED 0) gatherSlots :=
    State.regsKept_mono (State.raiseTick_regsKept t R.TICK_STATUS_LOCKED 0) (by simp [gatherSlots])
  unfold State.gather
  dsimp only
  by_cases hband : inBand s.nomTclk x = true
  · simp only [hband, if_true]
    split
    · next hacq => exact ⟨2, _, _, _, _, rfl, fun hne => absurd hacq.1 hne, fun _ => Or.inr rfl, hlock s⟩
    · exact ⟨s.tick.st, _, _, _, _, rfl, fun _ => rfl, Or.inl, State.regsKept_refl s _⟩
  · simp only [hband, Bool.false_eq_true, if_false]
    split
    · next hacq => exact absurd hacq.2 (show ¬ 2 ≤ 0 by decide)
    · exact ⟨s.tick.st, _, _, _, _, rfl, fun _ => rfl, Or.inl, hout s⟩

/-- The tick unit that a real tick in tclk cycle `t` makes of `k`, which has gathered the interval or not (R35, R37). -/
def TickUnit.accepted (k : TickUnit) (t : Nat) (avg : Bool) : TickUnit :=
  { k with
    ref := t, last := t, first := false, lastReal := true, runts := 0, flys := 0, epochOut := some (t + 2), strobes := k.strobes ++ [Strobe.mk avg]
    st := if k.st = 3 then 2 else k.st }

/-- The tick unit that ACQUIRE makes of `k` (R36). -/
def State.acquiring (s : State) (k : TickUnit) (t : Nat) (first : Bool) : TickUnit :=
  { k with
    st := 1, ref := t, first := first, im := s.nomTclk, ic := s.nomCclk, imList := [], icList := [], inTol := 0
    strobes := k.strobes.map fun _ => Strobe.mk false }

/-- The interval that a real tick ends is gathered if it lies between two real ticks. -/
theorem State.gatherIf_cases (s : State) (avg : Bool) (x : Nat) :
    ∃ k r b e, (if avg then s.gather x else s) = { s with tick := k, regs := r, bitsNow := b, evts := e } ∧
      (avg = false → k = s.tick) ∧ (avg = true → ∃ st n, k = s.gathered x st n ∧ (s.tick.st = 1 → st = 1 ∨ st = 2)) ∧
      (s.tick.st ≠ 1 → k.st = s.tick.st) ∧ s.regsKept { s with regs := r } gatherSlots := by
  cases avg with
  | false => exact ⟨s.tick, s.regs, s.bitsNow, s.evts, rfl, fun _ => rfl, nofun, fun _ => rfl, State.regsKept_refl s _⟩
  | true =>
    obtain ⟨st, n, r, b, e, hgather, hst, hacq, hkept⟩ := s.gather_cases x
    exact ⟨_, r, b, e, hgather, nofun, fun _ => ⟨st, n, rfl, hacq⟩, hst, hkept⟩

/-- A real tick that is not a re-lock tick leaves the tick unit `accepted` and, out of FREE, `acquiring`. -/
theorem State.realTick_cases (s : State) (t : Nat) :
    ∃ k tr r b e, s.realTick t false = { s with
        tick := if s.tick.st = 4 then s.acquiring (k.accepted t s.tick.lastReal) t false else k.accepted t s.tick.lastReal
        traffic := tr, regs := r, bitsNow := b, evts := e } ∧
      (s.tick.lastReal = false → k = s.tick) ∧
      (s.tick.lastReal = true → ∃ st n, k = s.gathered (t - s.tick.last) st n ∧ (s.tick.st = 1 → st = 1 ∨ st = 2)) ∧
      (s.tick.st ≠ 1 → k.st = s.tick.st) ∧ s.regsKept { s with regs := r } gatherSlots ∧ s.onlyTest { s with traffic := tr } ∧
      (s.tick.st ≠ 4 → tr = s.traffic) := by
  obtain ⟨k, r, b, e, hgather, hno, hyes, hst, hkept⟩ := s.gatherIf_cases s.tick.lastReal (t - s.tick.last)
  have hsame : k.st = 4 ↔ s.tick.st = 4 := by
    cases hreal : s.tick.lastReal with
    | false => rw [hno hreal]
    | true =>
      obtain ⟨st, n, hk, hacq⟩ := hyes hreal
      by_cases h1 : s.tick.st = 1
      · have hlow := hacq h1
        rw [hk]
        change st = 4 ↔ s.tick.st = 4
        omega
      · rw [hst h1]
  let u : State := { s with tick := k.accepted t s.tick.lastReal, regs := r, bitsNow := b, evts := e }
  have hreal : s.realTick t false = (if s.tick.st = 4 then u.acquire t false else u).tickConditions s := by
    unfold State.realTick
    simp only [Bool.not_false, Bool.and_true, hgather, Bool.false_eq_true, if_false, hsame]
    rfl
  by_cases hfree : s.tick.st = 4
  · simp only [hreal, if_pos hfree]
    obtain ⟨tr, hnote, htest⟩ := State.noteIc_cases { u with tick := s.acquiring (k.accepted t s.tick.lastReal) t false }
    have hacq : u.acquire t false = { u with tick := s.acquiring (k.accepted t s.tick.lastReal) t false, traffic := tr } := hnote
    rw [hacq]
    obtain ⟨e', hcond, -⟩ := State.tickConditions_cases { u with tick := s.acquiring (k.accepted t s.tick.lastReal) t false, traffic := tr } s
    exact ⟨k, tr, r, b, e', hcond, hno, hyes, hst, hkept, htest, fun h => absurd hfree h⟩
  · simp only [hreal, if_neg hfree]
    obtain ⟨e', hcond, -⟩ := State.tickConditions_cases u s
    exact ⟨k, s.traffic, r, b, e', hcond, hno, hyes, hst, hkept, rfl, fun _ => rfl⟩

/-- An edge at or after the acceptance threshold, or the first of ACQUIRE, is a real tick (R36, R37). -/
theorem State.edge_real {s : State} {t width : Nat} (hwidth : 2 ≤ width) (hst : s.tick.st ≠ 0)
    (haccept : (s.tick.st = 1 ∧ s.tick.first = true) ∨ s.tick.ref + s.tickA ≤ t) : s.edge t width = s.realTick t false := by
  unfold State.edge
  rw [if_neg (Nat.not_lt.mpr hwidth), if_neg hst]
  by_cases hfirst : s.tick.st = 1 ∧ s.tick.first = true
  · rw [if_pos hfirst]
  · rw [if_neg hfirst, if_pos (haccept.resolve_left hfirst)]

/-! ### The flywheel tick (R40, R43) -/

/-- The tick unit after a flywheel tick in tclk cycle `t`. -/
def State.flyTick (s : State) (t : Nat) : TickUnit :=
  { s.tick with
    st := if s.tick.st = 1 ∨ s.tick.st = 2 then 3 else if s.tick.st = 3 ∧ 8 ≤ s.tick.flys + 1 then 4 else s.tick.st
    ref := t, last := t, first := false, lastReal := false, runts := 0, flys := s.tick.flys + 1, inTol := 0
    epochOut := some t, strobes := s.tick.strobes ++ [Strobe.mk false] }

/-- What a flywheel tick leaves before the conditions of the tick unit are judged. -/
def State.flown (s : State) (t : Nat) : State :=
  ((({ s with tick := s.flyTick t } : State).raiseTick R.TICK_STATUS_FLYWHEEL 3).bump R.TICK_FLYWHEEL_CNT_COUNT 0 0 1).count { ev := 0x002 }

theorem exec_flywheelTick_off {s : State} {t : Nat} (h : t ≠ s.tick.ref + s.tickF) : exec (.flywheelTick t) s = .next s := by
  change execFlywheelTick t s = _
  unfold execFlywheelTick
  rw [if_pos (Or.inr (Or.inr h))]

theorem exec_flywheelTick_due {s : State} {t : Nat} (hrun : s.tclkRuns = true) (hst : s.tick.st ≠ 0) (h : t = s.tick.ref + s.tickF) :
    exec (.flywheelTick t) s = .next ((s.flown t).tickConditions s) := by
  change execFlywheelTick t s = _
  unfold execFlywheelTick
  rw [if_neg (by simp [hrun, hst, h])]
  rfl

theorem State.flown_rd_status (s : State) (t : Nat) : (s.flown t).rd R.TICK_STATUS_FLYWHEEL = 1 := by
  unfold State.flown
  rw [State.count_rd, State.bump_rd_ne _ (by decide), State.raiseTick_rd_self]
  rfl

theorem State.flown_rd_count (s : State) (t : Nat) :
    (s.flown t).rd R.TICK_FLYWHEEL_CNT_COUNT = satAdd 16 (s.rd R.TICK_FLYWHEEL_CNT_COUNT) 1 := by
  unfold State.flown
  rw [State.count_rd, State.bump_rd_self, State.raiseTick_rd_ne _ (by decide)]
  rfl

theorem State.flown_regsKept (s : State) (t : Nat) : s.regsKept (s.flown t) [⟨R.TICK_STATUS_FLYWHEEL, 0, 0⟩, ⟨R.TICK_FLYWHEEL_CNT_COUNT, 0, 0⟩] :=
  State.regsKept_trans (State.raiseTick_regsKept { s with tick := s.flyTick t } R.TICK_STATUS_FLYWHEEL 3)
    (State.bump_regsKept _ R.TICK_FLYWHEEL_CNT_COUNT 0 0 1)

theorem State.flown_bit_pending (s : State) (t : Nat) : bit ((s.flown t).evt 0).pending 3 = true :=
  State.raiseTick_bit_pending _ R.TICK_STATUS_FLYWHEEL 3

/-! ### Squall's hidden edge (R467) -/

/-- The state after an edge that Squall hides. -/
def State.dropped (s : State) : State :=
  ({ s with squall := { s.squall with gens := Tab.insert tickGen (prbs15 (Tab.get 0 s.squall.gens tickGen)) s.squall.gens } } : State).wr
    R.SQ_TICK_DROP 0 0 (s.rd R.SQ_TICK_DROP - 1)

theorem State.edgeSeen_dropped {s : State} (hrun : s.tclkRuns = true) (hopen : s.squall.unlocked = true) (hdrop : s.rd R.SQ_TICK_DROP ≠ 0)
    (t width : Nat) : s.edgeSeen t width = s.dropped := by
  unfold State.edgeSeen
  rw [if_neg (by simp [hrun]), if_pos hopen]
  exact if_pos hdrop

/-! ### RELOCK (R37, R461) -/

theorem exec_tickRelockWrite_open {s : State} (h : s.portOpen) (t : Nat) (w : Word) (tgt : Nat) :
    exec (.tickRelockWrite t w tgt) s = .next ((s.relockWrite t).1.busyIf (s.relockWrite t).2 0x328 tgt) := by
  have hgo : bit (w ||| 1).toNat 0 = true := bit_toNat_or_one w
  change Host.Outcome.next (s.regAccess 0x328 (w ||| 1) tgt fun w s => s.writeTickCtl t w tgt) = _
  rw [State.regAccess_open h]
  simp only [State.writeTickCtl, State.writeReg, runActs, applySlots, List.foldl_cons, List.foldl_nil, hgo, if_true, Bool.false_or]

end Sys2Proof.Machine

open Sys2Proof Sys2Proof.Machine

/-- Settles O9: `State.realTick_cases` gives the state after an accepted edge. -/
theorem realTick : Obligations.RealTick := by
  unfold Obligations.RealTick
  intro s t width hrun hwake hlock hwidth hst haccept
  obtain ⟨k, tr, r, b, e, hreal, hno, hyes, hkst, hkept, htest, htr⟩ := s.realTick_cases t
  have hen : ({ s with regs := r } : State).rd R.PWR_WAKE_EN_EN = s.rd R.PWR_WAKE_EN_EN :=
    hkept _ _ _ (by simp [gatherSlots, Fld.key_ne (show R.TICK_STATUS_OUTLIER.ix ≠ R.PWR_WAKE_EN_EN.ix by decide),
      Fld.key_ne (show R.TICK_OUTLIER_CNT_COUNT.ix ≠ R.PWR_WAKE_EN_EN.ix by decide),
      Fld.key_ne (show R.TICK_STATUS_LOCKED.ix ≠ R.PWR_WAKE_EN_EN.ix by decide)])
  have hexec := exec_tickEdge_of_edge hrun hwake hlock ((State.edge_real hwidth hst haccept).trans hreal) rfl hen
  have hkeep : k.strobes = s.tick.strobes ∧ k.epoch = s.tick.epoch := by
    cases hlast : s.tick.lastReal with
    | false => simp [hno hlast]
    | true =>
      obtain ⟨st, n, hk, -⟩ := hyes hlast
      simp [hk, State.gathered]
  obtain ⟨hstrobes, hepoch⟩ := hkeep
  by_cases hfree : s.tick.st = 4
  · simp only [if_pos hfree] at hexec
    have hks : k.st = 4 := (hkst (by omega)).trans hfree
    refine ⟨_, hexec, rfl, rfl, rfl, rfl, rfl, rfl, rfl, fun h => absurd hfree h, fun _ => ?_, by omega, by omega, fun _ => rfl, fun _ _ => rfl,
      fun h => absurd hfree h, hepoch, htest, htr, rfl, hkept⟩
    simp [State.acquiring, TickUnit.accepted, hstrobes]
  · simp only [if_neg hfree] at hexec
    refine ⟨_, hexec, rfl, rfl, rfl, rfl, rfl, rfl, rfl, fun _ => congrArg (· ++ _) hstrobes, fun h => absurd h hfree, fun h2 => ?_, fun h3 => ?_,
      fun h => absurd h hfree, fun h1 hlast => ?_, fun _ hlast => ?_, hepoch, htest, htr, rfl, hkept⟩
    · simp [TickUnit.accepted, hkst (by omega), h2]
    · simp [TickUnit.accepted, hkst (by omega), h3]
    · simp [TickUnit.accepted, hno hlast, h1]
    · obtain ⟨st, n, hk, -⟩ := hyes hlast
      simp [TickUnit.accepted, hk, State.gathered]

/-- Settles O10: a flywheel tick at R + F is `State.flown`, after which the conditions only raise events. -/
theorem flywheelTick : Obligations.FlywheelTick := by
  unfold Obligations.FlywheelTick
  intro s t hrun hst
  refine ⟨exec_flywheelTick_off, fun hdue => ?_⟩
  obtain ⟨e, hcond, hpending⟩ := (s.flown t).tickConditions_cases s
  have hbit := hpending 0 3 (s.flown_bit_pending t)
  rw [hcond] at hbit
  refine ⟨_, (exec_flywheelTick_due hrun hst hdue).trans (congrArg _ hcond), rfl, rfl, rfl, rfl, rfl, rfl, rfl, ?_, ?_, ?_, s.flown_rd_status t, hbit,
    s.flown_rd_count t, rfl, rfl, rfl, s.flown_regsKept t⟩
  · exact fun hlow => if_pos hlow
  · intro h3
    change (s.flyTick t).st = _
    by_cases hfew : s.tick.flys < 7
    · rw [if_pos hfew, State.flyTick, h3, if_neg (by omega), if_neg (by omega)]
    · rw [if_neg hfew, State.flyTick, h3, if_neg (by omega), if_pos (by omega)]
  · intro h4
    change (s.flyTick t).st = _
    rw [State.flyTick, h4, if_neg (by omega), if_neg (by omega)]

/-- Settles O11: the edge does not reach the tick unit, and it wakes nothing. -/
theorem squallTickLoss : Obligations.SquallTickLoss := by
  unfold Obligations.SquallTickLoss
  intro s t width hrun hwake hopen hdrop hwidth
  have hidle : s.dropped.latchWake 0 = s.dropped := by
    refine State.latchWake_none (State.power_lt_of_tclkRuns hrun) (hwake.imp id fun h => ?_)
    rw [← h]
    exact congrArg (bit · 0) (State.wr_rd_ne _ (by decide) ..)
  have hexec : exec (.tickEdge t width) s = .next s.dropped := by
    change Host.Outcome.next ((s.edgeSeen t width).latchWake 0) = _
    rw [State.edgeSeen_dropped hrun hopen hdrop, hidle]
  refine ⟨s.dropped, hexec, rfl, ?_, Tab.get_insert_self .., rfl, State.wr_regsKept _ R.SQ_TICK_DROP 0 0 _⟩
  unfold State.dropped
  rw [State.wr_rd_self]
  change (s.rd R.SQ_TICK_DROP - 1) % 2 ^ 8 + 1 = _
  omega

/-- Settles O12: the RELOCK write acquires, or is refused. -/
theorem relockWrite : Obligations.RelockWrite := by
  unfold Obligations.RelockWrite
  intro s t w tgt hopen
  rw [exec_tickRelockWrite_open hopen]
  constructor
  · intro hconf
    obtain ⟨tr, hnote, htest⟩ := State.noteIc_cases { s with tick := s.acquiring s.tick t true }
    obtain ⟨e, hcond, -⟩ := State.tickConditions_cases { s with tick := s.acquiring s.tick t true, traffic := tr } s
    have hwrite : s.relockWrite t = ({ s with tick := s.acquiring s.tick t true, traffic := tr, evts := e }, false) := by
      unfold State.relockWrite
      rw [if_neg (by simpa [Option.isSome_iff_ne_none] using hconf)]
      exact congrArg (·, false) ((congrArg (State.tickConditions · s) hnote).trans hcond)
    rw [hwrite]
    exact ⟨_, rfl, rfl, htest, rfl⟩
  · intro hconf
    simp [State.relockWrite, hconf]

end

section
/-! The gate lists between ticks, and the budget window. -/

namespace Sys2Proof.Machine
open Sys2Proof

/-- A count already reached lets no cycle pass. -/
theorem State.atCycle_reached {s : State} {c : Nat} (h : s.cclk = c) : s.atCycle c = s := by
  unfold State.atCycle State.elapse
  rw [h, Nat.sub_self]
  split <;> rfl

/-! ### The entry in force elapses (R52, R53) -/

theorem exec_gateEntryExpiry_due {s : State} {d c : Nat} (hc : s.cclk = c) (hrun : (s.gate d).running = true)
    (hext : (s.gate d).extended = false) (hdue : c = (s.gate d).entStart + ((s.gate d).active.ent (s.gate d).entry).dur * 64) :
    exec (.gateEntryExpiry d c) s =
      match (s.gate d).active.after (s.gate d).entry with
      | some n => .next { s with now := { s.now with turns := Tab.insert d n s.now.turns } }
      | none => .next (s.setGate d { s.gate d with extended := true }) := by
  change execGateEntryExpiry d c s = _
  unfold execGateEntryExpiry
  simp only [State.atCycle_reached hc]
  exact if_neg (by rw [hrun, hext]; simpa using hdue)

/-! ### Arming (R58, R59) -/

/-- A gate is noted as it stood when the cycle began. -/
theorem State.noteGate_eq (s : State) (d : Nat) : ∃ g, s.noteGate d = { s with now := { s.now with gates := g } } ∧
    (Tab.find g d).getD (s.gate d) = s.gateWas d ∧ (Tab.find g d).isSome = true := by
  unfold State.noteGate State.gateWas
  split
  · next h => exact ⟨_, rfl, rfl, h⟩
  · next h =>
    refine ⟨_, rfl, ?_, by simp [Tab.find_insert_self]⟩
    rw [Option.not_isSome_iff_eq_none.mp h]
    simp [Tab.find_insert_self]

/-- Arming an unarmed shadow list that has an entry that runs. -/
theorem State.shadowCtl_arm {s : State} {d w : Nat} (hlen : bits w 0 9 = (s.gate d).shadow.len) (harm : bit w 16 = true)
    (harmed : (s.gate d).armed = false) (hruns : (s.gate d).shadow.running.isEmpty = false) :
    s.shadowCtl d w = (((s.noteGate d).setGate d { s.gate d with armed := true }).armTest d, false) := by
  unfold State.shadowCtl
  simp [hlen, harm, harmed, hruns]

/-- Disarming a shadow list whose length the write leaves. -/
theorem State.shadowCtl_disarm {s : State} {d w : Nat} (hlen : bits w 0 9 = (s.gate d).shadow.len) (harm : bit w 16 = false) :
    s.shadowCtl d w = ((s.noteGate d).setGate d { s.gate d with armed := false, late := false }, false) := by
  unfold State.shadowCtl
  simp [hlen, harm]

/-- The bits that a GATE_LATE of this cycle is taken back to. -/
def State.lateWas (s : State) (d : Nat) : Tab (Bool × Bool) :=
  Tab.insert d ((Tab.find s.now.late d).getD (s.rd R.GATE_STATUS_GATE_LATE d == 1, bit (s.evt 0).pending (8 + d))) s.now.late

theorem State.armTest_late {s : State} {d : Nat} (h : (s.gate d).isLate s.tick.epoch = true) :
    s.armTest d = (({ s with now := { s.now with late := s.lateWas d } } : State).setGate d
      { s.gate d with late := true, lateEpoch := s.tick.epoch % 2 ^ 32 }).raiseGate R.GATE_STATUS_GATE_LATE d := by
  unfold State.armTest
  rw [if_pos h]
  rfl

theorem State.armTest_early {s : State} {d : Nat} (h : ¬ (s.gate d).isLate s.tick.epoch = true) : s.armTest d = s := by
  unfold State.armTest
  rw [if_neg h]

theorem exec_gateArm_open {s : State} (h : s.portOpen) (d : Nat) (w : Word) (tgt : Nat) :
    exec (.gateArm d w tgt) s = .next (s.writeShadowCtl d (w ||| 0x10000).toNat tgt) :=
  congrArg Host.Outcome.next (State.regAccess_open h ..)

theorem exec_gateDisarm_open {s : State} (h : s.portOpen) (d : Nat) (w : Word) (tgt : Nat) :
    exec (.gateDisarm d w tgt) s = .next (s.writeShadowCtl d (w &&& 0xFFFEFFFF).toNat tgt) :=
  congrArg Host.Outcome.next (State.regAccess_open h ..)

/-- A field whose bits are all in a mask is not changed by the mask. -/
theorem bits_and_full (w m l n : Nat) (h : bits m l n = 2 ^ n - 1) : bits (w &&& m) l n = bits w l n := by
  apply Nat.eq_of_testBit_eq
  intro i
  have hbit (x : Nat) : (bits x l n).testBit i = (decide (i < n) && bit x (l + i)) := by rw [← bit_eq_testBit, bit_bits]
  have hmask := hbit m
  rw [h, Nat.testBit_two_pow_sub_one] at hmask
  rw [hbit, hbit, bit_and]
  by_cases hi : i < n
  · simp only [hi, decide_true, Bool.true_and] at hmask ⊢
    rw [← hmask, Bool.and_true]
  · simp [hi]

theorem bits_arm (w : Word) : bits (w ||| 0x10000).toNat 0 9 = bits w.toNat 0 9 := by
  rw [BitVec.toNat_or]
  exact bits_or_ne _ _ 0 9 (by decide)

theorem bit_arm (w : Word) : bit (w ||| 0x10000).toNat 16 = true := by
  rw [BitVec.toNat_or, bit_or, show bit (BitVec.toNat (0x10000 : Word)) 16 = true by decide, Bool.or_true]

theorem bits_disarm (w : Word) : bits (w &&& 0xFFFEFFFF).toNat 0 9 = bits w.toNat 0 9 := by
  rw [BitVec.toNat_and]
  exact bits_and_full _ _ 0 9 (by decide)

theorem bit_disarm (w : Word) : bit (w &&& 0xFFFEFFFF).toNat 16 = false := by
  rw [BitVec.toNat_and, bit_and, show bit (BitVec.toNat (0xFFFEFFFF : Word)) 16 = false by decide, Bool.and_false]

end Sys2Proof.Machine

open Sys2Proof Sys2Proof.Machine

/-- Settles O14: the next entry that runs is noted for the end of the cycle, or the closing entry is extended. -/
theorem gateEntryExpiry : Obligations.GateEntryExpiry := by
  unfold Obligations.GateEntryExpiry
  intro s d c hc hrun hext hdue
  rw [exec_gateEntryExpiry_due hc hrun hext hdue]
  constructor
  · intro n hafter hturns
    rw [hafter, hturns]
    refine ⟨_, rfl, rfl, ?_, fun e hne => ?_⟩
    · exact (Tab.get_insert_self ..).trans (by rw [hc]; rfl)
    · exact Tab.get_insert_ne hne ..
  · intro hafter
    rw [hafter]

/-- Settles O15: a gate that is armed or disarmed is first noted as it stood. -/
theorem gateArming : Obligations.GateArming := by
  unfold Obligations.GateArming
  intro s d w tgt hopen hlen
  rw [exec_gateArm_open hopen, exec_gateDisarm_open hopen]
  constructor
  · intro harmed hruns
    obtain ⟨g, hnote, hwas, hsome⟩ := s.noteGate_eq d
    have hwrite : s.writeShadowCtl d (w ||| 0x10000).toNat tgt =
        (({ s with now := { s.now with gates := g } } : State).setGate d { s.gate d with armed := true }).armTest d := by
      unfold State.writeShadowCtl
      rw [State.shadowCtl_arm ((bits_arm w).trans hlen) (bit_arm w) harmed hruns, hnote]
      exact State.busyIf_false _ _ _
    rw [hwrite]
    have hnoted (x : Gate) : (Tab.find g d).getD x = s.gateWas d := by
      obtain ⟨y, hy⟩ := Option.isSome_iff_exists.mp hsome
      rw [← hwas, hy]
      rfl
    let u : State := ({ s with now := { s.now with gates := g } } : State).setGate d { s.gate d with armed := true }
    have hgate : u.gate d = { s.gate d with armed := true } := State.setGate_gate_self ..
    have hother (e : Nat) (hne : e ≠ d) : u.gate e = s.gate e := State.setGate_gate_ne _ hne _
    by_cases hlate : (s.gate d).isLate s.tick.epoch = true
    · have hlate' : (u.gate d).isLate u.tick.epoch = true := by rw [hgate]; exact hlate
      have hself : ((u.armTest d).gate d) = { u.gate d with late := true, lateEpoch := s.tick.epoch % 2 ^ 32 } := by
        rw [State.armTest_late hlate']
        exact Tab.get_insert_self ..
      refine ⟨u.armTest d, rfl, ?_, ?_, ?_, fun e hne => ?_, fun _ => ⟨?_, ?_, ?_⟩, ?_, ?_, ?_⟩
      · rw [hself, hgate]
      · rw [hself, hgate]
      · rw [hself, hgate]
      · rw [State.armTest_late hlate', ← hother e hne]
        exact Tab.get_insert_ne hne ..
      · rw [hself]
      · rw [hself]
      · rw [State.armTest_late hlate']
        exact State.setBit_rd_self ..
      · rw [State.armTest_late hlate']
        exact hnoted _
      · rw [State.armTest_late hlate']
        rfl
      · rw [State.armTest_late hlate']
        exact fun f i j hkey => State.setBit_regsKept _ R.GATE_STATUS_GATE_LATE d 0 f i j hkey
    · have hearly := State.armTest_early (s := u) (d := d) (by rw [hgate]; exact hlate)
      refine ⟨u, congrArg _ hearly, ?_, ?_, ?_, hother, fun h => absurd h hlate, hnoted _, rfl, State.regsKept_of_regs rfl rfl _⟩
      all_goals rw [hgate]
  · unfold State.writeShadowCtl
    rw [State.shadowCtl_disarm ((bits_disarm w).trans hlen) (bit_disarm w)]
    exact congrArg Host.Outcome.next (State.busyIf_false _ _ _)

/-- Settles O16: the window begins in its own cycle of a configured unit. -/
theorem budgetWindow : Obligations.BudgetWindow := by
  unfold Obligations.BudgetWindow
  intro s i c hc hconf hi hdue
  refine ⟨{ s with traffic := { s.traffic with window := s.tick.epoch * s.rd R.TR_CTL_WINDOWS + i, carry := if i = 0 then s.traffic.carry else [] } },
    ?_, rfl, fun hpos => if_neg (by omega), fun h0 => if_pos h0, rfl⟩
  change execBudgetWindowStart i c s = _
  unfold execBudgetWindowStart
  simp only [State.atCycle_reached hc]
  have hnone : s.conf.isNone = false := by simpa [Option.isSome_iff_ne_none] using hconf
  rw [if_neg (by rw [hnone]; simpa using ⟨hi, hdue⟩)]

end

section
/-! Events: acknowledgement, posts, the moderation timers and EVT_CTL.DISABLE. -/

namespace Sys2Proof.Machine
open Sys2Proof

theorem exec_evtAck_open {s : State} (h : s.portOpen) (w : Word) (tgt : Nat) : exec (.evtAck w tgt) s = .next (s.writeEvtAck w.toNat) :=
  congrArg Host.Outcome.next (State.regAccess_open h ..)

/-- The source group that EVT_ACK names, after it (R422). -/
theorem State.writeEvtAck_evt_self (s : State) (w : Nat) : (s.writeEvtAck w).evt (bits w 0 5) =
    { s.evt (bits w 0 5) with
      pending := clearBits (s.evt (bits w 0 5)).pending (bits w 16 16), posted := clearBits (s.evt (bits w 0 5)).posted (bits w 16 16) } :=
  Tab.get_insert_self ..

theorem State.writeEvtAck_evt_ne (s : State) {w g : Nat} (hne : g ≠ bits w 0 5) : (s.writeEvtAck w).evt g = s.evt g :=
  Tab.get_insert_ne hne ..

/-! ### Posts (R419, R420) -/

/-- A source that a post adds is pending, enabled and not posted. -/
theorem State.bit_unposted (s : State) (g n : Nat) :
    bit (s.unposted g) n = ((bit (s.evt g).pending n && bit (s.rd R.EVT_GRP_EN_ENABLE g) n) && !bit (s.evt g).posted n) := by
  unfold State.unposted
  simp only [bit_xor, bit_and]
  cases bit (s.evt g).pending n <;> cases bit (s.rd R.EVT_GRP_EN_ENABLE g) n <;> cases bit (s.evt g).posted n <;> rfl

/-- Group `g` after its post. -/
def State.postedGroup (s : State) (g : Nat) : EvtGrp :=
  { s.evt g with
    posted := (s.evt g).posted ||| s.unposted g, fresh := s.unposted g, raises := 0, timed := false, expired := false, bypass := false
    resumed := false, holdoff := s.rd R.EVT_GRP_CFG_MODE g == 2 }

theorem exec_groupPost_of_mayPost {s : State} {g : Nat} (h : s.mayPost g = true) :
    exec (.groupPost g) s = .next { s.setEvt g (s.postedGroup g) with
      posts := Tab.insert (s.evtTarget g) (g, s.cclk, !(s.evt g).resumed) s.posts } := by
  change execGroupPost g s = _
  unfold execGroupPost
  rw [if_neg (by simp [h])]
  rfl

/-! ### EVT_CTL.DISABLE (R423) -/

/-- Group `g` notes that it may post again. -/
def State.resumeGroup (s : State) (g : Nat) : State := if s.due g then s.setEvt g { s.evt g with resumed := true } else s

/-- What noting that groups may post again leaves: all but the notes. -/
def State.resumedOnly (s t : State) : Prop :=
  t = { s with evts := t.evts } ∧
    ∀ g, (t.evt g).pending = (s.evt g).pending ∧ (t.evt g).posted = (s.evt g).posted ∧ (t.evt g).raises = (s.evt g).raises

theorem State.resumeGroup_only (s : State) (g : Nat) : s.resumedOnly (s.resumeGroup g) := by
  unfold State.resumeGroup
  split
  · refine ⟨rfl, fun h => ?_⟩
    by_cases hg : h = g
    · subst hg
      rw [State.setEvt_evt_self]
      exact ⟨rfl, rfl, rfl⟩
    · rw [State.setEvt_evt_ne _ hg]
      exact ⟨rfl, rfl, rfl⟩
  · exact ⟨rfl, fun _ => ⟨rfl, rfl, rfl⟩⟩

theorem State.resumedOnly_trans {s t u : State} (h : s.resumedOnly t) (k : t.resumedOnly u) : s.resumedOnly u := by
  obtain ⟨hframe, hgroups⟩ := h
  obtain ⟨kframe, kgroups⟩ := k
  refine ⟨by rw [kframe, hframe], fun g => ?_⟩
  obtain ⟨h1, h2, h3⟩ := hgroups g
  obtain ⟨k1, k2, k3⟩ := kgroups g
  exact ⟨k1.trans h1, k2.trans h2, k3.trans h3⟩

theorem State.foldl_resumeGroup_only (s : State) (l : List Nat) : s.resumedOnly (l.foldl State.resumeGroup s) :=
  foldl_keeps (s.resumedOnly ·) State.resumeGroup (fun t g h => State.resumedOnly_trans h (t.resumeGroup_only g)) l s
    ⟨rfl, fun _ => ⟨rfl, rfl, rfl⟩⟩

/-- A write of EVT_CTL gives DISABLE its value; where it ends, the groups that are due note it. -/
theorem exec_evtDisable_open {s : State} (h : s.portOpen) (w : Word) (tgt : Nat) :
    ∃ t, exec (.evtDisable w tgt) s = .next t ∧ (s.wr R.EVT_CTL_DISABLE 0 0 (bits w.toNat 0 1)).resumedOnly t := by
  have hwrite : s.writeReg [⟨R.EVT_CTL_DISABLE, 0, 0⟩] [] 0x10000 w.toNat tgt = s.wr R.EVT_CTL_DISABLE 0 0 (bits w.toNat 0 1) :=
    s.writeReg_now ⟨R.EVT_CTL_DISABLE, 0, 0⟩ 0x10000 w.toNat tgt rfl rfl rfl rfl
  refine ⟨s.writeEvtCtl w.toNat tgt, congrArg Host.Outcome.next (State.regAccess_open h ..), ?_⟩
  unfold State.writeEvtCtl
  simp only [hwrite]
  split
  · exact State.foldl_resumeGroup_only _ _
  · exact ⟨rfl, fun _ => ⟨rfl, rfl, rfl⟩⟩

theorem State.mayPost_disabled {s : State} (h : s.rd R.EVT_CTL_DISABLE = 1) (g : Nat) : s.mayPost g = false := by
  simp [State.mayPost, h]

theorem State.irqLines_disabled {s : State} (hrun : s.power.st = 0) (h : s.rd R.EVT_CTL_DISABLE = 1) : s.irqLines = 0 := by
  unfold State.irqLines
  simp [hrun, h]

end Sys2Proof.Machine

open Sys2Proof Sys2Proof.Machine

/-- Settles O17: EVT_ACK clears the named bits of one source group. -/
theorem eventAckClears : Obligations.EventAckClears := by
  unfold Obligations.EventAckClears
  intro s w tgt hopen
  refine ⟨_, exec_evtAck_open hopen w tgt, rfl, fun g hne => s.writeEvtAck_evt_ne hne, ?_, ?_, ?_, ?_⟩
  · intro n hn hbit
    rw [s.writeEvtAck_evt_self]
    simp [bit_clearBits, bit_bits, hn, hbit]
  · intro n hbit
    rw [s.writeEvtAck_evt_self]
    have hmask : bit (bits w.toNat 16 16) n = false := by
      rw [bit_bits]
      by_cases hn : n < 16
      · simpa [hn] using hbit
      · simp [hn]
    simp [bit_clearBits, hmask]
  · rw [s.writeEvtAck_evt_self]
  · rw [s.writeEvtAck_evt_self]

/-- Settles O18: the post is `State.postedGroup`, and the target is occupied by it. -/
theorem eventPost : Obligations.EventPost := by
  unfold Obligations.EventPost
  intro s g hmay
  have hself : ({ s.setEvt g (s.postedGroup g) with
      posts := Tab.insert (s.evtTarget g) (g, s.cclk, !(s.evt g).resumed) s.posts } : State).evt g = s.postedGroup g := Tab.get_insert_self ..
  have hposted (n : Nat) : bit (s.postedGroup g).posted n = (bit (s.evt g).posted n || bit (s.unposted g) n) := bit_or ..
  refine ⟨_, exec_groupPost_of_mayPost hmay, rfl, fun h hne => Tab.get_insert_ne hne .., ?_, ?_, ?_, ?_, ?_, ?_, ?_, ?_⟩
  · intro n hpending henabled
    rw [hself, hposted, s.bit_unposted, hpending, henabled]
    cases bit (s.evt g).posted n <;> rfl
  · intro n hwas
    rw [hself, hposted, hwas, Bool.true_or]
  · intro n his hwas
    rw [hself, hposted, hwas, s.bit_unposted, hwas] at his
    simpa using his
  · rw [hself]
    rfl
  · rw [hself]
    rfl
  · rw [hself]
    exact beq_iff_eq
  · rw [Tab.find_insert_self]
    rfl
  · exact fun u hne => Tab.find_insert_ne hne ..

/-- Settles O19: each timer writes one flag, and DISABLE stops posts and lines by its value. -/
theorem eventControl : Obligations.EventControl := by
  unfold Obligations.EventControl
  constructor
  · intro s g hrun
    constructor
    · intro hhold
      change execHoldoffExpiry g s = _
      unfold execHoldoffExpiry
      rw [if_neg (by simp [hhold, hrun])]
    · intro htimed hmode
      change execCoalesceTimeExpiry g s = _
      unfold execCoalesceTimeExpiry
      rw [if_neg (by simp [htimed, hmode, hrun])]
  · intro s w tgt hopen
    obtain ⟨t, hexec, hframe, hgroups⟩ := exec_evtDisable_open hopen w tgt
    have hkept : s.regsKept t [⟨R.EVT_CTL_DISABLE, 0, 0⟩] := by
      rw [hframe]
      exact State.wr_regsKept s R.EVT_CTL_DISABLE 0 0 _
    have hvalue : t.rd R.EVT_CTL_DISABLE = bits w.toNat 0 1 := by
      rw [hframe]
      exact (State.wr_rd_self ..).trans (bits_mod ..)
    refine ⟨t, hexec, hvalue, ?_, hkept, fun hon => ?_, hgroups⟩
    · rw [hframe]
      rfl
    · rw [hon] at hvalue
      exact ⟨State.irqLines_disabled (by rw [hframe]; exact hopen.2) hvalue, State.mayPost_disabled hvalue⟩

end

section
/-! Performance counters and Contrail: snapshots, clearing, FLUSH and CONS. -/

namespace Sys2Proof

/-- A table in which `v i` was listed at key `a + i`, for each `i` of a list. -/
theorem Tab.find_foldl_insert {α : Type} (a : Nat) (v : Nat → α) (l : List Nat) (t : Tab α) (k : Nat) :
    Tab.find (l.foldl (fun t i => Tab.insert (a + i) (v i) t) t) (a + k) = if k ∈ l then some (v k) else Tab.find t (a + k) := by
  induction l generalizing t with
  | nil => rfl
  | cons i l ih =>
    rw [List.foldl_cons, ih]
    by_cases hl : k ∈ l
    · simp [hl]
    · by_cases hk : k = i
      · subst hk
        simp [hl, Tab.find_insert_self]
      · simp [hl, hk, Tab.find_insert_ne (show a + k ≠ a + i by omega)]

end Sys2Proof

namespace Sys2Proof.Machine
open Sys2Proof

/-- The fields of a group's control register that a write keeps or makes pending (R432). -/
def State.pfWritten (s : State) (G w : Nat) : State :=
  ((s.wr R.PF_GRP_CTL_EN G 0 (bits w 0 1)).pendTick (R.PF_GRP_CTL_TICK_SNAP.key G 0) (bits w 3 1)).pendTick (R.PF_GRP_CTL_TICK_CLEAR.key G 0) (bits w 4 1)

theorem applySlots_pf (s : State) (G w : Nat) :
    applySlots s w [⟨R.PF_GRP_CTL_EN, G, 0⟩, ⟨R.PF_GRP_CTL_TICK_SNAP, G, 0⟩, ⟨R.PF_GRP_CTL_TICK_CLEAR, G, 0⟩] = (s.pfWritten G w, false) := by
  unfold applySlots
  rw [List.foldl_cons, applySlot_now s w _ _ rfl rfl rfl rfl, List.foldl_cons, applySlot_tick s w _ _ rfl rfl rfl rfl, List.foldl_cons,
    applySlot_tick s w _ _ rfl rfl rfl rfl, List.foldl_nil]
  rfl

/-- A write of a group's control register: SNAP first, then CLEAR (log entry 25). -/
theorem State.writePfCtl_eq (s : State) {G : Nat} (hG : G < 32) (w tgt : Nat) :
    s.writePfCtl G w tgt =
      let u := if bit w 1 then (s.pfWritten G w).snapshot G else s.pfWritten G w
      if bit w 2 then u.clearGroup G else u := by
  unfold State.writePfCtl State.writeReg
  rw [if_neg (by omega), applySlots_pf]
  unfold runActs
  cases h1 : bit w 1 <;> cases h2 : bit w 2 <;> simp [h1, h2, State.snapGo]

theorem State.snapshot_snaps (s : State) (G : Nat) {k : Nat} (hk : k < 8) :
    Tab.get 0 (s.snapshot G).meas.snaps (8 * G + k) = Tab.get 0 s.meas.ctrs (8 * G + k) := by
  change (Tab.find ((List.range 8).foldl (fun t i => Tab.insert (8 * G + i) (Tab.get 0 s.meas.ctrs (8 * G + i)) t) s.meas.snaps) _).getD 0 = _
  rw [Tab.find_foldl_insert, if_pos (List.mem_range.mpr hk)]
  rfl

theorem State.clearGroup_find (s : State) (G k : Nat) :
    Tab.find (s.clearGroup G).meas.ctrs k = if k / 8 != G then Tab.find s.meas.ctrs k else none :=
  Tab.find_filter (fun n => n / 8 != G) s.meas.ctrs k

theorem State.clearGroup_ctrs_self (s : State) {G k : Nat} (h : k / 8 = G) : Tab.get 0 (s.clearGroup G).meas.ctrs k = 0 := by
  unfold Tab.get
  rw [State.clearGroup_find, if_neg (by simp [h])]
  rfl

theorem State.clearGroup_ctrs_ne (s : State) {G k : Nat} (h : k / 8 ≠ G) :
    Tab.get 0 (s.clearGroup G).meas.ctrs k = Tab.get 0 s.meas.ctrs k := by
  unfold Tab.get
  rw [State.clearGroup_find, if_pos (by simpa using h)]

theorem State.pfWritten_regsKept (s : State) (G w : Nat) : s.regsKept (s.pfWritten G w) [⟨R.PF_GRP_CTL_EN, G, 0⟩] :=
  State.wr_regsKept s R.PF_GRP_CTL_EN G 0 _

/-- The fields that SNAP and CLEAR of group `G` may change. -/
def pfSlots (G : Nat) : List Slot := [⟨R.PF_GRP_CTL_EN, G, 0⟩, ⟨R.PF_SNAP_EPOCH_EPOCH, G, 0⟩]

theorem State.pfWritten_slots (s : State) (G w : Nat) : s.regsKept (s.pfWritten G w) (pfSlots G) :=
  State.regsKept_mono (s.pfWritten_regsKept G w) (by simp [pfSlots])

theorem State.snapshot_slots (s : State) (G w : Nat) : s.regsKept ((s.pfWritten G w).snapshot G) (pfSlots G) :=
  State.regsKept_trans (s.pfWritten_regsKept G w) (State.wr_regsKept _ R.PF_SNAP_EPOCH_EPOCH G 0 _)

theorem exec_counterSnap_open {s : State} (h : s.portOpen) (g : Nat) (w : Word) (tgt : Nat) :
    exec (.counterSnap g w tgt) s = .next (s.writePfCtl g (w ||| 2).toNat tgt) :=
  congrArg Host.Outcome.next (State.regAccess_open h ..)

theorem exec_counterClear_open {s : State} (h : s.portOpen) (g : Nat) (w : Word) (tgt : Nat) :
    exec (.counterClear g w tgt) s = .next (s.writePfCtl g (w ||| 4).toNat tgt) :=
  congrArg Host.Outcome.next (State.regAccess_open h ..)

theorem bit_or_snap (w : Word) : bit (w ||| 2).toNat 1 = true := by
  rw [BitVec.toNat_or, bit_or, show bit (BitVec.toNat (2 : Word)) 1 = true by decide, Bool.or_true]

theorem bit_or_clear (w : Word) : bit (w ||| 4).toNat 2 = true := by
  rw [BitVec.toNat_or, bit_or, show bit (BitVec.toNat (4 : Word)) 2 = true by decide, Bool.or_true]

/-! ### Contrail (R439) -/

/-- A write of CTR_CTL with a K in range. -/
def State.ctrWritten (s : State) (w : Nat) : State :=
  ((s.wr R.CTR_CTL_EN 0 0 (bits w 0 1)).wr R.CTR_CTL_K 0 0 (bits w 1 5)).wr R.CTR_CTL_WRAP 0 0 (bits w 6 1)

theorem applySlots_ctr (s : State) {w : Nat} (hK : bits w 1 5 ≤ 23) :
    applySlots s w [⟨R.CTR_CTL_EN, 0, 0⟩, ⟨R.CTR_CTL_K, 0, 0⟩, ⟨R.CTR_CTL_WRAP, 0, 0⟩] = (s.ctrWritten w, false) := by
  have hrange : s.rangeOk R.CTR_CTL_K 0 0 (bits w 1 5) = true := by
    change decide (bits w 1 5 ≤ 23) = true
    exact decide_eq_true hK
  have hmid (sb : State × Bool) : applySlot s w sb ⟨R.CTR_CTL_K, 0, 0⟩ = (sb.1.wr R.CTR_CTL_K 0 0 (bits w 1 5), sb.2) := by
    change (if s.rangeOk R.CTR_CTL_K 0 0 (bits w 1 5) = true then (sb.1.wr R.CTR_CTL_K 0 0 (bits w 1 5), sb.2) else (sb.1, true)) = _
    rw [if_pos hrange]
  unfold applySlots
  rw [List.foldl_cons, applySlot_now s w _ _ rfl rfl rfl rfl, List.foldl_cons, hmid, List.foldl_cons, applySlot_now s w _ _ rfl rfl rfl rfl]
  rfl

theorem exec_contrailFlush_open {s : State} (h : s.portOpen) (w : Word) (tgt : Nat) :
    exec (.contrailFlush w tgt) s = .next (s.writeCtrCtl (w ||| 0x80).toNat tgt) :=
  congrArg Host.Outcome.next (State.regAccess_open h ..)

theorem exec_contrailConsWrite_open {s : State} (h : s.portOpen) (w : Word) (tgt : Nat) :
    exec (.contrailConsWrite w tgt) s = .next (s.writeCtrCons w.toNat tgt) :=
  congrArg Host.Outcome.next (State.regAccess_open h ..)

theorem State.writeCtrCtl_flush (s : State) {w : Nat} (hK : bits w 1 5 ≤ 23) (hflush : bit w 7 = true) (tgt : Nat) :
    s.writeCtrCtl w tgt = (s.ctrWritten w).wr R.CTR_CONS_CONS 0 0 s.meas.prod := by
  unfold State.writeCtrCtl State.writeReg
  rw [applySlots_ctr s hK]
  simp only [runActs, List.foldl_cons, List.foldl_nil, hflush, if_true, Bool.or_false, State.busyIf_false]
  rfl

theorem State.ctrWritten_regsKept (s : State) (w : Nat) :
    s.regsKept (s.ctrWritten w) [⟨R.CTR_CTL_EN, 0, 0⟩, ⟨R.CTR_CTL_K, 0, 0⟩, ⟨R.CTR_CTL_WRAP, 0, 0⟩] :=
  State.regsKept_trans (State.regsKept_trans (State.wr_regsKept s R.CTR_CTL_EN 0 0 _) (State.wr_regsKept _ R.CTR_CTL_K 0 0 _))
    (State.wr_regsKept _ R.CTR_CTL_WRAP 0 0 _)

theorem bit_or_flush (w : Word) : bit (w ||| 0x80).toNat 7 = true := by
  rw [BitVec.toNat_or, bit_or, show bit (BitVec.toNat (0x80 : Word)) 7 = true by decide, Bool.or_true]

theorem bits_or_flush (w : Word) : bits (w ||| 0x80).toNat 1 5 = bits w.toNat 1 5 := by
  rw [BitVec.toNat_or]
  exact bits_or_ne _ _ 1 5 (by decide)

end Sys2Proof.Machine

open Sys2Proof Sys2Proof.Machine

/-- Settles O20: SNAP runs before CLEAR, and neither touches another group. -/
theorem counterSnapAndClear : Obligations.CounterSnapAndClear := by
  unfold Obligations.CounterSnapAndClear
  intro s g w tgt hopen hg
  constructor
  · rw [exec_counterSnap_open hopen, s.writePfCtl_eq hg, bit_or_snap]
    have hepoch : ((s.pfWritten g (w ||| 2).toNat).snapshot g).rd R.PF_SNAP_EPOCH_EPOCH g = s.tick.epoch % 2 ^ 32 := State.wr_rd_self ..
    have hkept := s.snapshot_slots g (w ||| 2).toNat
    cases bit (w ||| 2).toNat 2 with
    | false => exact ⟨_, rfl, fun k hk => State.snapshot_snaps _ g hk, hepoch, fun _ _ => rfl, rfl, hkept⟩
    | true => exact ⟨_, rfl, fun k hk => State.snapshot_snaps _ g hk, hepoch, fun k hk => State.clearGroup_ctrs_ne _ hk, rfl, hkept⟩
  · rw [exec_counterClear_open hopen, s.writePfCtl_eq hg, bit_or_clear]
    cases bit (w ||| 4).toNat 1 with
    | false =>
      exact ⟨_, rfl, fun k hk => State.clearGroup_ctrs_self _ (by omega), fun k hk => State.clearGroup_ctrs_ne _ hk, rfl, s.pfWritten_slots g _⟩
    | true =>
      exact ⟨_, rfl, fun k hk => State.clearGroup_ctrs_self _ (by omega), fun k hk => State.clearGroup_ctrs_ne _ hk, rfl, s.snapshot_slots g _⟩

/-- Settles O21: FLUSH writes PROD, and CTR_CONS takes a value in its range. -/
theorem contrailCons : Obligations.ContrailCons := by
  unfold Obligations.ContrailCons
  intro s w tgt hopen
  refine ⟨⟨_, exec_contrailFlush_open hopen w tgt, fun hK => ?_⟩, fun hin => ?_, fun hout => ?_⟩
  · rw [s.writeCtrCtl_flush (by rw [bits_or_flush]; exact hK) (bit_or_flush w)]
    refine ⟨State.wr_rd_self .., rfl, ?_⟩
    exact State.regsKept_trans (s.ctrWritten_regsKept _) (State.wr_regsKept _ R.CTR_CONS_CONS 0 0 _)
  · refine ⟨_, exec_contrailConsWrite_open hopen w tgt, ?_⟩
    rw [State.writeCtrCons, if_pos hin]
    exact ⟨(State.wr_rd_self ..).trans (bits_mod ..), rfl, State.wr_regsKept s R.CTR_CONS_CONS 0 0 _⟩
  · refine ⟨_, exec_contrailConsWrite_open hopen w tgt, ?_⟩
    rw [State.writeCtrCons, if_neg (Nat.not_le.mpr hout)]
    exact ⟨s.cfgBusy_rd _ _ (by decide) 0 0, s.cfgBusy_bit _ _, s.cfgBusy_eq _ _, s.cfgBusy_regsKept _ _⟩

end

section
/-! Mailboxes: how an operation begins, what it reads or writes, and how it ends. -/

namespace Sys2Proof.Machine
open Sys2Proof

/-! ### The selection of an object (R453, R455) -/

/-- The state after a write of MBX_SEL has named object `obj` and index `ix`. -/
def State.selected (s : State) (m obj ix wr : Nat) : State :=
  ((s.wr R.MBX_SEL_INDEX m 0 ix).wr R.MBX_SEL_OBJ m 0 obj).wr R.MBX_SEL_WRITE m 0 wr

theorem State.selected_rd_index (s : State) (m obj ix wr : Nat) : (s.selected m obj ix wr).rd R.MBX_SEL_INDEX m = ix % 2 ^ 20 := by
  unfold State.selected
  rw [State.wr_rd_ne _ (by decide), State.wr_rd_ne _ (by decide), State.wr_rd_self]
  rfl

theorem State.selected_rd_obj (s : State) (m obj ix wr : Nat) : (s.selected m obj ix wr).rd R.MBX_SEL_OBJ m = obj % 2 ^ 8 := by
  unfold State.selected
  rw [State.wr_rd_ne _ (by decide), State.wr_rd_self]
  rfl

theorem State.selected_rd_write (s : State) (m obj ix wr : Nat) : (s.selected m obj ix wr).rd R.MBX_SEL_WRITE m = wr % 2 := by
  unfold State.selected
  rw [State.wr_rd_self]
  rfl

theorem State.selected_rd_ne (s : State) (m obj ix wr : Nat) {f : Fld} (hindex : f.ix ≠ R.MBX_SEL_INDEX.ix) (hobj : f.ix ≠ R.MBX_SEL_OBJ.ix)
    (hwrite : f.ix ≠ R.MBX_SEL_WRITE.ix) (i j : Nat) : (s.selected m obj ix wr).rd f i j = s.rd f i j := by
  unfold State.selected
  rw [State.wr_rd_ne _ hwrite, State.wr_rd_ne _ hobj, State.wr_rd_ne _ hindex]

theorem State.selected_mbxWord (s : State) (m obj ix wr n k : Nat) : (s.selected m obj ix wr).mbxWord n k = s.mbxWord n k :=
  s.selected_rd_ne m obj ix wr (by decide) (by decide) (by decide) n k

/-- The selection touches register fields only. -/
theorem State.selected_eq (s : State) (m obj ix wr : Nat) : s.selected m obj ix wr = { s with regs := (s.selected m obj ix wr).regs } := rfl

/-- The mailbox command that names an object starts its operation. -/
theorem State.mbxSelect_open {s : State} (h : s.portOpen) {m obj ix wr : Nat} (hm : m < 8) (hfree : s.mbxBusy m = false) (hobj : obj < 2 ^ 8)
    (hix : ix < 2 ^ 20) (hwr : wr < 2) (tgt : Nat) (lost : Bool) :
    s.mbxSelect m obj ix wr tgt lost = (s.selected m obj ix wr).mbxStart m tgt lost := by
  have hword : (selWord obj ix wr).toNat = ix + 2 ^ 20 * obj + 2 ^ 28 * wr := by
    unfold selWord
    rw [BitVec.toNat_ofNat]
    omega
  have hbits : bits (ix + 2 ^ 20 * obj + 2 ^ 28 * wr) 0 20 = ix ∧ bits (ix + 2 ^ 20 * obj + 2 ^ 28 * wr) 20 8 = obj ∧
      bits (ix + 2 ^ 20 * obj + 2 ^ 28 * wr) 28 1 = wr := by
    unfold bits
    omega
  obtain ⟨hb1, hb2, hb3⟩ := hbits
  unfold State.mbxSelect
  rw [State.regAccess_open h, hword, State.writeMbxSel, if_neg (by omega), if_neg (by simp [hfree]), hb1, hb2, hb3]
  rfl

/-! ### The start of an operation (R454) -/

/-- The state in which mailbox `m` runs an operation that will end as `e`, reading byte `rsv` of the reserve. -/
def State.begun (u : State) (m tgt : Nat) (e : MbxEnd) (rsv : Option Nat) : State :=
  let t := ((u.wr R.MBX_CTL_VALID m 0 0).wr R.MBX_CTL_ERR m 0 0).wr R.MBX_CTL_CODE m 0 0
  { t with mbx := Tab.insert m (some { writer := tgt % 8, res := e, rsv := rsv }) t.mbx }

theorem State.mbxReserve_begun (u : State) (m : Nat) :
    (((u.wr R.MBX_CTL_VALID m 0 0).wr R.MBX_CTL_ERR m 0 0).wr R.MBX_CTL_CODE m 0 0).mbxReserve m = u.mbxReserve m := by
  have hrd {f : Fld} (hvalid : f.ix ≠ R.MBX_CTL_VALID.ix) (herr : f.ix ≠ R.MBX_CTL_ERR.ix) (hcode : f.ix ≠ R.MBX_CTL_CODE.ix) (i : Nat) :
      (((u.wr R.MBX_CTL_VALID m 0 0).wr R.MBX_CTL_ERR m 0 0).wr R.MBX_CTL_CODE m 0 0).rd f i = u.rd f i := by
    rw [State.wr_rd_ne _ hcode, State.wr_rd_ne _ herr, State.wr_rd_ne _ hvalid]
  unfold State.mbxReserve
  rw [hrd (by decide) (by decide) (by decide), hrd (by decide) (by decide) (by decide), hrd (by decide) (by decide) (by decide)]
  rfl

theorem State.mbxStart_eq {s u : State} {m : Nat} {e : MbxEnd} {lost : Bool} (hop : s.mbxOp m lost = (u, e)) (tgt : Nat) :
    s.mbxStart m tgt lost = u.begun m tgt e (if e.hasRead then u.mbxReserve m else none) := by
  unfold State.mbxStart
  simp only [hop, State.mbxReserve_begun]
  rfl

theorem State.begun_mbx (u : State) (m tgt : Nat) (e : MbxEnd) (rsv : Option Nat) :
    Tab.get none (u.begun m tgt e rsv).mbx m = some { writer := tgt % 8, res := e, rsv := rsv } := Tab.get_insert_self ..

theorem State.begun_mbxBusy_ne (u : State) {m n : Nat} (hne : n ≠ m) (tgt : Nat) (e : MbxEnd) (rsv : Option Nat) :
    (u.begun m tgt e rsv).mbxBusy n = u.mbxBusy n := congrArg Option.isSome (Tab.get_insert_ne hne ..)

theorem State.begun_rd_valid (u : State) (m tgt : Nat) (e : MbxEnd) (rsv : Option Nat) : (u.begun m tgt e rsv).rd R.MBX_CTL_VALID m = 0 := by
  change (((u.wr R.MBX_CTL_VALID m 0 0).wr R.MBX_CTL_ERR m 0 0).wr R.MBX_CTL_CODE m 0 0).rd R.MBX_CTL_VALID m = 0
  rw [State.wr_rd_ne _ (by decide), State.wr_rd_ne _ (by decide), State.wr_rd_self]
  rfl

theorem State.begun_rd_err (u : State) (m tgt : Nat) (e : MbxEnd) (rsv : Option Nat) : (u.begun m tgt e rsv).rd R.MBX_CTL_ERR m = 0 := by
  change (((u.wr R.MBX_CTL_VALID m 0 0).wr R.MBX_CTL_ERR m 0 0).wr R.MBX_CTL_CODE m 0 0).rd R.MBX_CTL_ERR m = 0
  rw [State.wr_rd_ne _ (by decide), State.wr_rd_self]
  rfl

theorem State.begun_rd_code (u : State) (m tgt : Nat) (e : MbxEnd) (rsv : Option Nat) : (u.begun m tgt e rsv).rd R.MBX_CTL_CODE m = 0 := by
  change (((u.wr R.MBX_CTL_VALID m 0 0).wr R.MBX_CTL_ERR m 0 0).wr R.MBX_CTL_CODE m 0 0).rd R.MBX_CTL_CODE m = 0
  rw [State.wr_rd_self]
  rfl

theorem State.begun_mbxWord (u : State) (m tgt : Nat) (e : MbxEnd) (rsv : Option Nat) (n k : Nat) :
    (u.begun m tgt e rsv).mbxWord n k = u.mbxWord n k := by
  change (((u.wr R.MBX_CTL_VALID m 0 0).wr R.MBX_CTL_ERR m 0 0).wr R.MBX_CTL_CODE m 0 0).rd R.MBX_D_DATA n k = _
  rw [State.wr_rd_ne _ (by decide), State.wr_rd_ne _ (by decide), State.wr_rd_ne _ (by decide)]
  rfl

/-- An operation that begins on a state with the registers of the selection changes the fields of its mailbox only. -/
theorem State.begun_regsKept {s u : State} {m obj ix wr : Nat} (hregs : u.regs = (s.selected m obj ix wr).regs) (hbuild : u.build = s.build)
    (tgt : Nat) (e : MbxEnd) (rsv : Option Nat) : s.regsKept (u.begun m tgt e rsv) (mbxSlots m) := by
  have hsel : s.regsKept (s.selected m obj ix wr) [⟨R.MBX_SEL_INDEX, m, 0⟩, ⟨R.MBX_SEL_OBJ, m, 0⟩, ⟨R.MBX_SEL_WRITE, m, 0⟩] :=
    State.regsKept_trans (State.regsKept_trans (State.wr_regsKept s R.MBX_SEL_INDEX m 0 ix) (State.wr_regsKept _ R.MBX_SEL_OBJ m 0 obj))
      (State.wr_regsKept _ R.MBX_SEL_WRITE m 0 wr)
  have hctl : u.regsKept (u.begun m tgt e rsv) [⟨R.MBX_CTL_VALID, m, 0⟩, ⟨R.MBX_CTL_ERR, m, 0⟩, ⟨R.MBX_CTL_CODE, m, 0⟩] :=
    State.regsKept_trans (State.regsKept_trans (State.wr_regsKept u R.MBX_CTL_VALID m 0 0) (State.wr_regsKept _ R.MBX_CTL_ERR m 0 0))
      (State.wr_regsKept _ R.MBX_CTL_CODE m 0 0)
  exact State.regsKept_trans (State.regsKept_congr hsel hregs hbuild) hctl

/-! ### Which operation runs (R455) -/

theorem State.mbxOp_read {s : State} {m obj ix n : Nat} (hobj : obj < 2 ^ 8) (hmax : s.objMax obj = some n) (hix : ix ≤ n) (hn : n < 2 ^ 20)
    (hconf : objNeedsConf obj = true → s.conf.isSome = true) (lost : Bool) :
    (s.selected m obj ix 0).mbxOp m lost = (s.selected m obj ix 0).objRead obj ix lost := by
  have hmax' : (s.selected m obj ix 0).objMax obj = some n := hmax
  have hready : (objNeedsConf obj && (s.selected m obj ix 0).conf.isNone) = false := by
    change (objNeedsConf obj && s.conf.isNone) = false
    cases hneeds : objNeedsConf obj with
    | false => rfl
    | true => simpa [Option.isSome_iff_ne_none] using hconf hneeds
  unfold State.mbxOp
  simp only [State.selected_rd_obj, State.selected_rd_index, State.selected_rd_write, Nat.mod_eq_of_lt hobj,
    Nat.mod_eq_of_lt (show ix < 2 ^ 20 by omega), hmax', hready]
  rw [if_neg (by simp), if_neg (by omega), if_pos (by simp)]

theorem State.mbxOp_write {s : State} {m obj ix n : Nat} (hobj : obj < 2 ^ 8) (hmax : s.objMax obj = some n) (hix : ix ≤ n) (hn : n < 2 ^ 20)
    (hconf : objNeedsConf obj = true → s.conf.isSome = true) (hrw : objReadOnly obj = false) (lost : Bool) :
    (s.selected m obj ix 1).mbxOp m lost = (s.selected m obj ix 1).objWrite obj ix m := by
  have hmax' : (s.selected m obj ix 1).objMax obj = some n := hmax
  have hready : (objNeedsConf obj && (s.selected m obj ix 1).conf.isNone) = false := by
    change (objNeedsConf obj && s.conf.isNone) = false
    cases hneeds : objNeedsConf obj with
    | false => rfl
    | true => simpa [Option.isSome_iff_ne_none] using hconf hneeds
  unfold State.mbxOp
  simp only [State.selected_rd_obj, State.selected_rd_index, State.selected_rd_write, Nat.mod_eq_of_lt hobj,
    Nat.mod_eq_of_lt (show ix < 2 ^ 20 by omega), hmax', hready, hrw]
  rw [if_neg (by simp), if_neg (by omega), if_neg (by simp), if_neg (by simp)]

/-- Which byte of the engine reserve a read of an object reads (R456). -/
theorem State.selected_mbxReserve (s : State) {m obj ix : Nat} (hobj : obj < 2 ^ 8) (hix : ix < 2 ^ 20) :
    (s.selected m obj ix 0).mbxReserve m =
      if (obj = 0x10 ∨ obj = 0x11) ∧ s.traffic.fcache.contains ix = false then some (64 * ix + (if obj = 0x11 then 32 else 0))
      else if obj = 0x18 then some (rsvTraining + 32 * ix)
      else if obj = 0x19 then some (rsvRing + 32 * ix)
      else none := by
  unfold State.mbxReserve
  simp only [State.selected_rd_obj, State.selected_rd_index, State.selected_rd_write, Nat.mod_eq_of_lt hobj, Nat.mod_eq_of_lt hix]
  rw [if_neg (by simp)]
  rfl

/-- A flow context of which nothing is lost is read as it stands (R456). -/
theorem State.ctxSeen_intact {s : State} {f : Nat} (h : s.traffic.fcache.contains f = true ∨ s.rsvReady (64 * f) = false ∨ s.ctxBad f = 0) :
    s.ctxSeen f = s := by
  unfold State.ctxSeen
  split
  · rfl
  · next hread =>
    have hbad : s.ctxBad f = 0 := by
      rcases h with h | h | h
      · exact (hread (by rw [h, Bool.true_or])).elim
      · exact (hread (by rw [h, Bool.not_false, Bool.or_true])).elim
      · exact h
    rw [hbad]
    exact if_pos rfl

/-! ### Reads -/

/-- What the start of a read that will load the words `d` leaves (R454). -/
def State.readBegins (s t : State) (m tgt : Nat) (d : List Nat) (rsv : Option Nat) : Prop :=
  Tab.get none t.mbx m = some { writer := tgt % 8, res := .read d, rsv := rsv } ∧
    t.rd R.MBX_CTL_VALID m = 0 ∧ t.rd R.MBX_CTL_ERR m = 0 ∧ t.rd R.MBX_CTL_CODE m = 0 ∧
    (∀ k, t.mbxWord m k = s.mbxWord m k) ∧ (∀ n, n ≠ m → t.mbxBusy n = s.mbxBusy n) ∧
    t = { s with regs := t.regs, mbx := t.mbx } ∧ s.regsKept t (mbxSlots m)

/-- An operation whose object is read without a trace begins so. -/
theorem State.selected_readBegins (s : State) (m obj ix tgt : Nat) (d : List Nat) (rsv : Option Nat) :
    s.readBegins ((s.selected m obj ix 0).begun m tgt (.read d) rsv) m tgt d rsv := by
  refine ⟨State.begun_mbx .., State.begun_rd_valid .., State.begun_rd_err .., State.begun_rd_code .., fun k => ?_, fun n hne => ?_, rfl,
    State.begun_regsKept rfl rfl tgt _ _⟩
  · rw [State.begun_mbxWord, State.selected_mbxWord]
  · rw [State.begun_mbxBusy_ne _ hne]
    rfl

/-- The mailbox commands that read begin the read of their object. -/
theorem State.mbxSelect_read {s : State} (h : s.portOpen) {m obj ix n : Nat} (hm : m < 8) (hfree : s.mbxBusy m = false) (hobj : obj < 2 ^ 8)
    (hmax : s.objMax obj = some n) (hix : ix ≤ n) (hn : n < 2 ^ 20) (hconf : objNeedsConf obj = true → s.conf.isSome = true) {lost : Bool}
    {d : List Nat} (hread : (s.selected m obj ix 0).objRead obj ix lost = (s.selected m obj ix 0, .read d)) {rsv : Option Nat}
    (hrsv : (s.selected m obj ix 0).mbxReserve m = rsv) (tgt : Nat) : s.readBegins (s.mbxSelect m obj ix 0 tgt lost) m tgt d rsv := by
  rw [State.mbxSelect_open h hm hfree hobj (by omega) (by omega), State.mbxStart_eq ((State.mbxOp_read hobj hmax hix hn hconf lost).trans hread),
    hrsv]
  exact s.selected_readBegins ..

theorem State.selected_ctrUsed (s : State) (m obj ix wr : Nat) : (s.selected m obj ix wr).ctrUsed = s.ctrUsed := by
  unfold State.ctrUsed
  rw [State.selected_rd_ne _ _ _ _ _ (by decide) (by decide) (by decide)]
  rfl

theorem State.selected_ringUsed (s : State) (m obj ix wr : Nat) : (s.selected m obj ix wr).ringUsed = s.ringUsed := by
  unfold State.ringUsed
  rw [State.selected_rd_ne _ _ _ _ _ (by decide) (by decide) (by decide)]
  rfl

/-- An unread record of Contrail reads as its words. -/
theorem State.selected_recordRead {s : State} {ix : Nat} (hread : (ix + 256 - s.rd R.CTR_CONS_CONS % 256) % 256 < s.ctrUsed) (m obj wr : Nat) :
    (s.selected m obj ix wr).recordRead ix = .read (wordsOf (Tab.get [] s.meas.recs ix)) := by
  unfold State.recordRead
  rw [State.selected_ctrUsed, State.selected_rd_ne _ _ _ _ _ (by decide) (by decide) (by decide), if_neg (Nat.not_le.mpr hread)]
  rfl

/-- An unread entry of the error ring reads as its words, unless a byte of it is lost. -/
theorem State.selected_ringRead {s : State} {ix : Nat} (hread : (ix + 4096 - s.rd R.INT_RING_CONS_CONS % 4096) % 4096 < s.ringUsed) (m obj wr : Nat)
    (lost : Bool) : (s.selected m obj ix wr).ringRead ix lost =
      if lost || s.rsvLost (rsvRing + 32 * ix) 32 then .err 6 else .read (wordsOf (Tab.get {} s.integ.ring ix).bytes) := by
  unfold State.ringRead
  rw [State.selected_ringUsed, State.selected_rd_ne _ _ _ _ _ (by decide) (by decide) (by decide), if_neg (Nat.not_le.mpr hread)]
  rfl

/-! ### The end of an operation (R454) -/

theorem State.selected_begun_frame (s : State) (m obj ix wr tgt : Nat) (e : MbxEnd) (rsv : Option Nat) :
    (s.selected m obj ix wr).begun m tgt e rsv = { s with
      regs := ((s.selected m obj ix wr).begun m tgt e rsv).regs, mbx := ((s.selected m obj ix wr).begun m tgt e rsv).mbx } := rfl

theorem exec_mbxGo_start {s : State} (h : s.portOpen) {m : Nat} (hm : m < 8) (hfree : s.mbxBusy m = false) (w : Word) (tgt : Nat) :
    exec (.mbxGo m w tgt) s = .next (s.mbxStart m tgt false) := by
  rw [exec_mbxGo_open h, State.writeMbxCtl, bit_toNat_or_one, if_neg (by simp [hm]), if_neg (by simp [hfree])]

/-! ### The reserve objects (R456, R457) -/

theorem State.C_le (s : State) : s.C ≤ 32 := by
  unfold State.C Build.channels
  split <;> omega

theorem State.trainingRead_copy {s : State} {ch : Nat} (h : (s.chan ch).copy ≠ []) (k : Nat) :
    s.trainingRead ch k false = (s, .read (wordsOf ((s.chan ch).copy.drop (32 * k)))) := by
  unfold State.trainingRead
  rw [if_neg (by decide)]
  split
  · next hnil => exact absurd hnil h
  · rfl

/-! ### Writes -/

theorem State.mbxSelect_write {s u : State} (h : s.portOpen) {m obj ix n : Nat} (hm : m < 8) (hfree : s.mbxBusy m = false) (hobj : obj < 2 ^ 8)
    (hmax : s.objMax obj = some n) (hix : ix ≤ n) (hn : n < 2 ^ 20) (hconf : objNeedsConf obj = true → s.conf.isSome = true)
    (hrw : objReadOnly obj = false) (hwrite : (s.selected m obj ix 1).objWrite obj ix m = (u, .wrote)) (tgt : Nat) :
    s.mbxSelect m obj ix 1 tgt false = u.begun m tgt .wrote none := by
  rw [State.mbxSelect_open h hm hfree hobj (by omega) (by omega), State.mbxStart_eq ((State.mbxOp_write hobj hmax hix hn hconf hrw false).trans hwrite)]
  rfl

/-- A pending table with no write of key `k` leaves the context there. -/
theorem withWrites_find {flows l : Tab Flow} {k : Nat} (h : Tab.find l k = none) : Tab.find (withWrites flows l) k = Tab.find flows k := by
  suffices hgen : ∀ t : Tab Flow, Tab.find (l.foldl (fun (t : Tab Flow) e =>
      Tab.insert e.1 ((Tab.get ({} : Flow) flows e.1).withConfig e.2) t) t) k = Tab.find t k from hgen flows
  induction l with
  | nil => exact fun _ => rfl
  | cons e l ih =>
    intro t
    by_cases hkey : k = e.1
    · simp [Tab.find, hkey] at h
    · rw [List.foldl_cons, ih (by simpa [Tab.find, hkey] using h), Tab.find_insert_ne hkey]

/-- A flow context that touches no guarantee, at a flow without a pending write, waits for the next tick (R283). -/
theorem State.flowConfigWrite_plain {s : State} {f : Nat} {d : Nat → Nat}
    (htest : (Tab.get ({} : Flow) s.traffic.flows f).testable (Flow.ofWords d) = false) (hpend : Tab.find s.flowPendAll f = none) :
    s.flowConfigWrite f d = ({ s with now := { s.now with flows := Tab.insert f (Flow.ofWords d) s.now.flows } }, .wrote) := by
  have hwas : Tab.get (Tab.get ({} : Flow) s.traffic.flows f) s.flowsPending f = Tab.get ({} : Flow) s.traffic.flows f := by
    unfold State.flowsPending
    unfold Tab.get
    rw [withWrites_find hpend]
    cases Tab.find s.traffic.flows f <;> rfl
  unfold State.flowConfigWrite
  simp only [hwas, htest, Bool.or_self, Bool.false_eq_true, if_false]

/-- A part of a training state but the last is staged at its place (R458). -/
def State.stagedAt (s : State) (ch k : Nat) (l : List Byte) : State :=
  s.setChan ch { s.chan ch with
    staging := (List.range 32).foldl (fun (t : Tab Byte) i => Tab.insert (32 * k + i) (l.getD i 0) t) (s.chan ch).staging }

theorem State.trainingWrite_part {s : State} {ch k : Nat} (hquiet : s.phyQuiesced ch = true) (hk : k ≠ 15) (l : List Byte) :
    s.trainingWrite ch k l = (s.stagedAt ch k l, .wrote) := by
  unfold State.trainingWrite
  rw [if_neg (by simp [hquiet])]
  exact if_pos hk

theorem State.stagedAt_staging (s : State) (ch k : Nat) (l : List Byte) {i : Nat} (hi : i < 32) :
    Tab.get 0 ((s.stagedAt ch k l).chan ch).staging (32 * k + i) = l.getD i 0 := by
  unfold State.stagedAt
  rw [State.setChan_chan_self, Tab.get, Tab.find_foldl_insert, if_pos (List.mem_range.mpr hi)]
  rfl

theorem State.selected_mbxBytes (s : State) (m obj ix wr n : Nat) : (s.selected m obj ix wr).mbxBytes n = s.mbxBytes n := by
  unfold State.mbxBytes
  simp only [State.selected_mbxWord]

/-- A counter of a group that does not count takes its value (R433). -/
theorem State.counterWrite_stopped {s : State} {n : Nat} (h : s.rd R.PF_GRP_CTL_EN (n / 8) = 0) (v : Nat) :
    s.counterWrite n v = ({ s with meas := { s.meas with ctrs := Tab.insert n (v % 2 ^ 48) s.meas.ctrs } }, .wrote) := by
  unfold State.counterWrite
  rw [if_neg (by omega)]

theorem exec_epochSeedWrite_open {s : State} (h : s.portOpen) {m : Nat} (hm : m < 8) (hfree : s.mbxBusy m = false) (hconf : s.conf.isSome = true)
    (tgt : Nat) : exec (.epochSeedWrite m 0 tgt) s = .next (({ s.selected m 2 0 1 with
      now := { s.now with seed := some (s.mbxWord m 0 + 2 ^ 32 * s.mbxWord m 1) } } : State).begun m tgt .wrote none) := by
  refine congrArg Host.Outcome.next (State.mbxSelect_write h hm hfree (by omega) rfl (Nat.le_refl 0) (by omega) (fun _ => hconf) rfl ?_ tgt)
  rw [← s.selected_mbxWord m 2 0 1 m 0, ← s.selected_mbxWord m 2 0 1 m 1]
  rfl

theorem exec_flowStateWrite_open {s : State} (h : s.portOpen) {m ix : Nat} (hm : m < 8) (hfree : s.mbxBusy m = false) (hconf : s.conf.isSome = true)
    (hix : ix < 2 ^ 20) (tgt : Nat) : exec (.flowStateWrite m ix tgt) s = .next ((s.selected m 0x11 ix 1).begun m tgt .wrote none) :=
  congrArg Host.Outcome.next (State.mbxSelect_write (n := 2 ^ 20 - 1) h hm hfree (by omega) rfl (by omega) (by omega) (fun _ => hconf) rfl rfl tgt)

theorem exec_flowConfigWrite_open {s : State} (h : s.portOpen) {m ix : Nat} (hm : m < 8) (hfree : s.mbxBusy m = false) (hconf : s.conf.isSome = true)
    (hix : ix < 2 ^ 20) (htest : (Tab.get ({} : Flow) s.traffic.flows ix).testable (Flow.ofWords (s.mbxWord m)) = false)
    (hpend : Tab.find s.flowPendAll ix = none) (tgt : Nat) : exec (.flowConfigWrite m ix tgt) s = .next (({ s.selected m 0x10 ix 1 with
      now := { s.now with flows := Tab.insert ix (Flow.ofWords (s.mbxWord m)) s.now.flows } } : State).begun m tgt .wrote none) := by
  have hwords : (s.selected m 0x10 ix 1).mbxWord m = s.mbxWord m := funext fun k => s.selected_mbxWord ..
  have hwrite : (s.selected m 0x10 ix 1).objWrite 0x10 ix m = (s.selected m 0x10 ix 1).flowConfigWrite ix (s.mbxWord m) := by
    rw [← hwords]
    rfl
  exact congrArg Host.Outcome.next (State.mbxSelect_write (n := 2 ^ 20 - 1) h hm hfree (by omega) rfl (by omega) (by omega) (fun _ => hconf) rfl
    (hwrite.trans (State.flowConfigWrite_plain htest hpend)) tgt)

theorem State.phyQuiesced_regs (s : State) (r : Tab Nat) (ch : Nat) : ({ s with regs := r } : State).phyQuiesced ch = s.phyQuiesced ch := rfl

theorem exec_trainingStateWrite_open {s : State} (h : s.portOpen) {m ix : Nat} (hm : m < 8) (hfree : s.mbxBusy m = false)
    (hconf : s.conf.isSome = true) (hix : ix < 16 * s.C) (hpart : ix % 16 ≠ 15) (hquiet : s.phyQuiesced (ix / 16) = true) (tgt : Nat) :
    exec (.trainingStateWrite m ix tgt) s =
      .next (((s.selected m 0x18 ix 1).stagedAt (ix / 16) (ix % 16) (s.mbxBytes m)).begun m tgt .wrote none) := by
  have hC := s.C_le
  have hquiet' : (s.selected m 0x18 ix 1).phyQuiesced (ix / 16) = true := by
    rw [State.selected_eq, State.phyQuiesced_regs, hquiet]
  have hwrite : (s.selected m 0x18 ix 1).objWrite 0x18 ix m = ((s.selected m 0x18 ix 1).stagedAt (ix / 16) (ix % 16) (s.mbxBytes m), .wrote) := by
    have hobj : (s.selected m 0x18 ix 1).objWrite 0x18 ix m =
        (s.selected m 0x18 ix 1).trainingWrite (ix / 16) (ix % 16) ((s.selected m 0x18 ix 1).mbxBytes m) := by
      rw [State.objWrite, if_neg (by decide), if_neg (by decide), if_pos rfl]
    rw [hobj, s.selected_mbxBytes, State.trainingWrite_part hquiet' hpart]
  exact congrArg Host.Outcome.next (State.mbxSelect_write (n := 16 * s.C - 1) h hm hfree (by omega) rfl (by omega) (by omega) (fun _ => hconf) rfl
    hwrite tgt)

theorem exec_perfCounterWrite_open {s : State} (h : s.portOpen) {m ix : Nat} (hm : m < 8) (hfree : s.mbxBusy m = false) (hix : ix < 256)
    (hstopped : s.rd R.PF_GRP_CTL_EN (ix / 8) = 0) (tgt : Nat) :
    exec (.perfCounterWrite m ix tgt) s = .next (({ s.selected m 0x20 ix 1 with meas := { s.meas with
      ctrs := Tab.insert ix ((s.mbxWord m 0 + 2 ^ 32 * (s.mbxWord m 1 % 2 ^ 16)) % 2 ^ 48) s.meas.ctrs } } : State).begun m tgt .wrote none) := by
  have hstop : (s.selected m 0x20 ix 1).rd R.PF_GRP_CTL_EN (ix / 8) = 0 :=
    (s.selected_rd_ne _ _ _ _ (by decide) (by decide) (by decide) _ _).trans hstopped
  refine congrArg Host.Outcome.next (State.mbxSelect_write (n := 255) h hm hfree (by omega) rfl (by omega) (by omega)
    (fun h => absurd h (by decide)) rfl ?_ tgt)
  rw [← s.selected_mbxWord m 0x20 ix 1 m 0, ← s.selected_mbxWord m 0x20 ix 1 m 1]
  exact State.counterWrite_stopped hstop _

theorem State.begun_seed_frame (s : State) (m obj ix wr tgt : Nat) (e : MbxEnd) (rsv : Option Nat) (v : Option Nat) :
    ({ s.selected m obj ix wr with now := { s.now with seed := v } } : State).begun m tgt e rsv = { s with
      regs := (({ s.selected m obj ix wr with now := { s.now with seed := v } } : State).begun m tgt e rsv).regs
      mbx := (({ s.selected m obj ix wr with now := { s.now with seed := v } } : State).begun m tgt e rsv).mbx
      now := { s.now with seed := (({ s.selected m obj ix wr with now := { s.now with seed := v } } : State).begun m tgt e rsv).now.seed } } := rfl

theorem State.begun_flows_frame (s : State) (m obj ix wr tgt : Nat) (e : MbxEnd) (rsv : Option Nat) (v : Tab Flow) :
    ({ s.selected m obj ix wr with now := { s.now with flows := v } } : State).begun m tgt e rsv = { s with
      regs := (({ s.selected m obj ix wr with now := { s.now with flows := v } } : State).begun m tgt e rsv).regs
      mbx := (({ s.selected m obj ix wr with now := { s.now with flows := v } } : State).begun m tgt e rsv).mbx
      now := { s.now with flows := (({ s.selected m obj ix wr with now := { s.now with flows := v } } : State).begun m tgt e rsv).now.flows } } := rfl

theorem State.selected_now_regsKept (s : State) (m obj ix wr tgt : Nat) (e : MbxEnd) (rsv : Option Nat) (n : Now) :
    s.regsKept (({ s.selected m obj ix wr with now := n } : State).begun m tgt e rsv) (mbxSlots m) :=
  State.begun_regsKept (s := s) (m := m) (u := { s.selected m obj ix wr with now := n }) (obj := obj) (ix := ix) (wr := wr) rfl rfl tgt e rsv

/-! ### Which reserve byte a started operation reads -/

/-- The selection of mailbox `m` and the flow cache, on which the byte depends, are those of `s`. -/
def State.sameSelection (s t : State) (m : Nat) : Prop :=
  t.rd R.MBX_SEL_OBJ m = s.rd R.MBX_SEL_OBJ m ∧ t.rd R.MBX_SEL_INDEX m = s.rd R.MBX_SEL_INDEX m ∧
    t.rd R.MBX_SEL_WRITE m = s.rd R.MBX_SEL_WRITE m ∧ t.traffic.fcache = s.traffic.fcache

theorem State.mbxReserve_of_sameSelection {s t : State} {m : Nat} (h : s.sameSelection t m) : t.mbxReserve m = s.mbxReserve m := by
  obtain ⟨hobj, hix, hwr, hcache⟩ := h
  unfold State.mbxReserve
  rw [hobj, hix, hwr, hcache]

theorem State.detect_sameSelection (s : State) (d : Det) (m : Nat) : s.sameSelection (s.detect d) m := by
  unfold State.detect
  split
  · exact ⟨State.bump_rd_ne _ (by decide) .., State.bump_rd_ne _ (by decide) .., State.bump_rd_ne _ (by decide) .., rfl⟩
  · exact ⟨rfl, rfl, rfl, rfl⟩

theorem State.ctxSeen_sameSelection (s : State) (f m : Nat) : s.sameSelection (s.ctxSeen f) m := by
  unfold State.ctxSeen State.ctxLost
  split
  · exact ⟨rfl, rfl, rfl, rfl⟩
  · split
    · exact ⟨rfl, rfl, rfl, rfl⟩
    · exact State.detect_sameSelection (s.setFlow _ _) _ m

theorem State.trainingRead_sameSelection (s : State) (ch k : Nat) (lost : Bool) (m : Nat) : s.sameSelection (s.trainingRead ch k lost).1 m := by
  unfold State.trainingRead
  split
  · exact ⟨rfl, rfl, rfl, rfl⟩
  · split
    · exact ⟨rfl, rfl, rfl, rfl⟩
    · exact ⟨rfl, rfl, rfl, rfl⟩

theorem State.objRead_sameSelection (s : State) (obj ix : Nat) (lost : Bool) (m : Nat) : s.sameSelection (s.objRead obj ix lost).1 m := by
  unfold State.objRead
  have hself : s.sameSelection s m := ⟨rfl, rfl, rfl, rfl⟩
  split
  · exact hself
  split
  · exact hself
  split
  · exact hself
  split
  · exact hself
  split
  · exact s.ctxSeen_sameSelection ix m
  split
  · exact s.ctxSeen_sameSelection ix m
  split
  · exact s.trainingRead_sameSelection _ _ lost m
  split
  · exact hself
  split
  · exact hself
  split
  · exact hself
  exact hself

/-- A write never meets an uncorrectable byte of its object. -/
theorem State.objWrite_hasRead (s : State) (obj ix m : Nat) : (s.objWrite obj ix m).2.hasRead = false := by
  unfold State.objWrite State.flowConfigWrite State.trainingWrite State.counterWrite
  dsimp only
  repeat' split
  all_goals rfl

theorem State.mbxOp_mbxReserve {s : State} {m : Nat} {lost : Bool} (h : (s.mbxOp m lost).2.hasRead = true) :
    (s.mbxOp m lost).1.mbxReserve m = s.mbxReserve m := by
  revert h
  unfold State.mbxOp
  dsimp only
  split
  · exact fun _ => rfl
  · split
    · exact fun _ => rfl
    · split
      · exact fun _ => rfl
      · split
        · exact fun _ => State.mbxReserve_of_sameSelection (s.objRead_sameSelection _ _ lost m)
        · split
          · exact fun _ => rfl
          · intro h
            rw [State.objWrite_hasRead] at h
            exact absurd h (by decide)

end Sys2Proof.Machine

open Sys2Proof Sys2Proof.Machine

/-- Settles O22: each of these objects is read without a trace. -/
theorem mailboxReads : Obligations.MailboxReads := by
  unfold Obligations.MailboxReads
  intro s m ix tgt hopen hm hfree runs seed out
  have hruns {i : Instr} {obj k n : Nat} (hexec : exec i s = .next (s.mbxSelect m obj k 0 tgt false)) (hobj : obj < 2 ^ 8)
      (hmax : s.objMax obj = some n) (hk : k ≤ n) (hn : n < 2 ^ 20) (hconf : objNeedsConf obj = true → s.conf.isSome = true) {d : List Nat}
      (hread : (s.selected m obj k 0).objRead obj k false = (s.selected m obj k 0, .read d)) {rsv : Option Nat}
      (hrsv : (s.selected m obj k 0).mbxReserve m = rsv) : runs i d rsv :=
    ⟨_, hexec, State.mbxSelect_read hopen hm hfree hobj hmax hk hn hconf hread hrsv tgt⟩
  have hnone {obj k : Nat} (hobj : obj < 2 ^ 8) (hk : k < 2 ^ 20) (hrsv : obj ≠ 0x10 ∧ obj ≠ 0x11 ∧ obj ≠ 0x18 ∧ obj ≠ 0x19) :
      (s.selected m obj k 0).mbxReserve m = none := by
    obtain ⟨h1, h2, h3, h4⟩ := hrsv
    rw [State.selected_mbxReserve _ hobj hk, if_neg (by simp [h1, h2]), if_neg h3, if_neg h4]
  refine ⟨?_, ?_, ?_, fun hconf => ⟨?_, fun hix hintact => ?_⟩, fun hix => ?_, fun hix => ?_, fun hix hunread => ?_⟩
  · exact hruns rfl (by omega) rfl (Nat.le_refl 0) (by omega) (fun h => absurd h (by decide)) rfl (hnone (by omega) (by omega) (by omega))
  · exact hruns rfl (by omega) rfl (Nat.le_refl 0) (by omega) (fun h => absurd h (by decide)) rfl (hnone (by omega) (by omega) (by omega))
  · exact hruns rfl (by omega) rfl (Nat.le_refl 0) (by omega) (fun h => absurd h (by decide)) rfl (hnone (by omega) (by omega) (by omega))
  · exact hruns rfl (by omega) rfl (Nat.le_refl 0) (by omega) (fun _ => hconf) rfl (hnone (by omega) (by omega) (by omega))
  · have hseen (obj : Nat) : (s.selected m obj ix 0).ctxSeen ix = s.selected m obj ix 0 := State.ctxSeen_intact hintact
    have hcontext {obj : Nat} (hobj : obj < 2 ^ 8) (hctx : obj = 0x10 ∨ obj = 0x11) :
        (s.selected m obj ix 0).mbxReserve m = out (64 * ix + (if obj = 0x11 then 32 else 0)) := by
      rw [State.selected_mbxReserve _ hobj hix]
      cases hcache : s.traffic.fcache.contains ix with
      | false => simp only [out, hcache, hctx, true_and, if_true, Bool.false_eq_true, if_false]
      | true =>
        have h18 : obj ≠ 0x18 := by omega
        have h19 : obj ≠ 0x19 := by omega
        simp only [out, hcache, Bool.true_eq_false, and_false, if_false, h18, h19, if_true]
    constructor
    · refine hruns (n := 2 ^ 20 - 1) rfl (by omega) rfl (by omega) (by omega) (fun _ => hconf) ?_ (hcontext (by omega) (Or.inl rfl))
      exact congrArg (fun t : State => (t, MbxEnd.read (Tab.get ({} : Flow) t.traffic.flows ix).configWords)) (hseen 0x10)
    · refine hruns (n := 2 ^ 20 - 1) rfl (by omega) rfl (by omega) (by omega) (fun _ => hconf) ?_ (hcontext (by omega) (Or.inr rfl))
      exact congrArg (fun t : State => (t, MbxEnd.read (Tab.get ({} : Flow) t.traffic.flows ix).stateWords)) (hseen 0x11)
  · exact hruns rfl (by omega) rfl (Nat.le_of_lt_succ hix) (by omega) (fun h => absurd h (by decide)) rfl (hnone (by omega) (by omega) (by omega))
  · exact hruns rfl (by omega) rfl (Nat.le_of_lt_succ hix) (by omega) (fun h => absurd h (by decide)) rfl (hnone (by omega) (by omega) (by omega))
  · exact hruns rfl (by omega) rfl (Nat.le_of_lt_succ hix) (by omega) (fun h => absurd h (by decide)) (congrArg (_, ·) (State.selected_recordRead hunread m 0x22 0))
      (hnone (by omega) (by omega) (by omega))

/-- Settles O23: a lost byte ends the read with code 6, which still counts as a read of the reserve. -/
theorem mailboxReserveReads : Obligations.MailboxReserveReads := by
  unfold Obligations.MailboxReserveReads
  intro s m ix tgt lost hopen hm hfree hconf
  have hC := s.C_le
  constructor
  · intro hix hcopy
    have hstart {u : State} {e : MbxEnd} (hread : (s.selected m 0x18 ix 0).trainingRead (ix / 16) (ix % 16) lost = (u, e)) :
        exec (.trainingStateRead m ix tgt lost) s = .next (u.begun m tgt e (if e.hasRead then u.mbxReserve m else none)) := by
      have hop := (State.mbxOp_read (s := s) (m := m) (n := 16 * s.C - 1) (by omega : 0x18 < 2 ^ 8) rfl (by omega : ix ≤ _) (by omega)
        (fun _ => hconf) lost).trans hread
      exact congrArg Host.Outcome.next ((State.mbxSelect_open hopen hm hfree (by omega) (by omega) (by omega) tgt lost).trans
        (State.mbxStart_eq hop tgt))
    have hreserve : (s.selected m 0x18 ix 0).mbxReserve m = some (rsvTraining + 32 * ix) :=
      (s.selected_mbxReserve (by omega) (by omega)).trans rfl
    cases lost with
    | true =>
      refine ⟨_, hstart rfl, ?_, nofun⟩
      rw [State.begun_mbx]
      exact congrArg some (congrArg (MbxOp.mk (tgt % 8) (.err 6)) hreserve)
    | false =>
      refine ⟨_, hstart (State.trainingRead_copy (s := s.selected m 0x18 ix 0) hcopy (ix % 16)), ?_, fun _ => ⟨rfl, ?_⟩⟩
      · rw [State.begun_mbx]
        exact congrArg some (congrArg (MbxOp.mk (tgt % 8) _) hreserve)
      · exact State.begun_regsKept (obj := 0x18) (ix := ix) (wr := 0) rfl rfl tgt _ _
  · intro hix hunread
    have hread : (s.selected m 0x19 ix 0).mbxOp m lost = (s.selected m 0x19 ix 0, _) :=
      (State.mbxOp_read (n := 4095) (by omega : 0x19 < 2 ^ 8) rfl (by omega) (by omega) (fun _ => hconf) lost).trans
        (congrArg (Prod.mk (s.selected m 0x19 ix 0)) (State.selected_ringRead hunread m 0x19 0 lost))
    have hexec : exec (.errorRingRead m ix tgt lost) s = .next _ := congrArg Host.Outcome.next ((State.mbxSelect_open hopen hm hfree (by omega : 0x19 < 2 ^ 8) (by omega : ix < 2 ^ 20)
      (by omega : 0 < 2) tgt lost).trans (State.mbxStart_eq hread tgt))
    have hreserve : (s.selected m 0x19 ix 0).mbxReserve m = some (rsvRing + 32 * ix) :=
      (s.selected_mbxReserve (by omega) (by omega)).trans rfl
    refine ⟨_, hexec, ?_, State.selected_begun_frame .., State.begun_regsKept (obj := 0x19) (ix := ix) (wr := 0) rfl rfl tgt _ _⟩
    rw [State.begun_mbx, hreserve]
    split <;> rfl

/-- Settles O24: each write leaves its trace and begins an operation that ends as written. -/
theorem mailboxWrites : Obligations.MailboxWrites := by
  unfold Obligations.MailboxWrites
  intro s m ix tgt hopen hm hfree runs
  refine ⟨fun hconf => ⟨?_, fun hix => ⟨?_, fun htest hpend => ?_⟩, fun hix hpart hquiet => ?_⟩, fun hix hstopped => ?_⟩
  · exact ⟨_, exec_epochSeedWrite_open hopen hm hfree hconf tgt, State.begun_mbx .., rfl, State.begun_seed_frame ..,
      s.selected_now_regsKept m 2 0 1 tgt .wrote none _⟩
  · exact ⟨_, exec_flowStateWrite_open hopen hm hfree hconf hix tgt, State.begun_mbx .., State.selected_begun_frame ..,
      State.begun_regsKept (obj := 0x11) (ix := ix) (wr := 1) rfl rfl tgt _ _⟩
  · exact ⟨_, exec_flowConfigWrite_open hopen hm hfree hconf hix htest hpend tgt, State.begun_mbx .., Tab.find_insert_self .., rfl,
      State.begun_flows_frame .., s.selected_now_regsKept m 0x10 ix 1 tgt .wrote none _⟩
  · refine ⟨_, exec_trainingStateWrite_open hopen hm hfree hconf hix hpart hquiet tgt, State.begun_mbx .., fun i hi => ?_, ?_, fun c hne => ?_⟩
    · exact State.stagedAt_staging _ _ _ _ hi
    · change ((State.stagedAt _ _ _ _).chan _).retainedSt = _
      rw [State.stagedAt, State.setChan_chan_self]
      rfl
    · exact State.setChan_chan_ne _ hne _
  · exact ⟨_, exec_perfCounterWrite_open hopen hm hfree hix hstopped tgt, State.begun_mbx .., Tab.get_insert_self .., fun k hne => Tab.get_insert_ne hne ..⟩

/-- Settles O26: GO starts the operation, or is refused. -/
theorem mailboxGo : Obligations.MailboxGo := by
  unfold Obligations.MailboxGo
  intro s m w tgt hopen hm
  constructor
  · intro hfree
    rw [exec_mbxGo_start hopen hm hfree, State.mbxStart_eq (u := (s.mbxOp m false).1) (e := (s.mbxOp m false).2) rfl]
    refine ⟨_, _, rfl, State.begun_mbx .., rfl, rfl, ?_, State.begun_rd_valid .., State.begun_rd_err .., State.begun_rd_code ..⟩
    cases hread : (s.mbxOp m false).2.hasRead with
    | false => exact Or.inl rfl
    | true => exact Or.inr (State.mbxOp_mbxReserve hread)
  · intro hbusy
    rw [exec_mbxGo_open hopen, State.writeMbxCtl_busy hm (bit_toNat_or_one w) hbusy]
    exact ⟨_, rfl, State.cfgBusy_mbx .., State.cfgBusy_bit .., State.cfgBusy_eq .., State.cfgBusy_regsKept _ _ _⟩

end

section
/-! The end of a mailbox operation (R454, R456). -/

namespace Sys2Proof.Machine
open Sys2Proof

/-- Only a read of the reserve is charged, to a channel and the counters. -/
theorem State.mbxCharge_cases (s : State) (o : MbxOp) :
    ∃ c n, s.mbxCharge o = { s with chans := c, meas := n } ∧ (o.rsv = none → c = s.chans) := by
  unfold State.mbxCharge
  split
  · next a hrsv =>
    unfold State.engineBytes
    split
    · exact ⟨_, _, rfl, fun _ => rfl⟩
    · exact ⟨_, _, rfl, fun hnone => by rw [hnone] at hrsv; cases hrsv⟩
  · exact ⟨_, _, rfl, fun _ => rfl⟩

/-! ### The data words -/

theorem State.wr_rd_data_ne (s : State) {m j k : Nat} (hj : j < 8) (hk : k < 8) (hne : k ≠ j) (v : Nat) :
    (s.wr R.MBX_D_DATA m j v).rd R.MBX_D_DATA m k = s.rd R.MBX_D_DATA m k := by
  have hkey : R.MBX_D_DATA.key m k ≠ R.MBX_D_DATA.key m j := by
    unfold Fld.key
    omega
  exact Tab.get_insert_ne hkey ..

/-- The data words of mailbox `m` after the words `d k`, for each `k` of a list, have been loaded. -/
theorem State.loadWords_rd (s : State) (m : Nat) (d : Nat → Nat) {l : List Nat} (hl : ∀ j ∈ l, j < 8) {k : Nat} (hk : k < 8) :
    (l.foldl (fun (s : State) k => s.wr R.MBX_D_DATA m k (d k)) s).rd R.MBX_D_DATA m k =
      if k ∈ l then d k % 2 ^ 32 else s.rd R.MBX_D_DATA m k := by
  induction l generalizing s with
  | nil => rfl
  | cons j l ih =>
    rw [List.foldl_cons, ih _ fun i hi => hl i (List.mem_cons_of_mem j hi)]
    by_cases hmem : k ∈ l
    · simp [hmem]
    · by_cases hkj : k = j
      · subst hkj
        rw [if_neg hmem, if_pos List.mem_cons_self, State.wr_rd_self]
        rfl
      · rw [if_neg hmem, if_neg (by simp [hkj, hmem]), State.wr_rd_data_ne _ (hl j List.mem_cons_self) hk hkj]

theorem State.loadWords_regsKept (s : State) (m : Nat) (d : Nat → Nat) (l : List Nat) :
    s.regsKept (l.foldl (fun (s : State) k => s.wr R.MBX_D_DATA m k (d k)) s) (l.map fun k => ⟨R.MBX_D_DATA, m, k⟩) := by
  induction l generalizing s with
  | nil => exact State.regsKept_refl s _
  | cons j l ih => exact State.regsKept_trans (State.wr_regsKept s R.MBX_D_DATA m j _) (ih _)

theorem State.loadWords_frame (s : State) (m : Nat) (d : Nat → Nat) (l : List Nat) :
    ∃ r, l.foldl (fun (s : State) k => s.wr R.MBX_D_DATA m k (d k)) s = { s with regs := r } := by
  induction l generalizing s with
  | nil => exact ⟨_, rfl⟩
  | cons j l ih =>
    obtain ⟨r, h⟩ := ih (s.wr R.MBX_D_DATA m j (d j))
    exact ⟨r, h⟩

/-! ### What the end of an operation loads -/

/-- The fields that the end of an operation in mailbox `m` may write. -/
def mbxEndSlots (m : Nat) : List Slot :=
  [⟨R.MBX_CTL_VALID, m, 0⟩, ⟨R.MBX_CTL_ERR, m, 0⟩, ⟨R.MBX_CTL_CODE, m, 0⟩] ++ (List.range 8).map fun k => ⟨R.MBX_D_DATA, m, k⟩

theorem State.mbxLoad_frame (s : State) (m : Nat) (e : MbxEnd) : ∃ r, s.mbxLoad m e = { s with regs := r } := by
  cases e with
  | read d =>
    obtain ⟨r, h⟩ := s.loadWords_frame m (fun k => d.getD k 0) (List.range 8)
    exact ⟨(({ s with regs := r } : State).wr R.MBX_CTL_VALID m 0 1).regs, congrArg (State.wr · R.MBX_CTL_VALID m 0 1) h⟩
  | wrote => exact ⟨_, rfl⟩
  | err c => exact ⟨_, rfl⟩

theorem State.mbxLoad_regsKept (s : State) (m : Nat) (e : MbxEnd) : s.regsKept (s.mbxLoad m e) (mbxEndSlots m) := by
  cases e with
  | read d =>
    refine State.regsKept_mono (State.regsKept_trans (s.loadWords_regsKept m (fun k => d.getD k 0) (List.range 8))
      (State.wr_regsKept _ R.MBX_CTL_VALID m 0 1)) fun x hx => ?_
    rcases List.mem_append.mp hx with hdata | hvalid
    · exact List.mem_append_right _ hdata
    · exact List.mem_append_left _ (by simp_all)
  | wrote => exact State.regsKept_mono (State.wr_regsKept s R.MBX_CTL_VALID m 0 1) (by simp [mbxEndSlots])
  | err c =>
    exact State.regsKept_mono (State.regsKept_trans (State.wr_regsKept s R.MBX_CTL_ERR m 0 1) (State.wr_regsKept _ R.MBX_CTL_CODE m 0 c))
      (by simp [mbxEndSlots])

theorem State.mbxLoad_read (s : State) (m : Nat) (d : List Nat) :
    (s.mbxLoad m (.read d)).rd R.MBX_CTL_VALID m = 1 ∧ (s.mbxLoad m (.read d)).rd R.MBX_CTL_ERR m = s.rd R.MBX_CTL_ERR m ∧
      ∀ k, k < 8 → (s.mbxLoad m (.read d)).mbxWord m k = d.getD k 0 % 2 ^ 32 := by
  let u := (List.range 8).foldl (fun (s : State) k => s.wr R.MBX_D_DATA m k (d.getD k 0)) s
  change (u.wr R.MBX_CTL_VALID m 0 1).rd _ _ = 1 ∧ (u.wr R.MBX_CTL_VALID m 0 1).rd _ _ = _ ∧
    ∀ k, k < 8 → (u.wr R.MBX_CTL_VALID m 0 1).rd R.MBX_D_DATA m k = _
  refine ⟨State.wr_rd_self .., ?_, fun k hk => ?_⟩
  · rw [State.wr_rd_ne _ (by decide)]
    refine s.loadWords_regsKept m (fun k => d.getD k 0) (List.range 8) _ _ _ fun x hx => ?_
    obtain ⟨k, -, rfl⟩ := List.mem_map.mp hx
    exact Fld.key_ne (show R.MBX_D_DATA.ix ≠ R.MBX_CTL_ERR.ix by decide) _ _ _ _
  · rw [State.wr_rd_ne _ (by decide), s.loadWords_rd m (fun k => d.getD k 0) (fun j hj => List.mem_range.mp hj) hk, if_pos (List.mem_range.mpr hk)]

theorem State.mbxLoad_wrote (s : State) (m : Nat) :
    (s.mbxLoad m .wrote).rd R.MBX_CTL_VALID m = 1 ∧ (s.mbxLoad m .wrote).rd R.MBX_CTL_ERR m = s.rd R.MBX_CTL_ERR m :=
  ⟨State.wr_rd_self .., State.wr_rd_ne _ (by decide) ..⟩

theorem State.mbxLoad_err (s : State) (m c : Nat) :
    (s.mbxLoad m (.err c)).rd R.MBX_CTL_VALID m = s.rd R.MBX_CTL_VALID m ∧ (s.mbxLoad m (.err c)).rd R.MBX_CTL_ERR m = 1 ∧
      (s.mbxLoad m (.err c)).rd R.MBX_CTL_CODE m = c % 2 ^ 8 ∧ ∀ k, (s.mbxLoad m (.err c)).mbxWord m k = s.mbxWord m k := by
  change ((s.wr R.MBX_CTL_ERR m 0 1).wr R.MBX_CTL_CODE m 0 c).rd _ _ = _ ∧ ((s.wr R.MBX_CTL_ERR m 0 1).wr R.MBX_CTL_CODE m 0 c).rd _ _ = _ ∧
    ((s.wr R.MBX_CTL_ERR m 0 1).wr R.MBX_CTL_CODE m 0 c).rd _ _ = _ ∧ ∀ k, ((s.wr R.MBX_CTL_ERR m 0 1).wr R.MBX_CTL_CODE m 0 c).rd R.MBX_D_DATA m k = _
  refine ⟨?_, ?_, State.wr_rd_self .., fun k => ?_⟩
  · rw [State.wr_rd_ne _ (by decide), State.wr_rd_ne _ (by decide)]
  · rw [State.wr_rd_ne _ (by decide), State.wr_rd_self]
    rfl
  · rw [State.wr_rd_ne _ (by decide), State.wr_rd_ne _ (by decide)]
    rfl

/-- Exactly one of VALID and ERR is set by the end of an operation. -/
theorem State.mbxLoad_valid_add_err {s : State} {m : Nat} (hvalid : s.rd R.MBX_CTL_VALID m = 0) (herr : s.rd R.MBX_CTL_ERR m = 0) (e : MbxEnd) :
    (s.mbxLoad m e).rd R.MBX_CTL_VALID m + (s.mbxLoad m e).rd R.MBX_CTL_ERR m = 1 := by
  cases e with
  | read d =>
    obtain ⟨h1, h2, -⟩ := s.mbxLoad_read m d
    rw [h1, h2, herr]
  | wrote =>
    obtain ⟨h1, h2⟩ := s.mbxLoad_wrote m
    rw [h1, h2, herr]
  | err c =>
    obtain ⟨h1, h2, -⟩ := s.mbxLoad_err m c
    rw [h1, h2, hvalid]

/-- The state in which an operation of mailbox `m`, loaded into `u`, is over. -/
def State.mbxOver (u : State) (m writer : Nat) : State :=
  { (u.raisePriv writer 0).count { ev := 0x007 } with mbx := Tab.insert m none u.mbx }

theorem State.mbxOver_rd (u : State) (m writer : Nat) (f : Fld) (i j : Nat) : (u.mbxOver m writer).rd f i j = u.rd f i j := rfl

theorem State.mbxOver_mbxWord (u : State) (m writer n k : Nat) : (u.mbxOver m writer).mbxWord n k = u.mbxWord n k := rfl

theorem State.mbxOver_bit_pending (u : State) (m : Nat) {writer : Nat} (h : writer < 8) :
    bit ((u.mbxOver m writer).evt (24 + writer)).pending 0 = true := by
  have hbit := State.raise_bit_pending u (24 + writer % 8) 0
  rw [Nat.mod_eq_of_lt h] at hbit
  have hpriv : u.raisePriv writer 0 = u.raise (24 + writer) 0 := by rw [State.raisePriv, Nat.mod_eq_of_lt h]
  change bit ((u.raisePriv writer 0).evt (24 + writer)).pending 0 = true
  rwa [hpriv]

theorem exec_mbxDone_some {s : State} {m : Nat} {o : MbxOp} (hrun : s.cclkRuns = true) (hop : Tab.get none s.mbx m = some o)
    (hfree : s.mbxFree o = true) : exec (.mbxDone m) s = .next (((s.mbxCharge o).mbxLoad m o.res).mbxOver m o.writer) := by
  change execMbxDone m s = _
  unfold execMbxDone State.mbxOver
  rw [hop]
  dsimp only
  rw [if_neg (by simp [hrun, hfree])]
  rfl

end Sys2Proof.Machine

open Sys2Proof Sys2Proof.Machine

/-- Settles O25: the result is loaded after the charge, which touches no register. -/
theorem mailboxEnds : Obligations.MailboxEnds := by
  unfold Obligations.MailboxEnds
  intro s m o hm hrun hop hwriter hfree hvalid herr
  obtain ⟨c, n, hcharge, hchans⟩ := s.mbxCharge_cases o
  obtain ⟨r, hload⟩ := ({ s with chans := c, meas := n } : State).mbxLoad_frame m o.res
  obtain ⟨u, hu⟩ : ∃ u, u = s.mbxCharge o := ⟨_, rfl⟩
  have hexec := exec_mbxDone_some hrun hop hfree
  rw [← hu] at hexec hcharge
  have hrd (f : Fld) (i j : Nat) : u.rd f i j = s.rd f i j := by rw [hcharge]; rfl
  rw [← hcharge] at hload
  refine ⟨_, hexec, ?_, State.mbxOver_bit_pending _ m hwriter, ?_, ?_, ?_, ?_, ?_, ?_⟩
  · exact congrArg Option.isSome (Tab.get_insert_self ..)
  · rw [State.mbxOver_rd, State.mbxOver_rd]
    exact State.mbxLoad_valid_add_err ((hrd ..).trans hvalid) ((hrd ..).trans herr) o.res
  · intro d hd
    rw [hd]
    obtain ⟨h1, -, h3⟩ := u.mbxLoad_read m d
    rw [State.mbxOver_rd]
    exact ⟨h1, fun k hk => (State.mbxOver_mbxWord ..).trans (h3 k hk)⟩
  · intro k hk
    rw [hk]
    obtain ⟨-, -, h3, h4⟩ := u.mbxLoad_err m k
    rw [State.mbxOver_rd]
    exact ⟨h3, fun i => ((State.mbxOver_mbxWord ..).trans (h4 i)).trans (hrd ..)⟩
  · intro hnone
    rw [hload]
    exact (congrArg State.chans hcharge).trans (hchans hnone)
  · rw [hload, hcharge]
    rfl
  · intro f i j hne
    rw [State.mbxOver_rd, u.mbxLoad_regsKept m o.res f i j hne, hrd]

end

section
/-! Squall: the unlock sequence, its registers, and the tag injection. -/

namespace Sys2Proof.Machine
open Sys2Proof

/-! ### Writes of plain registers -/

/-- A field that every build has and that a write takes at once, without a range rule. -/
def Slot.plain (x : Slot) : Bool := x.f.unit == .none && x.f.cls == .now && !ruledFields.contains x.f.ix

/-- The fields `xs` with the values that the word `w` gives them. -/
def State.wrSlots (s : State) (w : Nat) (xs : List Slot) : State :=
  xs.foldl (fun s x => s.wr x.f x.i x.j (bits w x.f.lsb x.f.width)) s

theorem applySlot_plain (s : State) (w : Nat) (sb : State × Bool) {x : Slot} (hrw : x.f.acc = .rw) (h : x.plain = true) :
    applySlot s w sb x = (sb.1.wr x.f x.i x.j (bits w x.f.lsb x.f.width), sb.2) := by
  unfold Slot.plain at h
  simp only [Bool.and_eq_true, beq_iff_eq, Bool.not_eq_true'] at h
  obtain ⟨⟨hunit, hcls⟩, hruled⟩ := h
  exact applySlot_now s w sb x hrw hcls (by rw [Fld.present, hunit]) hruled

/-- A write of plain fields gives each writable one its value. -/
theorem applySlots_plain (s : State) (w : Nat) {xs : List Slot} (h : ∀ x ∈ xs, x.f.acc = .rw → x.plain = true) :
    applySlots s w xs = (s.wrSlots w (xs.filter fun x => x.f.acc == .rw), false) := by
  unfold applySlots
  suffices hgen : ∀ t : State, xs.foldl (applySlot s w) (t, false) = (t.wrSlots w (xs.filter fun x => x.f.acc == .rw), false) from hgen s
  induction xs with
  | nil => exact fun _ => rfl
  | cons x xs ih =>
    intro t
    have hrest := ih fun y hy => h y (List.mem_cons_of_mem x hy)
    by_cases hrw : x.f.acc = .rw
    · rw [List.foldl_cons, applySlot_plain s w _ hrw (h x List.mem_cons_self hrw), hrest, List.filter_cons, if_pos (by simp [hrw])]
      rfl
    · rw [List.foldl_cons, applySlot_skip s w _ x hrw, hrest, List.filter_cons, if_neg (by simp [hrw])]

theorem State.wrSlots_regsKept (s : State) (w : Nat) (xs : List Slot) : s.regsKept (s.wrSlots w xs) xs := by
  unfold State.wrSlots
  induction xs generalizing s with
  | nil => exact State.regsKept_refl s _
  | cons x xs ih => exact State.regsKept_trans (State.wr_regsKept s x.f x.i x.j _) (ih _)

theorem State.wrSlots_eq (s : State) (w : Nat) (xs : List Slot) : s.wrSlots w xs = { s with regs := (s.wrSlots w xs).regs } := by
  unfold State.wrSlots
  induction xs generalizing s with
  | nil => rfl
  | cons x xs ih => exact ih (s.wr x.f x.i x.j _)

@[simp] theorem State.wrSlots_squall (s : State) (w : Nat) (xs : List Slot) : (s.wrSlots w xs).squall = s.squall := by rw [State.wrSlots_eq]

/-- Fields of one word with different keys read as the bits of the word. -/
theorem State.wrSlots_rd (s : State) (w : Nat) {xs : List Slot} (hkeys : (xs.map fun x => x.f.key x.i x.j).Nodup) {x : Slot} (hx : x ∈ xs) :
    (s.wrSlots w xs).rd x.f x.i x.j = bits w x.f.lsb x.f.width := by
  induction xs generalizing s with
  | nil => cases hx
  | cons y ys ih =>
    simp only [List.map_cons, List.nodup_cons, List.mem_map, not_exists, not_and] at hkeys
    obtain ⟨hfirst, hrest⟩ := hkeys
    rcases List.mem_cons.mp hx with rfl | hx
    · exact ((State.wrSlots_regsKept _ w ys) _ _ _ hfirst).trans ((State.wr_rd_self ..).trans (bits_mod ..))
    · exact ih _ hrest hx

/-- A write of a register of plain fields, with its actions. -/
theorem State.writeReg_plain (s : State) {xs : List Slot} (h : ∀ x ∈ xs, x.f.acc = .rw → x.plain = true) (acts : List (Nat × Act)) (a w tgt : Nat) :
    s.writeReg xs acts a w tgt =
      (runActs w acts (s.wrSlots w (xs.filter fun x => x.f.acc == .rw), false)).1.busyIf
        (runActs w acts (s.wrSlots w (xs.filter fun x => x.f.acc == .rw), false)).2 a tgt := by
  unfold State.writeReg
  rw [applySlots_plain s w h]

/-! ### Unlocking (R463) -/

theorem exec_squallKey_open {s : State} (h : s.portOpen) {c : Nat} (hc : s.cclk = c) (w : Word) (tgt : Nat) :
    exec (.squallKey w tgt c) s = .next (s.writeTestKey w.toNat tgt) := by
  change Host.Outcome.next (s.regAccess 0x60000 w tgt fun w s => (s.atCycle c).writeTestKey w tgt) = _
  rw [State.regAccess_open h, State.atCycle_reached hc]

theorem State.writeTestKey_a {s : State} (h : s.permits 0 = true) (tgt : Nat) :
    s.writeTestKey 0x5351 tgt = s.setKey (tgt % 8) (some s.cclk) := by
  unfold State.writeTestKey
  rw [if_neg (by simp [h]), if_neg (by omega), if_pos rfl]

theorem State.writeTestKey_b {s : State} (h : s.permits 0 = true) {tgt k : Nat} (hkey : s.keyOf (tgt % 8) = some k) :
    s.writeTestKey 0xACAE tgt = if s.cclk ≤ k + 65536 then
      ({ s.setKey (tgt % 8) none with squall := { (s.setKey (tgt % 8) none).squall with unlocked := true } } : State).loadGens
      else s.setKey (tgt % 8) none := by
  unfold State.writeTestKey
  rw [if_neg (by simp [h]), if_neg (by omega), if_neg (by omega), if_pos rfl, hkey]
  rfl

/-- A table that lists `v i` at each `i` below `n`. -/
theorem Tab.find_map_range {α : Type} (v : Nat → α) {n i : Nat} (hi : i < n) : Tab.find ((List.range n).map fun i => (i, v i)) i = some (v i) := by
  have hgen (l : List Nat) (hmem : i ∈ l) : Tab.find (l.map fun i => (i, v i)) i = some (v i) := by
    induction l with
    | nil => cases hmem
    | cons j l ih =>
      by_cases hj : i = j
      · simp [Tab.find, hj]
      · simp [Tab.find, hj, ih ((List.mem_cons.mp hmem).resolve_left hj)]
  exact hgen _ (List.mem_range.mpr hi)

theorem State.loadGens_find (s : State) {i : Nat} (hi : i ≤ 64) : Tab.find s.loadGens.squall.gens i = some (genLoad (s.rd R.SQ_SEED_SEED) i) :=
  Tab.find_map_range _ (Nat.lt_succ_of_le hi)

/-! ### The registers (R465, R466, R468) -/

theorem slotsAt_seed : slotsAt 0x60008 = [⟨R.SQ_SEED_SEED, 0, 0⟩] := by decide +kernel
theorem slotsAt_ginj : slotsAt 0x60204 = [⟨R.SQ_GINJ_CTL_CH, 0, 0⟩, ⟨R.SQ_GINJ_CTL_DFLIP, 0, 0⟩, ⟨R.SQ_GINJ_CTL_CFLIP, 0, 0⟩,
    ⟨R.SQ_GINJ_CTL_GO, 0, 0⟩, ⟨R.SQ_GINJ_CTL_ARMED, 0, 0⟩] := by decide +kernel
theorem slotsAt_sinj : slotsAt 0x60210 = [⟨R.SQ_SINJ_CTL_INDEX, 0, 0⟩, ⟨R.SQ_SINJ_CTL_ANY, 0, 0⟩, ⟨R.SQ_SINJ_CTL_GO, 0, 0⟩,
    ⟨R.SQ_SINJ_CTL_ARMED, 0, 0⟩] := by decide +kernel
theorem slotsAt_hinj : slotsAt 0x60220 = [⟨R.SQ_HINJ_GROUP, 0, 0⟩, ⟨R.SQ_HINJ_ENTRY, 0, 0⟩, ⟨R.SQ_HINJ_WORD, 0, 0⟩, ⟨R.SQ_HINJ_KIND, 0, 0⟩,
    ⟨R.SQ_HINJ_GO, 0, 0⟩] := by decide +kernel
theorem slotsAt_linj : slotsAt 0x60230 = [⟨R.SQ_LINJ_CH, 0, 0⟩, ⟨R.SQ_LINJ_KIND, 0, 0⟩, ⟨R.SQ_LINJ_COUNT, 0, 0⟩] := by decide +kernel

/-- While Squall is locked, a write that carries an action is refused (R465, R487). -/
theorem State.squallWrite_locked_act {s : State} (h : s.squall.unlocked = false) {w n : Nat} {act : Act} (hbit : bit w n = true) (a tgt : Nat) :
    s.squallWrite a w tgt [(n, act)] = s.cfgBusy a tgt := by
  unfold State.squallWrite State.carries
  rw [if_pos h]
  simp [hbit]

/-- While Squall is locked, a write of values alone is refused unless the fields hold them. -/
theorem State.squallWrite_locked {s : State} (h : s.squall.unlocked = false) (a w tgt : Nat) :
    s.squallWrite a w tgt [] = s.busyIf (s.carries w (slotsAt a) []) a tgt := by
  unfold State.squallWrite
  rw [if_pos h]
  rfl

/-- While Squall is unlocked, a write with one action that the word asks for. -/
theorem State.squallWrite_open_act {s : State} (h : s.squall.unlocked = true) {a : Nat} (hplain : ∀ x ∈ slotsAt a, x.f.acc = .rw → x.plain = true)
    {w n : Nat} (hbit : bit w n = true) (act : Act) (tgt : Nat) :
    s.squallWrite a w tgt [(n, act)] =
      (act (s.wrSlots w ((slotsAt a).filter fun x => x.f.acc == .rw))).1.busyIf (act (s.wrSlots w ((slotsAt a).filter fun x => x.f.acc == .rw))).2 a tgt := by
  unfold State.squallWrite
  rw [if_neg (by simp [h]), State.writeReg_plain _ hplain]
  simp only [runActs, List.foldl_cons, List.foldl_nil, hbit, if_true, Bool.false_or]

theorem State.squallWrite_open {s : State} (h : s.squall.unlocked = true) {a : Nat} (hplain : ∀ x ∈ slotsAt a, x.f.acc = .rw → x.plain = true)
    (w tgt : Nat) : s.squallWrite a w tgt [] = s.wrSlots w ((slotsAt a).filter fun x => x.f.acc == .rw) := by
  unfold State.squallWrite
  rw [if_neg (by simp [h]), State.writeReg_plain _ hplain]
  rfl

theorem exec_guardedInject_open {s : State} (h : s.portOpen) (w : Word) (tgt : Nat) :
    exec (.guardedInject w tgt) s = .next (s.writeGinj (w ||| 0x1000000).toNat tgt) := congrArg Host.Outcome.next (State.regAccess_open h ..)

theorem exec_sealedInject_open {s : State} (h : s.portOpen) (w : Word) (tgt : Nat) :
    exec (.sealedInject w tgt) s = .next (s.writeSinj (w ||| 0x1000000).toNat tgt) := congrArg Host.Outcome.next (State.regAccess_open h ..)

theorem exec_haloInject_open {s : State} (h : s.portOpen) (w : Word) (tgt : Nat) :
    exec (.haloInject w tgt) s = .next (s.writeHinj (w ||| 0x80000000).toNat tgt) := congrArg Host.Outcome.next (State.regAccess_open h ..)

theorem exec_linkInject_open {s : State} (h : s.portOpen) (w : Word) (tgt : Nat) :
    exec (.linkInject w tgt) s = .next (s.writeLinj w.toNat tgt) := congrArg Host.Outcome.next (State.regAccess_open h ..)

theorem exec_squallSeed_open {s : State} (h : s.portOpen) (w : Word) (tgt : Nat) :
    exec (.squallSeed w tgt) s = .next (s.writeSqSeed w.toNat tgt) := congrArg Host.Outcome.next (State.regAccess_open h ..)

theorem bit_or_go (w : Word) : bit (w ||| 0x1000000).toNat 24 = true := by
  rw [BitVec.toNat_or, bit_or, show bit (BitVec.toNat (0x1000000 : Word)) 24 = true by decide, Bool.or_true]

theorem bit_or_go31 (w : Word) : bit (w ||| 0x80000000).toNat 31 = true := by
  rw [BitVec.toNat_or, bit_or, show bit (BitVec.toNat (0x80000000 : Word)) 31 = true by decide, Bool.or_true]

theorem bits_or_of_clear (w m : Word) {l n : Nat} (h : bits m.toNat l n = 0) : bits (w ||| m).toNat l n = bits w.toNat l n := by
  rw [BitVec.toNat_or]
  exact bits_or_ne _ _ l n h

/-- A refused write of Squall's registers changes neither its fields nor its state (R465). -/
theorem State.cfgBusy_squallKept (s : State) (a tgt : Nat) : (s.cfgBusy a tgt).squall = s.squall ∧ (s.cfgBusy a tgt).lines = s.lines ∧
    (s.cfgBusy a tgt).rd R.GLB_STATUS_CFG_BUSY = 1 ∧ (s.cfgBusy a tgt).rd R.SQ_SEED_SEED = s.rd R.SQ_SEED_SEED ∧
    (s.cfgBusy a tgt).rd R.SQ_LINJ_COUNT = s.rd R.SQ_LINJ_COUNT ∧
    s.cfgBusy a tgt = { s with regs := (s.cfgBusy a tgt).regs, bitsNow := (s.cfgBusy a tgt).bitsNow, evts := (s.cfgBusy a tgt).evts,
                               meas := (s.cfgBusy a tgt).meas } ∧ s.regsKept (s.cfgBusy a tgt) busySlots :=
  ⟨State.cfgBusy_squall .., State.cfgBusy_lines .., State.cfgBusy_bit .., State.cfgBusy_rd _ _ _ (by decide) 0 0,
    State.cfgBusy_rd _ _ _ (by decide) 0 0, State.cfgBusy_eq .., State.cfgBusy_regsKept _ _ _⟩

theorem State.carries_seed (s : State) (w : Nat) : s.carries w (slotsAt 0x60008) [] = (bits w 0 15 != s.rd R.SQ_SEED_SEED) := by
  rw [slotsAt_seed]
  simp [State.carries, show R.SQ_SEED_SEED.present s.build 0 = true from rfl, show R.SQ_SEED_SEED.acc = .rw from rfl]
  rfl

theorem State.carries_linj (s : State) (w : Nat) : s.carries w (slotsAt 0x60230) [] =
    (bits w 0 5 != s.rd R.SQ_LINJ_CH || (bits w 8 2 != s.rd R.SQ_LINJ_KIND || bits w 16 8 != s.rd R.SQ_LINJ_COUNT)) := by
  rw [slotsAt_linj]
  simp [State.carries, show R.SQ_LINJ_CH.present s.build 0 = true from rfl, show R.SQ_LINJ_CH.acc = .rw from rfl,
    show R.SQ_LINJ_KIND.present s.build 0 = true from rfl, show R.SQ_LINJ_KIND.acc = .rw from rfl,
    show R.SQ_LINJ_COUNT.present s.build 0 = true from rfl, show R.SQ_LINJ_COUNT.acc = .rw from rfl]
  rfl

theorem State.writeSqSeed_locked {s : State} (h : s.squall.unlocked = false) (w tgt : Nat) :
    s.writeSqSeed w tgt = s.busyIf (bits w 0 15 != s.rd R.SQ_SEED_SEED) 0x60008 tgt := by
  unfold State.writeSqSeed
  rw [if_neg (by simp [h]), State.squallWrite_locked h, State.carries_seed]

theorem State.writeLinj_locked {s : State} (h : s.squall.unlocked = false) (w tgt : Nat) : s.writeLinj w tgt =
    s.busyIf (bits w 0 5 != s.rd R.SQ_LINJ_CH || (bits w 8 2 != s.rd R.SQ_LINJ_KIND || bits w 16 8 != s.rd R.SQ_LINJ_COUNT)) 0x60230 tgt := by
  unfold State.writeLinj
  rw [if_neg (by simp [h]), State.squallWrite_locked h, State.carries_linj]

theorem rwSlots_seed : (slotsAt 0x60008).filter (fun x => x.f.acc == .rw) = [⟨R.SQ_SEED_SEED, 0, 0⟩] := by
  rw [slotsAt_seed]
  rfl

theorem rwSlots_ginj : (slotsAt 0x60204).filter (fun x => x.f.acc == .rw) =
    [⟨R.SQ_GINJ_CTL_CH, 0, 0⟩, ⟨R.SQ_GINJ_CTL_DFLIP, 0, 0⟩, ⟨R.SQ_GINJ_CTL_CFLIP, 0, 0⟩] := by
  rw [slotsAt_ginj]
  rfl

theorem rwSlots_sinj : (slotsAt 0x60210).filter (fun x => x.f.acc == .rw) = [⟨R.SQ_SINJ_CTL_INDEX, 0, 0⟩, ⟨R.SQ_SINJ_CTL_ANY, 0, 0⟩] := by
  rw [slotsAt_sinj]
  rfl

theorem rwSlots_hinj : (slotsAt 0x60220).filter (fun x => x.f.acc == .rw) =
    [⟨R.SQ_HINJ_GROUP, 0, 0⟩, ⟨R.SQ_HINJ_ENTRY, 0, 0⟩, ⟨R.SQ_HINJ_WORD, 0, 0⟩, ⟨R.SQ_HINJ_KIND, 0, 0⟩] := by
  rw [slotsAt_hinj]
  rfl

theorem rwSlots_linj : (slotsAt 0x60230).filter (fun x => x.f.acc == .rw) =
    [⟨R.SQ_LINJ_CH, 0, 0⟩, ⟨R.SQ_LINJ_KIND, 0, 0⟩, ⟨R.SQ_LINJ_COUNT, 0, 0⟩] := by
  rw [slotsAt_linj]
  rfl

/-- A write of SQ_SEED while Squall is unlocked loads the generators (R466). -/
theorem State.writeSqSeed_open {s : State} (h : s.squall.unlocked = true) (w tgt : Nat) :
    s.writeSqSeed w tgt = (s.wrSlots w [⟨R.SQ_SEED_SEED, 0, 0⟩]).loadGens := by
  unfold State.writeSqSeed
  rw [if_pos h, State.squallWrite_open h (by rw [slotsAt_seed]; decide), rwSlots_seed]

/-- GO arms the GUARDED injection where none is armed (R468). -/
theorem State.writeGinj_open {s : State} (h : s.squall.unlocked = true) (harmed : s.squall.gArmed = false) {w : Nat} (hgo : bit w 24 = true)
    (tgt : Nat) : s.writeGinj w tgt =
      { s.wrSlots w [⟨R.SQ_GINJ_CTL_CH, 0, 0⟩, ⟨R.SQ_GINJ_CTL_DFLIP, 0, 0⟩, ⟨R.SQ_GINJ_CTL_CFLIP, 0, 0⟩] with
        squall := { s.squall with gArmed := true } } := by
  unfold State.writeGinj
  rw [State.squallWrite_open_act h (by rw [slotsAt_ginj]; decide) hgo, rwSlots_ginj]
  exact (congrArg (fun r : State × Bool => r.1.busyIf r.2 0x60204 tgt) (if_neg (by simpa using harmed))).trans (State.busyIf_false ..)

/-- GO arms the SEALED injection where none is armed (R468). -/
theorem State.writeSinj_open {s : State} (h : s.squall.unlocked = true) (harmed : s.squall.sArmed = false) {w : Nat} (hgo : bit w 24 = true)
    (tgt : Nat) : s.writeSinj w tgt =
      { s.wrSlots w [⟨R.SQ_SINJ_CTL_INDEX, 0, 0⟩, ⟨R.SQ_SINJ_CTL_ANY, 0, 0⟩] with squall := { s.squall with sArmed := true } } := by
  unfold State.writeSinj
  rw [State.squallWrite_open_act h (by rw [slotsAt_sinj]; decide) hgo, rwSlots_sinj]
  exact (congrArg (fun r : State × Bool => r.1.busyIf r.2 0x60210 tgt) (if_neg (by simpa using harmed))).trans (State.busyIf_false ..)

/-- SQ_LINJ takes its fields for a channel with LINK_ECC (R468). -/
theorem State.writeLinj_open {s : State} (h : s.squall.unlocked = true) {w : Nat} (hoption : s.option (bits w 0 5) 0 = true) (tgt : Nat) :
    s.writeLinj w tgt = s.wrSlots w [⟨R.SQ_LINJ_CH, 0, 0⟩, ⟨R.SQ_LINJ_KIND, 0, 0⟩, ⟨R.SQ_LINJ_COUNT, 0, 0⟩] := by
  unfold State.writeLinj
  rw [if_neg (by simp [hoption]), State.squallWrite_open h (by rw [slotsAt_linj]; decide), rwSlots_linj]

/-! ### The tag injection (R468) -/

/-- The fields of HALO_INJECT. -/
def hinjSlots : List Slot := [⟨R.SQ_HINJ_GROUP, 0, 0⟩, ⟨R.SQ_HINJ_ENTRY, 0, 0⟩, ⟨R.SQ_HINJ_WORD, 0, 0⟩, ⟨R.SQ_HINJ_KIND, 0, 0⟩]

theorem State.writeHinj_open {s : State} (h : s.squall.unlocked = true) {w : Nat} (hgo : bit w 31 = true) (tgt : Nat) :
    s.writeHinj w tgt = (s.wrSlots w hinjSlots).haloGo := by
  unfold State.writeHinj
  rw [State.squallWrite_open_act h (by rw [slotsAt_hinj]; decide) hgo, rwSlots_hinj]
  exact State.busyIf_false ..

/-- KIND 1 flips the tag parity of a line that the entry holds. -/
theorem State.haloGo_tag {s : State} {g e : Nat} (hgroup : s.rd R.SQ_HINJ_GROUP = g) (hentry : s.rd R.SQ_HINJ_ENTRY = e)
    (hkind : s.rd R.SQ_HINJ_KIND = 1) (hg : g < s.G) (he : e < 76) (hvalid : (s.line g e).valid = true) :
    s.haloGo = (s.bump R.SQ_INJ_CNT_COUNT 0 0 1).setLine g e { s.line g e with tagErr := !(s.line g e).tagErr } := by
  unfold State.haloGo
  simp only [hgroup, hentry, hkind]
  rw [if_neg (by omega), if_neg (by simp [hvalid])]
  rfl

theorem State.setLine_line_other (s : State) {g e g' e' : Nat} (he : e < 128) (he' : e' < 128) (hne : (g', e') ≠ (g, e)) (x : Line) :
    (s.setLine g e x).line g' e' = s.line g' e' := by
  refine Tab.get_insert_ne (fun hkey => hne ?_) ..
  rw [Prod.mk.injEq]
  omega

end Sys2Proof.Machine

open Sys2Proof Sys2Proof.Machine

/-- Settles O27: KEY_A notes its cycle, and KEY_B is judged by it. -/
theorem squallUnlock : Obligations.SquallUnlock := by
  unfold Obligations.SquallUnlock
  intro s tgt c hopen hpermit hc
  refine ⟨?_, fun k hkey htime => ?_, fun k hkey htime => ?_⟩
  · refine ⟨_, (exec_squallKey_open hopen hc _ tgt).trans (congrArg _ (State.writeTestKey_a hpermit tgt)), ?_, rfl, rfl⟩
    simp [State.keyOf, State.setKey, Tab.find_insert_self, hc]
  · have hexec := (exec_squallKey_open hopen hc 0xACAE#32 tgt).trans (congrArg _ (State.writeTestKey_b hpermit hkey))
    rw [if_pos (by omega)] at hexec
    exact ⟨_, hexec, rfl, fun i hi => State.loadGens_find _ hi, rfl⟩
  · have hexec := (exec_squallKey_open hopen hc 0xACAE#32 tgt).trans (congrArg _ (State.writeTestKey_b hpermit hkey))
    rw [if_neg (by omega)] at hexec
    exact ⟨_, hexec, rfl, rfl⟩

/-- Settles O28: `State.squallWrite` refuses what a locked write carries, and writes plain fields otherwise. -/
theorem squallRegisters : Obligations.SquallRegisters := by
  unfold Obligations.SquallRegisters
  refine ⟨fun s i w tgt hopen hlock => ⟨?_, ?_⟩, fun s w tgt hopen hlock => ⟨?_, fun hg => ?_, fun hs => ?_, fun hoption => ?_⟩⟩
  · have hbusy {i : Instr} {a : Nat} (h : exec i s = .next (s.cfgBusy a tgt)) : ∃ t, exec i s = .next t ∧ t.squall = s.squall ∧
        t.lines = s.lines ∧ t.rd R.GLB_STATUS_CFG_BUSY = 1 ∧ t.rd R.SQ_SEED_SEED = s.rd R.SQ_SEED_SEED ∧
        t.rd R.SQ_LINJ_COUNT = s.rd R.SQ_LINJ_COUNT ∧
        t = { s with regs := t.regs, bitsNow := t.bitsNow, evts := t.evts, meas := t.meas } ∧ s.regsKept t busySlots :=
      ⟨_, h, s.cfgBusy_squallKept a tgt⟩
    rintro (hact | ⟨rfl, hseed⟩ | ⟨rfl, hlink⟩)
    · simp only [List.mem_cons, List.not_mem_nil, or_false] at hact
      rcases hact with rfl | rfl | rfl
      · exact hbusy ((exec_guardedInject_open hopen w tgt).trans (congrArg _ (State.squallWrite_locked_act hlock (bit_or_go w) _ _)))
      · exact hbusy ((exec_sealedInject_open hopen w tgt).trans (congrArg _ (State.squallWrite_locked_act hlock (bit_or_go w) _ _)))
      · exact hbusy ((exec_haloInject_open hopen w tgt).trans (congrArg _ (State.squallWrite_locked_act hlock (bit_or_go31 w) _ _)))
    · refine hbusy (a := 0x60008) ((exec_squallSeed_open hopen w tgt).trans (congrArg _ ?_))
      rw [State.writeSqSeed_locked hlock, bne_iff_ne.mpr hseed]
      rfl
    · refine hbusy (a := 0x60230) ((exec_linkInject_open hopen w tgt).trans (congrArg _ ?_))
      have hcarries : (bits w.toNat 0 5 != s.rd R.SQ_LINJ_CH || (bits w.toNat 8 2 != s.rd R.SQ_LINJ_KIND ||
          bits w.toNat 16 8 != s.rd R.SQ_LINJ_COUNT)) = true := by
        simpa only [Bool.or_eq_true, bne_iff_ne, ne_eq, not_and_or] using hlink
      rw [State.writeLinj_locked hlock, hcarries]
      rfl
  · rintro (⟨rfl, hseed⟩ | ⟨rfl, hch, hkind, hcount⟩)
    · rw [exec_squallSeed_open hopen, State.writeSqSeed_locked hlock, hseed, bne_self_eq_false]
      rfl
    · rw [exec_linkInject_open hopen, State.writeLinj_locked hlock, hch, hkind, hcount]
      simp
  · rw [exec_squallSeed_open hopen, State.writeSqSeed_open hlock]
    have hseed : (s.wrSlots w.toNat [⟨R.SQ_SEED_SEED, 0, 0⟩]).rd R.SQ_SEED_SEED = bits w.toNat 0 15 :=
      s.wrSlots_rd w.toNat (xs := [⟨R.SQ_SEED_SEED, 0, 0⟩]) (x := ⟨R.SQ_SEED_SEED, 0, 0⟩) (by decide) List.mem_cons_self
    refine ⟨_, rfl, hseed, fun i hi => ?_, ?_, s.wrSlots_regsKept _ _⟩
    · rw [State.loadGens_find _ hi, hseed]
      rfl
    · unfold State.loadGens
      rw [State.wrSlots_eq]
  · rw [exec_guardedInject_open hopen, State.writeGinj_open hlock hg (bit_or_go w)]
    have hrd := fun x hx => s.wrSlots_rd (w ||| 0x1000000).toNat (x := x)
      (xs := [⟨R.SQ_GINJ_CTL_CH, 0, 0⟩, ⟨R.SQ_GINJ_CTL_DFLIP, 0, 0⟩, ⟨R.SQ_GINJ_CTL_CFLIP, 0, 0⟩]) (by decide) hx
    refine ⟨_, rfl, rfl, ?_, ?_, ?_, ?_, s.wrSlots_regsKept _ _⟩
    · exact (hrd ⟨R.SQ_GINJ_CTL_CH, 0, 0⟩ (by decide)).trans (bits_or_of_clear w _ (by decide))
    · exact (hrd ⟨R.SQ_GINJ_CTL_DFLIP, 0, 0⟩ (by decide)).trans (bits_or_of_clear w _ (by decide))
    · exact (hrd ⟨R.SQ_GINJ_CTL_CFLIP, 0, 0⟩ (by decide)).trans (bits_or_of_clear w _ (by decide))
    · rw [State.wrSlots_eq]
  · rw [exec_sealedInject_open hopen, State.writeSinj_open hlock hs (bit_or_go w)]
    have hrd := fun x hx => s.wrSlots_rd (w ||| 0x1000000).toNat (x := x)
      (xs := [⟨R.SQ_SINJ_CTL_INDEX, 0, 0⟩, ⟨R.SQ_SINJ_CTL_ANY, 0, 0⟩]) (by decide) hx
    refine ⟨_, rfl, rfl, ?_, ?_, ?_, s.wrSlots_regsKept _ _⟩
    · exact (hrd ⟨R.SQ_SINJ_CTL_INDEX, 0, 0⟩ (by decide)).trans (bits_or_of_clear w _ (by decide))
    · exact (hrd ⟨R.SQ_SINJ_CTL_ANY, 0, 0⟩ (by decide)).trans (bits_or_of_clear w _ (by decide))
    · rw [State.wrSlots_eq]
  · rw [exec_linkInject_open hopen, State.writeLinj_open hlock hoption]
    have hrd := fun x hx => s.wrSlots_rd w.toNat (x := x)
      (xs := [⟨R.SQ_LINJ_CH, 0, 0⟩, ⟨R.SQ_LINJ_KIND, 0, 0⟩, ⟨R.SQ_LINJ_COUNT, 0, 0⟩]) (by decide) hx
    exact ⟨_, rfl, hrd ⟨R.SQ_LINJ_CH, 0, 0⟩ (by decide), hrd ⟨R.SQ_LINJ_KIND, 0, 0⟩ (by decide), hrd ⟨R.SQ_LINJ_COUNT, 0, 0⟩ (by decide),
      State.wrSlots_eq .., s.wrSlots_regsKept _ _⟩

/-- Settles O29: the write names the line, and GO flips its parity. -/
theorem haloInject : Obligations.HaloInject := by
  unfold Obligations.HaloInject
  intro s w tgt hopen hlock hkind hg he hvalid
  have hrd (x : Slot) (hx : x ∈ hinjSlots) (hclear : bits (BitVec.toNat (0x80000000 : Word)) x.f.lsb x.f.width = 0) :
      (s.wrSlots (w ||| 0x80000000).toNat hinjSlots).rd x.f x.i x.j = bits w.toNat x.f.lsb x.f.width :=
    (s.wrSlots_rd _ (by decide) hx).trans (bits_or_of_clear w _ hclear)
  have hframe := s.wrSlots_eq (w ||| 0x80000000).toNat hinjSlots
  have hkept := s.wrSlots_regsKept (w ||| 0x80000000).toNat hinjSlots
  have hgroup : (s.wrSlots (w ||| 0x80000000).toNat hinjSlots).rd R.SQ_HINJ_GROUP = bits w.toNat 0 3 :=
    hrd ⟨R.SQ_HINJ_GROUP, 0, 0⟩ (by decide) (by decide)
  have hentry : (s.wrSlots (w ||| 0x80000000).toNat hinjSlots).rd R.SQ_HINJ_ENTRY = bits w.toNat 4 7 :=
    hrd ⟨R.SQ_HINJ_ENTRY, 0, 0⟩ (by decide) (by decide)
  have hkind' : (s.wrSlots (w ||| 0x80000000).toNat hinjSlots).rd R.SQ_HINJ_KIND = bits w.toNat 21 2 :=
    hrd ⟨R.SQ_HINJ_KIND, 0, 0⟩ (by decide) (by decide)
  rw [exec_haloInject_open hopen, State.writeHinj_open hlock (bit_or_go31 w)]
  generalize s.wrSlots (w ||| 0x80000000).toNat hinjSlots = u at *
  have hline (g e : Nat) : u.line g e = s.line g e := by rw [hframe]; rfl
  have hcount : u.rd R.SQ_INJ_CNT_COUNT = s.rd R.SQ_INJ_CNT_COUNT := by
    have hix : ∀ x ∈ hinjSlots, x.f.ix ≠ R.SQ_INJ_CNT_COUNT.ix := by decide
    exact hkept _ _ _ fun x hx => Fld.key_ne (hix x hx) _ _ _ _
  have hgo := State.haloGo_tag (s := u) hgroup hentry (hkind'.trans hkind) (by rw [hframe]; exact hg) he (by rw [hline]; exact hvalid)
  refine ⟨_, congrArg _ hgo, ?_, fun g e he' hne => ?_, ?_, ?_, ?_⟩
  · rw [← hline]
    exact Tab.get_insert_self ..
  · rw [State.setLine_line_other _ (by omega) he' hne]
    exact hline g e
  · rw [← hcount]
    exact State.bump_rd_self ..
  · rw [hframe]
    rfl
  · exact State.regsKept_trans hkept (State.bump_regsKept u R.SQ_INJ_CNT_COUNT 0 0 1)

end

section
/-! Register writes with actions, and the REARM bits. -/

namespace Sys2Proof.Machine
open Sys2Proof

/-! ### What the fields of a write keep -/

/-- A Tick-class field keeps every register as it is. -/
theorem applySlot_regs_tick (s0 : State) (w : Nat) (sb : State × Bool) {x : Slot} (h : x.f.cls = .tick) :
    (applySlot s0 w sb x).1.regs = sb.1.regs ∧ (applySlot s0 w sb x).1.build = sb.1.build := by
  unfold applySlot
  dsimp only
  split
  · exact ⟨rfl, rfl⟩
  · rw [h]
    dsimp only
    split
    · exact ⟨rfl, rfl⟩
    · exact ⟨rfl, rfl⟩

theorem applySlot_regsKept (s0 : State) (w : Nat) (sb : State × Bool) (x : Slot) : sb.1.regsKept (applySlot s0 w sb x).1 [x] := by
  have hwr (v : Nat) : sb.1.regsKept (sb.1.wr x.f x.i x.j v) [x] := State.wr_regsKept sb.1 x.f x.i x.j v
  have hself := State.regsKept_refl sb.1 [x]
  unfold applySlot
  dsimp only
  split
  · exact hself
  · split
    · split
      · exact State.regsKept_of_regs rfl rfl _
      · exact hself
    · split
      · exact hself
      · split
        · exact hwr _
        · exact hself
    · split
      · exact hwr _
      · exact hself
    · exact hself

/-- A write changes the registers of its own fields only, and of those the Tick-class ones wait. -/
theorem applySlots_regsKept (s : State) (w : Nat) (xs : List Slot) :
    s.regsKept (applySlots s w xs).1 (xs.filter fun x => x.f.cls != .tick) := by
  unfold applySlots
  suffices hgen : ∀ sb : State × Bool, sb.1.regsKept (xs.foldl (applySlot s w) sb).1 (xs.filter fun x => x.f.cls != .tick) from hgen (s, false)
  induction xs with
  | nil => exact fun sb => State.regsKept_refl sb.1 _
  | cons x xs ih =>
    intro sb
    by_cases htick : x.f.cls = .tick
    · obtain ⟨hregs, hbuild⟩ := applySlot_regs_tick s w sb htick
      rw [List.foldl_cons, List.filter_cons, if_neg (by simp [htick])]
      exact State.regsKept_trans (State.regsKept_of_regs hregs hbuild []) (ih _)
    · rw [List.foldl_cons, List.filter_cons, if_pos (by simpa using htick)]
      exact State.regsKept_trans (applySlot_regsKept s w sb x) (ih _)

theorem State.busyIf_regsKept (s : State) (b : Bool) (a tgt : Nat) : s.regsKept (s.busyIf b a tgt) busySlots := by
  cases b with
  | false => exact State.regsKept_refl s _
  | true => exact s.cfgBusy_regsKept a tgt

theorem State.busyIf_rd (s : State) (b : Bool) (a tgt : Nat) {f : Fld} (h : f.ix ≠ 525 ∧ f.ix ≠ 526 ∧ f.ix ≠ 527 ∧ f.ix ≠ 528 ∧ f.ix ≠ 529) (i j : Nat) :
    (s.busyIf b a tgt).rd f i j = s.rd f i j := by
  cases b with
  | false => rfl
  | true => exact s.cfgBusy_rd a tgt h i j

theorem State.busyIf_eq (s : State) (b : Bool) (a tgt : Nat) : s.busyIf b a tgt = { s with
    regs := (s.busyIf b a tgt).regs, bitsNow := (s.busyIf b a tgt).bitsNow, evts := (s.busyIf b a tgt).evts, meas := (s.busyIf b a tgt).meas } := by
  cases b with
  | false => rfl
  | true => exact s.cfgBusy_eq a tgt

/-! ### REARM -/

/-- An action that the word does not ask for is skipped. -/
theorem runActs_skip {w n : Nat} (h : bit w n = false) (act : Act) (acts : List (Nat × Act)) (sb : State × Bool) :
    runActs w ((n, act) :: acts) sb = runActs w acts sb := by
  unfold runActs
  rw [List.foldl_cons, if_neg (by simp [h])]

/-- The action that the word asks for is done. -/
theorem runActs_take {w n : Nat} (h : bit w n = true) (act : Act) (acts : List (Nat × Act)) (sb : State × Bool) :
    runActs w ((n, act) :: acts) sb = runActs w acts ((act sb.1).1, sb.2 || (act sb.1).2) := by
  unfold runActs
  rw [List.foldl_cons, if_pos h]

/-- The state after a register write whose only action clears the field `f` of a unit. -/
def State.rearmed (s : State) (xs : List Slot) (f : Fld) (i j a w tgt : Nat) : State :=
  ((applySlots s w xs).1.wr f i j 0).busyIf (applySlots s w xs).2 a tgt

/-- What a REARM bit leaves (R145, R238, R277, R359, R383). -/
def State.frees (s t : State) (l : List Slot) (f : Fld) (i j : Nat) : Prop :=
  t.rd f i j = 0 ∧ t = { s with regs := t.regs, bitsNow := t.bitsNow, now := t.now, evts := t.evts, meas := t.meas } ∧
    s.regsKept t (⟨f, i, j⟩ :: l ++ busySlots)

theorem State.rearmed_frees (s : State) (xs : List Slot) {f : Fld} (hf : f.ix ≠ 525 ∧ f.ix ≠ 526 ∧ f.ix ≠ 527 ∧ f.ix ≠ 528 ∧ f.ix ≠ 529)
    (i j a w tgt : Nat) : s.frees (s.rearmed xs f i j a w tgt) (xs.filter fun x => x.f.cls != .tick) f i j := by
  unfold State.rearmed State.frees
  refine ⟨?_, ?_, ?_⟩
  · rw [State.busyIf_rd _ _ _ _ hf, State.wr_rd_self]
    exact Nat.zero_mod _
  · obtain ⟨r, n, h⟩ := applySlots_eq s w xs
    rw [h, State.busyIf_eq]
    rfl
  · refine State.regsKept_mono (State.regsKept_trans (State.regsKept_trans (applySlots_regsKept s w xs) (State.wr_regsKept _ f i j 0))
      (State.busyIf_regsKept _ _ a tgt)) fun x hx => ?_
    simp only [List.mem_append, List.mem_cons, List.not_mem_nil, or_false] at hx ⊢
    tauto

/-- A write of several fields whose only action asked for is REARM. -/
theorem State.writeReg_rearm (s : State) (xs : List Slot) {w n : Nat} (hrearm : bit w n = true) (f : Fld) (i j a tgt : Nat) :
    s.writeReg xs [(n, fun s => (s.wr f i j 0, false))] a w tgt = s.rearmed xs f i j a w tgt := by
  unfold State.writeReg State.rearmed
  rw [runActs_take hrearm]
  simp only [runActs, List.foldl_nil, Bool.or_false]

/-- Bit `n` of a word with bit `n` set, and another that the field `[l + k - 1 : l]` being 0 clears. -/
theorem bit_or_self (w m : Word) {n : Nat} (h : bit m.toNat n = true) : bit (w ||| m).toNat n = true := by
  rw [BitVec.toNat_or, bit_or, h, Bool.or_true]

theorem bit_or_clear_of_bits (w m : Word) {l k n : Nat} (hw : bits w.toNat l k = 0) (hn : n < k) (hm : bit m.toNat (l + n) = false) :
    bit (w ||| m).toNat (l + n) = false := by
  have hbit := bit_bits w.toNat l k n
  rw [hw] at hbit
  have hzero : bit 0 n = false := by simp [bit]
  rw [hzero] at hbit
  rw [BitVec.toNat_or, bit_or, hm, Bool.or_false]
  simpa [hn] using hbit.symm

theorem exec_haloRearm_open {s : State} (h : s.portOpen) {g : Nat} (hg : g < s.G) (w : Word) (tgt : Nat) :
    exec (.haloRearm g w tgt) s = .next (s.rearmed (haloCtlSlots g) R.HALO_ERR_FIRST_VALID g 0 (grpAddr g 0x1000) (w ||| 32).toNat tgt) := by
  refine congrArg Host.Outcome.next ((State.regAccess_open h ..).trans ?_)
  rw [State.writeHaloCtl, if_neg (by omega), State.writeReg_rearm _ _ (bit_or_self w 32 (by decide))]

theorem exec_cirRearm_open {s : State} (h : s.portOpen) (w : Word) (tgt : Nat) :
    exec (.cirRearm w tgt) s = .next (s.rearmed [⟨R.CIR_CTL_RETRY_EN, 0, 0⟩, ⟨R.CIR_CTL_MARK_POISON, 0, 0⟩] R.CIR_FAIL_FIRST_A_VALID 0 0 0x23000
      (w ||| 4).toNat tgt) := by
  refine congrArg Host.Outcome.next ((State.regAccess_open h ..).trans ?_)
  rw [State.writeCirCtl, State.writeReg_rearm _ _ (bit_or_self w 4 (by decide))]

theorem exec_violRearm_open {s : State} (h : s.portOpen) {p : Nat} (hp : p < 8 * s.G) {w : Word} (hw : bits w.toNat 0 2 = 0) (tgt : Nat) :
    exec (.violRearm p w tgt) s = .next (s.rearmed [⟨R.PORT_CTL_KEEP_HOLDS, p / 8, p % 8⟩] R.PORT_VIOL_FIRST_VALID (p / 8) (p % 8) (portAddr p 0)
      (w ||| 4).toNat tgt) := by
  refine congrArg Host.Outcome.next ((State.regAccess_open h ..).trans ?_)
  have h0 : bit (w ||| 4).toNat 0 = false := bit_or_clear_of_bits w 4 (l := 0) (n := 0) hw (by omega) (by decide)
  have h1 : bit (w ||| 4).toNat 1 = false := bit_or_clear_of_bits w 4 (l := 0) (n := 1) hw (by omega) (by decide)
  rw [State.writePortCtl, if_neg (by omega), State.writeReg, runActs_skip h0, runActs_skip h1]
  exact State.writeReg_rearm s _ (bit_or_self w 4 (by decide)) ..

theorem exec_phyRearm_open {s : State} (h : s.portOpen) {ch : Nat} (hch : ch < s.C) {w : Word} (hw : bits w.toNat 0 3 = 0) (tgt : Nat) :
    exec (.phyRearm ch w tgt) s = .next (s.rearmed [⟨R.PHY_CTL_AUTO_EVAC, ch, 0⟩, ⟨R.PHY_CTL_TRAIN_RETRY, ch, 0⟩] R.PHY_FAIL_VALID ch 0
      (chAddr ch 0x1000) (w ||| 16).toNat tgt) := by
  refine congrArg Host.Outcome.next ((State.regAccess_open h ..).trans ?_)
  have h0 : bit (w ||| 16).toNat 0 = false := bit_or_clear_of_bits w 16 (l := 0) (n := 0) hw (by omega) (by decide)
  have h1 : bit (w ||| 16).toNat 1 = false := bit_or_clear_of_bits w 16 (l := 0) (n := 1) hw (by omega) (by decide)
  have h2 : bit (w ||| 16).toNat 2 = false := bit_or_clear_of_bits w 16 (l := 0) (n := 2) hw (by omega) (by decide)
  rw [State.writePhyCtl, if_neg (by omega), State.writeReg, runActs_skip h0, runActs_skip h1, runActs_skip h2]
  exact State.writeReg_rearm s _ (bit_or_self w 16 (by decide)) ..

theorem exec_feRearm_open {s : State} (h : s.portOpen) {ch : Nat} (hch : ch < s.C) (w : Word) (tgt : Nat) :
    exec (.feRearm ch w tgt) s = .next (s.wr R.FE_ERR_FIRST_B_VALID ch 0 0) := by
  refine congrArg Host.Outcome.next ((State.regAccess_open h ..).trans ?_)
  rw [State.writeFeCtl, if_neg (by rw [bit_or_self w 1 (by decide)]; simpa using hch)]

theorem exec_intRearm_open {s : State} (h : s.portOpen) (w : Word) (tgt : Nat) :
    exec (.intRearm w tgt) s = .next (s.rearmed [⟨R.INT_CTL_LOG_CE, 0, 0⟩, ⟨R.INT_CTL_REMAP_AUTO, 0, 0⟩, ⟨R.INT_CTL_REMAP_UE, 0, 0⟩,
      ⟨R.INT_CTL_PPR_CAND_EN, 0, 0⟩, ⟨R.INT_CTL_REMAP_CE_THRESH, 0, 0⟩] R.INT_ERR_FIRST_VALID 0 0 0x50000 (w ||| 16).toNat tgt) := by
  refine congrArg Host.Outcome.next ((State.regAccess_open h ..).trans ?_)
  rw [State.writeIntCtl, State.writeReg_rearm _ _ (bit_or_self w 16 (by decide))]

end Sys2Proof.Machine

open Sys2Proof Sys2Proof.Machine

/-- Settles O48: a REARM bit clears VALID after the fields of its register, of which only KEEP_HOLDS takes its value at once. -/
theorem rearms : Obligations.Rearms := by
  unfold Obligations.Rearms
  intro s w tgt hopen frees
  refine ⟨fun g hg => ?_, ?_, fun p hp hw => ?_, fun ch hch hw => ?_, fun ch hch => ?_, ?_⟩
  · exact ⟨_, exec_haloRearm_open hopen hg w tgt, State.rearmed_frees s (haloCtlSlots g) (by decide) ..⟩
  · exact ⟨_, exec_cirRearm_open hopen w tgt, State.rearmed_frees s _ (by decide) ..⟩
  · exact ⟨_, exec_violRearm_open hopen hp hw tgt, State.rearmed_frees s _ (by decide) ..⟩
  · exact ⟨_, exec_phyRearm_open hopen hch hw tgt, State.rearmed_frees s _ (by decide) ..⟩
  · exact ⟨_, exec_feRearm_open hopen hch w tgt, State.wr_rd_self .., rfl,
      State.regsKept_mono (State.wr_regsKept s R.FE_ERR_FIRST_B_VALID ch 0 0) (by simp)⟩
  · exact ⟨_, exec_intRearm_open hopen w tgt, State.rearmed_frees s _ (by decide) ..⟩

end

section
/-! The image loader: START and ABORT, the words of an image, the end of CHECKING and the verdict. -/

namespace Sys2Proof.Machine
open Sys2Proof

/-- A write of a listed field leaves the others. -/
theorem State.regsKept_wr {s t : State} {l : List Slot} (h : s.regsKept t l) {f : Fld} {i j : Nat} (hmem : (⟨f, i, j⟩ : Slot) ∈ l) (v : Nat) :
    s.regsKept (t.wr f i j v) l :=
  State.regsKept_mono (State.regsKept_trans h (State.wr_regsKept t f i j v)) fun _ hx => (List.mem_append.1 hx).elim id fun hx =>
    List.mem_singleton.1 hx ▸ hmem

/-- So does the setting of a listed bit. -/
theorem State.regsKept_setBit {s t : State} {l : List Slot} (h : s.regsKept t l) {f : Fld} {i j : Nat} (hmem : (⟨f, i, j⟩ : Slot) ∈ l) :
    s.regsKept (t.setBit f i j) l :=
  State.regsKept_congr (State.regsKept_wr h hmem 1) rfl rfl

/-! ### The end of a load (R92, R96) -/

/-- The end of a load before its status bit: the loader is idle and the result and its place stand. -/
def State.imgNoted (s : State) (e : ImgErr) : State :=
  let s := { s with loader := { st := 0, tgt := s.loader.tgt } }
  let s := ((s.wr R.IMG_STATUS_RESULT 0 0 e.code).wr R.IMG_ERR_OFFSET_OFFSET 0 0 e.off).wr R.IMG_ERR_DETAIL_REC_TYPE 0 0 e.recType
  let s := ((s.wr R.IMG_ERR_DETAIL_FIELD 0 0 e.field).wr R.IMG_ERR_DETAIL_WINDOW 0 0 e.window).wr R.IMG_ERR_DETAIL_CHANNEL 0 0 e.channel
  s.wr R.IMG_ERR_DETAIL_DOMAIN 0 0 e.domain

theorem State.imgNoted_eq (s : State) (e : ImgErr) :
    s.imgNoted e = { s with loader := { st := 0, tgt := s.loader.tgt }, regs := (s.imgNoted e).regs } := rfl

theorem State.imgNoted_rd_result (s : State) (e : ImgErr) : (s.imgNoted e).rd R.IMG_STATUS_RESULT = e.code % 2 ^ 8 := by
  unfold State.imgNoted
  dsimp only
  rw [State.wr_rd_ne _ (by decide), State.wr_rd_ne _ (by decide), State.wr_rd_ne _ (by decide), State.wr_rd_ne _ (by decide),
    State.wr_rd_ne _ (by decide), State.wr_rd_ne _ (by decide), State.wr_rd_self]
  rfl

theorem State.imgNoted_regsKept (s : State) (e : ImgErr) : s.regsKept (s.imgNoted e) imgEndSlots := by
  unfold State.imgNoted
  repeat refine State.regsKept_wr ?_ (by simp [imgEndSlots]) _
  exact State.regsKept_of_regs rfl rfl _

theorem State.imgEnd_failed (s : State) {e : ImgErr} (h : e.code ≠ 0) :
    s.imgEnd e = ((s.imgNoted e).setBit R.IMG_STATUS_IMG_FAIL 0 0).raisePriv s.loader.tgt 3 := if_neg h

theorem State.imgEnd_done (s : State) {e : ImgErr} (h : e.code = 0) :
    s.imgEnd e = (((s.imgNoted e).setBit R.IMG_STATUS_IMG_DONE 0 0).raisePriv s.loader.tgt 2).count { ev := 0x006 } := if_pos h

theorem State.imgEnd_st (s : State) (e : ImgErr) : (s.imgEnd e).loader.st = 0 := by
  unfold State.imgEnd
  dsimp only
  split <;> rfl

theorem State.imgEnd_rd_result (s : State) {e : ImgErr} (h : e.code ≠ 0) : (s.imgEnd e).rd R.IMG_STATUS_RESULT = e.code % 2 ^ 8 := by
  rw [State.imgEnd_failed s h]
  exact (State.setBit_rd_ne _ (by decide) 0 0 0 0).trans (State.imgNoted_rd_result s e)

theorem State.imgEnd_rd_fail (s : State) {e : ImgErr} (h : e.code ≠ 0) : (s.imgEnd e).rd R.IMG_STATUS_IMG_FAIL = 1 := by
  rw [State.imgEnd_failed s h]
  change ((s.imgNoted e).setBit R.IMG_STATUS_IMG_FAIL 0 0).rd R.IMG_STATUS_IMG_FAIL = 1
  rw [State.setBit_rd_self]
  rfl

theorem State.imgEnd_eq (s : State) {e : ImgErr} (h : e.code ≠ 0) : s.imgEnd e = { s with
    loader := (s.imgEnd e).loader, regs := (s.imgEnd e).regs, bitsNow := (s.imgEnd e).bitsNow, evts := (s.imgEnd e).evts } := by
  rw [State.imgEnd_failed s h, State.imgNoted_eq]
  generalize (s.imgNoted e).regs = r
  rfl

theorem State.imgEnd_regsKept (s : State) {e : ImgErr} (h : e.code ≠ 0) : s.regsKept (s.imgEnd e) imgEndSlots := by
  rw [State.imgEnd_failed s h]
  exact State.regsKept_congr (State.regsKept_setBit (s.imgNoted_regsKept e) (f := R.IMG_STATUS_IMG_FAIL) (i := 0) (j := 0) (by simp [imgEndSlots])) rfl rfl

theorem State.imgEnd_pending (s : State) {e : ImgErr} (h : e.code ≠ 0) :
    bit ((s.imgEnd e).evt (24 + s.loader.tgt % 8)).pending 3 = true := by
  rw [State.imgEnd_failed s h, State.raisePriv, State.raise_evt_pending, bit_or, bit_two_pow]
  simp

theorem State.imgEnd_conf (s : State) (e : ImgErr) : (s.imgEnd e).conf = s.conf := by
  by_cases h : e.code = 0
  · rw [State.imgEnd_done s h, State.imgNoted_eq]
    rfl
  · rw [State.imgEnd_failed s h, State.imgNoted_eq]
    rfl

/-- The end of a load that failed from a state `u` that differs from `s` in the loader and the registers `l` only: it is `s` but for the loader, the
registers and the event. -/
theorem State.imgEnd_failed_from {s u : State} {e : ImgErr} (h : e.code ≠ 0) (hu : u = { s with loader := u.loader, regs := u.regs }) {l : List Slot}
    (hkept : s.regsKept u l) :
    u.imgEnd e = { s with loader := (u.imgEnd e).loader, regs := (u.imgEnd e).regs, bitsNow := (u.imgEnd e).bitsNow, evts := (u.imgEnd e).evts } ∧
      s.regsKept (u.imgEnd e) (l ++ imgEndSlots) := by
  refine ⟨?_, State.regsKept_trans hkept (u.imgEnd_regsKept h)⟩
  refine (u.imgEnd_eq h).trans ?_
  rw [hu]

/-! ### IMG_CTL (R92, R93) -/

theorem exec_imgStart_open {s : State} (h : s.portOpen) (w : Word) (tgt : Nat) :
    exec (.imgStart w tgt) s = .next (s.writeImgCtl (w ||| 0x10).toNat tgt) := congrArg Host.Outcome.next (State.regAccess_open h ..)

theorem exec_imgAbort_open {s : State} (h : s.portOpen) (w : Word) (tgt : Nat) :
    exec (.imgAbort w tgt) s = .next (s.writeImgCtl (w ||| 0x20).toNat tgt) := congrArg Host.Outcome.next (State.regAccess_open h ..)

theorem exec_imgFifoWord_open {s : State} (h : s.portOpen) (w : Word) (tgt : Nat) :
    exec (.imgFifoWord w tgt) s = .next (s.writeImgFifo w tgt) := congrArg Host.Outcome.next (State.regAccess_open h ..)

/-- START alone, with SRC as it stands. -/
theorem State.writeImgCtl_start (s : State) {w : Nat} (hsrc : bits w 0 1 = s.rd R.IMG_CTL_SRC) (hstart : bit w 4 = true) (habort : bit w 5 = false)
    (tgt : Nat) : s.writeImgCtl w tgt = (s.imgGo tgt).1.busyIf (s.imgGo tgt).2 0x400 tgt := by
  simp only [State.writeImgCtl, State.imgSrc, habort, hstart, hsrc, Bool.false_eq_true, ↓reduceIte, Bool.false_or]

/-- ABORT alone, with SRC as it stands. -/
theorem State.writeImgCtl_abort (s : State) {w : Nat} (hsrc : bits w 0 1 = s.imgAbort.1.rd R.IMG_CTL_SRC) (hstart : bit w 4 = false)
    (habort : bit w 5 = true) (tgt : Nat) : s.writeImgCtl w tgt = s.imgAbort.1 := by
  simp only [State.writeImgCtl, State.imgSrc, habort, hstart, hsrc, Bool.false_eq_true, ↓reduceIte, Bool.or_false, State.busyIf_false]

theorem bit_or_other {w m : Word} {n : Nat} (h : bit m.toNat n = false) : bit (w ||| m).toNat n = bit w.toNat n := by
  rw [BitVec.toNat_or, bit_or, h, Bool.or_false]

/-! ### The words of an image (R91, R92, R96) -/

/-- The header, as the first eight words received with `w` give it. -/
def State.imgHeader (s : State) (w : Word) : List Nat := wordBytes ((w :: s.loader.words).drop ((w :: s.loader.words).length - 8)).reverse

/-- What is wrong with the header that `w` completes. -/
def State.imgBad (s : State) (w : Word) : Option ImgErr :=
  if (w :: s.loader.words).length = 8 then headerError s.build s.conf.isSome (s.imgHeader w) else none

/-- `w` completes the length the header gives. -/
def State.imgWhole (s : State) (w : Word) : Bool :=
  decide (4 * (w :: s.loader.words).length = fieldAt (s.imgHeader w) 12 4 + fieldAt (s.imgHeader w) 10 2)

/-- The state with `w` received and counted. -/
def State.withWord (s : State) (w : Word) : State :=
  (s.setLoader { s.loader with words := w :: s.loader.words }).wr R.IMG_BYTES_BYTES 0 0 (4 * (w :: s.loader.words).length)

theorem State.withWord_eq (s : State) (w : Word) :
    s.withWord w = { s with loader := (s.withWord w).loader, regs := (s.withWord w).regs } := rfl

theorem State.withWord_regsKept (s : State) (w : Word) : s.regsKept (s.withWord w) [⟨R.IMG_BYTES_BYTES, 0, 0⟩] :=
  State.wr_regsKept (s.setLoader _) R.IMG_BYTES_BYTES 0 0 _

theorem State.withWord_rd (s : State) {w : Word} (h : (w :: s.loader.words).length ≤ 2 ^ 24) :
    (s.withWord w).rd R.IMG_BYTES_BYTES = 4 * (w :: s.loader.words).length := by
  refine (State.wr_rd_self _ R.IMG_BYTES_BYTES 0 0 _).trans (Nat.mod_eq_of_lt ?_)
  change _ < 2 ^ 32
  omega

theorem State.takeWord_late {s : State} {e : ImgErr} (h : s.loader.hdrErr = some e) (w : Word) (last : Option Bool) :
    s.takeWord w last = if last.getD false then (s.wr R.IMG_BYTES_BYTES 0 0 ((s.rd R.IMG_BYTES_BYTES + 4) % 2 ^ 32)).imgEnd e
      else s.wr R.IMG_BYTES_BYTES 0 0 ((s.rd R.IMG_BYTES_BYTES + 4) % 2 ^ 32) := by
  simp only [State.takeWord, h]

/-- A word that comes while no header has failed. -/
theorem State.takeWord_fresh {s : State} (h : s.loader.hdrErr = none) (w : Word) (last : Option Bool) :
    s.takeWord w last =
      if (w :: s.loader.words).length < 8 then (if last.getD false then (s.withWord w).imgEnd { code := 0x05, off := 0xC } else s.withWord w)
      else match s.imgBad w with
        | some e => if last.isNone || last.getD false then (s.withWord w).imgEnd e
          else (s.withWord w).setLoader { (s.withWord w).loader with hdrErr := some e }
        | none => if last.getD false then (s.withWord w).setLoader { (s.withWord w).loader with st := 2, lastBad := !s.imgWhole w }
          else if s.imgWhole w then (s.withWord w).setLoader { (s.withWord w).loader with st := 2, lastBad := !last.isNone }
          else s.withWord w := by
  unfold State.takeWord
  dsimp only
  split
  · next e he => cases h.symm.trans he
  · rfl

theorem State.imgBad_length {s : State} {w : Word} {e : ImgErr} (h : s.imgBad w = some e) : (w :: s.loader.words).length = 8 := by
  unfold State.imgBad at h
  split at h
  · assumption
  · cases h

theorem State.takeWord_bad {s : State} (h : s.loader.hdrErr = none) {w : Word} {e : ImgErr} (hbad : s.imgBad w = some e) (last : Option Bool) :
    s.takeWord w last = if last.isNone || last.getD false then (s.withWord w).imgEnd e
      else (s.withWord w).setLoader { (s.withWord w).loader with hdrErr := some e } := by
  rw [State.takeWord_fresh h, State.imgBad_length hbad, if_neg (by omega), hbad]

theorem State.takeWord_good {s : State} (h : s.loader.hdrErr = none) {w : Word} (hgood : s.imgBad w = none) (hlen : 8 ≤ (w :: s.loader.words).length)
    (last : Option Bool) :
    s.takeWord w last =
      if last.getD false then (s.withWord w).setLoader { (s.withWord w).loader with st := 2, lastBad := !s.imgWhole w }
      else if s.imgWhole w then (s.withWord w).setLoader { (s.withWord w).loader with st := 2, lastBad := !last.isNone }
      else s.withWord w := by
  rw [State.takeWord_fresh h, if_neg (by omega), hgood]

theorem State.takeWord_short {s : State} (h : s.loader.hdrErr = none) {w : Word} (hlen : (w :: s.loader.words).length < 8) (last : Option Bool) :
    s.takeWord w last = if last.getD false then (s.withWord w).imgEnd { code := 0x05, off := 0xC } else s.withWord w := by
  rw [State.takeWord_fresh h, if_pos hlen]

theorem exec_imgStreamWord_run {s : State} (hcclk : s.cclkRuns = true) (hst : s.loader.st = 1) (hsrc : s.rd R.IMG_CTL_SRC = 1) (w : Word) (last : Bool) :
    exec (.imgStreamWord w last) s = .next (s.takeWord w (some last)) := by
  refine if_neg ?_
  simp [hcclk, hst, hsrc]

theorem exec_imgFifoWord_run {s : State} (hopen : s.portOpen) (hst : s.loader.st = 1) (hsrc : s.rd R.IMG_CTL_SRC = 0) (w : Word) (tgt : Nat) :
    exec (.imgFifoWord w tgt) s = .next (s.takeWord w none) := by
  rw [exec_imgFifoWord_open hopen, State.writeImgFifo, if_neg (by simp [hst, hsrc])]

/-! ### The end of CHECKING (R92, R96) -/

theorem exec_imgCheckDone_run {s : State} (hcclk : s.cclkRuns = true) (hst : s.loader.st = 2) :
    exec .imgCheckDone s =
      let l := s.loader.bytes
      let len := fieldAt l 12 4
      let r := readImage s.build s.conf l
      let v := s.wr R.IMG_SKIPPED_COUNT 0 0 (min r.1.skipped 0xFFFF)
      if s.loader.lastBad ∨ l.length ≠ len + fieldAt l 10 2 then .next (v.imgEnd { code := 0x05, off := 0xC })
      else if imageCrc (l.take len) ≠ fieldAt l 28 4 then .next (v.imgEnd { code := 0x06, off := 0x1C })
      else if s.authReq ∧ bit (fieldAt l 7 1) 0 = false then .next (v.imgEnd { code := 0x07, off := 0x1C })
      else if s.authReq then .next (v.setLoader { s.loader with img := some r.1, held := r.2, st := 3 })
      else .next (v.setLoader { s.loader with img := some r.1, held := r.2 }).imgChecked :=
  if_neg (by simp [hcclk, hst])

theorem exec_imgAuthVerdict_run {s : State} {i : Image} (hcclk : s.cclkRuns = true) (hst : s.loader.st = 3) (himg : s.loader.img = some i) (ok : Bool)
    (crc : Word) :
    exec (.imgAuthVerdict ok crc) s = if ok ∧ crc.toNat = i.crc then .next s.imgChecked else .next (s.imgEnd { code := 0x07, off := 0x1C }) := by
  refine (if_neg (by simp [hcclk, hst])).trans ?_
  rw [himg]

theorem State.imgChecked_held {s : State} {e : ImgErr} (h : s.loader.held = some e) : s.imgChecked = s.imgEnd e := by
  unfold State.imgChecked
  rw [h]

/-- The capacity test of an image does not depend on the loader. -/
theorem State.setLoader_admits (s : State) (l : Loader) (i : Image) : (s.setLoader l).admits i = s.admits i := rfl

theorem State.imgChecked_admit {s : State} {i : Image} (h : s.loader.held = none) (himg : s.loader.img = some i) :
    s.imgChecked = s.setLoader { s.loader with st := 4, adm := s.admits i } := by
  unfold State.imgChecked
  split
  · next e he => cases h.symm.trans he
  · rw [himg]
    rfl

end Sys2Proof.Machine

open Sys2Proof Sys2Proof.Machine

/-- Settles O30: the write of IMG_CTL with START or ABORT alone and SRC as it stands. -/
theorem imageStartAbort : Obligations.ImageStartAbort := by
  unfold Obligations.ImageStartAbort
  intro s w tgt hopen hsrc
  have hsrc16 : bits (w ||| 0x10).toNat 0 1 = s.rd R.IMG_CTL_SRC := (bits_or_of_clear w 0x10 (by decide)).trans hsrc
  have hsrc32 : bits (w ||| 0x20).toNat 0 1 = s.rd R.IMG_CTL_SRC := (bits_or_of_clear w 0x20 (by decide)).trans hsrc
  refine ⟨fun hidle hno => ?_, fun hbusy hno => ?_, fun hlo hhi hno => ?_⟩
  · have hgo := s.writeImgCtl_start hsrc16 (bit_or_self w 0x10 (by decide)) ((bit_or_other (by decide)).trans hno) tgt
    rw [State.imgGo, if_neg (by simp [hidle])] at hgo
    refine ⟨_, (exec_imgStart_open hopen w tgt).trans (congrArg _ hgo), rfl, ?_, State.wr_rd_self .., ?_, rfl, ?_⟩
    · exact (State.wr_rd_ne _ (by decide) ..).trans (State.wr_rd_self ..)
    · exact (State.wr_rd_ne _ (by decide) ..).trans (State.wr_rd_ne _ (by decide) ..)
    · exact State.regsKept_wr (State.regsKept_wr (State.regsKept_of_regs rfl rfl _) (by simp) _) (by simp) _
  · have hgo := s.writeImgCtl_start hsrc16 (bit_or_self w 0x10 (by decide)) ((bit_or_other (by decide)).trans hno) tgt
    rw [State.imgGo, if_pos hbusy] at hgo
    rw [exec_imgStart_open hopen, hgo, State.busyIf_true]
  · have habort : s.imgAbort = (s.imgEnd { code := 0x12 }, false) := by rw [State.imgAbort, if_pos ⟨hlo, hhi⟩]
    have hcode : ({ code := 0x12 } : ImgErr).code ≠ 0 := by decide
    have hkept := s.imgEnd_regsKept hcode
    have hend := s.writeImgCtl_abort (w := (w ||| 0x20).toNat) (by rw [habort, hsrc32]; exact (hkept _ _ _ (by decide)).symm)
      ((bit_or_other (by decide)).trans hno) (bit_or_self w 0x20 (by decide)) tgt
    rw [habort] at hend
    exact ⟨_, (exec_imgAbort_open hopen w tgt).trans (congrArg _ hend), s.imgEnd_st _, s.imgEnd_rd_result hcode, s.imgEnd_rd_fail hcode,
      s.imgEnd_pending hcode, s.imgEnd_eq hcode, hkept⟩

/-- Settles O31: `imgBad` and `imgWhole` are the statement's `bad` and, where eight words are received, its `whole`. -/
theorem imageWords : Obligations.ImageWords := by
  unfold Obligations.ImageWords
  intro s w tgt hopen hst hmany words h whole bad takes fails
  have hbad : bad = s.imgBad w := rfl
  have hlen : words.length = s.loader.words.length + 1 := rfl
  have hrd : (s.withWord w).rd R.IMG_BYTES_BYTES = 4 * words.length := s.withWord_rd (by change words.length ≤ _; omega)
  have htakes (i : Instr) (l : Loader) (hexec : exec i s = .next ((s.withWord w).setLoader l)) : takes i l :=
    ⟨_, hexec, rfl, hrd, rfl, State.regsKept_congr (s.withWord_regsKept w) rfl rfl⟩
  have hends (i : Instr) (e : ImgErr) (hexec : exec i s = .next ((s.withWord w).imgEnd e)) (hcode : e.code ≠ 0) : fails i e.code := by
    obtain ⟨heq, hkept⟩ := State.imgEnd_failed_from hcode (s.withWord_eq w) (s.withWord_regsKept w)
    exact ⟨_, hexec, State.imgEnd_st _ e, State.imgEnd_rd_result _ hcode, State.imgEnd_rd_fail _ hcode, State.imgEnd_conf _ e, heq, hkept⟩
  have hwhole (h8 : 8 ≤ words.length) : s.imgWhole w = whole := by
    change _ = (decide (8 ≤ words.length) && _)
    rw [decide_eq_true h8, Bool.true_and]
    rfl
  have hpart (h8 : words.length < 8) : whole = false := by
    change (decide (8 ≤ words.length) && _) = false
    rw [decide_eq_false (by omega), Bool.false_and]
  have hmid (i : Instr) (last : Option Bool) (hlast : last.getD false = false) (hnone : s.loader.hdrErr = none) (hb : bad = none)
      (hexec : exec i s = .next (s.takeWord w last)) : takes i (if whole then { s.loader with words := words, st := 2, lastBad := !last.isNone }
        else { s.loader with words := words }) := by
    rcases Nat.lt_or_ge words.length 8 with hshort | h8
    · rw [hpart hshort]
      refine htakes i _ (hexec.trans ?_)
      rw [State.takeWord_short hnone hshort, hlast]
      rfl
    · refine htakes i _ (hexec.trans ?_)
      rw [State.takeWord_good hnone hb h8, hlast, hwhole h8]
      cases whole <;> rfl
  refine ⟨fun hnone hsrc => ?_, fun hnone hsrc hrun => ?_, fun e hsome hsrc hrun => ?_⟩
  · have hexec := exec_imgFifoWord_run hopen hst hsrc w tgt
    refine ⟨fun hb => hmid _ none rfl hnone hb hexec, fun e hb hcode => hends _ e (hexec.trans ?_) hcode⟩
    rw [State.takeWord_bad hnone hb]
    rfl
  · have hexec := exec_imgStreamWord_run hrun hst hsrc w
    refine ⟨fun hb => ⟨hmid _ (some false) rfl hnone hb (hexec false), fun h8 => ?_, fun hshort => ?_⟩, fun e hb => ⟨?_, fun hcode => ?_⟩⟩
    · refine htakes _ _ ((hexec true).trans ?_)
      rw [State.takeWord_good hnone hb h8, hwhole h8]
      rfl
    · refine hends _ { code := 0x05, off := 0xC } ((hexec true).trans ?_) (by decide)
      rw [State.takeWord_short hnone hshort]
      rfl
    · refine htakes _ _ ((hexec false).trans ?_)
      rw [State.takeWord_bad hnone hb]
      rfl
    · refine hends _ e ((hexec true).trans ?_) hcode
      rw [State.takeWord_bad hnone hb]
      rfl
  · have hexec := exec_imgStreamWord_run hrun hst hsrc w
    have hbytes := State.wr_regsKept s R.IMG_BYTES_BYTES 0 0 ((s.rd R.IMG_BYTES_BYTES + 4) % 2 ^ 32)
    refine ⟨⟨_, (hexec false).trans (congrArg _ (State.takeWord_late hsome w _)), rfl, ?_, rfl, hbytes⟩, fun hcode => ?_⟩
    · exact (State.wr_rd_self ..).trans (Nat.mod_mod _ _)
    · obtain ⟨heq, hkept⟩ := State.imgEnd_failed_from hcode (u := s.wr R.IMG_BYTES_BYTES 0 0 ((s.rd R.IMG_BYTES_BYTES + 4) % 2 ^ 32)) rfl hbytes
      exact ⟨_, (hexec true).trans (congrArg _ (State.takeWord_late hsome w _)), State.imgEnd_st _ e, State.imgEnd_rd_result _ hcode,
        State.imgEnd_rd_fail _ hcode, State.imgEnd_conf _ e, heq, hkept⟩

/-- Settles O32: one clause for each branch of the check and of the verdict. -/
theorem imageCheck : Obligations.ImageCheck := by
  unfold Obligations.ImageCheck
  intro s hrun l len r v
  refine ⟨fun hst => ?_, fun i ok crc hst himg => ?_⟩
  · have hexec := exec_imgCheckDone_run hrun hst
    refine ⟨fun hlen => hexec.trans (if_pos hlen), fun hlast hlen => ?_⟩
    have hlong := hexec.trans (if_neg (not_or.2 ⟨by simp [hlast], not_not.2 hlen⟩))
    refine ⟨fun hcrc => hlong.trans (if_pos hcrc), fun hcrc => ?_⟩
    have hsound := hlong.trans (if_neg (not_not.2 hcrc))
    refine ⟨fun hauth hsig => hsound.trans (if_pos ⟨hauth, hsig⟩), fun hauth hsig => ?_, fun hauth hheld => ?_, fun hauth e hheld hcode => ?_⟩
    · exact (hsound.trans (if_neg fun h => absurd (hsig.symm.trans h.2) (by decide))).trans (if_pos hauth)
    · refine ((hsound.trans (if_neg (by simp [hauth]))).trans (if_neg (by simp [hauth]))).trans (congrArg _ ?_)
      refine (State.imgChecked_admit hheld rfl).trans ?_
      rw [State.setLoader_admits, hheld]
      rfl
    · refine ⟨_, ((hsound.trans (if_neg (by simp [hauth]))).trans (if_neg (by simp [hauth]))).trans (congrArg _ (State.imgChecked_held hheld)), ?_⟩
      obtain ⟨heq, hkept⟩ := State.imgEnd_failed_from hcode (s := s) (u := v.setLoader { s.loader with img := some r.1, held := r.2 }) rfl
        (State.wr_regsKept s R.IMG_SKIPPED_COUNT 0 0 _)
      exact ⟨State.imgEnd_st _ e, State.imgEnd_rd_result _ hcode, State.imgEnd_rd_fail _ hcode, heq, hkept⟩
  · have hexec := exec_imgAuthVerdict_run hrun hst himg ok crc
    refine ⟨fun hok hcrc => ⟨fun hheld => ?_, fun e hheld => ?_⟩, fun hno => ?_⟩
    · exact (hexec.trans (if_pos ⟨hok, hcrc⟩)).trans (congrArg _ (State.imgChecked_admit hheld himg))
    · exact (hexec.trans (if_pos ⟨hok, hcrc⟩)).trans (congrArg _ (State.imgChecked_held hheld))
    · have hcode : ({ code := 0x07, off := 0x1C } : ImgErr).code ≠ 0 := by decide
      refine ⟨_, hexec.trans (if_neg fun hyes => ?_), s.imgEnd_st _, s.imgEnd_rd_result hcode, s.imgEnd_eq hcode, s.imgEnd_regsKept hcode⟩
      exact hno.elim (fun h => absurd (h.symm.trans hyes.1) (by decide)) (· hyes.2)

end

section
/-! The end of a cycle: what a stretch of cycles leaves, and the cycle in which nothing happens. -/

namespace Sys2Proof.Machine
open Sys2Proof

/-! ### The counts of a stretch -/

/-- `t` is `s` but for its measurements. -/
def State.metered (s t : State) : Prop := t = { s with meas := t.meas }

theorem State.metered_refl (s : State) : s.metered s := rfl

theorem State.metered.trans {s t u : State} (h : s.metered t) (k : t.metered u) : s.metered u := by
  unfold State.metered at *
  rw [k, h]

theorem State.metered.count {s t : State} (h : s.metered t) (o : Occ) : s.metered (t.count o) := h.trans rfl

theorem State.metered.ite {s t u : State} (c : Prop) [Decidable c] (ht : s.metered t) (hu : s.metered u) : s.metered (if c then t else u) := by
  split
  · exact ht
  · exact hu

theorem State.metered.foldl {α : Type} {s t : State} (h : s.metered t) {g : State → α → State} (hg : ∀ u a, s.metered u → s.metered (g u a)) (l : List α) :
    s.metered (l.foldl g t) := foldl_keeps s.metered g hg l t h

theorem State.metered.countSub {s t : State} (h : s.metered t) (n : Nat) (u : SubReq) : s.metered (t.countSub n u) := by
  unfold State.countSub
  refine .ite _ (h.count _) (.ite _ h ?_)
  refine .ite _ (h.count _) (.ite _ (h.count _) (.ite _ h ?_))
  exact (State.metered.ite _ h (h.count _)).count _

theorem State.metered.countGroup {s t : State} (h : s.metered t) (n g : Nat) : s.metered (t.countGroup n g) := by
  unfold State.countGroup
  have hfold {u : State} (hu : s.metered u) := hu.foldl (l := List.range 8) (g := fun (s : State) i =>
    match (s.port (8 * g + i)).queue with
    | [] => s
    | y :: _ => if s.ownerNow g = some i then s else s.count (s.occAt 0x032 n (s.attrOf (8 * g + i) y.req))) fun u i hu => by
      split
      · exact hu
      · exact .ite _ hu (hu.count _)
  exact (((((((hfold (.ite _ ((State.metered.ite _ (h.count _) h).count _) (.ite _ (h.count _) h))).count _).count _).count _).count _).count _).count _).count _

theorem State.metered.countChan {s t : State} (h : s.metered t) (n ch : Nat) : s.metered (t.countChan n ch) := by
  unfold State.countChan
  refine State.metered.foldl (.ite _ ((h.count _).count _) (h.count _)) (fun u c hu => ?_) _
  exact .ite _ hu (.ite _ (hu.count _) (.ite _ (hu.count _) (.ite _ (hu.count _) hu)))

theorem State.countCycles_metered (s : State) (n : Nat) : s.metered (s.countCycles n) := by
  unfold State.countCycles
  refine .ite _ s.metered_refl ?_
  refine State.metered.foldl (State.metered.foldl (State.metered.foldl ((s.metered_refl.count _).count _) (fun _ u hu => hu.countSub n u) _)
    (fun _ g hu => hu.countGroup n g) _) (fun _ ch hu => hu.countChan n ch) _

/-- The watchdog's counts apart, no group changes in `t`, and nothing but groups does. -/
def State.watched (s t : State) : Prop := t = { s with groups := t.groups } ∧ ∀ g, t.group g = { s.group g with stuck := (t.group g).stuck }

theorem State.watchLinks_watched (s : State) (n : Nat) : s.watched (s.watchLinks n) := by
  unfold State.watchLinks
  refine foldl_keeps s.watched _ (fun t g ht => ?_) _ s ⟨rfl, fun _ => rfl⟩
  dsimp only
  split
  · exact ht
  · obtain ⟨heq, hgroup⟩ := ht
    refine ⟨(by rw [heq]; rfl), fun k => ?_⟩
    by_cases hk : k = g
    · rw [hk, State.setGroup_group_self, hgroup g]
    · rw [State.setGroup_group_ne _ hk]
      exact hgroup k

/-- What a stretch of cycles changes of itself: measurements, the watchdogs' counts and the shapers of the channels. -/
theorem State.runCycles_only (s : State) (n : Nat) : s.runCycles n = { s with
      chans := (s.runCycles n).chans, groups := (s.runCycles n).groups, meas := (s.runCycles n).meas } ∧
    ∀ g, (s.runCycles n).group g = { s.group g with stuck := ((s.runCycles n).group g).stuck } := by
  have hmeter : s.countCycles n = { s with meas := (s.countCycles n).meas } := s.countCycles_metered n
  obtain ⟨hwatch, hgroup⟩ := (s.countCycles n).watchLinks_watched n
  have hgroup' (g : Nat) : (s.countCycles n).group g = s.group g := by rw [hmeter]; rfl
  refine ⟨?_, fun g => (hgroup g).trans (by rw [hgroup' g]; rfl)⟩
  unfold State.runCycles
  generalize (s.countCycles n).watchLinks n = t at *
  rw [hwatch, hmeter]
  rfl

/-! ### The links and the surface manager at the end of a cycle -/

/-- No link moves and no action waits before the surface manager. -/
def State.still (s : State) : Prop :=
  (∀ g, g < s.G → (s.group g).wake = false ∧ ∀ i, (s.group g).owner = some i → (s.port (8 * g + i)).queue ≠ []) ∧ s.sm.inbox = []

theorem State.linkNow_of_queue {s : State} {g : Nat} (h : ∀ i, (s.group g).owner = some i → (s.port (8 * g + i)).queue ≠ []) : s.linkNow g = s := by
  unfold State.linkNow
  split
  · rfl
  · next i hi =>
    refine if_pos ?_
    unfold State.lreq
    simp [h i hi]

theorem foldl_fixed {α β : Type} {f : β → α → β} {b : β} {l : List α} (h : ∀ a ∈ l, f b a = b) : l.foldl f b = b := by
  induction l with
  | nil => rfl
  | cons a l ih =>
    rw [List.foldl_cons, h a List.mem_cons_self]
    exact ih fun x hx => h x (List.mem_cons_of_mem a hx)

theorem State.closeCycle_still {s : State} (h : s.still) : s.closeCycle = s := by
  obtain ⟨hlinks, hinbox⟩ := h
  unfold State.closeCycle
  rw [foldl_fixed fun g hg => if_neg (by simp [(hlinks g (List.mem_range.1 hg)).1])]
  unfold State.smCycle State.smNext
  rw [hinbox]
  rfl

theorem foldl_min_le {α : Type} (f : Nat → α → Nat) (hf : ∀ n a, f n a ≤ n) (l : List α) (n : Nat) : l.foldl f n ≤ n := by
  induction l generalizing n with
  | nil => exact le_rfl
  | cons a l ih => exact (ih _).trans (hf n a)

theorem State.stretch_le (s : State) {n : Nat} (hn : 1 ≤ n) : s.stretch n ≤ n := by
  unfold State.stretch
  split
  · exact hn
  · refine foldl_min_le _ (fun n g => ?_) _ n
    dsimp only
    split
    · exact le_rfl
    · split
      · exact min_le_left _ _
      · exact le_rfl

/-! ### Time -/

theorem State.keepsToo.time {s t : State} {im : Bool} (h : s.keepsToo true im t) : s.sameTime t := h.2.1 rfl

theorem State.keepsToo.image {s t : State} {ck : Bool} (h : s.keepsToo ck true t) : s.sameImage t := h.2.2 rfl

theorem State.closeCycle_sameTime (s : State) : s.sameTime s.closeCycle := (State.closeCycle_keeps (s.keepsToo_refl : s.keepsToo true false s)).time

theorem State.runCycles_sameTime (s : State) (n : Nat) : s.sameTime (s.runCycles n) := ((State.runCycles_keeps s n).2 (s.keepsToo_refl : s.keepsToo true false s)).time

theorem State.foldl_linkNow_sameTime (s : State) (l : List Nat) : s.sameTime (l.foldl State.linkNow s) :=
  ((State.keeps_foldl (fun u g => State.linkNow_keeps u g) l s).2 (s.keepsToo_refl : s.keepsToo true false s)).time

theorem State.elapseGo_succ (f n : Nat) (s : State) : State.elapseGo (f + 1) (n + 1) s =
    State.elapseGo f (n + 1 - max 1 (s.closeCycle.stretch (n + 1)))
      ((List.range (s.closeCycle.runCycles (max 1 (s.closeCycle.stretch (n + 1)))).newCycle.G).foldl State.linkNow
        { (s.closeCycle.runCycles (max 1 (s.closeCycle.stretch (n + 1)))).newCycle with
          cclk := (s.closeCycle.runCycles (max 1 (s.closeCycle.stretch (n + 1)))).newCycle.cclk + max 1 (s.closeCycle.stretch (n + 1)) }) := rfl

/-- One cycle that passes. -/
theorem State.elapse_one {s : State} (h : s.cclkRuns = true) : s.elapse 1 =
    (List.range (s.closeCycle.runCycles 1).newCycle.G).foldl State.linkNow { (s.closeCycle.runCycles 1).newCycle with cclk := s.cclk + 1 } := by
  have hk : max 1 (s.closeCycle.stretch 1) = 1 := max_eq_left (s.closeCycle.stretch_le le_rfl)
  have hcclk : (s.closeCycle.runCycles 1).cclk = s.cclk := (State.runCycles_sameTime _ 1).1.trans s.closeCycle_sameTime.1
  unfold State.elapse
  rw [if_pos h, State.elapseGo_succ, hk]
  change (List.range (s.closeCycle.runCycles 1).newCycle.G).foldl State.linkNow
    { (s.closeCycle.runCycles 1).newCycle with cclk := (s.closeCycle.runCycles 1).cclk + 1 } = _
  rw [hcclk]

theorem State.elapse_one_cclk {s : State} (h : s.cclkRuns = true) : (s.elapse 1).cclk = s.cclk + 1 := by
  rw [State.elapse_one h]
  exact (State.foldl_linkNow_sameTime _ _).1

/-- A cycle in which nothing moves. -/
theorem State.elapse_one_still {s : State} (hrun : s.cclkRuns = true) (h : s.still) :
    s.elapse 1 = { (s.runCycles 1).newCycle with cclk := s.cclk + 1 } := by
  rw [State.elapse_one hrun, State.closeCycle_still h]
  obtain ⟨heq, hgroup⟩ := s.runCycles_only 1
  obtain ⟨hlinks, -⟩ := h
  generalize s.runCycles 1 = t at *
  refine foldl_fixed fun g hg => State.linkNow_of_queue fun i hi => ?_
  have hG : g < s.G := by
    rw [heq] at hg
    exact List.mem_range.1 hg
  have hport : t.port (8 * g + i) = s.port (8 * g + i) := by rw [heq]; rfl
  change (t.port (8 * g + i)).queue ≠ []
  rw [hport]
  refine (hlinks g hG).2 i ?_
  have howner : (t.group g).owner = (s.group g).owner := by rw [hgroup g]
  exact howner.symm.trans hi

end Sys2Proof.Machine

open Sys2Proof Sys2Proof.Machine

/-- Settles O2: the one cycle that passes on an empty queue. -/
theorem idleCycle : Obligations.IdleCycle := by
  unfold Obligations.IdleCycle
  intro s hqueue
  have hstep : step s = .next (s.elapse 1) := by
    unfold step
    rw [hqueue]
  refine ⟨fun hstop => ?_, fun hrun => ⟨_, hstep, State.elapse_one_cclk hrun, fun hlinks hinbox => ?_⟩⟩
  · rw [hstep, State.elapse, if_neg (by simp [hstop])]
  · rw [State.elapse_one_still hrun ⟨hlinks, hinbox⟩]
    obtain ⟨heq, hgroup⟩ := s.runCycles_only 1
    generalize s.runCycles 1 = t at *
    exact ⟨hgroup, by rw [heq]; rfl⟩

end

section
/-! The tick cycle: what passes with the cycles before it, and what it does to the gate lists. -/

namespace Sys2Proof.Machine
open Sys2Proof

/-! ### Cycles that pass -/

/-- `t` follows `s` with no tick between: its image, its tick unit but for the seed, and its gates but for the entry in force are those of `s`. -/
def State.later (s t : State) : Prop :=
  s.sameImage t ∧ t.tick = { s.tick with seed := t.tick.seed } ∧
    ∀ d, t.gate d = { s.gate d with entry := (t.gate d).entry, entStart := (t.gate d).entStart }

theorem State.later_of_keepsToo {s t : State} (h : s.keepsToo true true t) : s.later t := by
  obtain ⟨-, -, -, htick, hgates⟩ := h.time
  refine ⟨h.image, by rw [htick], fun d => ?_⟩
  have hgate : t.gate d = s.gate d := congrArg (Tab.get ({} : Gate) · d) hgates
  rw [hgate]

theorem State.later.trans {s t u : State} (h : s.later t) (k : t.later u) : s.later u := by
  obtain ⟨⟨hl, hc⟩, ht, hg⟩ := h
  obtain ⟨⟨kl, kc⟩, kt, kg⟩ := k
  refine ⟨⟨kl.trans hl, kc.trans hc⟩, kt.trans (by rw [ht]), fun d => (kg d).trans (by rw [hg d])⟩

theorem turnGates_get (c : Nat) (l : Tab Nat) (t : Tab Gate) (d : Nat) : Tab.get {} (turnGates c l t) d =
    { Tab.get ({} : Gate) t d with
      entry := (Tab.get {} (turnGates c l t) d).entry, entStart := (Tab.get {} (turnGates c l t) d).entStart } := by
  unfold turnGates
  induction l generalizing t with
  | nil => rfl
  | cons e l ih =>
    rw [List.foldl_cons, ih]
    by_cases hd : d = e.1
    · rw [hd, Tab.get_insert_self]
    · rw [Tab.get_insert_ne hd]

theorem State.newCycle_later (s : State) : s.later s.newCycle := ⟨⟨rfl, rfl⟩, rfl, fun d => turnGates_get s.cclk s.now.turns s.gates d⟩

theorem State.closeCycle_keepsToo (s : State) : s.keepsToo true true s.closeCycle := State.closeCycle_keeps s.keepsToo_refl

theorem State.runCycles_keepsToo (s : State) (n : Nat) : s.keepsToo true true (s.runCycles n) := (State.runCycles_keeps s n).2 s.keepsToo_refl

theorem State.foldl_linkNow_keepsToo (s : State) (l : List Nat) : s.keepsToo true true (l.foldl State.linkNow s) :=
  (State.keeps_foldl (fun u g => State.linkNow_keeps u g) l s).2 s.keepsToo_refl

/-- A stretch of cycles. -/
theorem State.stretch_later (s : State) (k : Nat) (l : List Nat) :
    s.later (l.foldl State.linkNow { (s.closeCycle.runCycles k).newCycle with cclk := (s.closeCycle.runCycles k).newCycle.cclk + k }) := by
  have hrun := (State.later_of_keepsToo s.closeCycle_keepsToo).trans (State.later_of_keepsToo (State.runCycles_keepsToo _ k))
  have hnew := hrun.trans (State.newCycle_later _)
  refine State.later.trans ?_ (State.later_of_keepsToo (State.foldl_linkNow_keepsToo _ l))
  exact hnew

theorem State.stretch_cclk (s : State) (k : Nat) (l : List Nat) :
    (l.foldl State.linkNow { (s.closeCycle.runCycles k).newCycle with cclk := (s.closeCycle.runCycles k).newCycle.cclk + k }).cclk = s.cclk + k := by
  rw [(State.foldl_linkNow_sameTime _ l).1]
  change (s.closeCycle.runCycles k).cclk + k = _
  rw [(State.runCycles_sameTime _ k).1, s.closeCycle_sameTime.1]

theorem State.elapseGo_later (f n : Nat) (s : State) : s.later (State.elapseGo f n s) := by
  induction f generalizing n s with
  | zero => exact State.later_of_keepsToo s.keepsToo_refl
  | succ f ih =>
    cases n with
    | zero => exact State.later_of_keepsToo s.keepsToo_refl
    | succ n =>
      rw [State.elapseGo_succ]
      exact (s.stretch_later _ _).trans (ih _ _)

theorem State.elapseGo_cclk {f n : Nat} (hfuel : n ≤ f) (s : State) : (State.elapseGo f n s).cclk = s.cclk + n := by
  induction f generalizing n s with
  | zero =>
    rw [Nat.le_zero.1 hfuel]
    rfl
  | succ f ih =>
    cases n with
    | zero => rfl
    | succ n =>
      have hle := s.closeCycle.stretch_le (Nat.le_add_left 1 n)
      rw [State.elapseGo_succ, ih (by omega), s.stretch_cclk]
      omega

theorem State.atCycle_later (s : State) (c : Nat) : s.later (s.atCycle c) := by
  unfold State.atCycle State.elapse
  split
  · exact State.elapseGo_later _ _ s
  · exact State.later_of_keepsToo s.keepsToo_refl

theorem State.atCycle_cclk {s : State} (h : s.cclkRuns = true) (c : Nat) : (s.atCycle c).cclk = max c s.cclk := by
  unfold State.atCycle State.elapse
  rw [if_pos h, State.elapseGo_cclk le_rfl]
  omega

/-! ### The gates at a tick (R60 to R62) -/

/-- `t` is `s` with other lists in the gate of domain `d` only. -/
def State.gateOnly (d : Nat) (s t : State) : Prop :=
  t.cclk = s.cclk ∧ t.pend = s.pend ∧ t.tick = s.tick ∧ t.now = { s.now with late := t.now.late } ∧ ∀ k, k ≠ d → t.gate k = s.gate k

theorem State.gateOnly_of_keepsToo {s t : State} {im : Bool} (h : s.keepsToo true im t) (d : Nat) : s.gateOnly d t := by
  obtain ⟨hcclk, hpend, hnow, htick, hgates⟩ := h.time
  exact ⟨hcclk, hpend, htick, by rw [hnow], fun k _ => congrArg (Tab.get ({} : Gate) · k) hgates⟩

theorem State.gateOnly.trans {d : Nat} {s t u : State} (h : s.gateOnly d t) (k : t.gateOnly d u) : s.gateOnly d u := by
  obtain ⟨h1, h2, h3, h4, h5⟩ := h
  obtain ⟨k1, k2, k3, k4, k5⟩ := k
  exact ⟨k1.trans h1, k2.trans h2, k3.trans h3, k4.trans (by rw [h4]), fun n hn => (k5 n hn).trans (h5 n hn)⟩

theorem State.gateOnly_setGate (s : State) (d : Nat) (g : Gate) : s.gateOnly d (s.setGate d g) :=
  ⟨rfl, rfl, rfl, rfl, fun _ hk => State.setGate_gate_ne s hk g⟩

theorem State.raiseGate_keepsToo (s : State) (f : Fld) (d : Nat) : s.keepsToo true true (s.raiseGate f d) := (State.raiseGate_keeps s f d).2 s.keepsToo_refl

theorem State.gate_of_keepsToo {s t : State} {im : Bool} (h : s.keepsToo true im t) (d : Nat) : t.gate d = s.gate d := by
  obtain ⟨-, -, -, -, hgates⟩ := h.time
  exact congrArg (Tab.get ({} : Gate) · d) hgates

/-- The test of an armed shadow leaves both lists and ARM. -/
theorem State.armTest_gateOnly (s : State) (d : Nat) : s.gateOnly d (s.armTest d) ∧
    (s.armTest d).gate d = { s.gate d with late := ((s.armTest d).gate d).late, lateEpoch := ((s.armTest d).gate d).lateEpoch } := by
  unfold State.armTest
  dsimp only
  split
  · have hnow : s.gateOnly d { s with now := { s.now with late := Tab.insert d ((Tab.find s.now.late d).getD
        (s.rd R.GATE_STATUS_GATE_LATE d == 1, bit (s.evt 0).pending (8 + d))) s.now.late } } := ⟨rfl, rfl, rfl, rfl, fun _ _ => rfl⟩
    refine ⟨(hnow.trans (State.gateOnly_setGate _ d _)).trans (State.gateOnly_of_keepsToo (State.raiseGate_keepsToo _ _ d) d), ?_⟩
    rw [State.gate_of_keepsToo (State.raiseGate_keepsToo _ _ d), State.setGate_gate_self]
  · exact ⟨State.gateOnly_of_keepsToo (s.keepsToo_refl (tm := true) (im := true)) d, rfl⟩

theorem State.rearmTest_gateOnly (s : State) (d : Nat) : s.gateOnly d (s.rearmTest d) ∧
    (s.rearmTest d).gate d = { s.gate d with late := ((s.rearmTest d).gate d).late, lateEpoch := ((s.rearmTest d).gate d).lateEpoch } := by
  have hlate : s.keepsToo true true (if (s.gate d).late then s.unraiseLate d else s) := by simp [State.keepsToo_refl]
  unfold State.rearmTest
  dsimp only
  generalize (if (s.gate d).late then s.unraiseLate d else s) = u at *
  obtain ⟨honly, hgate⟩ := State.armTest_gateOnly (u.setGate d { u.gate d with late := false, lateEpoch := (u.gateWas d).lateEpoch }) d
  refine ⟨((State.gateOnly_of_keepsToo hlate d).trans (State.gateOnly_setGate _ d _)).trans honly, hgate.trans ?_⟩
  rw [State.setGate_gate_self, State.gate_of_keepsToo hlate d]

/-- What step 2 of a tick makes of a gate: a due shadow has become active, another list stands as it did. -/
def Gate.ticked (due : Bool) (e : Nat) (g h : Gate) : Prop :=
  if due then h.active = g.shadow ∧ h.shadow = g.active ∧ h.armed = false ∧ h.swapEpoch = e % 2 ^ 32
  else h.active = g.active ∧ h.shadow = g.shadow ∧ h.armed = g.armed

theorem State.tickGate_gateOnly (s : State) (seeded : Bool) (d : Nat) : s.gateOnly d (s.tickGate seeded d) ∧
    Gate.ticked ((s.gateWas d).dueAt s.tick.epoch) s.tick.epoch (s.gate d) ((s.tickGate seeded d).gate d) := by
  unfold State.tickGate Gate.ticked
  dsimp only
  split
  · refine ⟨(State.gateOnly_setGate s d _).trans (State.gateOnly_of_keepsToo (State.raiseGate_keepsToo _ _ d) d), ?_⟩
    rw [State.gate_of_keepsToo (State.raiseGate_keepsToo _ _ d), State.setGate_gate_self]
    exact ⟨rfl, rfl, rfl, rfl⟩
  · have hsame : s.gateOnly d s ∧ (s.gate d).active = (s.gate d).active ∧ (s.gate d).shadow = (s.gate d).shadow ∧ (s.gate d).armed = (s.gate d).armed :=
      ⟨State.gateOnly_of_keepsToo (s.keepsToo_refl (tm := true) (im := true)) d, rfl, rfl, rfl⟩
    split
    · exact hsame
    · split
      · obtain ⟨honly, hgate⟩ := s.rearmTest_gateOnly d
        refine ⟨honly, ?_⟩
        rw [hgate]
        exact ⟨rfl, rfl, rfl⟩
      · split
        · obtain ⟨honly, hgate⟩ := s.armTest_gateOnly d
          refine ⟨honly, ?_⟩
          rw [hgate]
          exact ⟨rfl, rfl, rfl⟩
        · exact hsame

/-- Step 2 of a tick, of several domains. -/
theorem State.foldl_tickGate (seeded : Bool) {l : List Nat} (hl : l.Nodup) (s : State) :
    (l.foldl (State.tickGate seeded) s).cclk = s.cclk ∧ (l.foldl (State.tickGate seeded) s).pend = s.pend ∧
      (l.foldl (State.tickGate seeded) s).tick = s.tick ∧
      (l.foldl (State.tickGate seeded) s).now = { s.now with late := (l.foldl (State.tickGate seeded) s).now.late } ∧
      ∀ d, d ∈ l → Gate.ticked ((s.gateWas d).dueAt s.tick.epoch) s.tick.epoch (s.gate d) ((l.foldl (State.tickGate seeded) s).gate d) := by
  suffices hgen : _ ∧ _ ∧ _ ∧ _ ∧ (∀ d, d ∉ l → (l.foldl (State.tickGate seeded) s).gate d = s.gate d) ∧ _ from
    ⟨hgen.1, hgen.2.1, hgen.2.2.1, hgen.2.2.2.1, hgen.2.2.2.2.2⟩
  induction l generalizing s with
  | nil => exact ⟨rfl, rfl, rfl, rfl, fun _ _ => rfl, nofun⟩
  | cons a l ih =>
    obtain ⟨hnot, hl⟩ := List.nodup_cons.1 hl
    obtain ⟨⟨hcclk, hpend, htick, hnow, hother⟩, hticked⟩ := s.tickGate_gateOnly seeded a
    obtain ⟨ihcclk, ihpend, ihtick, ihnow, ihother, ihticked⟩ := ih hl (s.tickGate seeded a)
    refine ⟨ihcclk.trans hcclk, ihpend.trans hpend, ihtick.trans htick, ihnow.trans (by rw [hnow]; rfl), fun d hd => ?_, fun d hd => ?_⟩
    · rw [List.mem_cons, not_or] at hd
      exact (ihother d hd.2).trans (hother d hd.1)
    · rw [List.foldl_cons]
      by_cases hda : d = a
      · rw [hda, ihother a hnot]
        exact hticked
      · have hgates : (s.tickGate seeded a).now.gates = s.now.gates := by rw [hnow]
        have hwas : (s.tickGate seeded a).gateWas d = s.gateWas d := by rw [State.gateWas, State.gateWas, hgates, hother d hda]
        rw [← hwas, ← htick, ← hother d hda]
        exact ihticked d ((List.mem_cons.1 hd).resolve_left hda)

/-- Step 6 of a tick, of several domains. -/
theorem State.foldl_restartGate (c : Nat) {l : List Nat} (hl : l.Nodup) (s : State) :
    (l.foldl (State.restartGate c) s).cclk = s.cclk ∧ (l.foldl (State.restartGate c) s).pend = s.pend ∧
      (l.foldl (State.restartGate c) s).tick = s.tick ∧ (l.foldl (State.restartGate c) s).now = s.now ∧
      ∀ d, (l.foldl (State.restartGate c) s).gate d = if d ∈ l then (s.gate d).restart c else s.gate d := by
  induction l generalizing s with
  | nil => exact ⟨rfl, rfl, rfl, rfl, fun d => by simp⟩
  | cons a l ih =>
    obtain ⟨hnot, hl⟩ := List.nodup_cons.1 hl
    obtain ⟨ihcclk, ihpend, ihtick, ihnow, ihgate⟩ := ih hl (s.restartGate c a)
    refine ⟨ihcclk, ihpend, ihtick, ihnow, fun d => ?_⟩
    rw [List.foldl_cons, ihgate d]
    by_cases hda : d = a
    · rw [hda, if_neg hnot, if_pos List.mem_cons_self]
      exact State.setGate_gate_self s a _
    · have hgate : (s.restartGate c a).gate d = s.gate d := State.setGate_gate_ne s hda _
      rw [hgate]
      simp [hda]

/-- What was pending for the tick no longer is, and the time stands. -/
theorem State.applyPending_sameTime (s : State) : ({ s with pend := [] } : State).sameTime s.applyPending := by
  refine State.keepsToo.time (im := false) ?_
  unfold State.applyPending
  dsimp only
  have hfold : ({ s with pend := [] } : State).keepsToo true false (s.pend.foldl (fun (s : State) e => s.applyTick e.1 e.2)
      { s with pend := [], traffic := { s.traffic with flows := withWrites s.traffic.flows s.traffic.flowPend, flowPend := [] } }) :=
    (State.keeps_foldl (fun u (e : Nat × Nat) => State.applyTick_keeps u e.1 e.2) _ _).2 (State.keepsToo_refl { s with pend := [] })
  split
  · exact hfold
  · exact (State.figuresNow_keeps _).2 hfold

theorem State.foldl_debtMax_keepsToo (s : State) (l : List (Nat × Nat)) : s.keepsToo true true (l.foldl (fun (s : State) e => s.debtMax e.1 e.2) s) :=
  (State.keeps_foldl (fun u (e : Nat × Nat) => State.debtMax_keeps u e.1 e.2) l s).2 s.keepsToo_refl

/-- Steps 1 and 2 of a tick: the interval, the epoch number and the swaps. -/
def State.tickEntered (s : State) (c : Nat) (b : Strobe) : State :=
  (List.range 8).foldl (State.tickGate s.tick.seed.isSome) (s.tickIntervals c b.avg).tickEpoch

/-- Steps 3 and 4 of a tick: the staged image, the pending writes and the refresh debts that follow. -/
def State.tickWrites (s : State) (c : Nat) : State :=
  let u := (s.stagedTick c).applyPending
  (u.forcedRanks.filter fun e => !(s.stagedTick c).forcedRanks.contains e).foldl (fun (s : State) e => s.debtMax e.1 e.2) u

/-- Step 5 of a tick: the spill, the byte counters and the Overcast work; `changed` says whether an input of the capacity test has changed already. -/
def State.tickFlows (s : State) (c : Nat) (changed : Bool) : State :=
  let s := s.tickSpill
  let s := { s with chans := s.chans.map fun (e : Nat × Chan) => (e.1, e.2.tick), sm := { s.sm with roundWait := false } }
  let ic := s.icChanged
  let s := if ic then { s with traffic := { s.traffic with icWas := s.tick.ic } } else s
  s.tickOvercast c (changed || ic)

/-- Step 7 of a tick: the events of what the steps before it found, and the snapshots. -/
def State.tickReports (s : State) (trunc spill : List Nat) : State :=
  let u := spill.foldl State.raiseSpill (trunc.foldl State.truncate s)
  let v := (List.range u.G).foldl (fun (s : State) g => s.wr R.GRP_BITE_VALID_VALID g 0 0) u
  (v.count { ev := 0x001 }).tickSnaps

theorem State.boundary_eq (s : State) (c : Nat) (b : Strobe) : ∃ changed trunc spill, s.boundary c b =
    let u := ((s.tickEntered c b).tickWrites c).tickFlows c changed
    ((List.range 8).foldl (State.restartGate c) { u with now := { u.now with turns := [] } }).tickReports trunc spill := by
  unfold State.boundary
  extract_lets doms trunc swaps seeded s1 s2 s3 held s4 chan writes owed s5 s6 spill s7 m s8 ic tr s9 s10
  refine ⟨swaps || chan || writes, trunc, spill, ?_⟩
  have h3 : s.tickEntered c b = s3 := rfl
  clear_value swaps s3
  have h6 : s3.tickWrites c = s6 := rfl
  clear_value chan writes s6
  have h10 : s6.tickFlows c (swaps || chan || writes) = s10 := rfl
  rw [h3, h6, h10]
  clear_value s10 trunc spill
  rfl

theorem State.tickWrites_sameTime (s : State) (c : Nat) : ({ s with pend := [] } : State).sameTime (s.tickWrites c) := by
  obtain ⟨hcclk1, -, hnow1, htick1, hgates1⟩ : s.sameTime (s.stagedTick c) := ((State.stagedTick_keeps s c).2 s.keepsToo_refl).time
  obtain ⟨hcclk2, hpend2, hnow2, htick2, hgates2⟩ := (s.stagedTick c).applyPending_sameTime
  unfold State.tickWrites
  obtain ⟨hcclk3, hpend3, hnow3, htick3, hgates3⟩ := (State.foldl_debtMax_keepsToo (s.stagedTick c).applyPending
    ((s.stagedTick c).applyPending.forcedRanks.filter fun e => !(s.stagedTick c).forcedRanks.contains e)).time
  exact ⟨hcclk3.trans (hcclk2.trans hcclk1), hpend3.trans hpend2, hnow3.trans (hnow2.trans hnow1), htick3.trans (htick2.trans htick1),
    hgates3.trans (hgates2.trans hgates1)⟩

theorem State.tickFlows_keepsToo (s : State) (c : Nat) (changed : Bool) : s.keepsToo true true (s.tickFlows c changed) := by
  unfold State.tickFlows
  have hspill : s.keepsToo true true s.tickSpill := (State.tickSpill_keeps s).2 s.keepsToo_refl
  extract_lets u n v ic tr w
  have hite : s.keepsToo true true w := by
    change s.keepsToo true true (if ic then _ else v)
    split
    · exact hspill
    · exact hspill
  exact (State.tickOvercast_keeps w c _).2 hite

theorem State.tickReports_keepsToo (s : State) (trunc spill : List Nat) : s.keepsToo true true (s.tickReports trunc spill) := by
  have hspill : s.keepsToo true true (spill.foldl State.raiseSpill (trunc.foldl State.truncate s)) :=
    (State.keeps_foldl (fun u d => State.raiseSpill_keeps u d) _ _).2 ((State.keeps_foldl (fun u d => State.truncate_keeps u d) _ _).2 s.keepsToo_refl)
  exact (State.tickSnaps_keeps _).2 ((State.count_keeps _ _).2 ((State.keeps_foldl (fun u g => State.wr_keeps u _ g 0 0) _ _).2 hspill))

theorem State.tickEntered_gates (s : State) (c : Nat) (b : Strobe) {t : State} (ht : s.tickEntered c b = t) :
    t.cclk = s.cclk ∧ t.tick = (s.tickIntervals c b.avg).tickEpoch.tick ∧ t.now = { s.now with late := t.now.late } ∧
      ∀ d, d < 8 → Gate.ticked ((s.gateWas d).dueAt s.nextEpoch) s.nextEpoch (s.gate d) (t.gate d) := by
  unfold State.tickEntered at ht
  have hwas (d : Nat) : (s.tickIntervals c b.avg).tickEpoch.gateWas d = s.gateWas d := rfl
  have hgate (d : Nat) : (s.tickIntervals c b.avg).tickEpoch.gate d = s.gate d := rfl
  have hepoch : (s.tickIntervals c b.avg).tickEpoch.tick.epoch = s.nextEpoch := rfl
  have hcclk : (s.tickIntervals c b.avg).tickEpoch.cclk = s.cclk := rfl
  have hnow : (s.tickIntervals c b.avg).tickEpoch.now = s.now := rfl
  generalize (s.tickIntervals c b.avg).tickEpoch = u at *
  obtain ⟨hcclk1, -, htick1, hnow1, hticked⟩ := u.foldl_tickGate s.tick.seed.isSome (l := List.range 8) List.nodup_range
  rw [ht] at hcclk1 htick1 hnow1 hticked
  refine ⟨hcclk1.trans hcclk, htick1, hnow ▸ hnow1, fun d hd => ?_⟩
  rw [← hwas, ← hepoch, ← hgate]
  exact hticked d (List.mem_range.2 hd)

/-- Steps 1 to 5 leave the gates swapped, and no write waits for the tick. -/
theorem State.tickFlows_gates (s : State) (c : Nat) (b : Strobe) (changed : Bool) {u : State}
    (hu : ((s.tickEntered c b).tickWrites c).tickFlows c changed = u) :
    u.cclk = s.cclk ∧ u.pend = [] ∧ u.now = { s.now with late := u.now.late } ∧ u.tick = (s.tickIntervals c b.avg).tickEpoch.tick ∧
      ∀ d, d < 8 → Gate.ticked ((s.gateWas d).dueAt s.nextEpoch) s.nextEpoch (s.gate d) (u.gate d) := by
  generalize ht : s.tickEntered c b = t at hu
  obtain ⟨hcclk1, htick1, hnow1, hticked⟩ := s.tickEntered_gates c b ht
  obtain ⟨hcclk2, hpend2, hnow2, htick2, hgates2⟩ := t.tickWrites_sameTime c
  obtain ⟨hcclk3, hpend3, hnow3, htick3, hgates3⟩ := ((t.tickWrites c).tickFlows_keepsToo c changed).time
  rw [hu] at hcclk3 hpend3 hnow3 htick3 hgates3
  refine ⟨hcclk3.trans (hcclk2.trans hcclk1), hpend3.trans hpend2, ?_, htick3.trans (htick2.trans htick1), fun d hd => ?_⟩
  · have hnow : u.now = t.now := hnow3.trans hnow2
    rw [hnow]
    exact hnow1
  · have hgate : u.gate d = t.gate d := congrArg (Tab.get ({} : Gate) · d) (hgates3.trans hgates2)
    rw [hgate]
    exact hticked d hd

/-- The boundary actions: the cycle and what waits for the end of it stand, nothing waits for the tick, the tick unit has the new epoch, and the gates
have swapped and start their lists again. -/
theorem State.boundary_gates (s : State) (c : Nat) (b : Strobe) {v : State} (hv : s.boundary c b = v) :
    v.cclk = s.cclk ∧ v.pend = [] ∧ v.now = { s.now with late := v.now.late, turns := [] } ∧ v.tick = (s.tickIntervals c b.avg).tickEpoch.tick ∧
      ∀ d, d < 8 → ∃ g, Gate.ticked ((s.gateWas d).dueAt s.nextEpoch) s.nextEpoch (s.gate d) g ∧ v.gate d = g.restart c := by
  obtain ⟨changed, trunc, spill, heq⟩ := s.boundary_eq c b
  rw [hv] at heq
  generalize hu : ((s.tickEntered c b).tickWrites c).tickFlows c changed = u at heq
  obtain ⟨hcclk, hpend, hnow, htick, hticked⟩ := s.tickFlows_gates c b changed hu
  obtain ⟨hcclk1, hpend1, htick1, hnow1, hgate1⟩ := State.foldl_restartGate c (l := List.range 8) List.nodup_range { u with now := { u.now with turns := [] } }
  dsimp only at heq
  generalize (List.range 8).foldl (State.restartGate c) { u with now := { u.now with turns := [] } } = w at *
  obtain ⟨hcclk2, hpend2, hnow2, htick2, hgates2⟩ := (w.tickReports_keepsToo trunc spill).time
  rw [← heq] at hcclk2 hpend2 hnow2 htick2 hgates2
  refine ⟨hcclk2.trans (hcclk1.trans hcclk), hpend2.trans (hpend1.trans hpend), ?_, htick2.trans (htick1.trans htick), fun d hd => ?_⟩
  · rw [hnow2, hnow1, hnow]
  · have hgate2 : v.gate d = w.gate d := congrArg (Tab.get ({} : Gate) · d) hgates2
    refine ⟨u.gate d, hticked d hd, ?_⟩
    rw [hgate2, hgate1 d, if_pos (List.mem_range.2 hd)]
    rfl

/-- The cycle of the tick as its boundary actions find it: the strobe has left the crossing. -/
def State.strobed (s : State) (rest : List Strobe) : State :=
  { s.closeCycle.runCycles 1 with tick := { s.closeCycle.tick with strobes := rest } }

theorem State.strobed_kept (s : State) (rest : List Strobe) :
    (s.strobed rest).cclk = s.cclk ∧ (s.strobed rest).now = s.now ∧ (s.strobed rest).tick = { s.tick with strobes := rest } ∧
      ∀ d, (s.strobed rest).gate d = s.gate d := by
  obtain ⟨hcclk1, -, hnow1, htick1, hgates1⟩ := s.closeCycle_sameTime
  obtain ⟨hcclk2, -, hnow2, -, hgates2⟩ := State.runCycles_sameTime s.closeCycle 1
  refine ⟨hcclk2.trans hcclk1, hnow2.trans hnow1, ?_, fun d => congrArg (Tab.get ({} : Gate) · d) (hgates2.trans hgates1)⟩
  change ({ s.closeCycle.tick with strobes := rest } : TickUnit) = _
  rw [htick1]

theorem exec_tickCycle_run {s v w : State} {b : Strobe} {rest : List Strobe} {c : Nat} (hrun : s.cclkRuns = true) (hstrobes : s.tick.strobes = b :: rest)
    (hv : s.atCycle c = v) (hw : (v.strobed rest).boundary v.closeCycle.cclk b = w) :
    exec (.tickCycle c) s = .next ((List.range w.G).foldl State.linkNow { w.newCycle with cclk := v.closeCycle.cclk + 1 }) := by
  change execTickCycle c s = _
  unfold execTickCycle
  rw [if_neg (by simp [hrun]), hstrobes, ← hw, ← hv]
  rfl

/-- The end of the tick cycle: the next one begins with what was written in it. -/
theorem State.tickEnd_kept {s : State} (hturns : s.now.turns = []) (hpend : s.pend = []) (n : Nat) (l : List Nat) {t : State}
    (ht : l.foldl State.linkNow { s.newCycle with cclk := n } = t) :
    t.cclk = n ∧ t.now = {} ∧ t.pend = Tab.over [] s.now.pend ∧ t.tick = { s.tick with seed := s.now.seed.or s.tick.seed } ∧
      ∀ d, t.gate d = s.gate d := by
  obtain ⟨hcclk, hpend1, hnow, htick, hgates⟩ := State.foldl_linkNow_sameTime { s.newCycle with cclk := n } l
  rw [ht] at hcclk hpend1 hnow htick hgates
  refine ⟨hcclk, hnow, hpend1.trans ?_, htick, fun d => (congrArg (Tab.get ({} : Gate) · d) hgates).trans ?_⟩
  · change s.pendAll = _
    rw [State.pendAll, hpend]
  · change Tab.get {} (turnGates s.cclk s.now.turns s.gates) d = _
    rw [hturns]
    rfl

end Sys2Proof.Machine

open Sys2Proof Sys2Proof.Machine

/-- Settles O13: the cycles up to `c` leave the lists and the strobes, the tick does the rest. -/
theorem tickCycle : Obligations.TickCycle := by
  unfold Obligations.TickCycle
  intro s c b rest hrun hstrobes v
  obtain ⟨-, -, hgatev⟩ := s.atCycle_later c
  have hcclkv : v.cclk = max c s.cclk := State.atCycle_cclk hrun c
  have hcclkc : v.closeCycle.cclk = max c s.cclk := v.closeCycle_sameTime.1.trans hcclkv
  obtain ⟨hcclk1, hnow1, htick1, hgate1⟩ := v.strobed_kept rest
  have hepoch : (v.strobed rest).nextEpoch = v.nextEpoch := by rw [State.nextEpoch, htick1, State.nextEpoch]
  have hwas (d : Nat) : (v.strobed rest).gateWas d = v.gateWas d := by rw [State.gateWas, hnow1, hgate1, State.gateWas]
  obtain ⟨w, hw⟩ : ∃ w, (v.strobed rest).boundary v.closeCycle.cclk b = w := ⟨_, rfl⟩
  have hexec := exec_tickCycle_run hrun hstrobes (rfl : s.atCycle c = v) hw
  obtain ⟨hcclk2, hpend2, hnow2, htick2, hticked⟩ := (v.strobed rest).boundary_gates _ b hw
  obtain ⟨u, hu⟩ : ∃ u, exec (.tickCycle c) s = .next u := ⟨_, hexec⟩
  have hlast := Host.Outcome.next.inj (hexec.symm.trans hu)
  obtain ⟨hcclk3, hnow3, hpend3, htick3, hgate3⟩ := State.tickEnd_kept (by rw [hnow2]) hpend2 _ _ hlast
  have hticke : u.tick = { (((v.strobed rest).tickIntervals v.closeCycle.cclk b.avg).tickEpoch).tick with seed := v.now.seed } := by
    rw [htick3, htick2, hnow2, hnow1]
    exact congrArg (fun o => { (((v.strobed rest).tickIntervals v.closeCycle.cclk b.avg).tickEpoch).tick with seed := o }) (Option.or_none)
  refine ⟨u, hu, ?_, ?_, ?_, ?_, ?_, hnow3, ?_, fun d hd => ?_⟩
  · rw [hticke]
    exact congrArg TickUnit.strobes htick1
  · rw [hticke]
    exact hepoch
  · rw [hticke]
  · rw [hticke]
    exact hcclkc
  · rw [hcclk3, hcclkc]
  · rw [hpend3, hnow2, hnow1]
  · obtain ⟨g, hg, hgd⟩ := hticked d hd
    have hgate : u.gate d = g.restart v.closeCycle.cclk := (hgate3 d).trans hgd
    rw [hepoch, hwas, hgate1, hgatev d] at hg
    rw [hgate]
    refine ⟨rfl, hcclkc, hcclkc, rfl, rfl, ?_⟩
    exact hg

end

section
/-! The end of ADMITTING: a full image in force, a partial one staged, a failed one with its RESULT. -/

namespace Sys2Proof.Machine
open Sys2Proof

/-! ### What a full image does (R94, R95) -/

/-- The registers and units that the records of a full image set. -/
def State.recorded (s : State) (i : Image) : State :=
  let s := i.classes.foldl State.applyClass s
  let s := i.routes.foldl State.applyRoute s
  let s := i.groups.foldl State.applyGroup s
  let s := i.ports.foldl State.applyPort s
  let s := (List.range s.G).foldl (fun (s : State) g => s.applyCache (i.cacheOf g)) s
  let s := i.tims.foldl State.putTiming s
  let s := s.wr R.PERF_CTL_USER_EN 0 0 (b2n (s.permits 1))
  (s.wr R.IMG_ACTIVE_TAG_TAG 0 0 i.tag).wr R.IMG_ACTIVE_CRC_CRC 0 0 i.crc

/-- The gate lists of a full image. -/
def State.listed (s : State) (i : Image) : State := (List.range 8).foldl (fun (s : State) d =>
  s.setGate d { s.gate d with active := i.listOf d, running := false, entry := 0, extended := false }) s

/-- What a full image starts anew: storage, flows, integrity and the channels' queues. -/
def State.renewed (s : State) (i : Image) : State :=
  let fs := i.contexts s.units64
  let s := { s with
    sm := i.surfMgr
    traffic := { flows := fs, pins := pinnedOf fs, fcache := pinnedOf fs, icWas := i.nomCclk }
    integ := { s.integ with initDone := [], initOut := [] }
    chans := s.chans.map fun (e : Nat × Chan) => (e.1, { e.2 with
      credit := [], sendLeft := [], deficit := [], out := false, cands := e.2.cands.filter fun c => c.2.st != 2 && c.2.st != 3 }) }
  let s := s.squallLock
  let s := i.pools.foldl (fun (s : State) r => s.poolUpdate r.pool) s.startPass
  let s := s.wr R.PWR_STATUS_RESTORE_FAIL 0 0 0
  if s.power.lossPending then
    ({ s with power := { s.power with lossPending := false } }.setBit R.PWR_STATUS_RAIL_LOSS 0 0).raise 7 9
  else s

theorem State.configure_eq (s : State) (i : Image) (t : Nat) :
    s.configure i t = (((({ s with conf := some i } : State).recorded i).acquire t true).listed i).renewed i := rfl

theorem State.recorded_keepsToo (s : State) (i : Image) : s.keepsToo true true (s.recorded i) := by
  unfold State.recorded
  simp [State.keepsToo_refl]

theorem State.acquire_kept (s : State) (t : Nat) (first : Bool) : (s.acquire t first).conf = s.conf ∧ (s.acquire t first).tick.st = 1 := by
  unfold State.acquire
  have hkeep := (State.noteIc_keeps _).2 (State.keepsToo_refl (tm := true) (im := true) { s with tick := { s.tick with
      st := 1, ref := t, first := first, im := s.nomTclk, ic := s.nomCclk, imList := [], icList := [], inTol := 0
      strobes := s.tick.strobes.map fun _ => Strobe.mk false } })
  obtain ⟨-, -, -, htick, -⟩ := hkeep.time
  obtain ⟨-, hconf⟩ := hkeep.image
  exact ⟨hconf, congrArg TickUnit.st htick⟩

theorem State.listed_kept (s : State) (i : Image) : (s.listed i).conf = s.conf ∧ (s.listed i).tick = s.tick :=
  ⟨foldl_same State.conf (fun (s : State) d => s.setGate d _) (fun _ _ => rfl) _ s, foldl_same State.tick (fun (s : State) d => s.setGate d _) (fun _ _ => rfl) _ s⟩

theorem State.renewed_keepsToo (s : State) (i : Image) : s.keepsToo true true (s.renewed i) := by
  unfold State.renewed
  dsimp only
  split
  · simp [State.keepsToo_refl]
  · simp [State.keepsToo_refl]

theorem State.configure_kept (s : State) (i : Image) (t : Nat) : (s.configure i t).conf = some i ∧ (s.configure i t).tick.st = 1 := by
  rw [State.configure_eq]
  obtain ⟨-, hconf1⟩ := (({ s with conf := some i } : State).recorded_keepsToo i).image
  generalize ({ s with conf := some i } : State).recorded i = u at *
  obtain ⟨hconf2, hst2⟩ := u.acquire_kept t true
  generalize u.acquire t true = v at *
  obtain ⟨hconf3, htick3⟩ := v.listed_kept i
  generalize v.listed i = w at *
  have hkeep := w.renewed_keepsToo i
  obtain ⟨-, -, -, htick4, -⟩ := hkeep.time
  obtain ⟨-, hconf4⟩ := hkeep.image
  exact ⟨hconf4.trans (hconf3.trans (hconf2.trans hconf1)), by rw [htick4, htick3, hst2]⟩

/-- The channel runs its cold Dawn from a full image. -/
def Chan.inColdDawn (x : Chan) : Prop := x.seq = 1 ∧ x.svc = 1 ∧ x.step = 1 ∧ x.fullImg = true

theorem State.testInput_chans (s : State) : s.testInput.chans = s.chans := by
  unfold State.testInput
  split
  · rfl
  · rfl

theorem State.seqEnd_chans (s : State) (ch : Nat) : (s.seqEnd ch).chans = s.chans := by
  unfold State.seqEnd
  dsimp only
  split
  · rfl
  · rfl

/-- A cold Dawn of a full image, by its parts. -/
theorem State.startSeq_cold_eq (s : State) (ch : Nat) : ∃ (u : State) (x : Chan), s.startSeq ch 1 none true = (u.loseContents ch).setChan ch x ∧ u.chans = s.chans ∧
    x.inColdDawn := by
  unfold State.startSeq
  simp only [ite_self]
  rw [if_neg (show ¬(1 = 2 ∨ 1 = 3) by decide), if_pos trivial]
  refine ⟨_, _, rfl, ?_, rfl, rfl, rfl, rfl⟩
  rw [State.seqEnd_chans]
  split
  · exact s.testInput_chans
  · rfl

theorem State.startSeq_cold (s : State) (ch : Nat) : ((s.startSeq ch 1 none true).chan ch).inColdDawn ∧
    ∀ n, n ≠ ch → (s.startSeq ch 1 none true).chan n = s.chan n := by
  obtain ⟨u, x, heq, hchans, hx⟩ := s.startSeq_cold_eq ch
  rw [heq]
  refine ⟨by rwa [State.setChan_chan_self], fun n hn => ?_⟩
  rw [State.setChan_chan_ne _ hn]
  exact (State.setChan_chan_ne _ hn _).trans (congrArg (Tab.get ({} : Chan) · n) hchans)

theorem State.foldl_startSeq_cold (l : List Nat) (s : State) : (∀ ch, ch ∈ l → ((l.foldl (fun (s : State) ch => s.startSeq ch 1 none true) s).chan ch).inColdDawn) ∧
    ∀ n, n ∉ l → (l.foldl (fun (s : State) ch => s.startSeq ch 1 none true) s).chan n = s.chan n := by
  induction l generalizing s with
  | nil => exact ⟨nofun, fun _ _ => rfl⟩
  | cons a l ih =>
    obtain ⟨hself, hother⟩ := s.startSeq_cold a
    obtain ⟨ihself, ihother⟩ := ih (s.startSeq a 1 none true)
    refine ⟨fun ch hch => ?_, fun n hn => ?_⟩
    · by_cases hmem : ch ∈ l
      · exact ihself ch hmem
      · rw [List.foldl_cons, ihother ch hmem, (List.mem_cons.1 hch).resolve_right hmem]
        exact hself
    · rw [List.mem_cons, not_or] at hn
      exact (ihother n hn.2).trans (hother n hn.1)

theorem State.figuresNow_chans (s : State) : s.figuresNow.chans = s.chans := by
  unfold State.figuresNow State.figures
  refine (foldl_same State.chans _ (fun u ch => ?_) _ _).trans rfl
  split
  · rfl
  · rfl

/-- A full image that applies, by its parts. -/
theorem State.applyFull_eq (s : State) (i : Image) (t : Nat) : ∃ x : State, s.applyFull i t = x.imgEnd { code := 0 } ∧ x.conf = some i ∧ x.tick.st = 1 ∧
    ∀ ch, ch ∈ i.present → (x.chan ch).inColdDawn := by
  unfold State.applyFull
  refine ⟨_, rfl, ?_⟩
  obtain ⟨hconf1, hst1⟩ := s.configure_kept i t
  generalize s.configure i t = u at *
  have hheld := (State.holdChclk_keeps (tm := true) (im := true) u ((List.range s.C).filter fun ch => !i.present.contains ch)).2 u.keepsToo_refl
  generalize u.holdChclk ((List.range s.C).filter fun ch => !i.present.contains ch) = v at *
  have hseq : u.keepsToo true true (i.present.foldl (fun (s : State) ch => s.startSeq ch 1 none true) v) :=
    State.keeps_foldl_of (fun _ ch hs => State.startSeq_keeps hs ch 1 none true) _ hheld
  obtain ⟨hcold, -⟩ := State.foldl_startSeq_cold i.present v
  generalize i.present.foldl (fun (s : State) ch => s.startSeq ch 1 none true) v = w at *
  have hfig := (State.figuresNow_keeps w).2 hseq
  obtain ⟨-, -, -, htick, -⟩ := hfig.time
  obtain ⟨-, hconf⟩ := hfig.image
  refine ⟨hconf.trans hconf1, by rw [htick, hst1], fun ch hch => ?_⟩
  have hchan : w.figuresNow.chan ch = w.chan ch := congrArg (Tab.get ({} : Chan) · ch) w.figuresNow_chans
  rw [hchan]
  exact hcold ch hch

theorem State.raisePriv_count_rd (s : State) (t n : Nat) (o : Occ) (f : Fld) (i j : Nat) :
    ((s.raisePriv t n).count o).rd f i j = s.rd f i j := rfl

theorem State.imgEnd_done_kept (s : State) {e : ImgErr} (h : e.code = 0) : (s.imgEnd e).tick = s.tick ∧ (s.imgEnd e).chans = s.chans ∧
    (s.imgEnd e).rd R.IMG_STATUS_RESULT = 0 ∧ (s.imgEnd e).rd R.IMG_STATUS_IMG_DONE = 1 := by
  rw [State.imgEnd_done s h]
  refine ⟨?_, ?_, ?_, ?_⟩
  · rw [State.imgNoted_eq]
    rfl
  · rw [State.imgNoted_eq]
    rfl
  · rw [State.raisePriv_count_rd]
    refine (State.setBit_rd_ne _ (by decide) 0 0 0 0).trans ((State.imgNoted_rd_result s e).trans ?_)
    rw [h]
    rfl
  · rw [State.raisePriv_count_rd, State.setBit_rd_self]
    rfl

theorem State.applyFull_kept (s : State) (i : Image) (t : Nat) :
    (s.applyFull i t).conf = some i ∧ (s.applyFull i t).loader.st = 0 ∧ (s.applyFull i t).rd R.IMG_STATUS_RESULT = 0 ∧
      (s.applyFull i t).rd R.IMG_STATUS_IMG_DONE = 1 ∧ (s.applyFull i t).tick.st = 1 ∧
      ∀ ch, ch ∈ i.present → ((s.applyFull i t).chan ch).inColdDawn := by
  obtain ⟨x, heq, hconf, hst, hcold⟩ := s.applyFull_eq i t
  obtain ⟨htick, hchans, hresult, hdone⟩ := x.imgEnd_done_kept (e := { code := 0 }) rfl
  rw [heq]
  refine ⟨(State.imgEnd_conf x _).trans hconf, State.imgEnd_st x _, hresult, hdone, by rw [htick, hst], fun ch hch => ?_⟩
  have hchan : (x.imgEnd { code := 0 }).chan ch = x.chan ch := congrArg (Tab.get ({} : Chan) · ch) hchans
  rw [hchan]
  exact hcold ch hch

/-! ### The end of ADMITTING (R92, R97, R98) -/

theorem State.admLast_only (s : State) (source : Nat) (a : Adm) : s.admLast source a = { s with regs := (s.admLast source a).regs } ∧
    (s.admLast source a).rd R.ADM_LAST_FAILED = b2n a.fail.isSome % 2 := by
  refine ⟨rfl, ?_⟩
  unfold State.admLast
  rw [State.wr_rd_ne _ (by decide), State.wr_rd_ne _ (by decide), State.wr_rd_ne _ (by decide), State.wr_rd_self]
  rfl

theorem exec_imgAdmitDone_run {s : State} {i : Image} (hrun : s.cclkRuns = true) (hst : s.loader.st = 4) (himg : s.loader.img = some i) (c u : Nat) :
    exec (.imgAdmitDone c u) s =
      let v := (s.atCycle c).admLast (if i.scope == 0xFF then 1 else 2) (s.atCycle c).loader.adm
      match v.loader.adm.fail with
      | some x => .next (v.imgEnd (admitError i (i.scope == 0xFF) x))
      | none => .next (if i.scope == 0xFF then v.applyFull i u
        else { v.setLoader { v.loader with st := 5 } with now := { v.now with staged := true } }) := by
  change execImgAdmitDone c u s = _
  unfold execImgAdmitDone
  rw [if_neg (by simp [hrun, hst])]
  split
  · next hnone =>
    rw [himg] at hnone
    cases hnone
  · next j hsome =>
    rw [himg] at hsome
    cases hsome
    rfl

theorem admitError_code (i : Image) (full : Bool) (x : CapFail) : (admitError i full x).code = 0x10 := by
  unfold admitError
  split
  · rfl
  · rfl

end Sys2Proof.Machine

open Sys2Proof Sys2Proof.Machine

/-- Settles O33: the three ends, on the state that the cycles up to `c` leave. -/
theorem imageAdmit : Obligations.ImageAdmit := by
  unfold Obligations.ImageAdmit
  intro s i c u hrun hst himg
  have hexec := exec_imgAdmitDone_run hrun hst himg c u
  obtain ⟨⟨hloader, hconf⟩, -, -⟩ := s.atCycle_later c
  generalize s.atCycle c = v at *
  obtain ⟨heq, hfailed⟩ := v.admLast_only (if i.scope == 0xFF then 1 else 2) v.loader.adm
  dsimp only at hexec
  generalize v.admLast (if i.scope == 0xFF then 1 else 2) v.loader.adm = w at *
  have hloaderw : w.loader = s.loader := by rw [heq]; exact hloader
  rw [hloader] at hfailed
  rw [hloaderw] at hexec
  refine ⟨fun hpass hfull => ?_, fun hpass hpart => ?_, fun x hfail => ?_⟩
  · rw [hpass] at hexec
    dsimp only at hexec
    rw [hfull] at hexec
    obtain ⟨hconf', hst', hresult, hdone, htick, hcold⟩ := w.applyFull_kept i u
    exact ⟨_, hexec, hconf', hst', hresult, hdone, htick, hcold⟩
  · rw [hpass] at hexec hfailed
    dsimp only at hexec
    rw [if_neg (by simpa using hpart)] at hexec
    refine ⟨_, hexec, rfl, rfl, hfailed, ?_, ?_, ?_⟩
    · rw [← hconf, heq]
      rfl
    · rw [heq]
      rfl
    · rw [heq]
      rfl
  · rw [hfail] at hexec hfailed
    dsimp only at hexec
    have hcode : (admitError i (i.scope == 0xFF) x).code ≠ 0 := by rw [admitError_code]; decide
    have hend := w.imgEnd_eq hcode
    have hkept := w.imgEnd_regsKept hcode
    refine ⟨_, hexec, State.imgEnd_st w _, ?_, State.imgEnd_rd_fail w hcode, ?_, ?_, ?_, ?_, ?_⟩
    · rw [State.imgEnd_rd_result w hcode, admitError_code]
      rfl
    · exact (hkept _ _ _ (by decide)).trans hfailed
    · rw [State.imgEnd_conf, ← hconf, heq]
    · rw [hend, heq]
    · rw [hend, heq]
    · rw [hend, heq]

end

section
/-! Request and data beats at the ports, and the violations they make. -/

namespace Sys2Proof.Machine
open Sys2Proof

/-- A bump of a listed field leaves the others. -/
theorem State.regsKept_bump {s t : State} {l : List Slot} (h : s.regsKept t l) {f : Fld} {i j : Nat} (hmem : (⟨f, i, j⟩ : Slot) ∈ l) (n : Nat) :
    s.regsKept (t.bump f i j n) l :=
  State.regsKept_mono (State.regsKept_trans h (State.bump_regsKept t f i j n)) fun _ hx => (List.mem_append.1 hx).elim id fun hx =>
    List.mem_singleton.1 hx ▸ hmem

/-! ### Violations (R144, R145) -/

/-- `t` is `s` but for what a violation of port `p` changes. -/
def State.violOnly (p : Nat) (s t : State) : Prop :=
  t = { s with regs := t.regs, bitsNow := t.bitsNow, evts := t.evts, meas := t.meas } ∧ s.regsKept t (violSlots p)

/-- The violations are counted and raised. -/
def State.violCounted (s : State) (p n : Nat) : State :=
  (((s.bump R.PORT_VIOL_CNT_COUNT (p / 8) (p % 8) n).count
    { ev := 0x02D, n := n, grp := some (p / 8), req := some { port := p } }).setBit R.PORT_STATUS_VIOL (p / 8) (p % 8)).raisePort p

/-- The first violation is captured. -/
def State.violCaptured (s : State) (p c tag op : Nat) : State :=
  (((s.wr R.PORT_VIOL_FIRST_CODE (p / 8) (p % 8) c).wr R.PORT_VIOL_FIRST_TAG (p / 8) (p % 8) tag).wr R.PORT_VIOL_FIRST_OP (p / 8) (p % 8) op).wr
    R.PORT_VIOL_FIRST_VALID (p / 8) (p % 8) 1

theorem State.viol_nil (s : State) (p tag op : Nat) : s.viol p [] tag op = s := rfl

theorem State.viol_some (s : State) {codes : List Nat} {c : Nat} (h : minOf codes = some c) (p tag op : Nat) : s.viol p codes tag op =
    if (s.violCounted p codes.length).rd R.PORT_VIOL_FIRST_VALID (p / 8) (p % 8) = 1 then s.violCounted p codes.length
    else (s.violCounted p codes.length).violCaptured p c tag op := by
  unfold State.viol
  rw [h]
  rfl

theorem minOf_isSome {l : List Nat} (h : l ≠ []) : ∃ c, minOf l = some c := by
  cases l with
  | nil => exact absurd rfl h
  | cons a l =>
    unfold minOf
    split
    · exact ⟨_, rfl⟩
    · exact ⟨_, rfl⟩

theorem State.violCounted_only (s : State) (p n : Nat) : s.violOnly p (s.violCounted p n) := by
  refine ⟨rfl, State.regsKept_congr (State.regsKept_setBit (State.regsKept_congr (State.regsKept_bump (s.regsKept_refl (violSlots p))
    (f := R.PORT_VIOL_CNT_COUNT) (i := p / 8) (j := p % 8) ?_ n) rfl rfl) (f := R.PORT_STATUS_VIOL) (i := p / 8) (j := p % 8) ?_) rfl rfl⟩
  · simp [violSlots]
  · simp [violSlots]

theorem State.violCaptured_regsKept (s : State) (p c tag op : Nat) : s.regsKept (s.violCaptured p c tag op) (violSlots p) := by
  unfold State.violCaptured
  repeat refine State.regsKept_wr ?_ (by simp [violSlots]) _
  exact s.regsKept_refl _

theorem State.violOnly_refl (s : State) (p : Nat) : s.violOnly p s := ⟨rfl, s.regsKept_refl _⟩

theorem State.violOnly.trans {p : Nat} {s t u : State} (h : s.violOnly p t) (k : t.violOnly p u) : s.violOnly p u := by
  obtain ⟨heq, hkept⟩ := h
  obtain ⟨keq, kkept⟩ := k
  refine ⟨keq.trans (by rw [heq]), State.regsKept_mono (State.regsKept_trans hkept kkept) fun x hx => ?_⟩
  simpa using hx

theorem State.violOnly_of_metered {s t : State} (h : s.metered t) (p : Nat) : s.violOnly p t := by
  have heq : t = { s with meas := t.meas } := h
  exact ⟨by rw [heq], State.regsKept_of_regs (by rw [heq]) (by rw [heq]) _⟩

theorem State.viol_only (s : State) (p : Nat) (codes : List Nat) (tag op : Nat) : s.violOnly p (s.viol p codes tag op) := by
  by_cases h : codes = []
  · rw [h, State.viol_nil]
    exact s.violOnly_refl p
  · obtain ⟨c, hc⟩ := minOf_isSome h
    rw [State.viol_some s hc]
    have hcounted := s.violCounted_only p codes.length
    generalize s.violCounted p codes.length = u at *
    split
    · exact hcounted
    · exact hcounted.trans ⟨rfl, u.violCaptured_regsKept p c tag op⟩

theorem State.violCounted_reads (s : State) (p n : Nat) : (s.violCounted p n).rd R.PORT_STATUS_VIOL (p / 8) (p % 8) = 1 ∧
    bit ((s.violCounted p n).evt (1 + p / 16)).pending (p % 16) = true ∧
    (s.violCounted p n).rd R.PORT_VIOL_CNT_COUNT (p / 8) (p % 8) =
      satAdd R.PORT_VIOL_CNT_COUNT.width (s.rd R.PORT_VIOL_CNT_COUNT (p / 8) (p % 8)) n ∧
    ∀ f : Fld, f.ix ≠ R.PORT_STATUS_VIOL.ix → f.ix ≠ R.PORT_VIOL_CNT_COUNT.ix → ∀ i j, (s.violCounted p n).rd f i j = s.rd f i j := by
  unfold State.violCounted
  refine ⟨State.setBit_rd_self _ R.PORT_STATUS_VIOL _ _, ?_, ?_, fun f hviol hcount i j => ?_⟩
  · rw [State.raisePort, State.raise_evt_pending, bit_or, bit_two_pow]
    simp
  · exact (State.setBit_rd_ne _ (by decide) _ _ _ _).trans (State.bump_rd_self s R.PORT_VIOL_CNT_COUNT _ _ n)
  · exact (State.setBit_rd_ne _ hviol _ _ _ _).trans (State.bump_rd_ne s hcount _ _ _ _ _)

theorem State.violCaptured_reads (s : State) (p c tag op : Nat) :
    (s.violCaptured p c tag op).rd R.PORT_VIOL_FIRST_VALID (p / 8) (p % 8) = 1 ∧
      (s.violCaptured p c tag op).rd R.PORT_VIOL_FIRST_CODE (p / 8) (p % 8) = c % 2 ^ R.PORT_VIOL_FIRST_CODE.width ∧
      (s.violCaptured p c tag op).evts = s.evts ∧
      ∀ f : Fld, f.ix ≠ R.PORT_VIOL_FIRST_CODE.ix → f.ix ≠ R.PORT_VIOL_FIRST_TAG.ix → f.ix ≠ R.PORT_VIOL_FIRST_OP.ix → f.ix ≠ R.PORT_VIOL_FIRST_VALID.ix →
        ∀ i j, (s.violCaptured p c tag op).rd f i j = s.rd f i j := by
  unfold State.violCaptured
  refine ⟨State.wr_rd_self _ R.PORT_VIOL_FIRST_VALID _ _ 1, ?_, rfl, fun f hcode htag hop hvalid i j => ?_⟩
  · rw [State.wr_rd_ne _ (by decide), State.wr_rd_ne _ (by decide), State.wr_rd_ne _ (by decide), State.wr_rd_self]
  · rw [State.wr_rd_ne _ hvalid, State.wr_rd_ne _ hop, State.wr_rd_ne _ htag, State.wr_rd_ne _ hcode]

/-- What is read after a violation. -/
theorem State.viol_reads (s : State) {codes : List Nat} {c : Nat} (h : minOf codes = some c) (p tag op : Nat) :
    (s.viol p codes tag op).rd R.PORT_STATUS_VIOL (p / 8) (p % 8) = 1 ∧
      bit ((s.viol p codes tag op).evt (1 + p / 16)).pending (p % 16) = true ∧
      (s.viol p codes tag op).rd R.PORT_VIOL_CNT_COUNT (p / 8) (p % 8) =
        satAdd R.PORT_VIOL_CNT_COUNT.width (s.rd R.PORT_VIOL_CNT_COUNT (p / 8) (p % 8)) codes.length ∧
      (s.rd R.PORT_VIOL_FIRST_VALID (p / 8) (p % 8) ≠ 1 →
        (s.viol p codes tag op).rd R.PORT_VIOL_FIRST_VALID (p / 8) (p % 8) = 1 ∧
          (s.viol p codes tag op).rd R.PORT_VIOL_FIRST_CODE (p / 8) (p % 8) = c % 2 ^ R.PORT_VIOL_FIRST_CODE.width) ∧
      (s.rd R.PORT_VIOL_FIRST_VALID (p / 8) (p % 8) = 1 →
        (s.viol p codes tag op).rd R.PORT_VIOL_FIRST_CODE (p / 8) (p % 8) = s.rd R.PORT_VIOL_FIRST_CODE (p / 8) (p % 8)) := by
  rw [State.viol_some s h]
  obtain ⟨hviol, hpending, hcount, hother⟩ := s.violCounted_reads p codes.length
  have hvalid := hother R.PORT_VIOL_FIRST_VALID (by decide) (by decide) (p / 8) (p % 8)
  have hcode := hother R.PORT_VIOL_FIRST_CODE (by decide) (by decide) (p / 8) (p % 8)
  generalize s.violCounted p codes.length = u at *
  rw [← hvalid]
  split
  · next hv => exact ⟨hviol, hpending, hcount, fun hne => absurd hv hne, fun _ => hcode⟩
  · next hv =>
    obtain ⟨cvalid, ccode, cevts, cother⟩ := u.violCaptured_reads p c tag op
    refine ⟨(cother _ (by decide) (by decide) (by decide) (by decide) _ _).trans hviol, ?_,
      (cother _ (by decide) (by decide) (by decide) (by decide) _ _).trans hcount, fun _ => ⟨cvalid, ccode⟩, fun hv' => absurd hv' hv⟩
    exact (congrArg (fun e => bit (Tab.get ({} : EvtGrp) e (1 + p / 16)).pending (p % 16)) cevts).trans hpending

/-! ### A beat in the cycle of its command -/

theorem State.beatCycle_reached {s : State} {p c : Nat} (hc : s.cclk = c) (htake : (s.port p).takeAt ≤ c) : s.atCycle (s.beatCycle p c) = s :=
  State.atCycle_reached (hc.trans (max_eq_left htake).symm)

theorem State.request_now {s : State} {p c : Nat} (hc : s.cclk = c) (htake : (s.port p).takeAt ≤ c) (hready : s.takesRequest p = true)
    (hclk : s.gclkRuns p = true) (op : Nat) (r : Req) : s.request p op r c = s.takeRequest p op r := by
  unfold State.request
  rw [State.beatCycle_reached hc htake]
  dsimp only
  rw [hready, hclk]
  rfl

theorem State.dataBeat_now {s : State} {p c : Nat} (hc : s.cclk = c) (htake : (s.port p).takeAt ≤ c) (hclk : s.gclkRuns p = true) (b : Beat) (last : Bool) :
    s.dataBeat p b last c = s.takeData p b last := by
  unfold State.dataBeat
  rw [State.beatCycle_reached hc htake]
  exact if_pos hclk

/-- The command of a request beat takes the beat at its port. -/
theorem exec_request (s : State) {p op c : Nat} {r : Req} {i : Instr}
    (hi : (op, i) ∈ [(0, Instr.read p r c), (1, .write p r c), (2, .prefetch p r c), (3, .zero p r c), (4, .preload p r c), (5, .unlock p r c),
      (6, .hold p r c), (7, .drop p r c), (8, .create p r none c)] ∨ (9 ≤ op ∧ op < 16 ∧ i = .opUnknown p op r c)) :
    exec i s = .next (s.request p op r c) := by
  rcases hi with hi | ⟨hlo, hhi, rfl⟩
  · simp only [List.mem_cons, Prod.mk.injEq, List.not_mem_nil, or_false] at hi
    rcases hi with ⟨rfl, rfl⟩ | ⟨rfl, rfl⟩ | ⟨rfl, rfl⟩ | ⟨rfl, rfl⟩ | ⟨rfl, rfl⟩ | ⟨rfl, rfl⟩ | ⟨rfl, rfl⟩ | ⟨rfl, rfl⟩ | ⟨rfl, rfl⟩
    all_goals rfl
  · change execOpUnknown p op r c s = _
    unfold execOpUnknown
    rw [Nat.mod_eq_of_lt hhi, if_pos (Or.inl hlo)]

/-! ### A request beat (R112 to R118, R144) -/

/-- The opcode or the kind of port makes the beat a protocol error. -/
def State.opUnserved (s : State) (p op : Nat) : Bool := decide (9 ≤ op) || (s.portKind p == 2 && decide (6 ≤ op))

/-- So does an address that is not aligned. -/
def State.misaligned (s : State) (p op : Nat) (r0 : Req) : Bool := s.portKind p == 2 && (trimReq r0 (s.portKind p) op).addr % 64 != 0

/-- The request as the port passes it on: its flow is named, its colour and its privilege are cut. -/
def State.reqTaken (s : State) (p op : Nat) (r0 : Req) : Req :=
  let r := trimReq r0 (s.portKind p) op
  { r with
    flow := if r.flow = 0 then s.rd R.PORT_DEFAULT_FLOW_FLOW (p / 8) (p % 8) else r.flow
    colour := min r.colour 2, priv := min r.priv (s.rd R.PORT_CFG_PRIV_MAX (p / 8) (p % 8)) }

/-- The violations of a request beat. -/
def State.reqCodes (s : State) (p op : Nat) (r0 : Req) : List Nat :=
  let r := trimReq r0 (s.portKind p) op
  (if s.opUnserved p op then [1] else []) ++ (if (s.port p).tags.contains r.tag then [2] else []) ++ (if s.misaligned p op r0 then [3] else []) ++
    (if r.colour = 3 then [4] else []) ++ (if s.rd R.PORT_CFG_PRIV_MAX (p / 8) (p % 8) < r.priv then [5] else []) ++
    (if s.portKind p = 1 && r.wait && op != 8 then [9] else []) ++
    (if unusedField (s.portKind p) op { r0 with x := r0.x % 65536, y := r0.y % 65536 } then [13] else [])

/-- The beat is counted, with its violations. -/
def State.reqNoted (s : State) (p op : Nat) (r0 : Req) : State :=
  let r := trimReq r0 (s.portKind p) op
  let u := if op ≤ 8 then s.count (s.occAt (0x010 + op) 1 (s.attrOf p (s.reqTaken p op r0))) else s
  (u.count (u.occAt 0x019 1 (u.attrOf p (s.reqTaken p op r0)))).viol p (s.reqCodes p op r0) r.tag (op % 16)

/-- The transfer that a request beat begins, in the state `u` that has counted it. -/
def State.xferOf (s u : State) (p op : Nat) (r0 : Req) : Xfer :=
  { id := u.nextId, op := op, req := s.reqTaken p op r0, need := needBeats (s.portKind p) op (s.reqTaken p op r0)
    closed := needBeats (s.portKind p) op (s.reqTaken p op r0) == 0, proto := s.opUnserved p op || s.misaligned p op r0, t0 := u.cclk
    epoch := u.tick.epoch, cls := u.classRead (s.reqTaken p op r0).flow }

/-- The traffic unit learns of a request of flow `f`, which begins transfer `id`. -/
def State.flowNoted (s : State) (id f : Nat) : State :=
  let miss := !s.traffic.fcache.contains f && !s.traffic.fwait.contains f
  let s := if miss then (s.bump R.TR_FCACHE_MISS_COUNT 0 0 1).count { ev := 0x0AB } else s
  let s := { s.count { ev := 0x0AA } with
    nextId := s.nextId + 1
    traffic := { s.traffic with
      live := Tab.insert id (f, s.cclk) s.traffic.live
      fwait := if s.traffic.fcache.contains f ∨ s.traffic.fwait.contains f then s.traffic.fwait else s.traffic.fwait ++ [f] } }
  s.notePend f

/-- The transfer joins the queue of its port, and the link wakes. -/
def State.queued (s : State) (p : Nat) (x : Xfer) : State :=
  (s.setPort p { s.port p with
    tags := (s.port p).tags ++ [x.req.tag], queue := (s.port p).queue ++ [x], takeAt := s.cclk + 1
    lreqFrom := if (s.port p).queue.isEmpty ∧ (s.port p).lreqTo ≤ s.cclk then s.cclk else (s.port p).lreqFrom }).wakeLink (p / 8)

theorem State.takeRequest_busy {s : State} {p : Nat} {r0 : Req} (h : r0.tag % 1024 ∈ (s.port p).tags) (op : Nat) :
    s.takeRequest p op r0 = s.reqNoted p op r0 := by
  refine if_pos ?_
  exact List.contains_iff_mem.2 h

theorem State.takeRequest_free {s : State} {p : Nat} {r0 : Req} (h : r0.tag % 1024 ∉ (s.port p).tags) (op : Nat) :
    s.takeRequest p op r0 = ((s.reqNoted p op r0).flowNoted (s.reqNoted p op r0).nextId (s.reqTaken p op r0).flow).queued p
      (s.xferOf (s.reqNoted p op r0) p op r0) := by
  refine (if_neg ?_).trans rfl
  exact fun hmem => h (List.contains_iff_mem.1 hmem)

theorem State.reqNoted_only (s : State) (p op : Nat) (r0 : Req) : s.violOnly p (s.reqNoted p op r0) := by
  unfold State.reqNoted
  refine State.violOnly.trans (State.violOnly_of_metered ?_ p) (State.viol_only _ p _ _ _)
  exact (State.metered.ite _ (s.metered_refl.count _) s.metered_refl).count _

theorem State.reqNoted_viol {s : State} {p : Nat} {r0 : Req} (h : r0.tag % 1024 ∈ (s.port p).tags) (op : Nat) :
    (s.reqNoted p op r0).rd R.PORT_STATUS_VIOL (p / 8) (p % 8) = 1 := by
  have hcodes : s.reqCodes p op r0 ≠ [] := by
    have hbusy : (s.port p).tags.contains (trimReq r0 (s.portKind p) op).tag = true := List.contains_iff_mem.2 h
    unfold State.reqCodes
    simp only [hbusy]
    simp
  obtain ⟨c, hc⟩ := minOf_isSome hcodes
  exact (State.viol_reads _ hc p _ _).1

/-- `t` is `s` but for what the traffic unit learns with a request. -/
def State.flowOnly (s t : State) : Prop :=
  t = { s with regs := t.regs, meas := t.meas, nextId := s.nextId + 1
               traffic := { s.traffic with live := t.traffic.live, fwait := t.traffic.fwait, flows := t.traffic.flows } } ∧
    s.flowsKept t ∧ s.regsKept t [⟨R.TR_FCACHE_MISS_COUNT, 0, 0⟩]

theorem State.flowsKept_notePend (s : State) (f : Nat) : s.flowsKept (s.notePend f) := by
  intro n
  unfold State.notePend State.setFlow
  dsimp only
  by_cases hn : n = f
  · rw [hn, Tab.get_insert_self]
  · rw [Tab.get_insert_ne hn]

theorem State.flowNoted_only (s : State) (id f : Nat) : s.flowOnly (s.flowNoted id f) := by
  unfold State.flowNoted
  dsimp only
  split
  · refine ⟨rfl, State.flowsKept_notePend _ f, ?_⟩
    exact State.regsKept_congr (s.bump_regsKept R.TR_FCACHE_MISS_COUNT 0 0 1) rfl rfl
  · exact ⟨rfl, State.flowsKept_notePend _ f, State.regsKept_of_regs rfl rfl _⟩

theorem State.queued_port_self (s : State) (p : Nat) (x : Xfer) : ((s.queued p x).port p).queue = (s.port p).queue ++ [x] ∧
    ((s.queued p x).port p).tags = (s.port p).tags ++ [x.req.tag] ∧ ((s.queued p x).port p).takeAt = s.cclk + 1 := by
  have hself : (s.queued p x).port p = _ := State.setPort_port_self s p _
  rw [hself]
  exact ⟨rfl, rfl, rfl⟩

theorem State.queued_port_ne (s : State) {p q : Nat} (h : q ≠ p) (x : Xfer) : (s.queued p x).port q = s.port q := State.setPort_port_ne s h _

theorem State.queued_group_self (s : State) (p : Nat) (x : Xfer) : (s.queued p x).group (p / 8) = { s.group (p / 8) with wake := true } :=
  State.setGroup_group_self _ _ _

theorem State.queued_group_ne (s : State) {p h : Nat} (hne : h ≠ p / 8) (x : Xfer) : (s.queued p x).group h = s.group h :=
  State.setGroup_group_ne _ hne _

theorem State.queued_only (s : State) (p : Nat) (x : Xfer) : s.queued p x = { s with ports := (s.queued p x).ports, groups := (s.queued p x).groups } := rfl

/-- The request that the port passes on, field by field (R112 to R118). -/
theorem State.reqTaken_fields (s : State) (p op : Nat) (r : Req) :
    (s.reqTaken p op r).tag = r.tag % 1024 ∧ (s.reqTaken p op r).colour = min (r.colour % 4) 2 ∧
      (s.reqTaken p op r).priv = min (r.priv % 4) (s.rd R.PORT_CFG_PRIV_MAX (p / 8) (p % 8)) ∧
      (s.reqTaken p op r).flow =
        (if r.flow % 2 ^ 20 = 0 then s.rd R.PORT_DEFAULT_FLOW_FLOW (p / 8) (p % 8) else r.flow % 2 ^ 20) ∧
      (s.portKind p = 2 → (s.reqTaken p op r).addr = r.addr % 2 ^ 40 ∧ (s.reqTaken p op r).len = r.len % 64) ∧
      (op ≠ 8 → (s.reqTaken p op r).handle = r.handle % 2 ^ 24) ∧
      (op ≤ 5 → (s.reqTaken p op r).x = r.x % 65536 ∧ (s.reqTaken p op r).y = r.y % 65536 ∧ (s.reqTaken p op r).w = r.w % 128 ∧
        (s.reqTaken p op r).h = r.h % 64 ∧ (s.reqTaken p op r).plane = r.plane % 4) := by
  refine ⟨rfl, rfl, rfl, rfl, fun hkind => ⟨if_pos hkind, if_pos hkind⟩, fun hop => if_neg hop, fun hop => ?_⟩
  have hblk : op ≠ 6 ∧ op ≠ 7 ∧ op ≠ 8 := by omega
  exact ⟨if_pos hblk, if_pos hblk, if_pos hblk, if_pos hblk, if_pos hblk⟩

theorem State.opUnserved_iff (s : State) (p op : Nat) : s.opUnserved p op = true ↔ 9 ≤ op ∨ (s.portKind p = 2 ∧ 6 ≤ op) := by
  simp [State.opUnserved]

theorem State.misaligned_iff (s : State) (p op : Nat) (r : Req) : s.misaligned p op r = true ↔ s.portKind p = 2 ∧ r.addr % 64 ≠ 0 := by
  unfold State.misaligned trimReq
  simp only [Bool.and_eq_true, beq_iff_eq, bne_iff_ne]
  refine and_congr_right fun hkind => ?_
  rw [if_pos hkind, Nat.mod_mod_of_dvd _ (by decide : 64 ∣ 2 ^ 40)]

/-- The data beats of a request (R116). -/
theorem State.needBeats_reqTaken (s : State) (p op : Nat) (r : Req) :
    needBeats (s.portKind p) op (s.reqTaken p op r) = if op = 8 then 1 else if op ≠ 1 then 0 else if s.portKind p = 2 then r.len % 64 + 1
      else cdiv ((r.w % 128 + 1) * (r.h % 64 + 1)) 32 := by
  obtain ⟨-, -, -, -, hlin, -, hblk⟩ := s.reqTaken_fields p op r
  unfold needBeats
  split
  · rfl
  · split
    · next hop =>
      obtain ⟨-, -, hw, hh, -⟩ := hblk (by omega)
      rw [if_neg (not_not.2 hop), hw, hh]
      split
      · next hkind => rw [(hlin hkind).2]
      · rfl
    · rfl

end Sys2Proof.Machine

open Sys2Proof Sys2Proof.Machine

/-- Settles O35: a beat is counted with its violations, then dropped where its tag is outstanding, else queued. -/
theorem requestTaken : Obligations.RequestTaken := by
  unfold Obligations.RequestTaken
  refine ⟨?_, fun s p c r d => ⟨_, rfl, ?_⟩⟩
  swap
  · change execCreate p r (some d) c s = _
    unfold execCreate
    dsimp only
    split
    · rfl
    · rfl
  intro s p op c r i hc htake hready hclk hi kind unknown
  have hexec : exec i s = .next (s.takeRequest p op r) :=
    (exec_request s hi).trans (congrArg _ (State.request_now hc htake hready hclk op r))
  have hnoted := s.reqNoted_only p op r
  refine ⟨fun hfree => ?_, fun hbusy => ?_⟩
  · obtain ⟨htag, hcolour, hpriv, hflow, hlin, hhandle, hblk⟩ := s.reqTaken_fields p op r
    have hneed (_ : ¬unknown) := s.needBeats_reqTaken p op r
    have hproto : (s.opUnserved p op || s.misaligned p op r) = true ↔ unknown ∨ (kind = 2 ∧ r.addr % 64 ≠ 0) := by
      rw [Bool.or_eq_true, State.opUnserved_iff, State.misaligned_iff]
    refine ⟨_, hexec.trans (congrArg _ (State.takeRequest_free hfree op)), s.xferOf (s.reqNoted p op r) p op r, ?_⟩
    obtain ⟨heq, hkept⟩ := hnoted
    generalize s.reqNoted p op r = u at *
    obtain ⟨hfeq, hflows, hfkept⟩ := u.flowNoted_only u.nextId (s.reqTaken p op r).flow
    generalize u.flowNoted u.nextId (s.reqTaken p op r).flow = v at *
    obtain ⟨hqueue, htags, hat⟩ := v.queued_port_self p (s.xferOf u p op r)
    have hport (q : Nat) : v.port q = s.port q := by rw [hfeq, heq]; rfl
    have hgroup (h : Nat) : v.group h = s.group h := by rw [hfeq, heq]; rfl
    have hcclk : v.cclk = c := by rw [hfeq, heq]; exact hc
    rw [hport] at hqueue htags
    rw [hcclk] at hat
    refine ⟨hqueue, ?_, ?_, rfl, ?_, rfl, rfl, beq_iff_eq, htag, hcolour, hpriv, hflow, hlin, hhandle, hblk, hneed, hproto, ?_, ?_, hat,
      fun q hq => (v.queued_port_ne hq _).trans (hport q), ?_, ?_, ?_, fun h hh => (v.queued_group_ne hh _).trans (hgroup h), ?_, ?_⟩
    · rw [htags]
      exact congrArg (fun n => (s.port p).tags ++ [n]) htag
    · change u.nextId = s.nextId
      rw [heq]
    · change u.cclk = c
      rw [heq]
      exact hc
    · rw [heq]
      rfl
    · change u.tick.epoch = s.tick.epoch
      rw [heq]
    · rw [State.queued_only, hfeq, heq]
    · exact fun f => (hflows f).trans (by rw [heq]; rfl)
    · rw [State.queued_group_self, hgroup]
    · rw [State.queued_only, hfeq, heq]
    · exact State.regsKept_congr (State.regsKept_mono (State.regsKept_trans hkept hfkept) (by simp [or_comm])) rfl rfl
  · exact ⟨_, hexec.trans (congrArg _ (State.takeRequest_busy hbusy op)), State.reqNoted_viol hbusy op, hnoted⟩

end

section
/-! Write data beats, response beats, and the attachment of ports. -/

namespace Sys2Proof.Machine
open Sys2Proof

/-! ### Write data beats (R116, R117, R139, R144) -/

theorem exec_writeDataBeat_now {s : State} {p c : Nat} (hc : s.cclk = c) (htake : (s.port p).takeAt ≤ c) (hclk : s.gclkRuns p = true) (d : BitVec 512)
    (m : BitVec 64) (last : Bool) : exec (.writeDataBeat p d m last c) s = .next (s.takeData p { data := d, mask := m } last) :=
  congrArg Host.Outcome.next (State.dataBeat_now hc htake hclk _ last)

theorem State.takeData_forced {s : State} {p : Nat} (h : (s.port p).forced = true) (b : Beat) (last : Bool) : s.takeData p b last = s := if_pos h

theorem Port.discard_of_openWrite {q : Port} (h : q.openWrite = none) : q.discard = none := by
  unfold Port.openWrite at h
  split at h
  · cases h
  · assumption

/-- A beat for no open write. -/
theorem State.takeData_stray {s : State} {p : Nat} (hforced : (s.port p).forced = false) (hopen : (s.port p).openWrite = none) (b : Beat) (last : Bool) :
    s.takeData p b last = (s.count { ev := 0x01A, grp := some (p / 8), req := some { port := p } }).viol p [6] 0 0 := by
  unfold State.takeData
  dsimp only
  rw [if_neg (by simp [hforced]), Port.discard_of_openWrite hopen, hopen]

theorem Port.openWrite_last {q : Port} {l : List Xfer} {x : Xfer} (hdiscard : q.discard = none) (hqueue : q.queue = l ++ [x]) (hclosed : x.closed = false) :
    q.openWrite = some x := by
  unfold Port.openWrite
  rw [hdiscard, hqueue]
  simp [hclosed]

/-- The write with one beat more. -/
def Xfer.withBeat (x : Xfer) (b : Beat) (last : Bool) : Xfer := { x with beats := x.beats ++ [b], closed := last }

/-- A beat for the open write, which ends with it exactly where its request needs no more. -/
theorem State.takeData_open {s : State} {p : Nat} {l : List Xfer} {x : Xfer} (hforced : (s.port p).forced = false) (hdiscard : (s.port p).discard = none)
    (hqueue : (s.port p).queue = l ++ [x]) (hclosed : x.closed = false) {last : Bool} (hlast : last = true ↔ x.beats.length + 1 = x.need) (b : Beat) :
    s.takeData p b last = ((s.count (s.occAt 0x01A 1 (s.attrOf p x.req))).setPort p
      { s.port p with queue := l ++ [x.withBeat b last], takeAt := s.cclk + 1 }).wakeLink (p / 8) := by
  have hends : (x.beats.length + 1 == x.need) = last := by
    rw [Bool.eq_iff_iff, beq_iff_eq]
    exact hlast.symm
  have hcodes : (if last && x.beats.length + 1 != x.need then [7] else if !last && x.beats.length + 1 == x.need then [8] else [] : List Nat) = [] := by
    rw [bne, hends]
    cases last <;> rfl
  unfold State.takeData
  dsimp only
  rw [if_neg (by simp [hforced]), hdiscard, Port.openWrite_last hdiscard hqueue hclosed]
  dsimp only
  rw [hcodes, hends, hqueue, List.dropLast_concat, Bool.or_self]
  simp only [List.isEmpty_nil, Bool.not_true, Bool.or_false]
  rfl

/-! ### Response beats (R119, R120) -/

theorem State.endTrail_only (s : State) (id : Option Nat) : s.endTrail id = { s with regs := (s.endTrail id).regs, meas := (s.endTrail id).meas } ∧
    s.regsKept (s.endTrail id) [⟨R.CTR_LOSS_LOST, 0, 0⟩, ⟨R.CTR_CONS_CONS, 0, 0⟩] := by
  have hself := s.regsKept_refl [⟨R.CTR_LOSS_LOST, 0, 0⟩, ⟨R.CTR_CONS_CONS, 0, 0⟩]
  unfold State.endTrail
  split
  · exact ⟨rfl, hself⟩
  · split
    · exact ⟨rfl, hself⟩
    · dsimp only
      split
      · exact ⟨rfl, State.regsKept_bump (State.regsKept_congr hself rfl rfl) (by simp) 1⟩
      · split
        · exact ⟨rfl, State.regsKept_congr (State.regsKept_bump (State.regsKept_wr (State.regsKept_congr hself rfl rfl) (f := R.CTR_CONS_CONS) (i := 0)
            (j := 0) (by simp) _) (f := R.CTR_LOSS_LOST) (i := 0) (j := 0) (by simp) 1) rfl rfl⟩
        · exact ⟨rfl, State.regsKept_congr hself rfl rfl⟩

/-- The beat as the port shows it. -/
def Resp.shown (r : Resp) (b : RBeat) : RspOut :=
  { tag := r.tag, code := r.code, data := b.data, first := r.sent == 0, last := r.sent + 1 == r.beats.length, poison := b.poison }

/-- The port as the last beat of its first response leaves it. -/
def Port.lastBeat (q : Port) (r : Resp) (l : List Resp) (b : RBeat) : Port :=
  { q with rsps := l, out := r.shown b, rrb := q.rrb - r.heldFor 0, tags := q.tags.filter fun n => n != r.tag }

/-- The port as another beat leaves it. -/
def Port.nextBeat (q : Port) (r : Resp) (l : List Resp) (b : RBeat) : Port :=
  { q with rsps := { r with sent := r.sent + 1 } :: l, out := r.shown b, rrb := q.rrb - (r.heldFor 0 - r.heldFor 1) }

theorem exec_responseBeat_now {s : State} {p c : Nat} {r : Resp} {l : List Resp} {b : RBeat} (hc : s.cclk = c) (hrsps : (s.port p).rsps = r :: l)
    (hready : r.readyAt ≤ c) (hbeat : r.beats[r.sent]? = some b) :
    exec (.responseBeat p c) s = .next (if r.sent + 1 = r.beats.length then
        ((((s.count (s.occAt 0x01B 1 r.rq)).setPort p ((s.port p).lastBeat r l b)).endTrail r.ctag).tryDetach p)
      else (s.count (s.occAt 0x01B 1 r.rq)).setPort p ((s.port p).nextBeat r l b)) := by
  have hget : r.beats.getD r.sent { data := 0 } = b := by rw [List.getD_eq_getElem?_getD, hbeat]; rfl
  change execResponseBeat p c s = _
  unfold execResponseBeat
  dsimp only
  rw [State.atCycle_reached hc, hrsps]
  dsimp only
  rw [if_neg (by omega), hget]
  by_cases hlast : r.sent + 1 = r.beats.length
  · rw [if_pos hlast, if_pos (beq_iff_eq.2 hlast)]
    rfl
  · rw [if_neg hlast, if_neg (by simpa using hlast)]
    rfl

theorem State.tryDetach_staying {s : State} {p : Nat} (h : (s.port p).detaching = false) : s.tryDetach p = s := if_pos (Or.inl h)

end Sys2Proof.Machine

open Sys2Proof Sys2Proof.Machine

/-- Settles O36: the three ends of a data beat, and the last and other beats of a response. -/
theorem portBeats : Obligations.PortBeats := by
  unfold Obligations.PortBeats
  refine ⟨fun s p c d m last l x hc htake hclk => ?_, fun s p c r l b hc hrsps hready hbeat hstay => ?_⟩
  · have hexec := exec_writeDataBeat_now hc htake hclk d m last
    refine ⟨fun hforced => ?_, fun hforced hopen => ?_, fun hforced hdiscard hqueue hclosed hlast => ?_⟩
    · rw [hexec, State.takeData_forced hforced]
    · rw [State.takeData_stray hforced hopen] at hexec
      exact ⟨_, hexec, (State.viol_reads _ (c := 6) rfl p 0 0).1,
        State.violOnly.trans (State.violOnly_of_metered (s.metered_refl.count _) p) (State.viol_only _ p [6] 0 0)⟩
    · rw [State.takeData_open hforced hdiscard hqueue hclosed hlast] at hexec
      refine ⟨_, hexec, (State.setPort_port_self _ p _).trans ?_, fun q hq => State.setPort_port_ne _ hq _, State.setGroup_group_self _ _ _,
        fun h hh => State.setGroup_group_ne _ hh _, rfl⟩
      rw [hc]
      rfl
  · have hexec := exec_responseBeat_now hc hrsps hready hbeat
    by_cases hlast : r.sent + 1 = r.beats.length
    · rw [if_pos hlast] at hexec
      have hport : (((s.count (s.occAt 0x01B 1 r.rq)).setPort p ((s.port p).lastBeat r l b)).port p) = (s.port p).lastBeat r l b :=
        State.setPort_port_self _ _ _
      have hother (q : Nat) (hq : q ≠ p) : ((s.count (s.occAt 0x01B 1 r.rq)).setPort p ((s.port p).lastBeat r l b)).port q = s.port q :=
        State.setPort_port_ne _ hq _
      have hset : ((s.count (s.occAt 0x01B 1 r.rq)).setPort p ((s.port p).lastBeat r l b)) = { s with
          meas := (s.count (s.occAt 0x01B 1 r.rq)).meas, ports := ((s.count (s.occAt 0x01B 1 r.rq)).setPort p ((s.port p).lastBeat r l b)).ports } := rfl
      generalize (s.count (s.occAt 0x01B 1 r.rq)).meas = m at hset
      generalize (s.count (s.occAt 0x01B 1 r.rq)).setPort p ((s.port p).lastBeat r l b) = v at *
      obtain ⟨heq, hkept⟩ := v.endTrail_only r.ctag
      have hports (q : Nat) : (v.endTrail r.ctag).port q = v.port q := by rw [heq]; rfl
      have hself : (v.endTrail r.ctag).port p = (s.port p).lastBeat r l b := (hports p).trans hport
      rw [State.tryDetach_staying (by rw [hself]; exact hstay)] at hexec
      generalize v.endTrail r.ctag = w at *
      refine ⟨w, hexec, ?_, fun _ => ?_, fun h => absurd hlast h, ?_, ?_, ?_, fun q hq => (hports q).trans (hother q hq), ?_, ?_⟩
      · rw [hself]
        rfl
      · rw [hself]
        refine ⟨rfl, ?_, fun n hn => ?_⟩
        · simp [Port.lastBeat]
        · simp [Port.lastBeat, hn]
      · rw [hself, if_pos hlast]
        rfl
      · rw [hself]
        rfl
      · rw [hself]
        rfl
      · rw [heq, hset]
      · exact State.regsKept_trans (State.regsKept_of_regs (by rw [hset]) (by rw [hset]) []) hkept
    · rw [if_neg hlast] at hexec
      have hport : (((s.count (s.occAt 0x01B 1 r.rq)).setPort p ((s.port p).nextBeat r l b)).port p) = (s.port p).nextBeat r l b :=
        State.setPort_port_self _ _ _
      refine ⟨_, hexec, ?_, fun h => absurd h hlast, fun _ => ?_, ?_, ?_, ?_, fun q hq => State.setPort_port_ne _ hq _, rfl, State.regsKept_of_regs rfl rfl _⟩
      · rw [hport]
        rfl
      · rw [hport]
        exact ⟨rfl, rfl⟩
      · rw [hport, if_neg hlast]
        rfl
      · rw [hport]
        rfl
      · rw [hport]
        rfl

end

section
/-! Attach, detach and a request at a detached port. -/

namespace Sys2Proof

/-- The last of two writes of a key stays. -/
theorem Tab.insert_insert {α : Type} (k : Nat) (v w : α) (t : Tab α) : Tab.insert k v (Tab.insert k w t) = Tab.insert k v t := by
  induction t with
  | nil => simp [Tab.insert]
  | cons e t ih =>
    obtain ⟨a, u⟩ := e
    by_cases hlt : k < a
    · simp [Tab.insert, hlt]
    · by_cases heq : k = a
      · simp [Tab.insert, heq]
      · simp [Tab.insert, hlt, heq, ih]

end Sys2Proof

namespace Sys2Proof.Machine
open Sys2Proof

theorem State.setPort_setPort (s : State) (p : Nat) (x y : Port) : (s.setPort p x).setPort p y = s.setPort p y := by
  unfold State.setPort
  rw [Tab.insert_insert]

theorem State.detachOver_iff (s : State) (p : Nat) :
    s.detachOver p = true ↔ (s.waits.any fun w => w.port == p) = false ∧ (s.sm.inbox.any fun a => a.port == some p) = false := by
  simp [State.detachOver]

/-- A port of which nothing stands at the surface manager. -/
theorem State.inSm_none {s : State} {p : Nat} (hwaits : (s.sm.waits.any fun w => w.port == p) = false)
    (hinbox : (s.sm.inbox.any fun a => a.port == some p) = false) : s.inSm p = false := by
  unfold State.inSm
  rw [hwaits, Bool.false_or, List.any_eq_false]
  rw [List.any_eq_false] at hinbox
  intro a ha
  have hport := hinbox a ha
  split
  · next q g x hact =>
    simp only [SmItem.port, hact, beq_iff_eq, Option.some.injEq] at hport
    simp [hport]
  · simp

/-- No CREATE of the port waits. -/
theorem State.endWaits_none {s : State} {p : Nat} (h : (s.sm.waits.any fun w => w.port == p) = false) (tell : Bool) : s.endWaits p tell = s := by
  have hnone : (s.sm.waits.filter fun w => w.port == p) = [] := by
    rw [List.filter_eq_nil_iff]
    exact List.any_eq_false.1 h
  unfold State.endWaits
  rw [hnone]
  rfl

theorem State.latchWake_run {s : State} (h : s.power.st = 0) (src : Nat) : s.latchWake src = s := by
  unfold State.latchWake
  rw [if_neg (by omega), if_neg (by omega)]

/-- The detached port: it has no port record of its own life left but its tags. -/
def State.detached (s : State) (p : Nat) : State :=
  let s := s.setPort p { s.port p with attached := false, detaching := false, gen := (s.port p).gen + 1 }
  ((s.dropHolds p).setBit R.PORT_STATUS_DETACH_EVT (p / 8) (p % 8)).raisePort p

theorem State.tryDetach_busy {s : State} {p : Nat} (h : (s.port p).queue ≠ [] ∨ (s.port p).rsps ≠ []) : s.tryDetach p = s := by
  refine if_pos ?_
  rcases h with h | h
  · exact Or.inr (Or.inl (by simpa using h))
  · exact Or.inr (Or.inr (Or.inr (Or.inl (by simpa using h))))

theorem State.tryDetach_done {s : State} {p : Nat} (hdetaching : (s.port p).detaching = true) (hqueue : (s.port p).queue = []) (hrsps : (s.port p).rsps = [])
    (hdiscard : (s.port p).discard = none) (hwaits : (s.waits.any fun w => w.port == p) = false) (hsm : s.inSm p = false) :
    s.tryDetach p = s.detached p := by
  refine (if_neg ?_).trans rfl
  simp [hdetaching, hqueue, hrsps, hdiscard, hwaits, hsm]

/-! ### The pin (R137, R138) -/

theorem exec_attachRequest_run {s : State} {p : Nat} (hrun : s.power.st = 0) (hpin : (s.port p).pin = false) (hpresent : s.presence p = true)
    (hattached : (s.port p).attached = false) (hlow : (s.port p).sawLow = true) :
    exec (.attachRequest p) s = .next (s.setPort p { s.port p with pin := true }) := by
  change execAttachRequest p s = _
  unfold execAttachRequest
  dsimp only
  have hearly : (!s.presence p || (s.port p).attached || !(s.port p).sawLow) = false := by
    rw [hpresent, hattached, hlow]
    rfl
  rw [if_neg (by simp [hpin]), hearly, Bool.false_and, if_neg Bool.false_ne_true,
    State.latchWake_run (s := s.setPort p { s.port p with pin := true }) hrun 1, ite_self]

/-- The port as the fall of its pin leaves it, while it is attached. -/
def Port.leaving (q : Port) : Port := { q with pin := false, sawLow := true, detaching := true }

/-- The port as its attachment leaves it. -/
def Port.attachedNow (q : Port) : Port :=
  { q with attached := true, detaching := false, forced := false, sawLow := false, tags := [], rsps := [], queue := [], discard := none }

theorem exec_portAttach_run {s : State} {p : Nat} (hrun : s.power.st = 0) (hclk : s.gclkRuns p = true) (hover : s.detachOver p = true)
    (hpin : (s.port p).pin = true) (hpresent : s.presence p = true) (hattached : (s.port p).attached = false) (hlow : (s.port p).sawLow = true) :
    exec (.portAttach p) s =
      .next (((s.setPort p (s.port p).attachedNow).setBit R.PORT_STATUS_ATTACH_EVT (p / 8) (p % 8)).raisePort p) := by
  refine (if_neg ?_).trans rfl
  simp [hrun, hclk, hover, hpin, hpresent, hattached, hlow]

theorem exec_detachRequest_run {s : State} {p : Nat} (hpin : (s.port p).pin = true) (hattached : (s.port p).attached = true)
    (hopen : (s.port p).openWrite = none) (hwaits : (s.sm.waits.any fun w => w.port == p) = false) :
    exec (.detachRequest p) s = .next ((s.setPort p (s.port p).leaving).tryDetach p) := by
  change execDetachRequest p s = _
  unfold execDetachRequest
  dsimp only
  rw [if_neg (by simp [hpin]), if_neg (by simp [hattached]), hopen]
  dsimp only
  rw [State.setPort_port_self, State.setPort_setPort]
  exact congrArg (fun u : State => Host.Outcome.next (u.tryDetach p)) (State.endWaits_none (s := s.setPort p (s.port p).leaving) hwaits true)

theorem exec_reqDetached_run {s : State} {p : Nat} (hattached : (s.port p).attached = false) (hforced : (s.port p).forced = false)
    (hclk : s.gclkRuns p = true) : exec (.reqDetached p) s = .next (s.viol p [10] 0 0) := by
  refine if_neg ?_
  simp [hattached, hforced, hclk]

theorem State.dropHolds_eq (s : State) (p : Nat) : s.dropHolds p = { s with sm := { s.sm with
    inbox := if s.rd R.PORT_CTL_KEEP_HOLDS (p / 8) (p % 8) = 1 then s.sm.inbox
      else s.sm.inbox ++ [{ at_ := s.cclk, slice := p / 8, act := .release p }] } } := by
  unfold State.dropHolds
  split
  · rfl
  · rfl

end Sys2Proof.Machine

open Sys2Proof Sys2Proof.Machine

/-- Settles O37: each change of the pin in the state the statement names, and the violation of a request without a port. -/
theorem attachDetach : Obligations.AttachDetach := by
  unfold Obligations.AttachDetach
  refine ⟨fun s p hrun hclk hover => ⟨fun hpin hpresent hattached hlow => exec_attachRequest_run hrun hpin hpresent hattached hlow,
    fun hpin hpresent hattached hlow => ?_, fun hpin hattached hopen hwaits => ⟨fun hbusy => ?_, fun hqueue hrsps => ?_⟩⟩,
    fun s p hforced => if_pos (Or.inr (Or.inl hforced)), fun s p hattached hforced hclk => ?_⟩
  · have hself : ((((s.setPort p (s.port p).attachedNow).setBit R.PORT_STATUS_ATTACH_EVT (p / 8) (p % 8)).raisePort p).port p) = (s.port p).attachedNow :=
      State.setPort_port_self s p _
    refine ⟨_, exec_portAttach_run hrun hclk hover hpin hpresent hattached hlow, ?_, ?_, ?_, ?_, ?_, ?_, fun q hq => State.setPort_port_ne s hq _, rfl, ?_⟩
    · rw [hself]
      rfl
    · rw [hself]
      rfl
    · rw [hself]
      rfl
    · rw [hself]
      rfl
    · exact State.setBit_rd_self _ R.PORT_STATUS_ATTACH_EVT _ _
    · rw [State.raisePort, State.raise_evt_pending, bit_or, bit_two_pow]
      simp
    · exact State.regsKept_congr (State.setBit_regsKept (s.setPort p (s.port p).attachedNow) R.PORT_STATUS_ATTACH_EVT (p / 8) (p % 8)) rfl rfl
  · rw [exec_detachRequest_run hpin hattached hopen hwaits, State.tryDetach_busy]
    · rfl
    rw [State.setPort_port_self]
    exact hbusy
  · obtain ⟨hnowait, hnoinbox⟩ := (s.detachOver_iff p).1 hover
    have hexec := exec_detachRequest_run hpin hattached hopen hwaits
    have hself : (s.setPort p (s.port p).leaving).port p = (s.port p).leaving := State.setPort_port_self s p _
    rw [State.tryDetach_done (s := s.setPort p (s.port p).leaving) (by rw [hself]; rfl) (by rw [hself]; exact hqueue) (by rw [hself]; exact hrsps)
      (by rw [hself]; exact Port.discard_of_openWrite hopen) hnowait
      (State.inSm_none (s := s.setPort p (s.port p).leaving) hwaits hnoinbox), State.detached, hself, State.setPort_setPort,
      State.dropHolds_eq] at hexec
    refine ⟨_, hexec, State.setPort_port_self s p _, State.setBit_rd_self _ R.PORT_STATUS_DETACH_EVT _ _, ?_, rfl, rfl, ?_⟩
    · rw [State.raisePort, State.raise_evt_pending, bit_or, bit_two_pow]
      simp
    · exact State.regsKept_congr (State.setBit_regsKept s R.PORT_STATUS_DETACH_EVT (p / 8) (p % 8)) rfl rfl
  · obtain ⟨hviol, hpending, hcount, hfirst, hlater⟩ := s.viol_reads (codes := [10]) (c := 10) rfl p 0 0
    obtain ⟨heq, hkept⟩ := s.viol_only p [10] 0 0
    exact ⟨_, exec_reqDetached_run hattached hforced hclk, hviol, hpending, hcount, hfirst, hlater, heq, hkept⟩

end

section
/-! Links: which port an idle link grants, and what a beat and a refill do to the credit counters. -/

namespace Sys2Proof.Machine
open Sys2Proof

/-! ### The order of R151 -/

/-- The order of keys of one length is total: a key not above a second, which is not above a third, is not above the third. -/
theorem lexLt_false_trans {a b c : List Nat} (hab : a.length = b.length) (hbc : b.length = c.length) (h : lexLt a b = false) (k : lexLt b c = false) :
    lexLt a c = false := by
  induction a generalizing b c with
  | nil => rfl
  | cons x a ih =>
    obtain _ | ⟨y, b⟩ := b
    · simp at hab
    obtain _ | ⟨z, c⟩ := c
    · simp at hbc
    simp only [List.length_cons, Nat.add_right_cancel_iff] at hab hbc
    simp only [lexLt, Bool.or_eq_false_iff, decide_eq_false_iff_not, Bool.and_eq_false_iff, beq_eq_false_iff_ne] at h k ⊢
    obtain ⟨hxy, htail⟩ := h
    obtain ⟨hyz, ktail⟩ := k
    refine ⟨by omega, ?_⟩
    by_cases hxz : x = z
    · exact Or.inr (ih hab hbc (htail.resolve_left (by omega)) (ktail.resolve_left (by omega)))
    · exact Or.inl hxz

theorem lexLt_asymm {a b : List Nat} (h : lexLt a b = true) : lexLt b a = false := by
  induction a generalizing b with
  | nil => simp [lexLt] at h
  | cons x a ih =>
    obtain _ | ⟨y, b⟩ := b
    · rfl
    simp only [lexLt, Bool.or_eq_true, decide_eq_true_eq, Bool.and_eq_true, beq_iff_eq, Bool.or_eq_false_iff, decide_eq_false_iff_not,
      Bool.and_eq_false_iff, beq_eq_false_iff_ne] at h ⊢
    rcases h with hlt | ⟨heq, htail⟩
    · exact ⟨by omega, Or.inl (by omega)⟩
    · exact ⟨by omega, Or.inr (ih htail)⟩

theorem lexLt_self (a : List Nat) : lexLt a a = false := by
  induction a with
  | nil => rfl
  | cons x a ih => simp [lexLt, ih]

theorem firstBy_isSome {α : Type} (key : α → List Nat) {l : List α} (h : l ≠ []) : ∃ r, firstBy key l = some r := by
  obtain _ | ⟨a, t⟩ := l
  · exact absurd rfl h
  unfold firstBy
  split
  · exact ⟨a, rfl⟩
  · split <;> exact ⟨_, rfl⟩

theorem firstBy_mem {α : Type} {key : α → List Nat} {l : List α} {r : α} (h : firstBy key l = some r) : r ∈ l := by
  induction l generalizing r with
  | nil => cases h
  | cons a t ih =>
    unfold firstBy at h
    split at h
    · simp_all
    · next b hb =>
      split at h <;> cases h
      · exact List.mem_cons_of_mem _ (ih hb)
      · exact List.mem_cons_self

/-- No element stands before the one that `firstBy` takes. -/
theorem firstBy_least {α : Type} {key : α → List Nat} {n : Nat} (hlen : ∀ a, (key a).length = n) {l : List α} {r : α} (h : firstBy key l = some r) :
    ∀ a ∈ l, lexLt (key a) (key r) = false := by
  have hle {a b c : α} := lexLt_false_trans ((hlen a).trans (hlen b).symm) ((hlen b).trans (hlen c).symm)
  induction l generalizing r with
  | nil => cases h
  | cons a t ih =>
    unfold firstBy at h
    split at h
    · next hnone =>
      cases h
      have hnil : t = [] := by
        by_contra hne
        obtain ⟨b, hb⟩ := firstBy_isSome key hne
        rw [hb] at hnone
        cases hnone
      simp [hnil, lexLt_self]
    · next b hb =>
      split at h <;> cases h
      · next hlt =>
        intro x hx
        rcases List.mem_cons.1 hx with rfl | hx
        · exact lexLt_asymm hlt
        · exact ih hb x hx
      · next hlt =>
        intro x hx
        rcases List.mem_cons.1 hx with rfl | hx
        · exact lexLt_self _
        · exact hle (ih hb x hx) (by simpa using hlt)

/-! ### Grants -/

theorem State.asks_iff (s : State) (p : Nat) : s.asks p = true ↔ (s.port p).queue ≠ [] := by
  simp [State.asks]

/-- The next owner is a port of the group that asks and is admitted. -/
theorem State.nextOwner_spec {s : State} {g i : Nat} {ok : Nat → Bool} (h : s.nextOwner g ok = some i) :
    i < 8 ∧ (s.port (8 * g + i)).queue ≠ [] ∧ ok i = true := by
  have hmem := firstBy_mem h
  simp only [List.mem_filter, List.mem_range, Bool.and_eq_true, State.asks_iff] at hmem
  exact hmem

/-- Where the next owner is not of class 0 that may revoke, no other that asks is, and none has a higher credit. -/
theorem State.nextOwner_credit {s : State} {g i j : Nat} (h : s.nextOwner g (fun _ => true) = some i) (hi : s.first0 (8 * g + i) = false) (hj : j < 8)
    (hask : (s.port (8 * g + j)).queue ≠ []) :
    s.first0 (8 * g + j) = false ∧ min (Tab.get 0 (s.group g).credit j) 200000 ≤ min (Tab.get 0 (s.group g).credit i) 200000 := by
  have hmem : j ∈ (List.range 8).filter fun i => s.asks (8 * g + i) && true := by simp [hj, State.asks_iff, hask]
  have hkey := firstBy_least (n := 3) (fun _ => rfl) h j hmem
  simp only [State.linkKey, hi, lexLt, Bool.or_eq_false_iff, decide_eq_false_iff_not, Bool.and_eq_false_iff, beq_eq_false_iff_ne] at hkey
  obtain ⟨hclass, hcredit⟩ := hkey
  have hfirst : s.first0 (8 * g + j) = false := by
    cases hf : s.first0 (8 * g + j)
    · rfl
    · simp [hf, b2n] at hclass
  have hcredit := hcredit.resolve_left (by simp [hfirst])
  exact ⟨hfirst, by omega⟩

theorem exec_linkGrant_idle {s : State} {g : Nat} (howner : (s.group g).owner = none) : exec (.linkGrant g) s = .next (s.decideLink g) := by
  change Host.Outcome.next ((s.linkNow g).decideLink g) = _
  rw [State.linkNow_of_queue fun i hi => by rw [howner] at hi; cases hi]

theorem State.decideLink_eq {s : State} {g : Nat} (howner : (s.group g).owner = none) : s.decideLink g =
    match s.decide_ g with
    | none => s
    | some none => s.setGroup g { s.group g with freeAt := s.cclk + 2 }
    | some (some i) => s.grantTo g i s.cclk := by
  unfold State.decideLink
  split
  · next i hi =>
    rw [howner] at hi
    cases hi
  · rfl

theorem State.grantTo_group (s : State) (g i t : Nat) : (s.grantTo g i t).group g = { s.group g with owner := some i, grantAt := t, stuck := 0 } :=
  State.setGroup_group_self s g _

theorem State.grantTo_group_ne (s : State) {g h : Nat} (hne : h ≠ g) (i t : Nat) : (s.grantTo g i t).group h = s.group h :=
  State.setGroup_group_ne s hne _

theorem exec_linkGrant_grants {s : State} {g i : Nat} (howner : (s.group g).owner = none) (hdec : s.decide_ g = some (some i)) :
    exec (.linkGrant g) s = .next (s.grantTo g i s.cclk) := by
  rw [exec_linkGrant_idle howner, State.decideLink_eq howner, hdec]

/-- The same-cycle style decides as soon as the link is free. -/
theorem State.decide_sameCycle {s : State} {g : Nat} (hfrozen : s.frozen g = false) (hstyle : s.rd R.GRP_CTL_STYLE g = 0)
    (hfree : (s.group g).freeAt ≤ s.cclk) : s.decide_ g = (s.nextOwner g fun _ => true).map some := by
  unfold State.decide_
  rw [if_neg (by simp [hfrozen]; omega), if_pos hstyle]

/-! ### Beats -/

theorem port_of_group {g i : Nat} (hi : i < 8) : (8 * g + i) / 8 = g ∧ (8 * g + i) % 8 = i := by omega

/-- A link whose owner has more to send does its beat of the cycle. -/
theorem exec_linkBeat_now {s : State} {g i c : Nat} (hc : s.cclk = c) (howner : (s.group g).owner = some i) (hqueue : (s.port (8 * g + i)).queue ≠ []) :
    exec (.linkBeat g c) s = .next (s.crossBeat (8 * g + i)) := by
  change execLinkBeat g c s = _
  unfold execLinkBeat
  dsimp only
  rw [State.atCycle_reached hc, State.linkNow_of_queue (s := s) fun j hj => by rw [howner] at hj; cases hj; exact hqueue, howner]

/-- The owner's counter after a beat. -/
def Group.charged (x : Group) (i c : Nat) : Group :=
  { x with credit := Tab.insert i (max (Tab.get 0 x.credit i - 1) (-65536)) x.credit, beatAt := c + 1, beatOf := some (i, Tab.get 0 x.credit i), stuck := 0 }

def State.charged (s : State) (p : Nat) : State := s.setGroup (p / 8) ((s.group (p / 8)).charged (p % 8) s.cclk)

theorem State.crossBeat_waits {s : State} {p : Nat}
    (h : s.cclk < (s.group (p / 8)).beatAt ∨ s.cclk < (s.group (p / 8)).grantAt ∨ s.intakeFull p = true) : s.crossBeat p = s := by
  unfold State.crossBeat
  dsimp only
  split
  · rfl
  · refine if_pos ?_
    rcases h with h | h | h
    · exact Or.inr (Or.inl (lt_max_of_lt_left h))
    · exact Or.inr (Or.inl (lt_max_of_lt_right h))
    · exact Or.inr (Or.inr h)

theorem State.candidate_off {s : State} (h : s.rd R.CTR_CTL_EN = 0) (p : Nat) (x : Xfer) : s.candidate p x = (x, s) := if_pos h

theorem State.candidate_off_ite {s : State} (h : s.rd R.CTR_CTL_EN = 0) (p : Nat) (x : Xfer) :
    (if x.crossed = 0 then s.candidate p x else (x, s)) = (x, s) := by
  rw [State.candidate_off h, ite_self]

theorem State.crossBeat_within {s : State} {p : Nat} {x : Xfer} {l : List Xfer} (hqueue : (s.port p).queue = x :: l)
    (hmore : x.crossed < 1 + x.beats.length) (hbeat : (s.group (p / 8)).beatAt ≤ s.cclk) (hgrant : (s.group (p / 8)).grantAt ≤ s.cclk)
    (hfull : s.intakeFull p = false) (hend : x.closed = false ∨ x.crossed + 1 < 1 + x.beats.length) (hctr : s.rd R.CTR_CTL_EN = 0) :
    s.crossBeat p = ((s.charged p).count ((s.charged p).occAt 0x031 1
      ((s.charged p).attrOf p x.req))).setPort p
      { s.port p with queue := { x with crossed := x.crossed + 1 } :: l } := by
  unfold State.crossBeat
  dsimp only
  rw [hqueue]
  dsimp only
  rw [if_neg (by rw [hfull]; have := max_le hbeat hgrant; simp only [Bool.false_eq_true, or_false, not_or]; omega)]
  have hcand := State.candidate_off_ite (s := (s.charged p).count
    ((s.charged p).occAt 0x031 1
      ((s.charged p).attrOf p x.req))) hctr p x
  unfold State.charged Group.charged at hcand
  rw [hcand]
  refine if_neg fun ⟨hclosed, hlast⟩ => ?_
  rcases hend with h | h
  · rw [h] at hclosed
    cases hclosed
  · exact absurd hlast h.ne

/-! ### Refills -/

/-- What a refill leaves in the counter of port `i`; a beat of the same cycle is charged after it. -/
def State.refillOf (s : State) (g i : Nat) : Int :=
  match (s.group g).beatOf with
  | some (p, was) =>
    if p = i ∧ (s.group g).beatAt = s.cclk + 1 then max (refilled (s.weight g i) was - 1) (-65536)
    else refilled (s.weight g i) (Tab.get 0 (s.group g).credit i)
  | none => refilled (s.weight g i) (Tab.get 0 (s.group g).credit i)

theorem exec_creditRefill_due {s : State} {g : Nat} (hconf : s.conf.isSome = true) (hclk : s.cclkRuns = true) (hg : g < s.G)
    (hdue : (s.group g).refillAt + s.rd R.GRP_REFILL_REFILL g ≤ s.cclk) :
    exec (.creditRefill g) s = .next (s.setGroup g { s.group g with
      credit := (List.range 8).map fun i => (i, s.refillOf g i), creditOld := (s.group g).credit
      refillAt := (s.group g).refillAt + s.rd R.GRP_REFILL_REFILL g }) := by
  refine if_neg ?_
  rw [Option.isNone_eq_false_iff.2 hconf, hclk]
  simp only [Bool.false_eq_true, Bool.true_eq_false, false_or, not_or]
  omega

theorem State.refillOf_plain {s : State} {g i : Nat} (h : ¬ ((s.group g).beatAt = s.cclk + 1 ∧ ∃ was, (s.group g).beatOf = some (i, was))) :
    s.refillOf g i = refilled (s.weight g i) (Tab.get 0 (s.group g).credit i) := by
  unfold State.refillOf
  split
  · next p was hbeat => exact if_neg fun ⟨hp, hat⟩ => h ⟨hat, was, hp ▸ hbeat⟩
  · rfl

theorem State.refillOf_beat {s : State} {g i : Nat} {was : Int} (hat : (s.group g).beatAt = s.cclk + 1) (hbeat : (s.group g).beatOf = some (i, was)) :
    s.refillOf g i = max (refilled (s.weight g i) was - 1) (-65536) := by
  unfold State.refillOf
  rw [hbeat]
  exact if_pos ⟨rfl, hat⟩

end Sys2Proof.Machine

open Sys2Proof Sys2Proof.Machine

/-- Settles O40: the next owner stands first in the order of R151, and a grant sets the owner alone. -/
theorem linkGrant : Obligations.LinkGrant := by
  unfold Obligations.LinkGrant
  intro s g i howner hfrozen
  refine ⟨fun hstyle hfree hnext => ?_, fun j hdec => ?_, fun hdec => ?_, fun hdec => ?_⟩
  · have hdec : s.decide_ g = some (some i) := by rw [State.decide_sameCycle hfrozen hstyle hfree, hnext]; rfl
    obtain ⟨hi, hqueue, -⟩ := State.nextOwner_spec hnext
    exact ⟨_, exec_linkGrant_grants howner hdec, s.grantTo_group g i _, hi, hqueue, fun hfirst j hj hask => State.nextOwner_credit hnext hfirst hj hask,
      fun h hne => s.grantTo_group_ne hne i _, rfl⟩
  · exact ⟨_, exec_linkGrant_grants howner hdec, s.grantTo_group g j _, fun h hne => s.grantTo_group_ne hne j _, rfl⟩
  · rw [exec_linkGrant_idle howner, State.decideLink_eq howner, hdec]
  · rw [exec_linkGrant_idle howner, State.decideLink_eq howner, hdec]

/-- Settles O41: a beat inside a transfer charges its owner once; a refill sets each counter of the group from its weight. -/
theorem linkCredit : Obligations.LinkCredit := by
  unfold Obligations.LinkCredit
  refine ⟨fun s g i c x l hc hi howner hqueue hmore => ?_, fun s g hconf hclk hg => ?_⟩
  · have hexec : exec (.linkBeat g c) s = .next (s.crossBeat (8 * g + i)) := exec_linkBeat_now hc howner (by simp [hqueue])
    subst hc
    obtain ⟨hgroup, hix⟩ := port_of_group (g := g) hi
    refine ⟨fun hwait => ?_, fun hbeat hgrant hfull hend hctr => ?_⟩
    · rw [hexec, State.crossBeat_waits (by rw [hgroup]; exact hwait)]
    · rw [State.crossBeat_within hqueue hmore (by rw [hgroup]; exact hbeat) (by rw [hgroup]; exact hgrant) hfull hend hctr, State.charged, hgroup, hix] at hexec
      exact ⟨_, hexec, State.setPort_port_self _ _ _, State.setGroup_group_self s g _, fun h hne => State.setGroup_group_ne s hne _,
        fun q hne => State.setPort_port_ne _ hne _, rfl⟩
  · intro due
    refine ⟨fun hearly => if_pos (Or.inr (Or.inr (Or.inr hearly))), fun hdue => ⟨_, exec_creditRefill_due hconf hclk hg hdue, ?_⟩⟩
    dsimp only
    rw [State.setGroup_group_self]
    have hcredit {i : Nat} (hi : i < 8) : Tab.get 0 ((List.range 8).map fun i => (i, s.refillOf g i)) i = s.refillOf g i := by
      unfold Tab.get
      rw [Tab.find_map_range _ hi]
      rfl
    refine ⟨fun i hi hno => ?_, fun i was hi hat hbeat => ?_, rfl, rfl, rfl, fun h hne => State.setGroup_group_ne s hne _, rfl⟩
    · rw [hcredit hi, State.refillOf_plain hno]
      rfl
    · rw [hcredit hi, State.refillOf_beat hat hbeat]
      rfl

end

section
/-! Responses and what leaves flight without one: an answer joins its port's responses, and else only counters, trails and the flow's record change. -/

namespace Sys2Proof.Machine
open Sys2Proof

/-! ### Reads of the registers whose fields are not among some -/

/-- Every field but those of a list reads as before. -/
def State.readsBut (s : State) (l : List Fld) (t : State) : Prop := ∀ f i j, (∀ h ∈ l, f.ix ≠ h.ix) → t.rd f i j = s.rd f i j

theorem State.readsBut_refl (s : State) (l : List Fld) : s.readsBut l s := fun _ _ _ _ => rfl

theorem State.readsBut.trans {s t u : State} {l : List Fld} (h : s.readsBut l t) (k : t.readsBut l u) : s.readsBut l u :=
  fun f i j hf => (k f i j hf).trans (h f i j hf)

theorem State.readsBut_of_regs {s t : State} {l : List Fld} (hregs : t.regs = s.regs) (hbuild : t.build = s.build) : s.readsBut l t :=
  fun _ _ _ _ => by
  unfold State.rd
  rw [hregs, hbuild]

theorem State.readsBut_of_kept {s t : State} {l : List Slot} {m : List Fld} (h : s.regsKept t l) (hl : ∀ x ∈ l, x.f ∈ m) : s.readsBut m t :=
  fun f i j hf => h f i j fun x hx => Fld.key_ne (hf x.f (hl x hx)).symm _ _ _ _

theorem State.readsBut.mono {s t : State} {l m : List Fld} (h : s.readsBut l t) (hsub : ∀ f ∈ l, f ∈ m) : s.readsBut m t :=
  fun f i j hf => h f i j fun e he => hf e (hsub e he)

/-! ### Answers -/

/-- The counters that an answer, or a request that leaves flight without one, may change. -/
def answerFlds : List Fld := [R.PORT_RESTART_CNT_COUNT, R.CTR_LOSS_LOST, R.CTR_CONS_CONS]

/-- What a response shows of itself to the port. -/
def Resp.face (r : Resp) : Nat × Nat × List RBeat := (r.tag, r.code, r.beats)

/-- `t` is `s` with responses of the faces `l` after those of port `p`; else only those counters, the measurements and the traffic state differ. -/
def State.answered (s : State) (p : Nat) (l : List (Nat × Nat × List RBeat)) (t : State) : Prop :=
  t = { s with ports := t.ports, regs := t.regs, meas := t.meas, traffic := t.traffic } ∧ s.readsBut answerFlds t ∧
  (∀ q, q ≠ p → t.port q = s.port q) ∧ ∃ rs : List Resp, t.port p = { s.port p with rsps := (s.port p).rsps ++ rs } ∧ rs.map Resp.face = l

theorem State.answered_of_eq {s t : State} (p : Nat) (heq : t = { s with regs := t.regs, meas := t.meas, traffic := t.traffic })
    (hreads : s.readsBut answerFlds t) : s.answered p [] t := by
  have hports : t.ports = s.ports := by rw [heq]
  refine ⟨by rw [hports]; exact heq, hreads, fun q _ => congrArg (fun u : Tab Port => Tab.get ({} : Port) u q) hports, [], ?_, rfl⟩
  rw [List.append_nil]
  exact congrArg (fun u : Tab Port => Tab.get ({} : Port) u p) hports

theorem State.answered_refl (s : State) (p : Nat) : s.answered p [] s := State.answered_of_eq p rfl (s.readsBut_refl _)

theorem State.answered.trans {s t u : State} {p : Nat} {l m : List (Nat × Nat × List RBeat)} (h : s.answered p l t) (k : t.answered p m u) :
    s.answered p (l ++ m) u := by
  obtain ⟨heq, hreads, hother, rs, hport, hface⟩ := h
  obtain ⟨keq, kreads, kother, ks, kport, kface⟩ := k
  refine ⟨?_, hreads.trans kreads, fun q hq => (kother q hq).trans (hother q hq), rs ++ ks, ?_, ?_⟩
  · rw [keq, heq]
  · rw [kport, hport]
    simp
  · rw [List.map_append, hface, kface]

theorem State.answered.quiet {s t u : State} {p : Nat} {l : List (Nat × Nat × List RBeat)} (h : s.answered p l t) (k : t.answered p [] u) :
    s.answered p l u := by
  have := h.trans k
  rwa [List.append_nil] at this

theorem State.answered_modTrail (s : State) (p : Nat) (tg : Option Nat) (f : Trail → Trail) : s.answered p [] (s.modTrail tg f) := by
  unfold State.modTrail
  split
  · exact s.answered_refl p
  · exact State.answered_of_eq p rfl (State.readsBut_of_regs rfl rfl)

theorem State.answered_stamp (s : State) (p : Nat) (tg : Option Nat) (k : Nat) : s.answered p [] (s.stamp tg k) := by
  unfold State.stamp
  split
  · exact s.answered_refl p
  · exact State.answered_of_eq p rfl (State.readsBut_of_regs rfl rfl)

theorem State.answered_count (s : State) (p : Nat) (o : Occ) : s.answered p [] (s.count o) := State.answered_of_eq p rfl (State.readsBut_of_regs rfl rfl)

theorem State.answered_ite {s t u : State} {p : Nat} {l : List (Nat × Nat × List RBeat)} (c : Prop) [Decidable c] (ht : s.answered p l t)
    (hu : s.answered p l u) : s.answered p l (if c then t else u) := by
  split
  · exact ht
  · exact hu

theorem State.answered_endTrail (s : State) (p : Nat) (id : Option Nat) : s.answered p [] (s.endTrail id) := by
  obtain ⟨heq, hkept⟩ := s.endTrail_only id
  generalize s.endTrail id = t at *
  refine State.answered_of_eq p ?_ (State.readsBut_of_kept hkept (by simp [answerFlds]))
  rw [heq]

theorem State.answered_settle (s : State) (p : Nat) (id : Option Nat) : s.answered p [] (s.settle id) := by
  unfold State.settle
  split
  · exact s.answered_refl p
  · split
    · exact s.answered_refl p
    · split
      · exact s.answered_refl p
      · exact State.answered_of_eq p rfl (State.readsBut_of_regs rfl rfl)

theorem State.answered_cutTrail (s : State) (p : Nat) (x : Xfer) (tell : Bool) : s.answered p [] (s.cutTrail x tell) := by
  unfold State.cutTrail
  exact State.answered_ite _ (s.answered_modTrail p _ _) ((s.answered_modTrail p _ _).quiet (State.answered_endTrail _ p _))

theorem State.answered_bump (s : State) (p i j : Nat) : s.answered p [] (s.bump R.PORT_RESTART_CNT_COUNT i j 1) :=
  State.answered_of_eq p rfl (State.readsBut_of_kept (s.bump_regsKept _ _ _ _) (by simp [answerFlds]))

theorem State.answered_setPort (s : State) (p : Nat) (r : Resp) :
    s.answered p [r.face] (s.setPort p { s.port p with rsps := (s.port p).rsps ++ [r] }) :=
  ⟨rfl, State.readsBut_of_regs rfl rfl, fun _ hq => State.setPort_port_ne s hq _, [r], State.setPort_port_self s p _, rfl⟩

theorem State.respond_answered (s : State) (p : Nat) (r : Resp) : s.answered p [r.face] (s.respond p r) := by
  unfold State.respond
  extract_lets late s1 q s2 s3 s4
  have h1 : s.answered p [] s1 := State.answered_ite _ (s.answered_bump p _ _) (s.answered_refl p)
  have h2 : s.answered p [r.face] s2 := h1.trans (s1.answered_setPort p { r with readyAt := s1.cclk + late })
  have h3 : s2.answered p [] s3 := ((s2.answered_count p _).quiet (State.answered_count _ p _)).quiet (State.answered_count _ p _)
  have h4 : s3.answered p [] s4 := State.answered_ite _ (s3.answered_count p _)
    (State.answered_ite _ (s3.answered_count p _) (State.answered_ite _ (s3.answered_count p _) (s3.answered_refl p)))
  exact (((h2.quiet h3).quiet h4).quiet (s4.answered_stamp p _ _)).quiet (State.answered_modTrail _ p _ _)

theorem State.answer_answered (s : State) (p : Nat) (x : Xfer) (code v : Nat) : s.answered p [(x.req.tag, code, oneBeat v)] (s.answer p x code v) :=
  (s.respond_answered p _).quiet (State.answered_settle _ p _)

theorem State.answered_foldl {α : Type} {p : Nat} {g : State → α → State} {v : α → List (Nat × Nat × List RBeat)}
    (hg : ∀ (s : State) a, s.answered p (v a) (g s a)) (l : List α) (s : State) : s.answered p (l.flatMap v) (l.foldl g s) := by
  induction l generalizing s with
  | nil => exact s.answered_refl p
  | cons a l ih => exact (hg s a).trans (ih _)

/-- A list of steps each of which answers nothing. -/
theorem State.answered_foldl_none {α : Type} {p : Nat} {g : State → α → State} (hg : ∀ (s : State) a, s.answered p [] (g s a)) (l : List α)
    (s : State) : s.answered p [] (l.foldl g s) :=
  foldl_keeps (s.answered p []) g (fun u a h => h.quiet (hg u a)) l s (s.answered_refl p)

/-! ### Waiting CREATEs -/

theorem State.retryDue_only (s : State) (f : PoolRec → Bool) : s.retryDue f = { s with sm := { s.sm with due := (s.retryDue f).sm.due } } := by
  unfold State.retryDue
  split <;> rfl

theorem State.dropWait_only (s : State) (w : CreateWait) :
    s.dropWait w = { s with sm := { s.sm with waits := s.sm.waits.filter fun v => v.wid != w.wid, due := (s.dropWait w).sm.due } } :=
  State.retryDue_only _ _

/-- `t` is `s` with answers at port `p`, and of the surface manager with the waiting CREATEs `ws` and some pools due. -/
def State.waitsEnded (s : State) (p : Nat) (l : List (Nat × Nat × List RBeat)) (ws : List CreateWait) (t : State) : Prop :=
  ∃ due, ({ s with sm := { s.sm with waits := ws, due := due } } : State).answered p l t

theorem State.dropWait_answered {s t : State} {p : Nat} {l : List (Nat × Nat × List RBeat)} {w : CreateWait} (h : (s.dropWait w).answered p l t) :
    s.waitsEnded p l (s.sm.waits.filter fun v => v.wid != w.wid) t := by
  rw [s.dropWait_only w] at h
  exact ⟨_, h⟩

theorem State.waitsEnded.trans {s t u : State} {p : Nat} {l m : List (Nat × Nat × List RBeat)} {ws vs : List CreateWait} (h : s.waitsEnded p l ws t)
    (k : t.waitsEnded p m vs u) : s.waitsEnded p (l ++ m) vs u := by
  obtain ⟨due, heq, hreads, hother, rs, hport, hface⟩ := h
  obtain ⟨dua, k⟩ := k
  refine ⟨dua, State.answered.trans (t := { t with sm := { s.sm with waits := vs, due := dua } }) ⟨?_, hreads, hother, rs, hport, hface⟩ ?_⟩
  · rw [heq]
  · have hsm : ({ t.sm with waits := vs, due := dua } : SurfMgr) = { s.sm with waits := vs, due := dua } := by rw [heq]
    rw [← hsm]
    exact k

theorem State.waitsEnded_refl (s : State) (p : Nat) : s.waitsEnded p [] s.sm.waits s := ⟨s.sm.due, s.answered_refl p⟩

theorem State.answered.waitsEnded {s t : State} {p : Nat} {l : List (Nat × Nat × List RBeat)} (h : s.answered p l t) :
    s.waitsEnded p l s.sm.waits t := ⟨s.sm.due, h⟩

theorem State.waitsEnded.waits {s t : State} {p : Nat} {l : List (Nat × Nat × List RBeat)} {ws : List CreateWait} (h : s.waitsEnded p l ws t) :
    t.sm.waits = ws := by
  obtain ⟨due, heq, -⟩ := h
  rw [heq]

/-- How the waiting CREATE `w` of port `p` ends: its master is told ABORTED, or its port is gone. -/
def State.endWait (p : Nat) (tell : Bool) (s : State) (w : CreateWait) : State :=
  if tell then (s.dropWait w).answer p w.xf 0xB 0 else ((s.dropWait w).settle (some w.xf.id)).endTrail w.xf.ctag

/-- The answers to waiting CREATEs whose master is told. -/
def endFaces (tell : Bool) (ws : List CreateWait) : List (Nat × Nat × List RBeat) :=
  if tell then ws.map fun w => (w.xf.req.tag, 0xB, oneBeat 0) else []

theorem State.endWait_ended (s : State) (p : Nat) (tell : Bool) (w : CreateWait) :
    s.waitsEnded p (endFaces tell [w]) (s.sm.waits.filter fun v => v.wid != w.wid) (s.endWait p tell w) := by
  refine State.dropWait_answered ?_
  unfold State.endWait endFaces
  cases tell
  · exact (State.answered_settle _ p _).quiet (State.answered_endTrail _ p _)
  · exact State.answer_answered _ p _ _ _

theorem State.endWait_foldl (p : Nat) (tell : Bool) (l : List CreateWait) (s : State) :
    s.waitsEnded p (endFaces tell l) (s.sm.waits.filter fun v => !(l.map (·.wid)).contains v.wid) (l.foldl (State.endWait p tell) s) := by
  induction l generalizing s with
  | nil =>
    have hall : (s.sm.waits.filter fun v => !(([] : List CreateWait).map (·.wid)).contains v.wid) = s.sm.waits := by simp
    rw [hall]
    cases tell <;> exact s.waitsEnded_refl p
  | cons w l ih =>
    have hstep := s.endWait_ended p tell w
    have hrest := ih (s.endWait p tell w)
    rw [hstep.waits, List.filter_filter] at hrest
    have h := hstep.trans hrest
    have hface : endFaces tell [w] ++ endFaces tell l = endFaces tell (w :: l) := by cases tell <;> rfl
    have hkeep : (fun v : CreateWait => !(l.map (·.wid)).contains v.wid && v.wid != w.wid) =
        fun v => !((w :: l).map (·.wid)).contains v.wid := by
      funext v
      rw [List.map_cons, List.contains_cons, Bool.not_or, Bool.and_comm]
      rfl
    rw [hface, hkeep] at h
    exact h

theorem State.endWaits_ended (s : State) (p : Nat) (tell : Bool) :
    s.waitsEnded p (endFaces tell (s.sm.waits.filter fun w => w.port == p))
      (s.sm.waits.filter fun v => !((s.sm.waits.filter fun w => w.port == p).map (·.wid)).contains v.wid) (s.endWaits p tell) :=
  State.endWait_foldl p tell _ s

/-! ### RESTART -/

/-- A port whose queue is dropped in cycle `c`; an open write's data beats are discarded as they come. -/
def Port.emptied (q : Port) (c : Nat) : Port :=
  { q with queue := [], lreqTo := if q.queue.isEmpty = false then c else q.lreqTo
           discard := ((q.queue.filter fun x => !x.closed).head?).orElse fun _ => q.discard }

theorem Port.emptied_of_idle {q : Port} (h : q.queue = []) (c : Nat) : q.emptied c = q := by
  obtain ⟨⟩ := q
  subst h
  rfl

/-- The answer that a transfer that is cut by RESTART gets. -/
def restartFaces (x : Xfer) : List (Nat × Nat × List RBeat) := if x.closed then [(x.req.tag, 10, oneBeat 0)] else []

theorem State.setQueue_setPort (s : State) (p : Nat) (q : Port) : (s.setQueue p []).setPort p q = s.setPort p q := State.setPort_setPort _ _ _ _

theorem State.restart_answered (s : State) (p : Nat) :
    (s.setPort p ((s.port p).emptied s.cclk)).answered p ((s.port p).queue.flatMap restartFaces) (s.restart p) := by
  have hset : (s.setQueue p []).setPort p { (s.setQueue p []).port p with
      discard := (((s.port p).queue.filter fun x => !x.closed).head?).orElse fun _ => (s.port p).discard } = s.setPort p ((s.port p).emptied s.cclk) := by
    rw [State.setQueue_setPort]
    refine congrArg (s.setPort p) ?_
    unfold State.setQueue
    rw [State.setPort_port_self]
    unfold Port.emptied
    simp
  unfold State.restart
  dsimp only
  rw [hset]
  refine State.answered_foldl (fun u x => ?_) _ _
  unfold restartFaces
  split
  · exact (u.answered_cutTrail p x true).trans (State.answer_answered _ p x 10 0)
  · exact u.answered_cutTrail p x true

/-- `t` is `s` with some ports restarted: one that holds no transfer stays as it is. -/
def State.restarted (s t : State) : Prop :=
  t = { s with ports := t.ports, regs := t.regs, meas := t.meas, traffic := t.traffic } ∧ s.readsBut answerFlds t ∧
  ∀ q, (s.port q).queue = [] → t.port q = s.port q

theorem State.restarted_refl (s : State) : s.restarted s := ⟨rfl, s.readsBut_refl _, fun _ _ => rfl⟩

theorem State.restarted.trans {s t u : State} (h : s.restarted t) (k : t.restarted u) : s.restarted u := by
  obtain ⟨heq, hreads, hidle⟩ := h
  obtain ⟨keq, kreads, kidle⟩ := k
  refine ⟨?_, hreads.trans kreads, fun q hq => ?_⟩
  · rw [keq, heq]
  · rw [kidle q (by rw [hidle q hq]; exact hq), hidle q hq]

theorem State.restart_restarted (s : State) (p : Nat) : s.restarted (s.restart p) := by
  obtain ⟨heq, hreads, hother, rs, hport, hface⟩ := s.restart_answered p
  refine ⟨?_, (State.readsBut_of_regs rfl rfl : s.readsBut answerFlds (s.setPort p _)).trans hreads, fun q hq => ?_⟩
  · rw [heq]
    rfl
  · by_cases hp : q = p
    · subst hp
      rw [hq] at hface
      rw [hport, State.setPort_port_self, Port.emptied_of_idle hq, List.map_eq_nil_iff.1 hface, List.append_nil]
    · rw [hother q hp, State.setPort_port_ne _ hp]

theorem State.freezePorts_restarted (s : State) (g : Nat) : s.restarted (s.freezePorts g) := by
  unfold State.freezePorts
  split
  · exact s.restarted_refl
  · exact foldl_keeps s.restarted _ (fun u i h => h.trans (u.restart_restarted _)) _ _ s.restarted_refl

theorem State.freezePorts_of_running {s : State} {g : Nat} (h : s.frozen g = false) : s.freezePorts g = s := if_pos (Or.inl h)

/-! ### The end of a grant -/

theorem State.frozen_congr {s t : State} (g : Nat) (hrd : t.rd R.GRP_CTL_FREEZE g = s.rd R.GRP_CTL_FREEZE g)
    (himg : (t.group g).frozenImg = (s.group g).frozenImg) : t.frozen g = s.frozen g := by
  unfold State.frozen
  rw [hrd, himg]

/-- Group `g` after its grant ended in cycle `e`: the owner is gone, and the freeze of its link stays. -/
def State.grantEnded (s : State) (g : Nat) (t : State) : Prop :=
  (t.group g).owner = none ∧ (∀ h, t.frozen h = s.frozen h) ∧ ∀ h, h ≠ g → t.group h = s.group h

theorem State.grantEnded.regs {s t u : State} {g : Nat} (h : s.grantEnded g t) (hgroups : u.groups = t.groups) (hreads : t.readsBut answerFlds u) :
    s.grantEnded g u := by
  obtain ⟨howner, hfrozen, hother⟩ := h
  have hgroup (k : Nat) : u.group k = t.group k := by
    unfold State.group
    rw [hgroups]
  refine ⟨by rw [hgroup, howner], fun k => ?_, fun k hk => by rw [hgroup, hother k hk]⟩
  rw [← hfrozen k]
  exact State.frozen_congr k (hreads _ _ _ (by decide)) (by rw [hgroup])

/-- Group after its grant ended in cycle `e`. -/
theorem State.endGrant_eq {s : State} {g i : Nat} (howner : (s.group g).owner = some i) (e : Nat) :
    ∃ x : Group, s.endGrant g e = s.setGroup g x ∧ x.owner = none ∧ x.lastOwner = i ∧ x.frozenImg = (s.group g).frozenImg := by
  unfold State.endGrant
  dsimp only
  generalize hx : (s.group g).owner = o at howner ⊢
  subst howner
  exact ⟨_, rfl, rfl, rfl, rfl⟩

theorem State.setGroup_frozen {s : State} {g : Nat} {x : Group} (himg : x.frozenImg = (s.group g).frozenImg) (h : Nat) :
    (s.setGroup g x).frozen h = s.frozen h := by
  refine State.frozen_congr h rfl ?_
  by_cases hg : h = g
  · subst hg
    rw [State.setGroup_group_self, himg]
  · rw [State.setGroup_group_ne s hg]

theorem State.setGroup_grantEnded {s : State} {g : Nat} {x : Group} (howner : x.owner = none) (himg : x.frozenImg = (s.group g).frozenImg) :
    s.grantEnded g (s.setGroup g x) :=
  ⟨by rw [State.setGroup_group_self, howner], State.setGroup_frozen himg, fun _ hne => State.setGroup_group_ne s hne x⟩

/-- A link given up: where it is not frozen every port stays, and a port without transfers stays in any case. -/
theorem State.passOn_spec {s : State} {g i : Nat} (howner : (s.group g).owner = some i) (e : Nat) :
    s.passOn g e = { s with groups := (s.passOn g e).groups, ports := (s.passOn g e).ports, regs := (s.passOn g e).regs
                            meas := (s.passOn g e).meas, traffic := (s.passOn g e).traffic } ∧
    s.readsBut answerFlds (s.passOn g e) ∧ s.grantEnded g (s.passOn g e) ∧ (s.frozen g = false → (s.passOn g e).ports = s.ports) ∧
    ∀ q, (s.port q).queue = [] → (s.passOn g e).port q = s.port q := by
  obtain ⟨x, hend, hnone, hlast, himg⟩ := State.endGrant_eq howner e
  unfold State.passOn
  extract_lets asked s1 s2
  have h1 : s1 = s.setGroup g x := hend
  obtain ⟨m, h2⟩ : ∃ m, s2 = { s.setGroup g x with meas := m } := by
    have h (c : Prop) [Decidable c] : ∃ m, (if c then s1.count { ev := 0x037, grp := some g } else s1) = { s.setGroup g x with meas := m } := by
      rw [h1]
      split
      · exact ⟨_, rfl⟩
      · exact ⟨s.meas, rfl⟩
    exact h _
  clear_value s2
  clear s1 h1 hend
  obtain ⟨heq, hreads, hidle⟩ := s2.freezePorts_restarted g
  have hended : s.grantEnded g s2 := by
    rw [h2]
    exact (State.setGroup_grantEnded hnone himg).regs rfl (State.readsBut_of_regs rfl rfl)
  have hreads0 : s.readsBut answerFlds s2 := by
    rw [h2]
    exact State.readsBut_of_regs rfl rfl
  refine ⟨?_, hreads0.trans hreads, hended.regs (by rw [heq]) hreads, fun hrun => ?_, fun q hq => ?_⟩
  · rw [heq, h2]
    rfl
  · rw [State.freezePorts_of_running (by rw [hended.2.1 g, hrun]), h2]
    rfl
  · have hport : s2.port q = s.port q := by rw [h2]; rfl
    rw [hidle q (by rw [hport, hq]), hport]

/-! ### FORCE_DETACH (R139) -/

/-- The port after a forced detach in cycle `c`. -/
def Port.forcedOff (q : Port) (c : Nat) : Port :=
  { q with queue := [], lreqTo := if q.queue.isEmpty = false then c else q.lreqTo, attached := false, detaching := false, forced := true
           discard := none, rsps := [], gen := q.gen + 1, sawLow := !q.pin, rrb := q.rrb - (q.rsps.map (·.heldFor 0)).sum }

/-- `t` is `s` with port `p` cut off: detached, with no transfer, response or waiting CREATE, and without the grant. -/
structure State.cutOff (s : State) (p : Nat) (t : State) : Prop where
  frame : t = { s with ports := t.ports, groups := t.groups, regs := t.regs, meas := t.meas, traffic := t.traffic
                       sm := { s.sm with waits := t.sm.waits, due := t.sm.due } }
  reads : s.readsBut answerFlds t
  port : t.port p = (s.port p).forcedOff s.cclk
  other : s.frozen (p / 8) = false ∨ (s.group (p / 8)).owner ≠ some (p % 8) → ∀ q, q ≠ p → t.port q = s.port q
  owner : (t.group (p / 8)).owner = if (s.group (p / 8)).owner = some (p % 8) then none else (s.group (p / 8)).owner
  frozen : ∀ g, t.frozen g = s.frozen g
  waits : ∀ x ∈ t.sm.waits, x.port ≠ p

/-- `t` is `s` after a forced detach for `cause`: port `p` is cut off, its holds are to be dropped unless they are kept, and the cause is recorded. -/
structure State.forcedOff (s : State) (p cause : Nat) (t : State) : Prop where
  frame : t = { s with ports := t.ports, groups := t.groups, regs := t.regs, meas := t.meas, traffic := t.traffic, bitsNow := t.bitsNow
                       evts := t.evts, sm := t.sm }
  reads : s.readsBut (R.PORT_STATUS_FORCE_CAUSE :: R.PORT_STATUS_FORCED :: answerFlds) t
  port : t.port p = (s.port p).forcedOff s.cclk
  other : s.frozen (p / 8) = false ∨ (s.group (p / 8)).owner ≠ some (p % 8) → ∀ q, q ≠ p → t.port q = s.port q
  owner : (t.group (p / 8)).owner = if (s.group (p / 8)).owner = some (p % 8) then none else (s.group (p / 8)).owner
  frozen : ∀ g, t.frozen g = s.frozen g
  inbox : t.sm.inbox = if t.rd R.PORT_CTL_KEEP_HOLDS (p / 8) (p % 8) = 1 then s.sm.inbox
    else s.sm.inbox ++ [{ at_ := s.cclk, slice := p / 8, act := .release p }]
  waits : ∀ x ∈ t.sm.waits, x.port ≠ p
  cause : t.rd R.PORT_STATUS_FORCE_CAUSE (p / 8) (p % 8) = cause % 2 ^ R.PORT_STATUS_FORCE_CAUSE.width
  forced : t.rd R.PORT_STATUS_FORCED (p / 8) (p % 8) = 1

/-- The end of what the port held cuts it off where it has no grant. -/
theorem State.cutOff_of_ended {s t : State} {p : Nat} {ws : List CreateWait}
    (h : (s.setPort p ((s.port p).forcedOff s.cclk)).waitsEnded p [] ws t) (hws : ∀ x ∈ ws, x.port ≠ p)
    (howner : (s.group (p / 8)).owner ≠ some (p % 8)) : s.cutOff p t := by
  have hwaits := h.waits
  obtain ⟨due, heq, hreads, hother, rs, hport, hface⟩ := h
  have hreads0 : s.readsBut answerFlds t := (State.readsBut_of_regs rfl rfl : s.readsBut answerFlds _).trans hreads
  have hgroup (g : Nat) : t.group g = s.group g := by
    rw [heq]
    rfl
  refine ⟨?_, hreads0, ?_, fun _ q hq => ?_, ?_, fun g => ?_, ?_⟩
  · rw [heq]
    rfl
  · rw [hport, List.map_eq_nil_iff.1 hface, List.append_nil]
    exact State.setPort_port_self s p _
  · exact (hother q hq).trans (State.setPort_port_ne s hq _)
  · rw [if_neg howner, hgroup]
  · exact State.frozen_congr g (hreads0 _ _ _ (by decide)) (by rw [hgroup])
  · rw [hwaits]
    exact hws

/-- A port that holds the grant gives it up as well. -/
theorem State.cutOff_of_passed {s t : State} {p : Nat} {ws : List CreateWait}
    (h : (s.setPort p ((s.port p).forcedOff s.cclk)).waitsEnded p [] ws t) (hws : ∀ x ∈ ws, x.port ≠ p)
    (howner : (s.group (p / 8)).owner = some (p % 8)) (e : Nat) : s.cutOff p (t.passOn (p / 8) e) := by
  have hwaits := h.waits
  obtain ⟨due, heq, hreads, hother, rs, hport, hface⟩ := h
  have hreads0 : s.readsBut answerFlds t := (State.readsBut_of_regs rfl rfl : s.readsBut answerFlds _).trans hreads
  have hgroup (g : Nat) : t.group g = s.group g := by
    rw [heq]
    rfl
  have hfrozen (g : Nat) : t.frozen g = s.frozen g := State.frozen_congr g (hreads0 _ _ _ (by decide)) (by rw [hgroup])
  have hport0 : t.port p = (s.port p).forcedOff s.cclk := by
    rw [hport, List.map_eq_nil_iff.1 hface, List.append_nil]
    exact State.setPort_port_self s p _
  obtain ⟨keq, kreads, ⟨knone, kfrozen, kgroups⟩, kports, kidle⟩ := State.passOn_spec (s := t) (by rw [hgroup, howner]) e
  have hsm : (t.passOn (p / 8) e).sm = t.sm := by rw [keq]
  refine ⟨?_, hreads0.trans kreads, ?_, fun hrun q hq => ?_, ?_, fun g => (kfrozen g).trans (hfrozen g), ?_⟩
  · rw [hsm]
    rw [keq, heq]
    rfl
  · rw [kidle p (by rw [hport0]; rfl), hport0]
  · have hports := kports (by rw [hfrozen]; exact hrun.resolve_right fun hne => hne howner)
    have hsame : (t.passOn (p / 8) e).port q = t.port q := by
      unfold State.port
      rw [hports]
    exact hsame.trans ((hother q hq).trans (State.setPort_port_ne s hq _))
  · rw [if_pos howner, knone]
  · rw [hsm, hwaits]
    exact hws

/-- The cause of a forced detach is recorded and raised, the surface manager's inbox being `l`. -/
def State.forceNoted (s : State) (p cause : Nat) (l : List SmItem) : State :=
  ((({ s with sm := { s.sm with inbox := l } } : State).wr R.PORT_STATUS_FORCE_CAUSE (p / 8) (p % 8) cause).setBit R.PORT_STATUS_FORCED (p / 8)
    (p % 8)).raisePort p

theorem State.forceNoted_reads (s : State) (p cause : Nat) (l : List SmItem) :
    s.readsBut [R.PORT_STATUS_FORCE_CAUSE, R.PORT_STATUS_FORCED] (s.forceNoted p cause l) := fun _ _ _ hf =>
  (State.setBit_rd_ne _ (hf _ (List.mem_cons_of_mem _ List.mem_cons_self)) _ _ _ _).trans (State.wr_rd_ne _ (hf _ List.mem_cons_self) _ _ _ _ _)

theorem State.cutOff.forcedOff {s t : State} {p : Nat} (h : s.cutOff p t) {l : List SmItem}
    (hl : l = if t.rd R.PORT_CTL_KEEP_HOLDS (p / 8) (p % 8) = 1 then t.sm.inbox
      else t.sm.inbox ++ [{ at_ := t.cclk, slice := p / 8, act := .release p }]) (cause : Nat) : s.forcedOff p cause (t.forceNoted p cause l) := by
  obtain ⟨hframe, hreads, hport, hother, howner, hfrozen, hwaits⟩ := h
  have hregs := t.forceNoted_reads p cause l
  have hinbox : t.sm.inbox = s.sm.inbox := by rw [hframe]
  have hcclk : t.cclk = s.cclk := by rw [hframe]
  refine ⟨?_, (hreads.mono (by simp [answerFlds])).trans (hregs.mono (by simp)), hport, hother, howner, fun g => ?_, ?_, hwaits, ?_, ?_⟩
  · unfold State.forceNoted
    rw [hframe]
    rfl
  · exact (State.frozen_congr g (hregs _ _ _ (by decide)) rfl).trans (hfrozen g)
  · rw [hregs _ _ _ (by decide), ← hinbox, ← hcclk]
    exact hl
  · exact (State.setBit_rd_ne _ (by decide) _ _ _ _).trans (State.wr_rd_self _ _ _ _ _)
  · exact State.setBit_rd_self _ _ _ _

theorem State.forceDetach_detached {s : State} {p : Nat} (h : (s.port p).attached = false) (cause : Nat) : s.forceDetach p cause = s := if_pos h

/-- What the port held leaves flight, and its waiting CREATEs end. -/
theorem State.answered_forced (s : State) (p : Nat) (lost : List Xfer) (rsps : List Resp) : ∃ ws, (∀ x ∈ ws, x.port ≠ p) ∧
    s.waitsEnded p [] ws ((rsps.foldl (fun (s : State) (r : Resp) => (s.modTrail r.ctag fun t => { t with cut := true }).endTrail r.ctag)
      (lost.foldl (fun (s : State) (x : Xfer) => (s.cutTrail x false).settle (some x.id)) s)).endWaits p false) := by
  have h1 := State.answered_foldl_none (p := p) (g := fun (s : State) (x : Xfer) => (s.cutTrail x false).settle (some x.id))
    (fun u x => (u.answered_cutTrail p x false).quiet (State.answered_settle _ p _)) lost s
  generalize lost.foldl (fun (s : State) (x : Xfer) => (s.cutTrail x false).settle (some x.id)) s = s1 at *
  have h2 := State.answered_foldl_none (p := p)
    (g := fun (s : State) (r : Resp) => (s.modTrail r.ctag fun t => { t with cut := true }).endTrail r.ctag)
    (fun u r => (u.answered_modTrail p _ _).quiet (State.answered_endTrail _ p _)) rsps s1
  generalize rsps.foldl (fun (s : State) (r : Resp) => (s.modTrail r.ctag fun t => { t with cut := true }).endTrail r.ctag) s1 = s2 at *
  refine ⟨_, fun x hx => ?_, (h1.quiet h2).waitsEnded.trans (s2.endWaits_ended p false)⟩
  simp only [List.mem_filter, Bool.not_eq_true', List.contains_eq_mem, decide_eq_false_iff_not, List.mem_map, not_exists, not_and] at hx
  obtain ⟨hmem, hnot⟩ := hx
  exact fun hport => hnot x ⟨hmem, by simp [hport]⟩ rfl

theorem State.forceDetach_attached {s : State} {p : Nat} (h : (s.port p).attached = true) (cause : Nat) :
    s.forcedOff p cause (s.forceDetach p cause) := by
  have hset : (s.setQueue p []).setPort p { (s.setQueue p []).port p with
      attached := false, detaching := false, forced := true, discard := none, rsps := [], gen := (s.port p).gen + 1, sawLow := !(s.port p).pin
      rrb := (s.port p).rrb - ((s.port p).rsps.map (·.heldFor 0)).sum } = s.setPort p ((s.port p).forcedOff s.cclk) := by
    rw [State.setQueue_setPort]
    refine congrArg (s.setPort p) ?_
    unfold State.setQueue
    rw [State.setPort_port_self]
    unfold Port.forcedOff
    simp
  unfold State.forceDetach
  dsimp only
  rw [if_neg (by simp [h]), hset]
  obtain ⟨ws, hws, hended⟩ := State.answered_forced (s.setPort p ((s.port p).forcedOff s.cclk)) p ((s.port p).queue ++ (s.port p).discard.toList)
    (s.port p).rsps
  generalize State.endWaits _ p false = t at *
  have howner : (t.group (p / 8)).owner = (s.group (p / 8)).owner := by
    obtain ⟨due, heq, -⟩ := hended
    rw [heq]
    rfl
  rw [howner]
  have hcut : s.cutOff p (if (s.group (p / 8)).owner = some (p % 8) then t.passOn (p / 8) t.cclk else t) := by
    split
    · next hgrant => exact State.cutOff_of_passed hended hws hgrant _
    · next hgrant => exact State.cutOff_of_ended hended hws hgrant
  generalize (if (s.group (p / 8)).owner = some (p % 8) then t.passOn (p / 8) t.cclk else t) = u at *
  rw [State.dropHolds_eq]
  exact hcut.forcedOff rfl cause

end Sys2Proof.Machine
end

section
/-! FORCE_DETACH, the ends of waiting CREATEs, and the links that are taken away. -/

namespace Sys2Proof.Machine
open Sys2Proof

/-! ### PORT_CTL -/

/-- KEEP_HOLDS as the write of PORT_CTL leaves it: a Quiet-class field takes its value or refuses it. -/
theorem applySlots_keepHolds (s : State) (w p : Nat) :
    ∃ r, (applySlots s w [⟨R.PORT_CTL_KEEP_HOLDS, p / 8, p % 8⟩]).1 = { s with regs := r } := by
  unfold applySlots applySlot
  simp only [List.foldl_cons, List.foldl_nil]
  split
  · exact ⟨s.regs, rfl⟩
  · split
    · next h => exact absurd h (by decide)
    · split
      · exact ⟨s.regs, rfl⟩
      · split
        · exact ⟨_, rfl⟩
        · exact ⟨s.regs, rfl⟩
    · next h => exact absurd h (by decide)
    · exact ⟨s.regs, rfl⟩

/-- The field of PORT_CTL that a write may set. -/
def keepSlots (p : Nat) : List Slot := [⟨R.PORT_CTL_KEEP_HOLDS, p / 8, p % 8⟩]

theorem keepHolds_kept (s : State) (w p : Nat) : s.regsKept (applySlots s w (keepSlots p)).1 (keepSlots p) :=
  State.regsKept_mono (applySlots_regsKept s w _) fun _ hx => (List.mem_filter.1 hx).1

/-- A write of PORT_CTL that asks for a forced detach and nothing else. -/
theorem State.writePortCtl_force {s : State} {p w : Nat} (hp : p < 8 * s.G) (h0 : bit w 0 = true) (h1 : bit w 1 = false) (h2 : bit w 2 = false)
    (tgt : Nat) : s.writePortCtl p w tgt =
      ((applySlots s w (keepSlots p)).1.forceDetach p 1).busyIf (applySlots s w (keepSlots p)).2 (portAddr p 0) tgt := by
  unfold State.writePortCtl
  rw [if_neg (by omega), State.writeReg, runActs_take h0, runActs_skip h1, runActs_skip h2]
  dsimp only
  rw [Bool.or_false]
  rfl

/-- A write of PORT_CTL that ends the port's waiting CREATEs and does nothing else. -/
theorem State.writePortCtl_cancel {s : State} {p w : Nat} (hp : p < 8 * s.G) (h0 : bit w 0 = false) (h1 : bit w 1 = true) (h2 : bit w 2 = false)
    (tgt : Nat) : s.writePortCtl p w tgt = (((applySlots s w (keepSlots p)).1.endWaits p true).tryDetach p).busyIf
      (applySlots s w (keepSlots p)).2 (portAddr p 0) tgt := by
  unfold State.writePortCtl
  rw [if_neg (by omega), State.writeReg, runActs_skip h0, runActs_take h1, runActs_skip h2]
  dsimp only
  rw [Bool.or_false]
  rfl

theorem exec_portForceDetach_open {s : State} (h : s.portOpen) {p : Nat} (hp : p < 8 * s.G) (w : Word) (h1 : bit w.toNat 1 = false)
    (h2 : bit w.toNat 2 = false) (tgt : Nat) : exec (.portForceDetach p w tgt) s = .next
      (((applySlots s (w ||| 1).toNat (keepSlots p)).1.forceDetach p 1).busyIf (applySlots s (w ||| 1).toNat (keepSlots p)).2 (portAddr p 0) tgt) :=
  congrArg Host.Outcome.next ((State.regAccess_open h ..).trans (State.writePortCtl_force hp (bit_or_self w 1 (by decide))
    ((bit_or_other (by decide)).trans h1) ((bit_or_other (by decide)).trans h2) tgt))

theorem exec_cancelWait_open {s : State} (h : s.portOpen) {p : Nat} (hp : p < 8 * s.G) (w : Word) (h0 : bit w.toNat 0 = false)
    (h2 : bit w.toNat 2 = false) (tgt : Nat) : exec (.cancelWait p w tgt) s = .next
      ((((applySlots s (w ||| 2).toNat (keepSlots p)).1.endWaits p true).tryDetach p).busyIf (applySlots s (w ||| 2).toNat (keepSlots p)).2
        (portAddr p 0) tgt) :=
  congrArg Host.Outcome.next ((State.regAccess_open h ..).trans (State.writePortCtl_cancel hp ((bit_or_other (by decide)).trans h0)
    (bit_or_self w 2 (by decide)) ((bit_or_other (by decide)).trans h2) tgt))

/-- What a refused field adds is no concern of the ports, the groups and the surface manager. -/
theorem State.busyIf_rest (s : State) (b : Bool) (a tgt : Nat) : (s.busyIf b a tgt).ports = s.ports ∧ (s.busyIf b a tgt).groups = s.groups ∧
    (s.busyIf b a tgt).sm = s.sm := by
  rw [State.busyIf_eq]
  exact ⟨rfl, rfl, rfl⟩

/-! ### Answers as the port holds them -/

theorem State.answered.faces {s t : State} {p : Nat} {l : List (Nat × Nat × List RBeat)} (h : s.answered p l t) :
    (t.port p).rsps.map Resp.face = (s.port p).rsps.map Resp.face ++ l := by
  obtain ⟨-, -, -, rs, hport, hface⟩ := h
  rw [hport, List.map_append, hface]

theorem State.answered.codes {s t : State} {p : Nat} {l : List (Nat × Nat × List RBeat)} (h : s.answered p l t) :
    (t.port p).rsps.map (fun r => (r.tag, r.code)) = (s.port p).rsps.map (fun r => (r.tag, r.code)) ++ l.map fun f => (f.1, f.2.1) := by
  obtain ⟨-, -, -, rs, hport, hface⟩ := h
  rw [hport, List.map_append, ← hface, List.map_map]
  rfl

theorem State.waitsEnded.faces {s t : State} {p : Nat} {l : List (Nat × Nat × List RBeat)} {ws : List CreateWait} (h : s.waitsEnded p l ws t) :
    (t.port p).rsps.map Resp.face = (s.port p).rsps.map Resp.face ++ l := h.elim fun _ h => h.faces

theorem State.waitsEnded.codes {s t : State} {p : Nat} {l : List (Nat × Nat × List RBeat)} {ws : List CreateWait} (h : s.waitsEnded p l ws t) :
    (t.port p).rsps.map (fun r => (r.tag, r.code)) = (s.port p).rsps.map (fun r => (r.tag, r.code)) ++ l.map fun f => (f.1, f.2.1) :=
  h.elim fun _ h => h.codes

/-- Where the waiting CREATEs have different identifiers, those of a port go and the others stay. -/
theorem waits_of_others {l : List CreateWait} (hnodup : (l.map (·.wid)).Nodup) (p : Nat) :
    (l.filter fun v => !((l.filter fun w => w.port == p).map (·.wid)).contains v.wid) = l.filter fun v => v.port != p := by
  refine List.filter_congr fun v hv => ?_
  have hiff : ((l.filter fun w => w.port == p).map (·.wid)).contains v.wid = (v.port == p) := by
    rw [Bool.eq_iff_iff]
    simp only [List.contains_eq_mem, decide_eq_true_eq, List.mem_map, List.mem_filter]
    constructor
    · rintro ⟨w, ⟨hw, hport⟩, hwid⟩
      rwa [← List.inj_on_of_nodup_map hnodup hw hv hwid]
    · exact fun hport => ⟨v, ⟨hv, hport⟩, rfl⟩
  rw [hiff]
  rfl

/-! ### How a waiting CREATE ends (R190, R191) -/

theorem State.reply_now (s : State) (p : Nat) (x : Xfer) (code v : Nat) : s.reply p (s.port p).gen x code v = s.answer p x code v := if_pos rfl

theorem exec_spaceWaitTimeout_found {s : State} {p tag : Nat} {x : CreateWait}
    (hfind : (s.sm.waits.find? fun w => w.port == p && w.xf.req.tag == tag) = some x) : exec (.spaceWaitTimeout p tag) s =
      .next (((s.dropWait x).answer p x.xf 6 0).bump R.SM_POOL_NOSPACE_CNT_COUNT x.pool 0 1) := by
  change execSpaceWaitTimeout p tag s = _
  unfold execSpaceWaitTimeout
  rw [hfind]
  have hgen : (s.port p).gen = ((s.dropWait x).port p).gen := by
    rw [s.dropWait_only x]
    rfl
  change Host.Outcome.next ((s.dropWait x).noSpace p (s.port p).gen x.xf x.pool) = _
  rw [hgen, State.noSpace, State.reply_now]

theorem exec_createRetry_idle {s : State} {pool : Nat} (h : s.sm.due.contains pool = false ∨ s.cclk < s.sm.allocTo) :
    exec (.createRetry pool) s = .next s := by
  change execCreateRetry pool s = _
  unfold execCreateRetry
  split
  · rfl
  · exact if_pos (h.imp_right Or.inl)

theorem exec_createRetry_found {s u : State} {pool h : Nat} {x : CreateWait} (hdue : s.sm.due.contains pool = true)
    (hfind : (s.sm.waits.find? fun w => w.pool == pool) = some x) (hfree : s.sm.allocTo ≤ s.cclk) (hinbox : s.sm.inbox = [])
    (htry : ({ s with sm := { s.sm with due := s.sm.due.filter fun n => n != pool } } : State).takeAlloc.tryCreate x.xf.desc x.port = some (h, u)) :
    exec (.createRetry pool) s = .next ((u.dropWait x).answer x.port x.xf 0 h) := by
  have hahead : s.allocAhead (s.createKey x.port x.xf) = false := by
    unfold State.allocAhead
    rw [hinbox]
    rfl
  change execCreateRetry pool s = _
  unfold execCreateRetry
  rw [hfind]
  dsimp only
  rw [if_neg (by simp only [hdue, hahead, Bool.true_eq_false, Bool.false_eq_true, or_false, false_or]; omega), htry]

end Sys2Proof.Machine

open Sys2Proof Sys2Proof.Machine

/-- Settles O38: an attached port is cut off, a detached one stays. -/
theorem forcedDetach : Obligations.ForcedDetach := by
  unfold Obligations.ForcedDetach
  intro s p w tgt hopen hp h1 h2
  refine ⟨_, exec_portForceDetach_open hopen hp w h1 h2 tgt, ?_⟩
  obtain ⟨r, hr⟩ := applySlots_keepHolds s (w ||| 1).toNat p
  have hkept := keepHolds_kept s (w ||| 1).toNat p
  generalize (applySlots s (w ||| 1).toNat (keepSlots p)).2 = b
  change (applySlots s (w ||| 1).toNat (keepSlots p)).1 = _ at hr
  generalize (applySlots s (w ||| 1).toNat (keepSlots p)).1 = u at *
  have hu (q : Nat) : u.port q = s.port q := by
    rw [hr]
    rfl
  by_cases hatt : (s.port p).attached = true
  · obtain ⟨hframe, hreads, hport, hother, howner, hfrozen, hinbox, hwaits, hcause, hforced⟩ :=
      State.forceDetach_attached (s := u) (p := p) (by rw [hu, hatt]) 1
    generalize u.forceDetach p 1 = v at *
    obtain ⟨hports, hgroups, hsm⟩ := v.busyIf_rest b (portAddr p 0) tgt
    have hv (q : Nat) : (v.busyIf b (portAddr p 0) tgt).port q = v.port q := by
      unfold State.port
      rw [hports]
    have hfroz : u.frozen (p / 8) = s.frozen (p / 8) :=
      State.frozen_congr _ (hkept _ _ _ (by simp [keepSlots]; exact Fld.key_ne (by decide) _ _ _ _)) (by rw [hr]; rfl)
    have hgroup : u.group (p / 8) = s.group (p / 8) := by
      rw [hr]
      rfl
    rw [hu] at hport
    rw [hfroz, hgroup] at hother
    rw [hgroup] at howner
    refine ⟨by rw [hv, hport]; rfl, fun hrun q hq => by rw [hv, hother hrun q hq, hu], fun _ => ?_, fun h => absurd h (by simp [hatt])⟩
    rw [hv, hport, hsm]
    refine ⟨rfl, rfl, rfl, rfl, rfl, ?_, rfl, rfl, hwaits, ?_, ?_, ?_⟩
    · rw [State.busyIf_rd _ _ _ _ (by decide), hinbox, hr]
    · unfold State.group at *
      rw [hgroups, howner]
      split
      · nofun
      · assumption
    · rw [State.busyIf_rd _ _ _ _ (by decide), hcause]
      rfl
    · rw [State.busyIf_rd _ _ _ _ (by decide), hforced]
  · have hdet : (s.port p).attached = false := by simpa using hatt
    rw [State.forceDetach_detached (by rw [hu, hdet])]
    have hports : (u.busyIf b (portAddr p 0) tgt).ports = s.ports := by
      rw [(u.busyIf_rest b (portAddr p 0) tgt).1, hr]
    have hport (q : Nat) : (u.busyIf b (portAddr p 0) tgt).port q = s.port q := by
      unfold State.port
      rw [hports]
    refine ⟨by rw [hport, hdet], fun _ q _ => hport q, fun h => absurd h hatt, fun _ => ⟨?_, ?_⟩⟩
    · rw [State.busyIf_eq, hr]
    · exact State.regsKept_trans hkept (u.busyIf_regsKept b _ tgt)

/-- Settles O39: how a waiting CREATE ends is an answer at its port, and the others wait on. -/
theorem createWaits : Obligations.CreateWaits := by
  unfold Obligations.CreateWaits
  intro s p
  refine ⟨fun w tgt hopen hp h0 h2 hdet hnodup => ?_, fun tag x hfind => ?_, fun pool h x u hdue hfind hfree hinbox htry => ?_,
    fun pool hno => exec_createRetry_idle hno⟩
  · refine ⟨_, exec_cancelWait_open hopen hp w h0 h2 tgt, ?_⟩
    obtain ⟨r, hr⟩ := applySlots_keepHolds s (w ||| 2).toNat p
    generalize (applySlots s (w ||| 2).toNat (keepSlots p)).2 = b
    change (applySlots s (w ||| 2).toNat (keepSlots p)).1 = _ at hr
    generalize (applySlots s (w ||| 2).toNat (keepSlots p)).1 = u at *
    have hended := u.endWaits_ended p true
    have hu (q : Nat) : u.port q = s.port q := by
      rw [hr]
      rfl
    have husm : u.sm.waits = s.sm.waits := by rw [hr]
    generalize u.endWaits p true = v at *
    have hwaits := hended.waits
    have hcodes := hended.codes
    obtain ⟨due, -, -, hother, rs, hport, -⟩ := hended
    rw [State.tryDetach_staying (s := v) (by rw [hport]; exact (congrArg Port.detaching (hu p)).trans hdet)]
    obtain ⟨hports, hgroups, hsm⟩ := v.busyIf_rest b (portAddr p 0) tgt
    have hv (q : Nat) : (v.busyIf b (portAddr p 0) tgt).port q = v.port q := by
      unfold State.port
      rw [hports]
    rw [husm] at hwaits hcodes
    refine ⟨by rw [hsm, hwaits, waits_of_others hnodup], ?_, fun q hq => by rw [hv, hother q hq]; exact hu q⟩
    rw [hv, hcodes, hu, endFaces, if_pos rfl, List.map_map]
    rfl
  · have hended : s.waitsEnded p [(x.xf.req.tag, 6, oneBeat 0)] _ _ := State.dropWait_answered ((s.dropWait x).answer_answered p x.xf 6 0)
    have htag : x.xf.req.tag = tag := by
      have := List.find?_some hfind
      simp only [Bool.and_eq_true, beq_iff_eq] at this
      exact this.2
    refine ⟨_, exec_spaceWaitTimeout_found hfind, hended.waits, ?_, ?_⟩
    · rw [← htag]
      exact hended.codes
    · obtain ⟨due, -, hreads, -⟩ := hended
      rw [State.bump_rd_self, hreads _ _ _ (by decide)]
      rfl
  · have hended : u.waitsEnded x.port [(x.xf.req.tag, 0, oneBeat h)] _ _ := State.dropWait_answered ((u.dropWait x).answer_answered x.port x.xf 0 h)
    refine ⟨_, exec_createRetry_found hdue hfind hfree hinbox htry, ?_, hended.waits, hended.faces⟩
    obtain ⟨due, heq, -⟩ := hended
    rw [heq]

end

section
/-! Links that are taken away: a revoke, Squall's revoke and the watchdog's bites. -/

namespace Sys2Proof.Machine
open Sys2Proof

/-- Owner `i` of group `g` has lost its grant and holds `x` alone, a closed transfer: it is answered RESTART. -/
structure State.revoked (s : State) (g i : Nat) (x : Xfer) (t : State) : Prop where
  queue : (t.port (8 * g + i)).queue = []
  codes : (t.port (8 * g + i)).rsps.map (fun r => (r.tag, r.code)) =
    (s.port (8 * g + i)).rsps.map (fun r => (r.tag, r.code)) ++ [(x.req.tag, 10)]
  reads : s.readsBut answerFlds t
  owner : (t.group g).owner = none
  last : (t.group g).lastOwner = i
  other : ∀ h, h ≠ g → t.group h = s.group h
  frozen : ∀ h, t.frozen h = s.frozen h
  cclk : t.cclk = s.cclk

theorem State.revoked.taken {s t u : State} {g i : Nat} {x : Xfer} (h : s.revoked g i x t) (hports : u.ports = t.ports) :
    (u.port (8 * g + i)).queue = [] ∧ (u.port (8 * g + i)).rsps.map (fun r => (r.tag, r.code)) =
      (s.port (8 * g + i)).rsps.map (fun r => (r.tag, r.code)) ++ [(x.req.tag, 10)] := by
  have hport : u.port (8 * g + i) = t.port (8 * g + i) := by
    unfold State.port
    rw [hports]
  rw [hport]
  exact ⟨h.queue, h.codes⟩

theorem State.revokeOwner_revoked {s : State} {g i : Nat} {x : Xfer} (howner : (s.group g).owner = some i) (hqueue : (s.port (8 * g + i)).queue = [x])
    (hclosed : x.closed = true) : s.revoked g i x (s.revokeOwner g i) := by
  unfold State.revokeOwner
  obtain ⟨y, hend, hnone, hlast, himg⟩ := State.endGrant_eq howner (s.cclk + 1)
  rw [hend]
  obtain ⟨-, hfrozen, hother⟩ := State.setGroup_grantEnded (s := s) hnone himg
  have hself : (s.setGroup g y).group g = y := State.setGroup_group_self s g y
  have hport : (s.setGroup g y).port (8 * g + i) = s.port (8 * g + i) := rfl
  have hset : s.readsBut answerFlds (s.setGroup g y) := State.readsBut_of_regs rfl rfl
  have hcclk : (s.setGroup g y).cclk = s.cclk := rfl
  generalize s.setGroup g y = u at *
  have hans := u.restart_answered (8 * g + i)
  have hcodes := hans.codes
  obtain ⟨heq, hreads, -, rs, hpt, -⟩ := hans
  have hgroups (h : Nat) : (u.restart (8 * g + i)).group h = u.group h := by
    rw [heq]
    rfl
  have hreads : s.readsBut answerFlds (u.restart (8 * g + i)) :=
    (hset.trans (State.readsBut_of_regs rfl rfl : u.readsBut answerFlds (u.setPort _ _))).trans hreads
  refine ⟨?_, ?_, hreads, ?_, ?_, fun h hne => (hgroups h).trans (hother h hne), fun h => ?_, ?_⟩
  · rw [hpt, State.setPort_port_self]
    rfl
  · rw [hcodes, State.setPort_port_self, hport, hqueue]
    simp only [List.flatMap_cons, List.flatMap_nil, restartFaces, hclosed, if_true]
    rfl
  · rw [hgroups, hself, hnone]
  · rw [hgroups, hself, hlast]
  · rw [← hfrozen h]
    exact State.frozen_congr h (by rw [hreads _ _ _ (by decide), hset _ _ _ (by decide)]) (by rw [hgroups])
  · rw [heq]
    exact hcclk

theorem State.countRevoke_spec (s : State) (g i : Nat) :
    (s.countRevoke g i).ports = s.ports ∧ (s.countRevoke g i).groups = s.groups ∧ (s.countRevoke g i).rd R.GRP_STATUS_LINK_REVOKE g = 1 ∧
    (s.countRevoke g i).rd R.GRP_REVOKE_CNT_COUNT g = satAdd R.GRP_REVOKE_CNT_COUNT.width (s.rd R.GRP_REVOKE_CNT_COUNT g) 1 :=
  ⟨rfl, rfl, State.setBit_rd_self _ _ _ _, (State.setBit_rd_ne _ (by decide) _ _ _ _).trans (State.bump_rd_self _ _ _ _ _)⟩

theorem State.lreq_of_queue {s : State} {p : Nat} (h : (s.port p).queue ≠ []) : s.lreq p = true := by
  simp [State.lreq, h]

/-- The link's owner with something to send still owns it. -/
theorem State.linkNow_owned {s : State} {g i : Nat} (howner : (s.group g).owner = some i) (hqueue : (s.port (8 * g + i)).queue ≠ []) :
    s.linkNow g = s := State.linkNow_of_queue fun j hj => by rw [howner] at hj; cases hj; exact hqueue

theorem exec_linkRevoke_now {s : State} {g i j : Nat} (howner : (s.group g).owner = some i) (hqueue : (s.port (8 * g + i)).queue ≠ [])
    (hfrozen : s.frozen g = false) (hclass : s.arbClass (8 * g + i) ≠ some 0) (hnext : s.nextOwner g (s.revokers g i) = some j) :
    exec (.linkRevoke g) s = .next (((s.revokeOwner g i).grantTo g j (s.cclk + 1)).countRevoke g i) := by
  change execLinkRevoke g s = _
  unfold execLinkRevoke
  dsimp only
  rw [State.linkNow_owned howner hqueue, howner]
  dsimp only
  rw [if_neg (by simp [hfrozen, hclass]), hnext]

/-! ### Squall's revoke (R467) -/

/-- What Squall's revoke does to the link of group `g`. -/
def State.squallTakes (s : State) (g : Nat) : State :=
  match s.ownerNow g with
  | none => s
  | some i =>
    if bit (s.rd R.SQ_REVOKE_GROUPS) g = false ∨ s.frozen g = true then s
    else
      let next := if s.arbClass (8 * g + i) = some 0 then none else s.nextOwner g (s.revokers g i)
      let s := (s.revokeOwner g i).countRevoke g i
      match next with
      | some j => s.grantTo g j (s.cclk + 1)
      | none => s

theorem exec_squallRevoke_due {s : State} (hopen : s.squall.unlocked = true) (hperiod : s.rd R.SQ_REVOKE_PERIOD ≠ 0) :
    exec .squallRevoke s = .next ((List.range s.G).foldl State.squallTakes s) :=
  if_neg (by simp [hopen, hperiod])

theorem State.squallTakes_idle {s : State} {g : Nat} (h : (s.group g).owner = none) : s.squallTakes g = s := by
  unfold State.squallTakes State.ownerNow
  rw [h]
  rfl

theorem State.squallTakes_owned {s : State} {g i : Nat} (howner : (s.group g).owner = some i) (hqueue : (s.port (8 * g + i)).queue ≠ [])
    (hfrozen : s.frozen g = false) (hgroups : bit (s.rd R.SQ_REVOKE_GROUPS) g = true) (hnext : s.nextOwner g (s.revokers g i) = none) :
    s.squallTakes g = (s.revokeOwner g i).countRevoke g i := by
  unfold State.squallTakes State.ownerNow
  have hown : (s.group g).owner.filter (fun i => s.lreq (8 * g + i)) = some i := by
    rw [howner, Option.filter_some, if_pos (State.lreq_of_queue hqueue)]
  rw [hown]
  dsimp only
  rw [if_neg (by simp [hgroups, hfrozen]), hnext, ite_self]

/-- A list of links of which one alone has an owner. -/
theorem squallTakes_foldl {g n : Nat} {s : State} (hg : g < n) (hidle : ∀ h, h ≠ g → (s.group h).owner = none)
    (hleft : ∀ h, ((s.squallTakes g).group h).owner = none) : (List.range n).foldl State.squallTakes s = s.squallTakes g := by
  obtain ⟨l, m, hsplit⟩ := List.append_of_mem (List.mem_range.2 hg)
  have hnodup := List.nodup_range (n := n)
  rw [hsplit, List.nodup_append] at hnodup
  rw [hsplit, List.foldl_append, List.foldl_cons, foldl_fixed fun h hh => State.squallTakes_idle (hidle h (hnodup.2.2 h hh g List.mem_cons_self)),
    foldl_fixed fun h _ => State.squallTakes_idle (hleft h)]

/-! ### The watchdog's bites (R158 to R160) -/

/-- A bite is counted and raised. -/
def State.bitten (s : State) (g i : Nat) : State :=
  (((s.bump R.GRP_BITE_CNT_COUNT g 0 1).setBit R.GRP_STATUS_LINK_BITE g 0).raise 5 g).count { ev := 0x034, grp := some g, req := some { port := 8 * g + i } }

theorem State.bitten_spec (s : State) (g i : Nat) : (s.bitten g i).ports = s.ports ∧ (s.bitten g i).groups = s.groups ∧
    s.readsBut [R.GRP_BITE_CNT_COUNT, R.GRP_STATUS_LINK_BITE] (s.bitten g i) ∧ (s.bitten g i).rd R.GRP_STATUS_LINK_BITE g = 1 ∧
    (s.bitten g i).rd R.GRP_BITE_CNT_COUNT g = satAdd R.GRP_BITE_CNT_COUNT.width (s.rd R.GRP_BITE_CNT_COUNT g) 1 :=
  ⟨rfl, rfl, fun _ _ _ hf => (State.setBit_rd_ne _ (hf _ (List.mem_cons_of_mem _ List.mem_cons_self)) _ _ _ _).trans
    (State.bump_rd_ne _ (hf _ List.mem_cons_self) _ _ _ _ _), State.setBit_rd_self _ _ _ _,
    (State.setBit_rd_ne _ (by decide) _ _ _ _).trans (State.bump_rd_self _ _ _ _ _)⟩

/-- The first bite of an owner records it and its epoch. -/
def State.firstBite (s : State) (g i : Nat) : State :=
  ((s.bitten g i).wr R.GRP_BITE_VALID_VALID g 0 ((s.bitten g i).rd R.GRP_BITE_VALID_VALID g ||| 2 ^ i)).wr R.GRP_BITE_EPOCH_EPOCH g i s.tick.epoch

theorem exec_linkBite_early {s : State} {g i : Nat} (howner : (s.group g).owner = some i) (hqueue : (s.port (8 * g + i)).queue ≠ [])
    (h : (s.group g).stuck < s.rd R.GRP_WATCHDOG_LIMIT g * 256) : exec (.linkBite g) s = .next s := by
  change execLinkBite g s = _
  unfold execLinkBite
  dsimp only
  rw [State.linkNow_owned howner hqueue, howner]
  exact if_pos h

theorem exec_linkBite_due {s : State} {g i : Nat} (howner : (s.group g).owner = some i) (hqueue : (s.port (8 * g + i)).queue ≠ [])
    (h : s.rd R.GRP_WATCHDOG_LIMIT g * 256 ≤ (s.group g).stuck) (hnext : s.nextOwner g (s.revokers g i) = none) :
    exec (.linkBite g) s = .next ((if bit (s.rd R.GRP_BITE_VALID_VALID g) i = true then (s.bitten g i).forceDetach (8 * g + i) 2
      else (s.firstBite g i).revokeOwner g i).freezePorts g) := by
  have hvalid : (s.bitten g i).rd R.GRP_BITE_VALID_VALID g = s.rd R.GRP_BITE_VALID_VALID g := (s.bitten_spec g i).2.2.1 _ _ _ (by decide)
  change execLinkBite g s = _
  unfold execLinkBite
  dsimp only
  rw [State.linkNow_owned howner hqueue, howner]
  dsimp only
  rw [if_neg (by omega), hnext, ite_self, ← hvalid]
  rfl

theorem State.firstBite_spec {s : State} {g i : Nat} (hi : i < 8) : (s.firstBite g i).ports = s.ports ∧ (s.firstBite g i).groups = s.groups ∧
    s.readsBut [R.GRP_BITE_VALID_VALID, R.GRP_BITE_EPOCH_EPOCH, R.GRP_BITE_CNT_COUNT, R.GRP_STATUS_LINK_BITE] (s.firstBite g i) ∧
    bit ((s.firstBite g i).rd R.GRP_BITE_VALID_VALID g) i = true ∧ (s.firstBite g i).rd R.GRP_BITE_EPOCH_EPOCH g i = s.tick.epoch % 2 ^ 32 ∧
    (s.firstBite g i).rd R.GRP_STATUS_LINK_BITE g = 1 ∧
    (s.firstBite g i).rd R.GRP_BITE_CNT_COUNT g = satAdd R.GRP_BITE_CNT_COUNT.width (s.rd R.GRP_BITE_CNT_COUNT g) 1 := by
  obtain ⟨hports, hgroups, hreads, hbite, hcount⟩ := s.bitten_spec g i
  unfold State.firstBite
  generalize s.bitten g i = u at *
  refine ⟨hports, hgroups, fun f k j hf => ?_, ?_, State.wr_rd_self _ _ _ _ _, ?_, ?_⟩
  · rw [State.wr_rd_ne _ (hf _ (by simp)), State.wr_rd_ne _ (hf _ (by simp))]
    exact hreads f k j fun h hh => hf h (by simp at hh ⊢; tauto)
  · have hwidth : R.GRP_BITE_VALID_VALID.width = 8 := rfl
    rw [State.wr_rd_ne _ (by decide), State.wr_rd_self, hwidth, bit_eq_testBit, Nat.testBit_mod_two_pow, ← bit_eq_testBit, bit_or, bit_two_pow]
    simp [hi]
  · rw [State.wr_rd_ne _ (by decide), State.wr_rd_ne _ (by decide), hbite]
  · rw [State.wr_rd_ne _ (by decide), State.wr_rd_ne _ (by decide), hcount]

end Sys2Proof.Machine

open Sys2Proof Sys2Proof.Machine

/-- Settles O42: each way of taking a link away restarts the owner's transfer, or cuts the owner off. -/
theorem linkTaken : Obligations.LinkTaken := by
  unfold Obligations.LinkTaken
  intro s g i x hi howner hfrozen hqueue hclosed hatt taken
  have hne : (s.port (8 * g + i)).queue ≠ [] := by simp [hqueue]
  refine ⟨fun j hclass hnext => ?_, fun hopen hperiod hbit hg hidle hnext => ?_, fun hearly => exec_linkBite_early howner hne hearly,
    fun hdue hnext => ?_⟩
  · have h := State.revokeOwner_revoked howner hqueue hclosed
    refine ⟨_, exec_linkRevoke_now howner hne hfrozen hclass hnext, ?_⟩
    generalize s.revokeOwner g i = u at *
    obtain ⟨hports, hgroups, hstatus, hcount⟩ := (u.grantTo g j (s.cclk + 1)).countRevoke_spec g i
    generalize (u.grantTo g j (s.cclk + 1)).countRevoke g i = t at *
    have hgroup : t.group g = { u.group g with owner := some j, grantAt := s.cclk + 1, stuck := 0 } := by
      unfold State.group at *
      rw [hgroups]
      exact u.grantTo_group g j _
    refine ⟨h.taken hports, by rw [hgroup], by rw [hgroup], by rw [hgroup]; exact h.last, hstatus, ?_⟩
    rw [hcount]
    exact congrArg (satAdd _ · 1) (h.reads _ _ _ (by decide))
  · have h := State.revokeOwner_revoked howner hqueue hclosed
    have htakes := State.squallTakes_owned howner hne hfrozen hbit hnext
    obtain ⟨hports, hgroups, hstatus, -⟩ := (s.revokeOwner g i).countRevoke_spec g i
    rw [← htakes] at hports hgroups hstatus
    have hgroup (k : Nat) : (s.squallTakes g).group k = (s.revokeOwner g i).group k := by
      unfold State.group
      rw [hgroups]
    have hexec := exec_squallRevoke_due hopen hperiod
    rw [squallTakes_foldl hg hidle fun k => by
      rw [hgroup]
      by_cases hk : k = g
      · rw [hk, h.owner]
      · rw [h.other k hk, hidle k hk]] at hexec
    exact ⟨_, hexec, h.taken hports, by rw [hgroup, h.owner], hstatus⟩
  · have hexec := exec_linkBite_due howner hne hdue hnext
    cases hvalid : bit (s.rd R.GRP_BITE_VALID_VALID g) i
    · rw [if_neg (by simp [hvalid])] at hexec
      obtain ⟨hports, hgroups, hreads, hbit, hepoch, hbite, hcount⟩ := s.firstBite_spec (g := g) hi
      generalize s.firstBite g i = u at *
      have hport (q : Nat) : u.port q = s.port q := by
        unfold State.port
        rw [hports]
      have hgroup (k : Nat) : u.group k = s.group k := by
        unfold State.group
        rw [hgroups]
      have h := State.revokeOwner_revoked (s := u) (x := x) (by rw [hgroup, howner]) (by rw [hport, hqueue]) hclosed
      rw [State.freezePorts_of_running (by
        rw [h.frozen, State.frozen_congr (s := s) g (hreads _ _ _ (by decide)) (by rw [hgroup]), hfrozen])] at hexec
      refine ⟨_, hexec, ?_, h.owner, ?_, fun _ => ⟨⟨h.queue, ?_⟩, ?_, ?_⟩, fun h => absurd h (by simp)⟩
      · rw [h.reads _ _ _ (by decide), hbite]
      · rw [h.reads _ _ _ (by decide), hcount]
      · rw [h.codes, hport]
      · rw [h.reads _ _ _ (by decide), hbit]
      · rw [h.reads _ _ _ (by decide), hepoch]
    · rw [if_pos hvalid] at hexec
      obtain ⟨hports, hgroups, hreads, hbite, hcount⟩ := s.bitten_spec g i
      generalize s.bitten g i = u at *
      have hport (q : Nat) : u.port q = s.port q := by
        unfold State.port
        rw [hports]
      have hgroup (k : Nat) : u.group k = s.group k := by
        unfold State.group
        rw [hgroups]
      have h := State.forceDetach_attached (s := u) (p := 8 * g + i) (by rw [hport, hatt]) 2
      obtain ⟨hslice, hix⟩ := port_of_group (g := g) hi
      have hfree := h.owner
      have hcause := h.cause
      rw [hslice, hix, hgroup, if_pos howner] at hfree
      rw [hslice, hix] at hcause
      rw [State.freezePorts_of_running (by
        rw [h.frozen, State.frozen_congr (s := s) g (hreads _ _ _ (by decide)) (by rw [hgroup]), hfrozen])] at hexec
      refine ⟨_, hexec, ?_, hfree, ?_, fun h => absurd h (by simp), fun _ => ⟨?_, ?_⟩⟩
      · rw [h.reads _ _ _ (by decide), hbite]
      · rw [h.reads _ _ _ (by decide), hcount]
      · rw [h.port]
        rfl
      · rw [hcause]
        rfl

end

section
/-! What the slices do where no request waits, and the units of Halo lines. -/

namespace Sys2Proof.Machine
open Sys2Proof

/-! ### Slices with nothing to do -/

/-- No request, header read or cell write waits, and no line waits to leave: the slices do nothing more. -/
structure State.settled (s : State) : Prop where
  quiet : s.quiet
  stays : ∀ h f, (s.line h f).gone = false

theorem State.leaveGone_settled {s : State} (h : ∀ g e, (s.line g e).gone = false) : s.leaveGone = s := by
  unfold State.leaveGone
  refine foldl_fixed fun g _ => foldl_fixed fun e _ => ?_
  exact if_neg (by simp [h])

theorem State.startJobs_idle {s : State} (h : ∀ g, queueOf s.enc g = []) : s.startJobs = s := by
  unfold State.startJobs
  refine foldl_fixed fun g _ => ?_
  rw [h]
  rfl

theorem State.wakeReaders_idle {s : State} (h : s.hdrWait = []) : s.wakeReaders = s := by
  unfold State.wakeReaders
  simp only [h, List.filter_nil, List.foldl_nil]
  rw [← h]

theorem State.round_idle {s : State} (h : s.waits = []) : s.round = none := by
  unfold State.round
  rw [h]
  rfl

theorem State.rounds_idle {s : State} (h : s.waits = []) (n : Nat) : State.rounds n s = s := by
  cases n with
  | zero => rfl
  | succ n =>
    unfold State.rounds
    rw [State.round_idle h]

theorem State.pumpOnce_settled {s : State} (h : s.settled) : s.pumpOnce = s := by
  obtain ⟨⟨hwaits, hhdr, henc⟩, hgone⟩ := h
  unfold State.pumpOnce
  rw [State.leaveGone_settled hgone, State.startJobs_idle henc, State.wakeReaders_idle hhdr, State.rounds_idle hwaits]

theorem State.pump_settled {s : State} (h : s.settled) : s.pump = s := by
  unfold State.pump
  rw [State.pumpOnce_settled h, State.pumpOnce_settled h]

/-- What `settled` reads. -/
theorem State.settled.congr {s t : State} (h : s.settled) (hwaits : t.waits = s.waits) (hhdr : t.hdrWait = s.hdrWait) (henc : t.enc = s.enc)
    (hgone : ∀ g e, (t.line g e).gone = false) : t.settled := by
  obtain ⟨⟨hw, hh, he⟩, -⟩ := h
  exact ⟨⟨hwaits.trans hw, hhdr.trans hh, fun g => by rw [henc]; exact he g⟩, hgone⟩

/-! ### Entries of a slice -/

theorem State.setLine_line_self (s : State) (g e : Nat) (x : Line) : (s.setLine g e x).line g e = x := Tab.get_insert_self _ _ _ _

/-- Entries below 128 of the slices have places of their own. -/
theorem State.setLine_line_ne (s : State) {g e h f : Nat} (hne : ¬ (h = g ∧ f = e)) (he : e < 128) (hf : f < 128) (x : Line) :
    (s.setLine g e x).line h f = s.line h f :=
  Tab.get_insert_ne (by omega) _ _ _

/-- What holds of every line and of the new one holds of every line. -/
theorem State.setLine_all {s : State} {P : Line → Prop} (h : ∀ g e, P (s.line g e)) {x : Line} (hx : P x) (g e h' f : Nat) :
    P ((s.setLine g e x).line h' f) := by
  unfold State.line State.setLine
  rw [Tab.get_insert]
  split
  · exact hx
  · exact h h' f

theorem State.findLine_spec {s : State} {g e : Nat} {t : LTag} (h : s.findLine g t = some e) :
    e < 76 ∧ (s.line g e).valid = true ∧ (s.line g e).tag = t := by
  have hmem := List.mem_of_find?_eq_some h
  have hprop := List.find?_some h
  simp only [Bool.and_eq_true, beq_iff_eq] at hprop
  exact ⟨List.mem_range.1 hmem, hprop⟩

theorem State.findLine_congr {s t : State} {g : Nat} (h : ∀ e, e < 76 → t.line g e = s.line g e) (x : LTag) : t.findLine g x = s.findLine g x := by
  unfold State.findLine
  refine List.find?_congr fun e he => ?_
  rw [h e (List.mem_range.1 he)]

theorem Line.setUnit_unit_self (x : Line) (n : Nat) (u : HUnit) : (x.setUnit n u).unit n = u := Tab.get_insert_self _ _ _ _

theorem Line.setUnit_unit_ne (x : Line) {n m : Nat} (h : m ≠ n) (u : HUnit) : (x.setUnit n u).unit m = x.unit m := Tab.get_insert_ne h _ _ _

/-! ### A fetched unit arrives (R245) -/

theorem State.give_idle {s : State} (h : s.waits = []) (g : Nat) (a : Got) (only : Option Nat) : s.give g a only = s := by
  unfold State.give
  rw [h]
  simp only [List.map_nil]
  rw [← h]

theorem State.endShare_none {s : State} {g e : Nat} (h : (s.line g e).sharing = false) : s.endShare g e = s := if_pos (Or.inl h)

/-- Whether a line still waits for a unit that it fetches. -/
def Line.waiting (x : Line) : Bool := x.units.any fun u => u.2.st == 0 && !u.2.fetch.isEmpty

/-- A line after `endFill`, which an array entry uses at `age`. -/
def Line.filled (x : Line) : Line := { x with filling := false, own := x.own || x.sole, sole := false }

theorem State.endFill_waits {s : State} {g e : Nat} (h : (s.line g e).filling = false ∨ (s.line g e).waiting = true) : s.endFill g e = s := if_pos h

theorem State.endFill_ends {s : State} {g e : Nat} (hfill : (s.line g e).filling = true) (hwait : (s.line g e).waiting = false)
    (hinval : (s.line g e).inval = false) : s.endFill g e =
      if e < 64 then (s.setLine g e (s.line g e).filled).touch g e else s.setLine g e (s.line g e).filled := by
  unfold State.endFill
  dsimp only
  unfold Line.waiting at hwait
  rw [if_neg (by simp only [hfill, hwait, Bool.true_eq_false, Bool.false_eq_true, or_false, not_false_eq_true]), if_neg (by simp [hinval])]
  rfl

/-- The end of a fill at entry `e`: a line that still waits stays, another is no longer filling and may be owned. -/
structure State.fillEnded (s : State) (g e : Nat) (t : State) : Prop where
  frame : t = { s with lines := t.lines, useCtr := t.useCtr }
  units : (t.line g e).units = (s.line g e).units
  filling : (t.line g e).filling = ((s.line g e).filling && (s.line g e).waiting)
  own : (t.line g e).own = ((s.line g e).own || ((s.line g e).sole && (s.line g e).filling && !((s.line g e).filling && (s.line g e).waiting)))
  other : ∀ h f, f < 128 → ¬ (h = g ∧ f = e) → t.line h f = s.line h f
  gone : (∀ h f, (s.line h f).gone = false) → ∀ h f, (t.line h f).gone = false

theorem State.endFill_ended {s : State} {g e : Nat} (he : e < 128) (hinval : (s.line g e).inval = false) : s.fillEnded g e (s.endFill g e) := by
  by_cases hwait : (s.line g e).filling = false ∨ (s.line g e).waiting = true
  · rw [State.endFill_waits hwait]
    refine ⟨rfl, rfl, ?_, ?_, fun _ _ _ _ => rfl, id⟩
    · rcases hwait with h | h <;> simp [h]
    · rcases hwait with h | h <;> simp [h]
  · simp only [not_or, Bool.not_eq_false, Bool.not_eq_true] at hwait
    obtain ⟨hfill, hdone⟩ := hwait
    have hset : s.fillEnded g e (s.setLine g e (s.line g e).filled) := by
      refine ⟨rfl, ?_, ?_, ?_, fun h f hf hne => State.setLine_line_ne s hne he hf _,
        fun hgone => State.setLine_all (P := fun x => x.gone = false) hgone (x := (s.line g e).filled) (hgone g e) g e⟩
      · rw [State.setLine_line_self]
        rfl
      · rw [State.setLine_line_self, hfill, hdone]
        rfl
      · rw [State.setLine_line_self, hfill, hdone]
        simp [Line.filled]
    rw [State.endFill_ends hfill hdone hinval]
    split
    · generalize s.setLine g e (s.line g e).filled = u at *
      obtain ⟨hframe, hunits, hfilling, hown, hother, hgone⟩ := hset
      have hself : (u.touch g e).line g e = { u.line g e with age := u.useCtr + 1 } := State.setLine_line_self u g e _
      refine ⟨?_, by rw [hself]; exact hunits, by rw [hself]; exact hfilling, by rw [hself]; exact hown,
        fun h f hf hne => (State.setLine_line_ne u hne he hf _).trans (hother h f hf hne),
        fun hg => State.setLine_all (P := fun x => x.gone = false) (hgone hg) (x := { u.line g e with age := u.useCtr + 1 }) (hgone hg g e) g e⟩
      unfold State.touch
      rw [hframe]
      rfl
    · exact hset

theorem State.placeUnit_whole {s : State} {g e : Nat} {a : Arrival} (hst : ((s.line g e).unit a.sub.unit).st = 0)
    (hcopy : a.sub.copy ∈ ((s.line g e).unit a.sub.unit).fetch) (hmerge : ((s.line g e).unit a.sub.unit).merge = []) :
    s.placeUnit g e a = s.setLine g e ((s.line g e).setUnit a.sub.unit (s.stored a)) := by
  unfold State.placeUnit
  dsimp only
  rw [if_neg (by simp [hst, hcopy]), if_pos (by simp [hmerge])]

/-- Slice `g` takes its arrival `k`. -/
def State.takeArrival (s : State) (g k : Nat) : State := { s with arr := Tab.insert g (dropAt (queueOf s.arr g) k) s.arr }

theorem exec_fillUnitArrive_fill {s : State} {g k e : Nat} {a : Arrival} (harr : (queueOf s.arr g)[k]? = some a) (hkind : a.sub.kind = .fill)
    (hline : s.findLine g a.sub.tag = some e) (hwaits : s.waits = []) (hst : ((s.line g e).unit a.sub.unit).st = 0)
    (hcopy : a.sub.copy ∈ ((s.line g e).unit a.sub.unit).fetch) (hmerge : ((s.line g e).unit a.sub.unit).merge = [])
    (hsharing : (s.line g e).sharing = false) :
    exec (.fillUnitArrive g k) s = .next (((((s.takeArrival g k).count
      ((s.takeArrival g k).occOf 0x048 1 g a.sub)).setLine g e ((s.line g e).setUnit a.sub.unit (s.stored a))).endFill g e).pump) := by
  change execFillUnitArrive g k s = _
  unfold execFillUnitArrive
  rw [harr]
  dsimp only
  rw [if_neg (by rw [hkind]; decide), if_neg (by rw [hkind]; decide)]
  obtain ⟨u, hu⟩ : ∃ u, (s.takeArrival g k).count ((s.takeArrival g k).occOf 0x048 1 g a.sub) = u := ⟨_, rfl⟩
  have hulines (h f : Nat) : u.line h f = s.line h f := by
    rw [← hu]
    rfl
  have huline : u.findLine g a.sub.tag = some e := by
    rw [← hu]
    exact hline
  have hstored : u.stored a = s.stored a := by
    rw [← hu]
    rfl
  have huwaits : u.waits = [] := by
    rw [← hu]
    exact hwaits
  have hplace := State.placeUnit_whole (s := u) (g := g) (e := e) (a := a) (by rw [hulines, hst]) (by rw [hulines]; exact hcopy) (by rw [hulines, hmerge])
  rw [hulines, hstored] at hplace
  rw [hu]
  unfold State.takeArrival at hu
  rw [hu, huline]
  dsimp only
  rw [hplace]
  generalize hv : u.setLine g e ((s.line g e).setUnit a.sub.unit (s.stored a)) = v
  have hvline : v.line g e = (s.line g e).setUnit a.sub.unit (s.stored a) := by
    rw [← hv]
    exact State.setLine_line_self _ _ _ _
  have hvwaits : v.waits = [] := by
    rw [← hv]
    exact huwaits
  rw [hvline, Line.setUnit_unit_self, hulines]
  have hshare : v.endShare g e = v := State.endShare_none (by rw [hvline]; exact hsharing)
  simp only [State.give_idle hvwaits, ite_self, hshare]

/-! ### The eviction buffer hands over a unit (R258) -/

theorem State.readUnit_clean {s : State} {g e n : Nat} (h : ((s.line g e).unit n).errs = []) : s.readUnit g e n = s :=
  if_pos (by rw [h]; rfl)

/-- The write-back of a linear unit: one atom of 32 bytes. -/
def Line.backSub (x : Line) (s : State) (g n : Nat) : SubReq :=
  { id := s.nextId, g := g, port := 8 * g, flow := x.flow, tag := x.tag, unit := n, kind := .wb, t0 := s.cclk, write := true, addr := 0, atoms := 1
    charge := 32, cells := (List.range 32).map fun k => (k, BitVec.ofNat 8 ((x.unit n).data.getD k 0)), since := s.cclk }

/-- The bytes of one atom. -/
def atomBytes (l : List Nat) : List (Nat × Byte) := (List.range 32).map fun k => (k, BitVec.ofNat 8 (l.getD k 0))

theorem atomBytes_runs (l : List Nat) : atomRuns (fun k => (atomBytes l).any fun e => e.1 / 32 == k) 16 0 = [(0, 1)] := by
  have hhas : (fun k => (atomBytes l).any fun e => e.1 / 32 == k) = fun k => k == 0 := by
    funext k
    unfold atomBytes
    rw [List.any_map, Bool.eq_iff_iff, List.any_eq_true]
    simp only [List.mem_range, Function.comp_apply, beq_iff_eq]
    constructor
    · rintro ⟨x, hx, hk⟩
      omega
    · exact fun hk => ⟨0, by omega, by omega⟩
  rw [hhas]
  decide

theorem atomBytes_mine (l : List Nat) :
    ((atomBytes l).filter fun e => decide (0 * 32 ≤ e.1 ∧ e.1 < 0 * 32 + 1 * 32)).map (fun e => (e.1 - 0 * 32, e.2)) = atomBytes l := by
  have hall : ((atomBytes l).filter fun e => decide (0 * 32 ≤ e.1 ∧ e.1 < 0 * 32 + 1 * 32)) = atomBytes l := by
    refine List.filter_eq_self.2 fun e he => ?_
    simp only [atomBytes, List.mem_map, List.mem_range] at he
    obtain ⟨k, hk, rfl⟩ := he
    simpa using hk
  rw [hall]
  simp

/-- One atom is written by one sub-request. -/
theorem State.writeBytes_atom (s : State) {u : SubReq} (hwait : u.wait = none) (hnamed : u.named = none) (l : List Nat) :
    s.writeBytes u (atomBytes l) = { s with
      subs := s.subs ++ [{ u with write := true, addr := 0, atoms := 1, charge := 32, cells := atomBytes l, id := s.nextId, since := s.cclk
                                  own := if u.own.isSome then u.own else none }]
      nextId := s.nextId + 1 } := by
  unfold State.writeBytes
  rw [atomBytes_runs, List.foldl_cons, List.foldl_nil]
  refine (congrArg (fun c => s.push { u with
    write := true, addr := 0 * 32, atoms := 1, charge := if u.named.isSome then 0 else 1 * 32, cells := c }) (atomBytes_mine l)).trans ?_
  unfold State.push
  simp only [hwait, hnamed]
  rfl

theorem State.writeBack_linear {s : State} {g n : Nat} {x : Line} (hlin : x.tag.lin = true) :
    ∃ m, s.writeBack g x n = { s with subs := s.subs ++ [x.backSub s g n], nextId := s.nextId + 1, meas := m } := by
  have hlive (v : State) : v.lineLive x.tag = true := by
    unfold State.lineLive
    rw [hlin]
    rfl
  unfold State.writeBack
  dsimp only
  rw [if_neg (by rw [hlive]; decide), if_pos hlin]
  refine ⟨_, (State.writeBytes_atom _ rfl rfl _).trans rfl⟩

/-- A DIRTY linear unit without array errors is handed over. -/
theorem State.handOver_linear {s : State} {g e n : Nat} (hlin : (s.line g e).tag.lin = true)
    (hfind : (s.line g e).units.find? (fun u => u.2.dirty) = some (n, (s.line g e).unit n)) (herrs : ((s.line g e).unit n).errs = []) :
    ∃ m b, s.handOver g e = ({ s with subs := s.subs ++ [(s.line g e).backSub s g n], nextId := s.nextId + 1, meas := m } : State).setLine g e
      { (s.line g e).setUnit n { (s.line g e).unit n with dirty := false } with evb := b } := by
  have hdirty : ((s.line g e).unit n).dirty = true := by
    simpa using List.find?_some hfind
  obtain ⟨m, hback⟩ := State.writeBack_linear (s := s) (g := g) (n := n) hlin
  refine ⟨m, if ((s.line g e).setUnit n { (s.line g e).unit n with dirty := false }).dirty then 2 else 0, ?_⟩
  unfold State.handOver
  dsimp only
  rw [hfind]
  dsimp only
  rw [State.readUnit_clean herrs, if_pos hdirty, hback]

theorem exec_evictWritebackUnit_one {s : State} {g e : Nat} (hmem : e ∈ [72, 73, 74, 75]) (hvalid : (s.line g e).valid = true)
    (hevb : (s.line g e).evb ≠ 0) (hother : ∀ f ∈ [72, 73, 74, 75], f ≠ e → (s.line g f).valid = false) :
    exec (.evictWritebackUnit g) s = .next (s.handOver g e).pump := by
  have hlist : ([72, 73, 74, 75].filter fun e => (s.line g e).valid && (s.line g e).evb != 0) = [e] := by
    have hcongr : ([72, 73, 74, 75].filter fun e => (s.line g e).valid && (s.line g e).evb != 0) = [72, 73, 74, 75].filter (· == e) := by
      refine List.filter_congr fun f hf => ?_
      by_cases hfe : f = e
      · subst hfe
        simp [hvalid, hevb]
      · simp [hother f hf hfe, hfe]
    rw [hcongr]
    simp only [List.mem_cons, List.not_mem_nil, or_false] at hmem
    rcases hmem with rfl | rfl | rfl | rfl <;> decide
  change execEvictWritebackUnit g s = _
  unfold execEvictWritebackUnit
  rw [hlist]
  rfl

/-! ### Range invalidates (R270, R276) -/

theorem State.flushLine_clean {s : State} {g e : Nat} (h : (s.line g e).dirty = false) : s.flushLine g e = s := by
  have hnone : ((s.line g e).units.filter fun u => u.2.dirty) = [] := by
    rw [List.filter_eq_nil_iff]
    exact fun u hu => by simpa using (List.any_eq_false.1 h) u hu
  unfold State.flushLine
  rw [hnone]
  rfl

theorem Line.discarded_clean {x : Line} (h : x.dirty = false) : x.discarded = x := by
  have hmap : (x.units.map fun u => (u.1, if u.2.dirty then { u.2 with st := 0, dirty := false, data := [] } else u.2)) = x.units := by
    refine (List.map_congr_left fun u hu => ?_).trans (List.map_id _)
    rw [if_neg (by simpa using (List.any_eq_false.1 h) u hu)]
    rfl
  unfold Line.discarded
  rw [hmap]

/-- A clean line that no write of its slice concerns leaves at once. -/
theorem State.invEntry_clean {s : State} {g e : Nat} (hdirty : (s.line g e).dirty = false) (hfill : (s.line g e).filling = false)
    (hlock : (s.line g e).locked = false) (hsettled : s.lineSettled g (s.line g e).tag = true) (discard : Bool) :
    ∃ u : State, (u = s ∨ u = s.setLine g e (s.line g e)) ∧ s.invEntry g e discard = (u.count { ev := 0x057, grp := some g }).dropLine g e := by
  have hleave (u : State) (hline : u.line g e = s.line g e) (hset : u.lineSettled g (s.line g e).tag = s.lineSettled g (s.line g e).tag) :
      (if (u.line g e).filling then u.setLine g e { u.line g e with inval := true }
        else if u.lineSettled g (u.line g e).tag then u.leave g e else u.setLine g e { u.line g e with gone := true, own := false }) =
      (u.count { ev := 0x057, grp := some g }).dropLine g e := by
    rw [hline, if_neg (by simp [hfill]), if_pos (hset.trans hsettled)]
    exact if_neg (by simp [hline, hlock])
  cases discard
  · refine ⟨s, Or.inl rfl, ?_⟩
    have h := hleave s rfl rfl
    unfold State.invEntry
    rw [if_neg Bool.false_ne_true, State.flushLine_clean hdirty]
    exact h
  · refine ⟨_, Or.inr rfl, ?_⟩
    have h := hleave (s.setLine g e (s.line g e)) (State.setLine_line_self _ _ _ _) rfl
    unfold State.invEntry
    rw [if_pos rfl, Line.discarded_clean hdirty]
    exact h

/-- `t` is `s` where of the entries of slice `g` some have been emptied, and no other entry has changed. -/
structure State.someEmptied (s : State) (g : Nat) (t : State) : Prop where
  frame : t = { s with lines := t.lines, meas := t.meas }
  slice : ∀ e, e < 76 → t.line g e = s.line g e ∨ t.line g e = {}
  other : ∀ h e, h ≠ g → e < 76 → t.line h e = s.line h e
  gone : (∀ h f, (s.line h f).gone = false) → ∀ h f, (t.line h f).gone = false

theorem State.someEmptied_refl (s : State) (g : Nat) : s.someEmptied g s := ⟨rfl, fun _ _ => Or.inl rfl, fun _ _ _ _ => rfl, id⟩

theorem State.someEmptied.trans {s t u : State} {g : Nat} (h : s.someEmptied g t) (k : t.someEmptied g u) : s.someEmptied g u := by
  refine ⟨?_, fun e he => ?_, fun i e hi he => (k.other i e hi he).trans (h.other i e hi he), fun hg => k.gone (h.gone hg)⟩
  · rw [k.frame, h.frame]
  · rcases k.slice e he with hk | hk
    · rw [hk]
      exact h.slice e he
    · exact Or.inr hk

theorem State.someEmptied_invEntry {s : State} {g e : Nat} (he : e < 76) (hdirty : (s.line g e).dirty = false)
    (hfill : (s.line g e).filling = false) (hlock : (s.line g e).locked = false) (hsettled : s.lineSettled g (s.line g e).tag = true)
    (discard : Bool) : s.someEmptied g (s.invEntry g e discard) ∧ (s.invEntry g e discard).line g e = {} := by
  obtain ⟨u, hu, heq⟩ := State.invEntry_clean hdirty hfill hlock hsettled discard
  rw [heq]
  have hstay (h f : Nat) (hf : f < 76) : u.line h f = s.line h f := by
    rcases hu with rfl | rfl
    · rfl
    · by_cases hne : h = g ∧ f = e
      · obtain ⟨rfl, rfl⟩ := hne
        exact State.setLine_line_self _ _ _ _
      · exact State.setLine_line_ne s hne (by omega) (by omega) _
  have hgone (hg : ∀ h f, (s.line h f).gone = false) (h f : Nat) : (u.line h f).gone = false := by
    rcases hu with rfl | rfl
    · exact hg h f
    · exact State.setLine_all (P := fun x => x.gone = false) hg (x := s.line g e) (hg g e) g e h f
  have hself : ((u.count { ev := 0x057, grp := some g }).dropLine g e).line g e = {} := State.setLine_line_self _ _ _ _
  refine ⟨⟨?_, fun f hf => ?_, fun h f hne hf => ?_, fun hg h f => ?_⟩, hself⟩
  · rcases hu with rfl | rfl <;> rfl
  · by_cases hfe : f = e
    · exact Or.inr (hfe ▸ hself)
    · exact Or.inl ((State.setLine_line_ne _ (by omega) (by omega) (by omega) _).trans (hstay g f hf))
  · exact (State.setLine_line_ne _ (by omega) (by omega) (by omega) _).trans (hstay h f hf)
  · exact State.setLine_all (P := fun x => x.gone = false) (hgone hg) (x := {}) rfl g e h f

theorem State.invSlice_all {s : State} {g : Nat} {cover : LTag → Bool} (hcover : ∀ t, cover t = true)
    (hclean : ∀ e, e < 76 → (s.line g e).dirty = false ∧ (s.line g e).filling = false ∧ (s.line g e).locked = false)
    (hsettled : ∀ e, e < 76 → (s.line g e).valid = true → s.lineSettled g (s.line g e).tag = true) (discard : Bool) :
    s.someEmptied g (s.invSlice g cover discard) ∧ ∀ e, e < 76 → ((s.invSlice g cover discard).line g e).valid = false := by
  suffices hgen : ∀ l : List Nat, (∀ e ∈ l, e < 76) → ∀ t : State, s.someEmptied g t →
      s.someEmptied g (l.foldl (fun (s : State) e =>
        if (s.line g e).valid && cover (s.line g e).tag then s.invEntry g e discard else s) t) ∧
      ∀ e, e < 76 → e ∈ l ∨ (t.line g e).valid = false → ((l.foldl (fun (s : State) e =>
        if (s.line g e).valid && cover (s.line g e).tag then s.invEntry g e discard else s) t).line g e).valid = false by
    obtain ⟨hsome, hvalid⟩ := hgen entries (fun e he => List.mem_range.1 he) s (s.someEmptied_refl g)
    exact ⟨hsome, fun e he => hvalid e he (Or.inl (List.mem_range.2 he))⟩
  intro l
  induction l with
  | nil => exact fun _ t ht => ⟨ht, fun e he h => h.resolve_left (List.not_mem_nil)⟩
  | cons a l ih =>
    intro hl t ht
    have ha : a < 76 := hl a List.mem_cons_self
    have hstep : s.someEmptied g (if (t.line g a).valid && cover (t.line g a).tag then t.invEntry g a discard else t) ∧
        ((if (t.line g a).valid && cover (t.line g a).tag then t.invEntry g a discard else t).line g a).valid = false ∧
        t.someEmptied g (if (t.line g a).valid && cover (t.line g a).tag then t.invEntry g a discard else t) := by
      rw [hcover, Bool.and_true]
      split
      · next hvalid =>
        have hsame : t.line g a = s.line g a := (ht.slice a ha).resolve_right fun h => by
          rw [h] at hvalid
          cases hvalid
        obtain ⟨hdirty, hfill, hlock⟩ := hclean a ha
        have hset : t.lineSettled g (s.line g a).tag = true := by
          rw [ht.frame]
          exact hsettled a ha (hsame ▸ hvalid)
        obtain ⟨hsome, hempty⟩ := State.someEmptied_invEntry ha (by rw [hsame, hdirty]) (by rw [hsame, hfill]) (by rw [hsame, hlock])
          (by rw [hsame, hset]) discard
        exact ⟨ht.trans hsome, by rw [hempty], hsome⟩
      · next hvalid => exact ⟨ht, by simpa using hvalid, t.someEmptied_refl g⟩
    rw [List.foldl_cons]
    generalize (if (t.line g a).valid && cover (t.line g a).tag then t.invEntry g a discard else t) = u at *
    obtain ⟨hsome, hnone, hfrom⟩ := hstep
    obtain ⟨hfin, hvalid⟩ := ih (fun e he => hl e (List.mem_cons_of_mem _ he)) u hsome
    refine ⟨hfin, fun e he hor => hvalid e he ?_⟩
    have hstays (h : (t.line g e).valid = false) : (u.line g e).valid = false := by
      rcases hfrom.slice e he with hk | hk
      · rw [hk, h]
      · rw [hk]
    rcases hor with hmem | hinv
    · rcases List.mem_cons.1 hmem with rfl | hmem
      · exact Or.inr hnone
      · exact Or.inl hmem
    · exact Or.inr (hstays hinv)

/-- A write of a present Now-class field takes a value within its range. -/
theorem applySlot_inRange (s0 : State) (w : Nat) (sb : State × Bool) (x : Slot) (ha : x.f.acc = .rw) (hc : x.f.cls = .now)
    (hp : x.f.present s0.build x.i = true) (hr : s0.rangeOk x.f x.i x.j (bits w x.f.lsb x.f.width) = true) :
    applySlot s0 w sb x = (sb.1.wr x.f x.i x.j (bits w x.f.lsb x.f.width), sb.2) := by
  unfold applySlot
  simp [ha, hc, hp, hr]

/-- The fields of HALO_INV_CTL. -/
def invCtlSlots (g : Nat) : List Slot := [⟨R.HALO_INV_CTL_KIND, g, 0⟩, ⟨R.HALO_INV_CTL_DISCARD, g, 0⟩, ⟨R.HALO_INV_CTL_BCAST, g, 0⟩]

theorem applySlots_invCtl {s : State} {g w : Nat} (hg : g < s.G) (hkind : bits w 1 2 = 2) :
    applySlots s w (invCtlSlots g) = (s.wrSlots w (invCtlSlots g), false) := by
  have hp {f : Fld} (hunit : f.unit = .group) : f.present s.build g = true := by
    unfold Fld.present
    rw [hunit]
    exact decide_eq_true hg
  have hrange : s.rangeOk R.HALO_INV_CTL_KIND g 0 (bits w 1 2) = true := by
    rw [hkind]
    rfl
  unfold applySlots invCtlSlots
  rw [List.foldl_cons, applySlot_inRange s w (s, false) ⟨R.HALO_INV_CTL_KIND, g, 0⟩ rfl rfl (hp rfl) hrange, List.foldl_cons,
    applySlot_now s w _ ⟨R.HALO_INV_CTL_DISCARD, g, 0⟩ rfl rfl (hp rfl) rfl, List.foldl_cons,
    applySlot_now s w _ ⟨R.HALO_INV_CTL_BCAST, g, 0⟩ rfl rfl (hp rfl) rfl]
  rfl

theorem invCtlSlots_keys (g : Nat) : ((invCtlSlots g).map fun x => x.f.key x.i x.j).Nodup := by
  simp only [invCtlSlots, List.map_cons, List.map_nil, List.nodup_cons, List.mem_cons, List.not_mem_nil, or_false, not_or, not_false_eq_true,
    List.nodup_nil, and_true]
  exact ⟨⟨Fld.key_ne (by decide) _ _ _ _, Fld.key_ne (by decide) _ _ _ _⟩, Fld.key_ne (by decide) _ _ _ _⟩

/-- The state after GO of a range invalidate in slice `g` alone. -/
def State.invStarted (s : State) (g : Nat) : State :=
  (s.invSlice g (s.invCovers g) (s.rd R.HALO_INV_CTL_DISCARD g == 1)).setGroup g
    { (s.invSlice g (s.invCovers g) (s.rd R.HALO_INV_CTL_DISCARD g == 1)).group g with invBusy := true, invSlices := [g] }

theorem State.invGo_alone {s : State} {g : Nat} (hbusy : (s.group g).invBusy = false) (hbcast : s.rd R.HALO_INV_CTL_BCAST g = 0) :
    s.invGo g = ((s.invStarted g).pump, false) := by
  unfold State.invGo State.invStarted
  rw [if_neg (by simp [hbusy])]
  dsimp only
  rw [if_neg (by simp [hbcast]), List.foldl_cons, List.foldl_nil]

theorem runActs_nil (w : Nat) (sb : State × Bool) : runActs w [] sb = sb := rfl

theorem invSlots_ctl (g : Nat) : invSlots g 0x1008 = invCtlSlots g := if_pos rfl

/-- A write of HALO_INV_CTL whose only action asked for is GO, while no invalidate is under way. -/
theorem State.writeInv_go {s : State} {g w : Nat} (hg : g < s.G) (hbusy : (s.group g).invBusy = false) (hgo : bit w 0 = true) (tgt : Nat) :
    s.writeInv g 0x1008 w tgt = (((applySlots s w (invCtlSlots g)).1.invGo g).1).busyIf
      ((applySlots s w (invCtlSlots g)).2 || ((applySlots s w (invCtlSlots g)).1.invGo g).2) (grpAddr g 0x1008) tgt := by
  unfold State.writeInv
  rw [if_neg (by omega), invSlots_ctl, if_pos rfl]
  simp only [hbusy, Bool.false_and, Bool.or_false, Bool.false_eq_true, if_false]
  rw [runActs_take hgo, runActs_nil]

/-- GO of a range invalidate of every line of slice `g`. -/
theorem State.writeInv_all {s : State} {g w : Nat} (hg : g < s.G) (hbusy : (s.group g).invBusy = false) (hgo : bit w 0 = true)
    (hkind : bits w 1 2 = 2) (hbcast : bits w 4 1 = 0) (tgt : Nat) :
    s.writeInv g 0x1008 w tgt = ((s.wrSlots w (invCtlSlots g)).invStarted g).pump := by
  have heq := s.wrSlots_eq w (invCtlSlots g)
  have hb : (s.wrSlots w (invCtlSlots g)).rd R.HALO_INV_CTL_BCAST g = 0 :=
    (s.wrSlots_rd w (invCtlSlots_keys g) (x := ⟨R.HALO_INV_CTL_BCAST, g, 0⟩) (by simp [invCtlSlots])).trans hbcast
  rw [State.writeInv_go hg hbusy hgo, applySlots_invCtl hg hkind]
  generalize s.wrSlots w (invCtlSlots g) = v at *
  have hvbusy : (v.group g).invBusy = false := by
    rw [heq]
    exact hbusy
  rw [State.invGo_alone hvbusy hb, Bool.or_self, State.busyIf_false]

/-- KIND 2 covers every line. -/
theorem State.invCovers_all {s : State} {g w : Nat} (hkind : bits w 1 2 = 2) (t : LTag) : (s.wrSlots w (invCtlSlots g)).invCovers g t = true :=
  if_pos ((s.wrSlots_rd w (invCtlSlots_keys g) (x := ⟨R.HALO_INV_CTL_KIND, g, 0⟩) (by simp [invCtlSlots])).trans hkind)

theorem exec_haloInvalidate_open {s : State} (h : s.portOpen) (g : Nat) (w : Word) (tgt : Nat) :
    exec (.haloInvalidate g w tgt) s = .next (s.writeInv g 0x1008 (w ||| 1).toNat tgt) :=
  congrArg Host.Outcome.next (State.regAccess_open h ..)

theorem exec_haloInvDone_over {s : State} {g : Nat} (hbusy : (s.group g).invBusy = true) (hdone : (s.group g).invSlices.all s.invSettled = true) :
    exec (.haloInvDone g) s = .next ((s.setGroup g { s.group g with invBusy := false, invSlices := [] }).raiseHalo R.HALO_STATUS_INV_DONE g) :=
  if_neg (by simp [hbusy, hdone])

end Sys2Proof.Machine

open Sys2Proof Sys2Proof.Machine

/-- Settles O45: the unit that arrives, the unit handed over, and the invalidate, each in slices with nothing else to do. -/
theorem haloUnits : Obligations.HaloUnits := by
  unfold Obligations.HaloUnits
  intro s g
  refine ⟨fun k e a hquiet hgone harr hkind hline hst hcopy hmerge hinval hsharing => ?_,
    fun e n hquiet hgone hmem hvalid hevb hother hlin hfind herrs => ?_,
    fun w tgt hquiet hopen hg hbusy hkind hbcast hclean hsettled hgone => ?_, fun hbusy hdone => ?_⟩
  · have hexec := exec_fillUnitArrive_fill harr hkind hline hquiet.1 hst hcopy hmerge hsharing
    have he := (State.findLine_spec hline).1
    have hset : (s.takeArrival g k).count ((s.takeArrival g k).occOf 0x048 1 g a.sub) = { s with
      arr := Tab.insert g (dropAt (queueOf s.arr g) k) s.arr
      meas := ((s.takeArrival g k).count ((s.takeArrival g k).occOf 0x048 1 g a.sub)).meas } := rfl
    generalize (s.takeArrival g k).count ((s.takeArrival g k).occOf 0x048 1 g a.sub) = u at *
    have huline (h f : Nat) : u.line h f = s.line h f := by
      rw [hset]
      rfl
    have hself := u.setLine_line_self g e ((s.line g e).setUnit a.sub.unit (s.stored a))
    have hrest (h f : Nat) (hf : f < 128) (hne : ¬ (h = g ∧ f = e)) := (State.setLine_line_ne u hne (by omega) hf
      ((s.line g e).setUnit a.sub.unit (s.stored a))).trans (huline h f)
    have hstays := State.setLine_all (P := fun x => x.gone = false) (s := u) (fun h f => by rw [huline]; exact hgone h f)
      (x := (s.line g e).setUnit a.sub.unit (s.stored a)) (hgone g e) g e
    have hv : u.setLine g e ((s.line g e).setUnit a.sub.unit (s.stored a)) = { u with
      lines := (u.setLine g e ((s.line g e).setUnit a.sub.unit (s.stored a))).lines } := rfl
    generalize u.setLine g e ((s.line g e).setUnit a.sub.unit (s.stored a)) = v at *
    have h := State.endFill_ended (s := v) (g := g) (e := e) (by omega) (by rw [hself]; exact hinval)
    generalize v.endFill g e = t at *
    have hsettled : t.settled := State.settled.congr ⟨hquiet, hgone⟩ (by rw [h.frame, hv, hset]) (by rw [h.frame, hv, hset])
      (by rw [h.frame, hv, hset]) (h.gone hstays)
    rw [State.pump_settled hsettled] at hexec
    have hunit (n : Nat) : (t.line g e).unit n = ((s.line g e).setUnit a.sub.unit (s.stored a)).unit n := by
      unfold Line.unit
      rw [h.units, hself]
    have hwaiting : (v.line g e).waiting = (t.line g e).waiting := by
      unfold Line.waiting
      rw [h.units]
    have hfilling := h.filling
    have hown := h.own
    rw [← hfilling] at hown
    rw [hwaiting] at hfilling
    rw [hself] at hown hfilling
    refine ⟨t, hexec, ?_, ?_, fun n hn => ?_, fun i f hf hne => (h.other i f (by omega) hne).trans (hrest i f (by omega) hne), hfilling, hown, ?_⟩
    · have harr' : t.arr = Tab.insert g (dropAt (queueOf s.arr g) k) s.arr := by rw [h.frame, hv, hset]
      rw [harr']
      exact Tab.get_insert_self _ _ _ _
    · rw [hunit, Line.setUnit_unit_self]
    · rw [hunit, Line.setUnit_unit_ne _ hn]
    · rw [h.frame, hv, hset]
  · have hexec := exec_evictWritebackUnit_one hmem hvalid hevb hother
    have he : e < 76 := by
      simp only [List.mem_cons, List.not_mem_nil, or_false] at hmem
      omega
    obtain ⟨m, b, hhand⟩ := State.handOver_linear hlin hfind herrs
    rw [hhand] at hexec
    generalize hx : ({ (s.line g e).setUnit n { (s.line g e).unit n with dirty := false } with evb := b } : Line) = x at *
    have hxgone : x.gone = false := by
      rw [← hx]
      exact hgone g e
    have hxunit (i : Nat) : x.unit i = ((s.line g e).setUnit n { (s.line g e).unit n with dirty := false }).unit i := by
      rw [← hx]
      rfl
    rw [State.pump_settled (State.settled.congr ⟨hquiet, hgone⟩ ?_ ?_ ?_ ?_)] at hexec
    rotate_left
    · rfl
    · rfl
    · rfl
    · exact State.setLine_all (P := fun x => x.gone = false) (fun h f => hgone h f) (x := x) hxgone g e
    refine ⟨_, hexec, ⟨_, rfl, rfl, rfl, rfl, rfl, rfl, rfl, rfl⟩, ?_, fun i hi => ?_, rfl⟩
    · rw [State.setLine_line_self, hxunit, Line.setUnit_unit_self]
    · rw [State.setLine_line_self, hxunit, Line.setUnit_unit_ne _ hi]
  · have hkind1 : bits (w ||| 1).toNat 1 2 = 2 := by rw [bits_or_of_clear w 1 (by decide), hkind]
    have hbcast1 : bits (w ||| 1).toNat 4 1 = 0 := by rw [bits_or_of_clear w 1 (by decide), hbcast]
    have hexec := exec_haloInvalidate_open hopen g w tgt
    rw [State.writeInv_all hg hbusy (bit_or_self w 1 (n := 0) (by decide)) hkind1 hbcast1] at hexec
    have hcover := State.invCovers_all (s := s) (g := g) hkind1
    have heq := s.wrSlots_eq (w ||| 1).toNat (invCtlSlots g)
    have hkept := s.wrSlots_regsKept (w ||| 1).toNat (invCtlSlots g)
    generalize s.wrSlots (w ||| 1).toNat (invCtlSlots g) = v at *
    have hvline (h f : Nat) : v.line h f = s.line h f := by
      rw [heq]
      rfl
    obtain ⟨hsome, hvalid⟩ := State.invSlice_all (s := v) (g := g) hcover (fun e he => by rw [hvline]; exact hclean e he)
      (fun e he h => by
        rw [hvline] at h ⊢
        rw [heq]
        exact hsettled e he h) (v.rd R.HALO_INV_CTL_DISCARD g == 1)
    unfold State.invStarted at hexec
    generalize v.invSlice g (v.invCovers g) (v.rd R.HALO_INV_CTL_DISCARD g == 1) = u at *
    have hgroup (h : Nat) : u.group h = s.group h := by
      rw [hsome.frame, heq]
      rfl
    rw [State.pump_settled (State.settled.congr ⟨hquiet, hgone⟩ ?_ ?_ ?_ ?_), hgroup] at hexec
    rotate_left
    · rw [State.setGroup_waits, hsome.frame, heq]
    · rw [State.setGroup_hdrWait, hsome.frame, heq]
    · rw [State.setGroup_enc, hsome.frame, heq]
    · exact hsome.gone fun h f => by rw [hvline]; exact hgone h f
    refine ⟨_, hexec, hvalid, fun h e hne he => (hsome.other h e hne he).trans (hvline h e), State.setGroup_group_self _ _ _, ?_, ?_⟩
    · rw [hsome.frame, heq]
      rfl
    · exact State.regsKept_congr hkept (by rw [State.setGroup_regs, hsome.frame]) (by rw [State.setGroup_build, hsome.frame])
  · refine ⟨_, exec_haloInvDone_over hbusy hdone, State.setGroup_group_self s g _, State.setBit_rd_self _ R.HALO_STATUS_INV_DONE g 0, ?_, rfl, ?_⟩
    · rw [State.raiseHalo, State.raise_evt_pending, bit_or, bit_two_pow]
      simp
    · exact State.regsKept_congr (State.setBit_regsKept s R.HALO_STATUS_INV_DONE g 0) rfl rfl

end

section
/-! Snoop messages: the bus, and the acknowledgements of a SHARE. -/

namespace Sys2Proof.Machine
open Sys2Proof

/-! ### A message takes the bus (R254, R255) -/

theorem State.checkTags_good {s : State} {g : Nat} (h : ∀ e, (s.line g e).tagErr = false) : s.checkTags g = s := by
  unfold State.checkTags
  refine foldl_fixed fun e _ => if_pos (Or.inr (h e))

/-- A list of which one element alone makes a step. -/
theorem foldl_step {α β : Type} {f : β → α → β} {b c : β} {l m : List α} {a : α} (hl : ∀ x ∈ l, f b x = b) (ha : f b a = c) (hm : ∀ x ∈ m, f c x = c) :
    (l ++ a :: m).foldl f b = c := by
  rw [List.foldl_append, foldl_fixed hl, List.foldl_cons, ha, foldl_fixed hm]

theorem mem_others {s : State} {g h : Nat} : h ∈ ((List.range s.G).filter fun i => i != g) ↔ h < s.G ∧ h ≠ g := by
  simp

/-- No other slice holds the line. -/
theorem State.takeBus_miss {s : State} {k : Nat} {n : Snoop} (htags : ∀ h e, (s.line h e).tagErr = false)
    (hmiss : ∀ h, h < s.G → h ≠ n.g → s.findLine h n.tag = none) :
    s.takeBus k n = { s with snoops := setAt s.snoops k { n with sent := true, found := false, bus := s.busNext }, snoopLast := n.g } := by
  unfold State.takeBus
  rw [foldl_fixed fun h hh => by
    dsimp only
    rw [State.checkTags_good (htags h), hmiss h (mem_others.1 hh).1 (mem_others.1 hh).2]]

/-- The line of another slice after a message. -/
def Line.snooped (x : Line) (claim : Bool) : Line := if claim then {} else { x with own := false, sole := false }

theorem State.snoopAt_clean {s : State} {h e : Nat} {claim : Bool} (hdirty : (s.line h e).dirty = false)
    (hmerge : (s.line h e).units.all (fun u => u.2.merge.isEmpty) = true) (hfill : (s.line h e).filling = false)
    (hlock : (s.line h e).locked = false) (hplace : claim = true → e < 72) :
    s.snoopAt h e claim = (s.count { ev := 0x052, grp := some h }).setLine h e ((s.line h e).snooped claim) := by
  have hnone : ((s.line h e).units.any fun u => !u.2.merge.isEmpty) = false := by
    rw [List.any_eq_false]
    intro u hu
    simpa using List.all_eq_true.1 hmerge u hu
  unfold State.snoopAt
  rw [State.flushLine_clean hdirty]
  dsimp only
  have hline : (s.count { ev := 0x052, grp := some h }).line h e = s.line h e := rfl
  rw [hline]
  cases claim
  · rw [if_pos rfl, if_neg (by simp [hnone])]
    rfl
  · have := hplace rfl
    rw [if_neg (by decide), if_neg (by simp only [hfill, Bool.false_eq_true, false_or]; omega), if_neg (by simp [hlock])]
    rfl

/-- One other slice holds the line, clean and at rest. -/
theorem State.takeBus_hit {s : State} {k h e : Nat} {n : Snoop} (htags : ∀ h e, (s.line h e).tagErr = false) (hh : h < s.G) (hne : h ≠ n.g)
    (hhit : s.findLine h n.tag = some e) (hmiss : ∀ j, j < s.G → j ≠ n.g → j ≠ h → s.findLine j n.tag = none)
    (hempty : (s.line h e).empty = false) (hgone : (s.line h e).gone = false)
    {u : State} (hu : s.snoopAt h e n.claim = u) (hutags : ∀ h e, (u.line h e).tagErr = false)
    (hother : ∀ j f, j ≠ h → f < 76 → u.line j f = s.line j f) :
    s.takeBus k n = { u with snoops := setAt u.snoops k { n with sent := true, found := true, bus := s.busNext }, snoopLast := n.g } := by
  obtain ⟨l, m, hsplit⟩ := List.append_of_mem (mem_others.2 ⟨hh, hne⟩)
  have hnodup : ((List.range s.G).filter fun g => g != n.g).Nodup := List.nodup_range.filter _
  rw [hsplit, List.nodup_append] at hnodup
  obtain ⟨-, hm, hl⟩ := hnodup
  have hmem {j : Nat} (hj : j ∈ l ++ h :: m) : j < s.G ∧ j ≠ n.g := by
    rw [← hsplit] at hj
    exact mem_others.1 hj
  unfold State.takeBus
  rw [hsplit, foldl_step (c := (u, true)) (fun j hj => ?_) ?_ (fun j hj => ?_)]
  · dsimp only
    rw [State.checkTags_good (htags h), hhit]
    dsimp only
    rw [if_neg (by simp [hempty, hgone]), hu]
  · dsimp only
    obtain ⟨hjG, hjn⟩ := hmem (List.mem_append_left _ hj)
    rw [State.checkTags_good (htags j), hmiss j hjG hjn (hl j hj h List.mem_cons_self)]
  · dsimp only
    have hjh : j ≠ h := fun hjh => (List.nodup_cons.1 hm).1 (hjh ▸ hj)
    obtain ⟨hjG, hjn⟩ := hmem (List.mem_append_right _ (List.mem_cons_of_mem _ hj))
    rw [State.checkTags_good (hutags j), State.findLine_congr (fun f hf => hother j f hjh hf), hmiss j hjG hjn hjh]

/-- The command that lets a message of either kind take the bus. -/
theorem exec_snoop_next {s : State} {k : Nat} {n : Snoop} (hk : s.snoops[k]? = some n) (hnext : s.nextSnoop = some k) :
    exec (if n.claim then .snoopClaim else .snoopShare) s = .next (s.takeBus k n).pump := by
  have hstep : s.snoopStep n.claim = (s.takeBus k n).pump := by
    unfold State.snoopStep
    rw [hnext]
    dsimp only
    rw [hk]
    exact if_pos rfl
  rw [← hstep]
  cases n.claim <;> rfl

/-! ### The acknowledgements of a SHARE (R245, R256) -/

theorem State.modWait_idle {s : State} (h : s.waits = []) (id : Nat) (f : Wait → Wait) : s.modWait id f = s := by
  unfold State.modWait
  rw [h]
  simp only [List.map_nil]
  rw [← h]

/-- A sub-request as the traffic unit takes it. -/
def SubReq.sent (u : SubReq) (s : State) : SubReq :=
  { u with id := s.nextId, since := s.cclk, own := if u.own.isSome then u.own else u.wait }

/-- With no request waiting, a sub-request only joins the queue of the traffic unit. -/
theorem State.push_idle {s : State} (h : s.waits = []) (u : SubReq) : s.push u = { s with subs := s.subs ++ [u.sent s], nextId := s.nextId + 1 } := by
  unfold State.push
  split
  · split
    · rw [State.modWait_idle h]
      rfl
    · rfl
  · rfl

/-- Units of a linear line that are fetched, with no request waiting: one sub-request each. -/
theorem State.fetch_linear {s : State} (h : s.waits = []) {u : SubReq} (hlin : u.tag.lin = true) (hkind : u.kind = .fill) (l : List Nat) :
    ∃ vs id, s.fetch u l = { s with subs := s.subs ++ vs, nextId := id } ∧
      vs.map (fun v => (v.tag, v.unit, v.atoms)) = l.map fun m => (u.tag, m, 1) := by
  have heq : s.fetch u l = l.foldl (fun (s : State) n => s.push { u with unit := n, atoms := 1, charge := if u.named.isSome then 0 else 32 }) s := by
    unfold State.fetch
    dsimp only
    rw [if_pos hlin, if_neg (by rw [hkind]; decide)]
  rw [heq]
  clear heq
  induction l generalizing s with
  | nil => exact ⟨[], s.nextId, by simp, rfl⟩
  | cons m l ih =>
    rw [List.foldl_cons, State.push_idle h]
    generalize hv : ({ u with unit := m, atoms := 1, charge := if u.named.isSome then 0 else 32 } : SubReq).sent s = v
    have hv : (v.tag, v.unit, v.atoms) = (u.tag, m, 1) := by
      rw [← hv]
      rfl
    obtain ⟨vs, id, heq, hmap⟩ := ih (s := { s with subs := s.subs ++ [v], nextId := s.nextId + 1 }) h
    refine ⟨v :: vs, id, heq.trans ?_, ?_⟩
    · simp only [List.append_assoc, List.singleton_append]
    · rw [List.map_cons, List.map_cons, hmap, hv]

/-- The message of a fill that every other slice has acknowledged: the line may be owned, and the fill asks for its units. -/
theorem exec_snoopAcksDone_fill {s : State} {k e : Nat} {n : Snoop} {l : List Nat} {u : SubReq} (hk : s.snoops[k]? = some n) (hsent : n.sent = true)
    (hclaim : n.claim = false) (hmore : n.more = []) (hacked : ∀ h, h < s.G → h ≠ n.g → s.acked n h = true) (hact : n.act = .fill l u)
    (hafter : ∀ m ∈ s.snoops, n.follows m = true → m.claim = true → m.sent = false) (hkind : u.kind = .fill)
    (hline : s.findLine n.g n.tag = some e) : exec (.snoopAcksDone k) s =
      .next (((({ s with snoops := dropAt s.snoops k } : State).setLine n.g e { s.line n.g e with
        sole := if (s.line n.g e).filling then !n.found && !((dropAt s.snoops k).any fun m => m.follows n) else (s.line n.g e).sole }).fetch u l).pump)
    := by
  have hall : (((List.range s.G).filter fun g => g != n.g).all (s.acked n)) = true := by
    rw [List.all_eq_true]
    exact fun h hh => hacked h (mem_others.1 hh).1 (mem_others.1 hh).2
  have hlate : (s.snoops.any fun m => m.claim && n.follows m && m.sent) = false := by
    rw [List.any_eq_false]
    intro m hm h
    simp only [Bool.and_eq_true] at h
    obtain ⟨⟨hc, hf⟩, hs⟩ := h
    rw [hafter m hm hf hc] at hs
    cases hs
  have hwaits : s.writeWaits n = false := by
    unfold State.writeWaits
    rw [hact]
  change execSnoopAcksDone k s = _
  unfold execSnoopAcksDone
  rw [hk]
  dsimp only
  rw [if_neg (by simp [hsent, hall, hlate, hwaits]), if_neg (by simp [hclaim])]
  unfold State.snoopAct
  rw [hact, hmore]
  dsimp only
  have hfind : ({ s with snoops := dropAt s.snoops k } : State).findLine n.g n.tag = some e := hline
  rw [hfind]
  dsimp only
  rw [if_neg (by rw [hkind]; exact fun h => absurd h.1 (by decide)), List.foldl_nil]
  rfl

end Sys2Proof.Machine

open Sys2Proof Sys2Proof.Machine

/-- Settles O46: the message finds the line in one other slice or in none, and a SHARE that all have acknowledged lets the fill go on. -/
theorem snoopMessages : Obligations.SnoopMessages := by
  unfold Obligations.SnoopMessages
  intro s k n hquiet hgone hk hg i
  refine ⟨fun hnext htags => ⟨fun hmiss => ?_, fun h e hh hne hhit hmiss hempty hdirty hclean hfill hlock hmerge hplace => ?_⟩,
    fun l u e hsent hclaim hmore hacked hact hafter hlin hkind hline => ?_⟩
  · have hexec := exec_snoop_next hk hnext
    rw [State.takeBus_miss htags hmiss, State.pump_settled (State.settled.congr ⟨hquiet, hgone⟩ ?_ ?_ ?_ ?_)] at hexec
    · exact hexec
    · rfl
    · rfl
    · rfl
    · exact hgone
  · have hexec := exec_snoop_next hk hnext
    have he := (State.findLine_spec hhit).1
    obtain ⟨u, hu⟩ : ∃ u, s.snoopAt h e n.claim = u := ⟨_, rfl⟩
    have hsnoop := (State.snoopAt_clean hdirty hmerge hfill hlock hplace).symm.trans hu
    have hself : u.line h e = (s.line h e).snooped n.claim := by
      rw [← hsnoop]
      exact State.setLine_line_self _ _ _ _
    have hall (P : Line → Prop) (hs : ∀ j f, P (s.line j f)) (hx : P ((s.line h e).snooped n.claim)) (j f : Nat) : P (u.line j f) := by
      rw [← hsnoop]
      exact State.setLine_all (s := s.count { ev := 0x052, grp := some h }) hs hx h e j f
    have hother (j f : Nat) (hj : j ≠ h) (hf : f < 76) : u.line j f = s.line j f := by
      rw [← hsnoop]
      exact State.setLine_line_ne _ (by omega) (by omega) (by omega) _
    have hframe : u = { s with lines := u.lines, meas := u.meas } := by
      rw [← hsnoop]
      rfl
    have hsnooped (P : Line → Prop) (hnew : P {}) (hold : P { s.line h e with own := false, sole := false }) :
        P ((s.line h e).snooped n.claim) := by
      unfold Line.snooped
      split
      · exact hnew
      · exact hold
    rw [State.takeBus_hit htags hh hne hhit hmiss hempty (hgone h e) hu
      (hall (fun x => x.tagErr = false) htags (hsnooped (fun x => x.tagErr = false) rfl (htags h e))) hother,
      State.pump_settled (State.settled.congr ⟨hquiet, hgone⟩ ?_ ?_ ?_ ?_)] at hexec
    rotate_left
    · rw [hframe]
    · rw [hframe]
    · rw [hframe]
    · exact hall (fun x => x.gone = false) hgone (hsnooped (fun x => x.gone = false) rfl (hgone h e))
    refine ⟨_, hexec, hself, ?_, rfl, ?_⟩
    · rw [hframe]
    · rw [hframe]
  · have hexec := exec_snoopAcksDone_fill hk hsent hclaim hmore hacked hact hafter hkind hline
    have hself := ({ s with snoops := dropAt s.snoops k } : State).setLine_line_self n.g e { s.line n.g e with
      sole := if (s.line n.g e).filling then !n.found && !((dropAt s.snoops k).any fun m => m.follows n) else (s.line n.g e).sole }
    have hstays := State.setLine_all (P := fun x => x.gone = false) (s := { s with snoops := dropAt s.snoops k }) hgone (x := { s.line n.g e with
      sole := if (s.line n.g e).filling then !n.found && !((dropAt s.snoops k).any fun m => m.follows n) else (s.line n.g e).sole })
      (hgone n.g e) n.g e
    have hframe : ({ s with snoops := dropAt s.snoops k } : State).setLine n.g e { s.line n.g e with
      sole := if (s.line n.g e).filling then !n.found && !((dropAt s.snoops k).any fun m => m.follows n) else (s.line n.g e).sole } =
      { s with snoops := dropAt s.snoops k, lines := (({ s with snoops := dropAt s.snoops k } : State).setLine n.g e { s.line n.g e with
      sole := if (s.line n.g e).filling then !n.found && !((dropAt s.snoops k).any fun m => m.follows n) else (s.line n.g e).sole }).lines } := rfl
    generalize ({ s with snoops := dropAt s.snoops k } : State).setLine n.g e { s.line n.g e with
      sole := if (s.line n.g e).filling then !n.found && !((dropAt s.snoops k).any fun m => m.follows n) else (s.line n.g e).sole } = v at *
    obtain ⟨vs, id, hfetch, hmap⟩ := State.fetch_linear (s := v) (by rw [hframe]; exact hquiet.1) hlin hkind l
    rw [hfetch, State.pump_settled (State.settled.congr ⟨hquiet, hgone⟩ ?_ ?_ ?_ ?_)] at hexec
    rotate_left
    · rw [hframe]
    · rw [hframe]
    · rw [hframe]
    · exact hstays
    refine ⟨_, hexec, ?_, ?_, ?_, ?_⟩
    · rw [hframe]
    · exact congrArg Line.sole hself
    · rw [List.map_append, hmap, hframe]
    · rw [hframe]

end

section
/-! The last unit of a READ answers its request. -/

namespace Sys2Proof

theorem Tab.find_mapVals {α β : Type} (f : α → β) (t : Tab α) (k : Nat) : Tab.find (t.map fun e => (e.1, f e.2)) k = (Tab.find t k).map f := by
  induction t with
  | nil => rfl
  | cons e t ih =>
    obtain ⟨a, v⟩ := e
    simp only [List.map_cons, Tab.find]
    split
    · rfl
    · exact ih

end Sys2Proof

namespace Sys2Proof.Machine
open Sys2Proof

/-! ### Lines that leave -/

/-- `t` is `s` but for its lines and measurements. -/
def State.linesOnly (s t : State) : Prop := t = { s with lines := t.lines, meas := t.meas }

theorem State.linesOnly.trans {s t u : State} (h : s.linesOnly t) (k : t.linesOnly u) : s.linesOnly u := by
  unfold State.linesOnly at *
  rw [k, h]

theorem State.linesOnly.port {s t : State} (h : s.linesOnly t) (p : Nat) : t.port p = s.port p := by
  unfold State.linesOnly at h
  rw [h]
  rfl

theorem State.leave_linesOnly (s : State) (g e : Nat) : s.linesOnly (s.leave g e) := by
  unfold State.leave State.linesOnly
  dsimp only
  split <;> rfl

theorem State.leaveGone_linesOnly (s : State) : s.linesOnly s.leaveGone := by
  unfold State.leaveGone
  refine foldl_keeps s.linesOnly _ (fun u g hu => foldl_keeps s.linesOnly _ (fun v e hv => ?_) _ u hu) _ s rfl
  dsimp only
  split
  · exact hv.trans (v.leave_linesOnly g e)
  · exact hv

/-! ### A request that waits for nothing more (R120, R128) -/

/-- What a freed surface loses once nothing uses it any more. -/
theorem State.dropFreed_only (s : State) (i : Nat) :
    s.dropFreed i = { s with lines := (s.dropFreed i).lines, enc := (s.dropFreed i).enc, subs := (s.dropFreed i).subs, hdrs := (s.dropFreed i).hdrs } ∧
    ((∀ g, queueOf s.enc g = []) → ∀ g, queueOf (s.dropFreed i).enc g = []) := by
  unfold State.dropFreed
  split
  · exact ⟨rfl, id⟩
  · refine ⟨rfl, fun h g => ?_⟩
    have hg := h g
    unfold queueOf Tab.get at hg ⊢
    dsimp only [State.hdrDrop]
    rw [Tab.find_mapVals]
    cases hfind : Tab.find s.enc g
    · rfl
    · rw [hfind] at hg
      simp only [Option.getD_some] at hg
      rw [hg]
      rfl

theorem State.surf_congr {s t : State} (h : t.sm = s.sm) (i : Nat) : t.surf i = s.surf i := by
  unfold State.surf
  rw [h]

theorem State.readBeats_congr {s t : State} (h : t.sm = s.sm) (w : Wait) : t.readBeats w = s.readBeats w := by
  unfold State.readBeats
  simp only [State.surf_congr h]

/-- A READ that stands alone and waits for nothing more. -/
structure State.readReady (s : State) (v : Wait) : Prop where
  alone : s.waits = [v]
  headers : s.hdrWait = []
  cells : ∀ g, queueOf s.enc g = []
  issued : v.issued = true
  need : v.need = []
  parts : v.parts = 0
  later : v.later = []
  op : v.xf.op = 0
  here : (s.port v.port).gen = v.pgen

/-- The READ `v` has been answered, and the slices have nothing left to do. -/
structure State.readOver (s : State) (v : Wait) (t : State) : Prop where
  waits : t.waits = []
  headers : t.hdrWait = []
  cells : ∀ g, queueOf t.enc g = []
  arr : t.arr = s.arr
  face : (t.port v.port).rsps.map Resp.face = (s.port v.port).rsps.map Resp.face ++ [(v.xf.req.tag, v.code, s.readBeats v)]
  other : ∀ p, p ≠ v.port → t.port p = s.port p

theorem State.readReady.linesOnly {s t : State} {v : Wait} (h : s.readReady v) (hl : s.linesOnly t) : t.readReady v := by
  unfold State.linesOnly at hl
  refine ⟨by rw [hl]; exact h.alone, by rw [hl]; exact h.headers, fun g => by rw [hl]; exact h.cells g, h.issued, h.need, h.parts, h.later, h.op, ?_⟩
  rw [hl]
  exact h.here

/-- The response of a request that is complete. -/
def Wait.reply (w : Wait) (beats : List RBeat) : Resp :=
  { tag := w.xf.req.tag, code := w.code, beats := beats, rq := w.rq, t0 := w.xf.t0, rrb := w.rrb, ctag := w.xf.ctag }

theorem State.finish_read {s : State} {v : Wait} (h : s.readReady v) : s.readOver v (s.finish v) := by
  obtain ⟨halone, hhdr, hcells, -, -, -, -, hop, hhere⟩ := h
  unfold State.finish
  extract_lets u e
  have huwaits : u.waits = [] := by simp [u, halone]
  have hfreed : ∃ d : State, e = d.settle (some v.id) ∧ d = { u with lines := d.lines, enc := d.enc, subs := d.subs, hdrs := d.hdrs } ∧
      ∀ g, queueOf d.enc g = [] := by
    simp only [e]
    split
    · next i _ =>
      obtain ⟨heq, hq⟩ := u.dropFreed_only i
      exact ⟨_, rfl, heq, hq hcells⟩
    · exact ⟨u, rfl, rfl, hcells⟩
  have hu : u = { s with waits := [] } := by
    rw [← huwaits]
  clear_value u e
  obtain ⟨d, rfl, hframe, hdcells⟩ := hfreed
  have hsettle := d.answered_settle v.port (some v.id)
  have hdport (p : Nat) : d.port p = s.port p := by
    rw [hframe, hu]
    rfl
  have heport : (d.settle (some v.id)).port v.port = d.port v.port := by
    obtain ⟨-, -, -, rs, hport, hface⟩ := hsettle
    rw [hport, List.map_eq_nil_iff.1 hface, List.append_nil]
  have hbeats : (d.settle (some v.id)).readBeats v = s.readBeats v := State.readBeats_congr (by rw [hsettle.1, hframe, hu]) v
  rw [if_neg (by rw [heport, hdport]; simpa using hhere), if_pos hop, hbeats]
  have hans := hsettle.trans ((d.settle (some v.id)).respond_answered v.port (v.reply (s.readBeats v)))
  unfold Wait.reply at hans
  have hface := hans.faces
  obtain ⟨heq, -, hother, -⟩ := hans
  refine ⟨?_, ?_, fun g => ?_, ?_, ?_, fun p hp => (hother p hp).trans (hdport p)⟩
  · rw [heq, hframe, hu]
  · rw [heq, hframe, hu]
    exact hhdr
  · rw [heq]
    exact hdcells g
  · rw [heq, hframe, hu]
  · rw [← hdport v.port]
    exact hface

theorem State.round_read {s : State} {v : Wait} (h : s.readReady v) : s.round = some (s.finish v) := by
  unfold State.round
  have hfind : (s.waits.find? fun w => w.issued && w.need.isEmpty && w.parts == 0 && w.later.isEmpty) = some v := by
    rw [h.alone, List.find?_cons_of_pos]
    simp [h.issued, h.need, h.parts, h.later]
  rw [hfind]

theorem State.rounds_once {s t : State} (h : s.round = some t) (ht : t.waits = []) (n : Nat) : State.rounds (n + 1) s = t := by
  unfold State.rounds
  rw [h]
  exact State.rounds_idle ht n

theorem State.readOver.linesOnly {s t u : State} {v : Wait} (h : s.readOver v t) (hl : t.linesOnly u) : s.readOver v u := by
  unfold State.linesOnly at hl
  obtain ⟨hwaits, hheaders, hcells, harr, hface, hother⟩ := h
  rw [hl]
  exact ⟨hwaits, hheaders, hcells, harr, hface, hother⟩

/-- Where no request waits, the slices only let lines leave. -/
theorem State.pumpOnce_idle {s : State} (hwaits : s.waits = []) (hheaders : s.hdrWait = []) (hcells : ∀ g, queueOf s.enc g = []) :
    s.linesOnly s.pumpOnce := by
  have hl := s.leaveGone_linesOnly
  unfold State.pumpOnce
  have hq : s.leaveGone.startJobs = s.leaveGone := State.startJobs_idle fun g => by
    rw [hl]
    exact hcells g
  have hw : s.leaveGone.wakeReaders = s.leaveGone := State.wakeReaders_idle (by rw [hl]; exact hheaders)
  rw [hq, hw, State.rounds_idle (by rw [hl]; exact hwaits)]
  exact hl

theorem State.pumpOnce_read {s : State} {v : Wait} (h : s.readReady v) : s.readOver v s.pumpOnce := by
  have hleave := s.leaveGone_linesOnly
  have h1 := h.linesOnly hleave
  have hover := State.finish_read h1
  have hpump : s.pumpOnce = s.leaveGone.finish v := by
    unfold State.pumpOnce
    rw [State.startJobs_idle h1.cells, State.wakeReaders_idle h1.headers]
    have hfuel : 2 * s.waits.length + 8 = (2 * s.waits.length + 7) + 1 := rfl
    rw [hfuel, State.rounds_once (State.round_read h1) hover.waits]
  rw [hpump]
  unfold State.linesOnly at hleave
  obtain ⟨hwaits, hheaders, hcells, harr, hface, hother⟩ := hover
  have hsm : s.leaveGone.sm = s.sm := by rw [hleave]
  have hport := State.linesOnly.port s.leaveGone_linesOnly
  rw [hport, State.readBeats_congr hsm] at hface
  exact ⟨hwaits, hheaders, hcells, by rw [harr, hleave], hface, fun p hp => (hother p hp).trans (hport p)⟩

theorem State.pump_read {s : State} {v : Wait} (h : s.readReady v) : s.readOver v s.pump := by
  have hfirst := State.pumpOnce_read h
  exact hfirst.linesOnly (State.pumpOnce_idle hfirst.waits hfirst.headers hfirst.cells)

/-- The slice of a READ that stands alone gives it the one unit it still needs. -/
theorem State.give_last {s : State} {w : Wait} {g : Nat} {a : Got} (halone : s.waits = [w]) (hg : w.port / 8 = g)
    (hneed : w.need = [(a.tag, a.unit)]) (hop : w.xf.op = 0) : s.give g a (some w.id) = { s with
      waits := [{ w with need := [], code := worse w.code (unitCode a.st a.corr), got := w.got ++ [a] }] } := by
  unfold State.give
  rw [halone]
  simp [hg, hneed, hop]

theorem exec_fillUnitArrive_stream {s : State} {g k : Nat} {a : Arrival} (harr : (queueOf s.arr g)[k]? = some a) (hkind : a.sub.kind = .stream) :
    exec (.fillUnitArrive g k) s = .next (((s.takeArrival g k).give g
      { s.gotOf a.sub.tag a.sub.unit (s.stored a) with data := a.data, corr := a.corr } a.sub.wait).pump) := by
  change execFillUnitArrive g k s = _
  unfold execFillUnitArrive
  rw [harr]
  dsimp only
  rw [if_neg (by rw [hkind]; decide), if_pos hkind]
  rfl

end Sys2Proof.Machine

open Sys2Proof Sys2Proof.Machine

/-- Settles O44: the unit completes the request, which the slice then answers. -/
theorem readAnswered : Obligations.ReadAnswered := by
  unfold Obligations.ReadAnswered
  intro s g k a w halone hheaders hcells harr hkind hwait hg hissued hneed hparts hlater hop hgen v
  have hexec := exec_fillUnitArrive_stream harr hkind
  rw [hwait, State.give_last (s := s.takeArrival g k) halone hg hneed hop] at hexec
  have hready : ({ s.takeArrival g k with waits := [v] } : State).readReady v :=
    ⟨rfl, hheaders, hcells, hissued, rfl, hparts, hlater, hop, hgen⟩
  have hover := State.pump_read hready
  obtain ⟨hwaits, -, -, harr', hface, hother⟩ := hover
  refine ⟨_, hexec, hwaits, ?_, hface, hother⟩
  exact (congrArg (queueOf · g) harr').trans (Tab.get_insert_self _ _ _ _)

end

section
/-! What a read of the engine leaves: channel traffic accounts, and single errors of spare words mended. -/

namespace Sys2Proof.Machine
open Sys2Proof

/-! ### Channels that hold the same data -/

/-- `y` is `x` but for its traffic accounts and for wrong bits noted of its spare words. -/
structure Chan.sameData (x y : Chan) : Prop where
  frame : y = { x with bytesCur := y.bytesCur, sendLeft := y.sendLeft, remap := y.remap }
  remapOf : ∀ b, y.remapOf b = x.remapOf b
  word : ∀ k, (Tab.get ({} : Remap) y.remap k).word = (Tab.get ({} : Remap) x.remap k).word

theorem Chan.sameData_refl (x : Chan) : x.sameData x := ⟨rfl, fun _ => rfl, fun _ => rfl⟩

theorem Chan.sameData.trans {x y z : Chan} (h : x.sameData y) (k : y.sameData z) : x.sameData z :=
  ⟨by rw [k.frame, h.frame], fun b => (k.remapOf b).trans (h.remapOf b), fun n => (k.word n).trans (h.word n)⟩

/-- Spare words whose noted errors change by `f` stay as they are. -/
theorem Chan.sameData_errs (x : Chan) (f : Remap → Tab Nat) :
    x.sameData { x with remap := x.remap.map fun r => (r.1, { r.2 with errs := f r.2 }) } := by
  refine ⟨rfl, fun b => ?_, fun k => ?_⟩
  · unfold Chan.remapOf
    dsimp only
    rw [List.find?_map, Option.map_map]
    rfl
  · have hmap := Tab.find_mapVals (fun r : Remap => { r with errs := f r }) x.remap k
    refine (congrArg (fun o : Option Remap => (o.getD {}).word) hmap).trans ?_
    unfold Tab.get
    cases Tab.find x.remap k <;> rfl

/-! ### Reads of the engine -/

/-- `t` is `s` after reads of the engine: every channel holds the same data, and detections may wait to be handled. -/
structure State.engineRead (s t : State) : Prop where
  frame : t = { s with chans := t.chans, meas := t.meas, regs := t.regs, integ := t.integ }
  reads : s.readsBut [R.INT_HANDLE_DROP] t
  chan : ∀ d, (s.chan d).sameData (t.chan d)

theorem State.engineRead_refl (s : State) : s.engineRead s := ⟨rfl, s.readsBut_refl _, fun _ => Chan.sameData_refl _⟩

theorem State.engineRead.trans {s t u : State} (h : s.engineRead t) (k : t.engineRead u) : s.engineRead u :=
  ⟨by rw [k.frame, h.frame], h.reads.trans k.reads, fun d => (h.chan d).trans (k.chan d)⟩

/-- A channel is set to one that holds the same data. -/
theorem State.engineRead_setChan {s : State} {ch : Nat} {x : Chan} (h : (s.chan ch).sameData x) : s.engineRead (s.setChan ch x) := by
  refine ⟨rfl, State.readsBut_of_regs rfl rfl, fun d => ?_⟩
  by_cases hd : d = ch
  · subst hd
    rw [State.setChan_chan_self]
    exact h
  · rw [State.setChan_chan_ne s hd]
    exact Chan.sameData_refl _

theorem State.engineRead_count (s : State) (o : Occ) : s.engineRead (s.count o) :=
  ⟨rfl, State.readsBut_of_regs rfl rfl, fun _ => Chan.sameData_refl _⟩

theorem State.engineRead_detect (s : State) (d : Det) : s.engineRead (s.detect d) := by
  unfold State.detect
  split
  · exact ⟨rfl, State.readsBut_of_kept (s.bump_regsKept _ _ _ _) (by simp), fun _ => Chan.sameData_refl _⟩
  · exact ⟨rfl, State.readsBut_of_regs rfl rfl, fun _ => Chan.sameData_refl _⟩

theorem State.engineRead_engineBytes (s : State) (ch cls n : Nat) : s.engineRead (s.engineBytes ch cls n) := by
  unfold State.engineBytes
  split
  · exact s.engineRead_refl
  · dsimp only
    refine State.engineRead.trans (State.engineRead_setChan ?_) (State.engineRead_count _ _)
    exact ⟨rfl, fun _ => rfl, fun _ => rfl⟩

theorem State.engineRead_foldl {α : Type} {f : State → α → State} (hf : ∀ u a, State.engineRead u (f u a)) (l : List α) (s : State) :
    s.engineRead (l.foldl f s) :=
  foldl_keeps s.engineRead f (fun u a h => h.trans (hf u a)) l s s.engineRead_refl

theorem State.engineRead_spareCheck (s : State) (ch a n init cls : Nat) : s.engineRead (s.spareCheck ch a n init cls) := by
  unfold State.spareCheck
  extract_lets hit bad mend t
  split
  · exact s.engineRead_refl
  · refine State.engineRead.trans (State.engineRead_setChan ?_) (State.engineRead_foldl (fun u k => u.engineRead_detect _) _ _)
    exact Chan.sameData_errs (s.chan ch) fun r => r.errs.filter fun e => !mend r.block e.1 e.2

/-! ### What reads the same -/

theorem State.engineRead.cellByte {s t : State} (h : s.engineRead t) (key : Nat) : t.cellByte key = s.cellByte key := by
  obtain ⟨hframe, -, hchan⟩ := h
  obtain ⟨hx, hremap, hword⟩ := hchan (key / 2 ^ 34)
  have hmem : t.memByte key = s.memByte key := by
    have hgen : (t.chan (key / 2 ^ 34)).memGen = (s.chan (key / 2 ^ 34)).memGen := by rw [hx]
    have hat : t.memAt key = s.memAt key := by
      rw [hframe]
      rfl
    unfold State.memByte
    rw [hgen, hat]
  unfold State.cellByte
  dsimp only
  rw [hremap, hmem]
  cases (s.chan (key / 2 ^ 34)).remapOf (key % 2 ^ 34 / 64) with
  | none => rfl
  | some k => exact congrArg (fun l : List Byte => l.getD (key % 2 ^ 34 % 64) 0) (hword k)

theorem State.cellRoute_congr {s t : State} (h : t.sm = s.sm) (x : LTag) (c : Nat) (hdr : Bool) (o : Nat) :
    t.cellRoute x c hdr o = s.cellRoute x c hdr o := by
  unfold State.cellRoute State.cellPlace State.posRoute State.moveOf
  simp only [State.surf_congr h, h]

theorem State.engineRead.sm {s t : State} (h : s.engineRead t) : t.sm = s.sm := by rw [h.frame]

theorem State.engineRead.hdrStored {s t : State} (h : s.engineRead t) (x : LTag) (c : Nat) : t.hdrStored x c = s.hdrStored x c := by
  unfold State.hdrStored
  simp only [State.cellRoute_congr h.sm, h.cellByte]

theorem State.engineRead.inService {s t : State} (h : s.engineRead t) (ch : Nat) : t.inService ch = s.inService ch := by
  unfold State.inService
  rw [(h.chan ch).frame]

theorem State.engineRead.cellReadable {s t : State} (h : s.engineRead t) (x : LTag) (c : Nat) : t.cellReadable x c = s.cellReadable x c := by
  unfold State.cellReadable
  simp only [State.cellRoute_congr h.sm, h.hdrStored, h.inService]

theorem State.engineRead.retryRead {s t : State} (h : s.engineRead t) (x : LTag) (c : Nat) : t.retryRead x c = s.retryRead x c := by
  unfold State.retryRead
  simp only [State.cellRoute_congr h.sm, h.hdrStored, h.cellByte, State.surf_congr h.sm]

/-! ### Cells that pass, fail, and are read again (R225, R226) -/

theorem State.arrive_arr (s : State) (g : Nat) (a : Arrival) : queueOf (s.arrive g a).arr g = queueOf s.arr g ++ [a] := Tab.get_insert_self _ _ _ _

/-- Decoder job `k` of slice `g` leaves its queue. -/
def State.takeDec (s : State) (g k : Nat) : State := { s with dec := Tab.insert g (dropAt (queueOf s.dec g) k) s.dec }

theorem exec_cellCheck_ok {s : State} {g k : Nat} {j : DecJob} {l : List Nat} (hk : (queueOf s.dec g)[k]? = some j) (hj : s.judge j = .ok l) :
    exec (.cellCheck g k) s = .next ((s.takeDec g k).cellOk g j.sub l) := by
  change execCellCheck g k s = _
  have hjudge : (s.takeDec g k).judge j = .ok l := hj
  unfold execCellCheck
  unfold State.takeDec at hjudge ⊢
  rw [hk]
  dsimp only
  rw [hjudge]

/-- A cell that fails its check is read again where RETRY_EN is 1 and it was not lost; else its failure stands. -/
theorem exec_cellCheck_bad {s : State} {g k c : Nat} {j : DecJob} (hk : (queueOf s.dec g)[k]? = some j) (hj : s.judge j = .bad c) :
    exec (.cellCheck g k) s = if s.rd R.CIR_CTL_RETRY_EN = 1 ∧ j.lost = false then
        .next { s.takeDec g k with retry := Tab.insert g (queueOf s.retry g ++ [j]) s.retry }
      else .next ((s.takeDec g k).cellFails g j c false) := by
  change execCellCheck g k s = _
  have hjudge : (s.takeDec g k).judge j = .bad c := hj
  have hrd : (s.takeDec g k).rd R.CIR_CTL_RETRY_EN = s.rd R.CIR_CTL_RETRY_EN := rfl
  unfold execCellCheck
  rw [hk]
  dsimp only
  rw [← State.takeDec, hjudge, ← hrd]
  rfl

/-- `t` is `s` with some fields of a list written. -/
def State.wrote (s : State) (l : List Fld) (t : State) : Prop := t = { s with regs := t.regs } ∧ s.readsBut l t

theorem State.wrote_refl (s : State) (l : List Fld) : s.wrote l s := ⟨rfl, s.readsBut_refl l⟩

theorem State.wrote.trans {s t u : State} {l : List Fld} (h : s.wrote l t) (k : t.wrote l u) : s.wrote l u :=
  ⟨by rw [k.1, h.1], h.2.trans k.2⟩

theorem State.wrote.wr {s t : State} {l : List Fld} (h : s.wrote l t) {f : Fld} (hf : f ∈ l) (i j v : Nat) : s.wrote l (t.wr f i j v) :=
  h.trans ⟨rfl, fun _ _ _ hg => State.wr_rd_ne _ (hg f hf) _ _ _ _ _⟩

theorem State.wrote.bump {s t : State} {l : List Fld} (h : s.wrote l t) {f : Fld} (hf : f ∈ l) (i j n : Nat) : s.wrote l (t.bump f i j n) :=
  h.trans ⟨rfl, fun _ _ _ hg => State.bump_rd_ne _ (hg f hf) _ _ _ _ _⟩

theorem State.wrote.ite {s t u : State} {l : List Fld} (c : Prop) [Decidable c] (ht : s.wrote l t) (hu : s.wrote l u) :
    s.wrote l (if c then t else u) := by
  split
  · exact ht
  · exact hu

/-- The fields of the first-failure capture. -/
def cirFirstFlds : List Fld := [R.CIR_FAIL_FIRST_A_VALID, R.CIR_FAIL_FIRST_A_INDEX, R.CIR_FAIL_FIRST_A_GEN, R.CIR_FAIL_FIRST_A_PLANE,
  R.CIR_FAIL_FIRST_A_CAUSE, R.CIR_FAIL_FIRST_A_WRITE, R.CIR_FAIL_FIRST_A_RETRIED, R.CIR_FAIL_FIRST_B_CELL_X, R.CIR_FAIL_FIRST_B_CELL_Y]

theorem State.cirCapture_wrote (s : State) (t : LTag) (c cause write retried : Nat) :
    s.wrote cirFirstFlds (s.cirCapture t c cause write retried) := by
  have hmem {f : Fld} (hf : cirFirstFlds.contains f = true) : f ∈ cirFirstFlds := by simpa using hf
  unfold State.cirCapture
  refine .ite _ (s.wrote_refl _) ?_
  exact ((((((((((s.wrote_refl _).wr (hmem rfl) _ _ _).wr (hmem rfl) _ _ _).wr (hmem rfl) _ _ _).wr (hmem rfl) _ _ _).wr (hmem rfl) _ _ _).wr
    (hmem rfl) _ _ _).wr (hmem rfl) _ _ _).wr (hmem rfl) _ _ _).wr (hmem rfl) _ _ _)

/-- `t` is `s` as far as the failures counted and the arrivals go. -/
def State.failsLike (s t : State) : Prop := t.arr = s.arr ∧ t.rd R.CIR_FAIL_CNT_COUNT = s.rd R.CIR_FAIL_CNT_COUNT

theorem State.failsLike.trans {s t u : State} (h : s.failsLike t) (k : t.failsLike u) : s.failsLike u := ⟨k.1.trans h.1, k.2.trans h.2⟩

theorem State.failsLike_refl (s : State) : s.failsLike s := ⟨rfl, rfl⟩

theorem State.failsLike.ite {s t u : State} (c : Prop) [Decidable c] (ht : s.failsLike t) (hu : s.failsLike u) : s.failsLike (if c then t else u) := by
  split
  · exact ht
  · exact hu

theorem State.failsLike_raiseCir (s : State) {f : Fld} (hf : R.CIR_FAIL_CNT_COUNT.ix ≠ f.ix) (n : Nat) : s.failsLike (s.raiseCir f n) :=
  ⟨rfl, State.setBit_rd_ne _ hf _ _ _ _⟩

theorem State.failsLike_detect (s : State) (d : Det) : s.failsLike (s.detect d) := by
  have h := s.engineRead_detect d
  exact ⟨by rw [h.frame], h.reads _ _ _ (by decide)⟩

theorem State.hdrSetCell_only (s : State) (t : LTag) (c h : Nat) : s.hdrSetCell t c h = { s with hdrs := (s.hdrSetCell t c h).hdrs } := by
  unfold State.hdrSetCell
  dsimp only
  split <;> rfl

theorem State.push_only (s : State) (u : SubReq) :
    s.push u = { s with waits := (s.push u).waits, subs := s.subs ++ [u.sent s], nextId := s.nextId + 1 } := by
  unfold State.push
  split
  · split <;> rfl
  · rfl

theorem State.failsLike_writeHdr (s : State) (u : SubReq) (h : Nat) : s.failsLike (s.writeHdr u h) := by
  unfold State.writeHdr
  rw [State.push_only]
  have hset := s.hdrSetCell_only u.tag u.unit h
  generalize s.hdrSetCell u.tag u.unit h = t at *
  rw [hset]
  exact ⟨rfl, rfl⟩

/-- A failure that is not known yet is counted, and the cell's samples go to its slice as lost. -/
theorem State.cellFails_new {s : State} {g : Nat} {j : DecJob} (hnew : s.failed.contains (j.sub.tag, j.sub.unit, j.sub.stale) = false) (cause : Nat)
    (retried : Bool) : (s.cellFails g j cause retried).rd R.CIR_FAIL_CNT_COUNT = satAdd 16 (s.rd R.CIR_FAIL_CNT_COUNT) 1 ∧
      ∃ a, queueOf (s.cellFails g j cause retried).arr g = queueOf s.arr g ++ [a] ∧ a.sub = j.sub ∧ a.st = 3 := by
  unfold State.cellFails
  extract_lets u merge same again v1 v2 v3 s1 s2 s3
  obtain ⟨hcap, hcapReads⟩ := s.cirCapture_wrote u.tag u.unit cause (b2n merge) (b2n retried)
  have hv1 : v1.arr = s.arr ∧ v1.rd R.CIR_FAIL_CNT_COUNT = satAdd 16 (s.rd R.CIR_FAIL_CNT_COUNT) 1 := by
    refine ⟨?_, (State.bump_rd_self _ _ _ _ _).trans (congrArg (satAdd 16 · 1) (hcapReads _ _ _ (by decide)))⟩
    have harr : v1.arr = (s.cirCapture u.tag u.unit cause (b2n merge) (b2n retried)).arr := rfl
    rw [harr, hcap]
  have hv2 : v1.failsLike v2 := .ite _ (v1.failsLike_raiseCir (by decide) 1) (v1.failsLike_raiseCir (by decide) 0)
  have hv3 : v2.failsLike v3 := ⟨rfl, rfl⟩
  have hs1 : v3.failsLike s1 := by
    have heq : s1 = if j.lost = true then v3 else v3.detect (cirDet g u (if cause = 4 then 5 else 4) cause j.cls
      (if (u.wait.isSome && !merge) = true then 64 else 0)) := if_neg (by simp only [again, u, hnew, Bool.false_eq_true, not_false_eq_true])
    rw [heq]
    exact .ite _ v3.failsLike_refl (v3.failsLike_detect _)
  have hs2 : s1.failsLike s2 := .ite _ s1.failsLike_refl ⟨rfl, rfl⟩
  have hs3 : s2.failsLike s3 := .ite _ (s2.failsLike_writeHdr _ _) s2.failsLike_refl
  have hall := ((hv2.trans hv3).trans hs1).trans (hs2.trans hs3)
  refine ⟨hall.2.trans hv1.2, { sub := u, st := 3, data := flat (s3.fillOf u.tag), bad := if merge then [1] else [] }, ?_, rfl, rfl⟩
  rw [State.arrive_arr, hall.1, hv1.1]

/-- The failure of a cell that has left the queue of its decoder. -/
theorem cellCheck_fails {s : State} {g k : Nat} {j : DecJob} (hnew : s.failed.contains (j.sub.tag, j.sub.unit, j.sub.stale) = false) (c : Nat) :
    ((s.takeDec g k).cellFails g j c false).rd R.CIR_FAIL_CNT_COUNT = satAdd 16 (s.rd R.CIR_FAIL_CNT_COUNT) 1 ∧
      ∃ a, queueOf ((s.takeDec g k).cellFails g j c false).arr g = queueOf s.arr g ++ [a] ∧ a.sub = j.sub ∧ a.st = 3 := by
  have hfailed : (s.takeDec g k).failed = s.failed := rfl
  have hrd : (s.takeDec g k).rd R.CIR_FAIL_CNT_COUNT = s.rd R.CIR_FAIL_CNT_COUNT := rfl
  have harr : (s.takeDec g k).arr = s.arr := rfl
  rw [← hfailed] at hnew
  rw [← hrd, ← harr]
  exact State.cellFails_new hnew c false

/-! ### The retry of a cell (R226) -/

/-- The reads of a retry: each place in the class of the job. -/
def State.retried (s : State) (j : DecJob) : State :=
  (s.retryPlaces j.sub.tag j.sub.unit).foldl (fun (s : State) p =>
    (s.engineBytes p.1 j.cls 32).spareCheck p.1 p.2 32 j.sub.initiator j.cls) s

theorem State.engineRead_retried (s : State) (j : DecJob) : s.engineRead (s.retried j) :=
  State.engineRead_foldl (fun u _ => (u.engineRead_engineBytes _ _ _).trans (State.engineRead_spareCheck _ _ _ _ _ _)) _ _

/-- Retry job `k` of slice `g` leaves its queue. -/
def State.takeRetry (s : State) (g k : Nat) : State := { s with retry := Tab.insert g (dropAt (queueOf s.retry g) k) s.retry }

theorem State.takeRetry_retry (s : State) (g k : Nat) : queueOf (s.takeRetry g k).retry g = dropAt (queueOf s.retry g) k :=
  Tab.get_insert_self _ _ _ _

@[simp] theorem State.takeRetry_arr (s : State) (g k : Nat) : (s.takeRetry g k).arr = s.arr := rfl

@[simp] theorem State.takeRetry_failed (s : State) (g k : Nat) : (s.takeRetry g k).failed = s.failed := rfl

@[simp] theorem State.takeRetry_rd (s : State) (g k : Nat) (f : Fld) (i j : Nat) : (s.takeRetry g k).rd f i j = s.rd f i j := rfl

theorem State.cellOk_arr (s : State) (g : Nat) (u : SubReq) (l : List Nat) :
    queueOf (s.cellOk g u l).arr g = queueOf s.arr g ++ [{ sub := u, st := 1, data := l }] := s.arrive_arr g _

@[simp] theorem State.cellOk_retry (s : State) (g : Nat) (u : SubReq) (l : List Nat) : (s.cellOk g u l).retry = s.retry := rfl

@[simp] theorem State.cellOk_rd (s : State) (g : Nat) (u : SubReq) (l : List Nat) (f : Fld) (i j : Nat) :
    (s.cellOk g u l).rd f i j = s.rd f i j := rfl

/-- A retry finds the cell good: its header is cached, and the failure was TRANSIENT. -/
def State.transient (s : State) (g : Nat) (j : DecJob) : State :=
  ((((s.hdrPut j.sub.tag (j.sub.unit / 8) (s.hdrAtom j.sub.tag (j.sub.unit / 8))).raiseCir R.CIR_STATUS_TRANSIENT 2).bump
    R.CIR_TRANSIENT_CNT_COUNT 0 0 1).count { ev := 0x06E, grp := some g }).detect (cirDet g j.sub 6 0 j.cls 0)

theorem State.engineRead.takeRetry {s t : State} (h : s.engineRead t) (g k : Nat) :
    (∀ x c, (t.takeRetry g k).cellReadable x c = s.cellReadable x c) ∧ ∀ x c, (t.takeRetry g k).retryRead x c = s.retryRead x c :=
  ⟨fun x c => h.cellReadable x c, fun x c => h.retryRead x c⟩

theorem all_free {s : State} {j : DecJob} (hfree : ∀ p ∈ s.retryPlaces j.sub.tag j.sub.unit, s.engineFree p.1 j.cls 0 = true) :
    ((s.retryPlaces j.sub.tag j.sub.unit).all fun p => s.engineFree p.1 j.cls 0) = true := List.all_eq_true.2 hfree

theorem exec_cirRetryResult_good {s : State} {g k h : Nat} {j : DecJob} {l : List Nat} (hk : (queueOf s.retry g)[k]? = some j)
    (hpend : s.cellPending j.sub.tag j.sub.unit = false) (hfree : ∀ p ∈ s.retryPlaces j.sub.tag j.sub.unit, s.engineFree p.1 j.cls 0 = true)
    (hreadable : s.cellReadable j.sub.tag j.sub.unit = true) (hgone : s.retryGone j.sub.tag j.sub.unit = false)
    (hread : s.retryRead j.sub.tag j.sub.unit = (h, .ok l)) (hmode : hdrMode h = 2 ∨ hdrMode h = 3) :
    exec (.cirRetryResult g k false) s = .next ((((s.retried j).takeRetry g k).transient g j).cellOk g j.sub l) := by
  obtain ⟨hsame, hsameRead⟩ := (s.engineRead_retried j).takeRetry g k
  change execCirRetryResult g k false s = _
  obtain ⟨link, hlink⟩ : ∃ link, false = link := ⟨_, rfl⟩
  rw [hlink]
  unfold execCirRetryResult
  rw [hk]
  dsimp only
  rw [if_neg (by simp only [hpend, all_free hfree, Bool.true_eq_false, Bool.false_eq_true, or_self, not_false_eq_true])]
  obtain ⟨v, hv⟩ : ∃ v, (s.retried j).takeRetry g k = v := ⟨_, rfl⟩
  rw [hv] at hsame hsameRead ⊢
  unfold State.takeRetry State.retried at hv
  rw [hv, hsame, hsameRead, hreadable, hgone, hread, if_neg (by simp [← hlink])]
  dsimp only
  unfold State.transient
  exact if_pos hmode

theorem exec_cirRetryResult_link {s : State} {g k : Nat} {j : DecJob} (hk : (queueOf s.retry g)[k]? = some j)
    (hpend : s.cellPending j.sub.tag j.sub.unit = false) (hfree : ∀ p ∈ s.retryPlaces j.sub.tag j.sub.unit, s.engineFree p.1 j.cls 0 = true) :
    ∃ i : DecJob, i.sub = j.sub ∧ exec (.cirRetryResult g k true) s = .next (((s.retried j).takeRetry g k).cellFails g i 1 true) := by
  change ∃ i : DecJob, i.sub = j.sub ∧ execCirRetryResult g k true s = _
  unfold execCirRetryResult
  rw [hk]
  dsimp only
  rw [if_neg (by simp only [hpend, all_free hfree, Bool.true_eq_false, Bool.false_eq_true, or_self, not_false_eq_true]), if_pos (Or.inl rfl)]
  exact ⟨{ j with
    lost := !((s.retried j).takeRetry g k).cellReadable j.sub.tag j.sub.unit
    header := (((s.retried j).takeRetry g k).retryRead j.sub.tag j.sub.unit).1 }, rfl, rfl⟩

theorem State.transient_spec (s : State) (g : Nat) (j : DecJob) : (s.transient g j).retry = s.retry ∧ (s.transient g j).arr = s.arr ∧
    (s.transient g j).rd R.CIR_STATUS_TRANSIENT = 1 ∧
    (s.transient g j).rd R.CIR_TRANSIENT_CNT_COUNT = satAdd 16 (s.rd R.CIR_TRANSIENT_CNT_COUNT) 1 := by
  unfold State.transient
  have hput : s.hdrPut j.sub.tag (j.sub.unit / 8) (s.hdrAtom j.sub.tag (j.sub.unit / 8)) = { s with
    hdrs := (s.hdrPut j.sub.tag (j.sub.unit / 8) (s.hdrAtom j.sub.tag (j.sub.unit / 8))).hdrs } := rfl
  generalize s.hdrPut j.sub.tag (j.sub.unit / 8) (s.hdrAtom j.sub.tag (j.sub.unit / 8)) = t at *
  have hdet := State.engineRead_detect (((t.raiseCir R.CIR_STATUS_TRANSIENT 2).bump R.CIR_TRANSIENT_CNT_COUNT 0 0 1).count
    { ev := 0x06E, grp := some g }) (cirDet g j.sub 6 0 j.cls 0)
  refine ⟨?_, ?_, ?_, ?_⟩
  · rw [hdet.frame, hput]
    rfl
  · rw [hdet.frame, hput]
    rfl
  · rw [hdet.reads _ _ _ (by decide)]
    exact (State.bump_rd_ne _ (by decide) _ _ _ _ _).trans (State.setBit_rd_self _ _ _ _)
  · rw [hdet.reads _ _ _ (by decide)]
    refine (State.bump_rd_self _ _ _ _ _).trans (congrArg (satAdd 16 · 1) ?_)
    refine (State.setBit_rd_ne _ (by decide) _ _ _ _).trans ?_
    rw [hput]
    rfl

/-! ### Cells encoded (R227 to R230, R234) -/

/-- `v` after the header of cell `c` of `x` was written: a read of that cell holds an older version. -/
def SubReq.outdated (x : LTag) (c : Nat) (v : SubReq) : SubReq :=
  if !v.write && v.tag == x && v.unit == c then { v with stale := v.stale + 1 } else v

/-- The write of header `h` for the cell of `u`. -/
def SubReq.header (u : SubReq) (h : Nat) : SubReq := { u with
  kind := .hdrWr, write := true, addr := 0, atoms := 1, charge := 0
  cells := (List.range 4).map fun k => (u.unit % 8 * 4 + k, BitVec.ofNat 8 (h / 2 ^ (8 * k))) }

/-- `t` is `s` as far as waiting requests, readers of headers, encoder jobs, fields of Cirrus and sub-requests go, these being `subs`. -/
structure State.pushed (s : State) (subs : List SubReq) (t : State) : Prop where
  waits : t.waits = s.waits
  headers : t.hdrWait = s.hdrWait
  enc : t.enc = s.enc
  subs : t.subs = subs

theorem State.pushed.trans {s t u : State} {l m : List SubReq} (h : s.pushed l t) (k : t.pushed m u) : s.pushed m u :=
  ⟨k.waits.trans h.waits, k.headers.trans h.headers, k.enc.trans h.enc, k.subs⟩

theorem State.pushed.keep {s t u : State} {l : List SubReq} (h : s.pushed l t) (k : t.pushed t.subs u) : s.pushed l u :=
  ⟨k.waits.trans h.waits, k.headers.trans h.headers, k.enc.trans h.enc, k.subs.trans h.subs⟩

theorem State.wrote.pushed {s t : State} {l : List Fld} (h : s.wrote l t) : s.pushed s.subs t := by
  rw [h.1]
  exact ⟨rfl, rfl, rfl, rfl⟩

theorem State.engineRead.pushed {s t : State} (h : s.engineRead t) : s.pushed s.subs t := by
  rw [h.frame]
  exact ⟨rfl, rfl, rfl, rfl⟩

theorem State.pushed_push {s : State} (hwaits : s.waits = []) (u : SubReq) : s.pushed (s.subs ++ [u.sent s]) (s.push u) := by
  rw [State.push_idle hwaits]
  exact ⟨rfl, rfl, rfl, rfl⟩

/-- A header is written: reads of the old one are of an older version. -/
theorem State.pushed_writeHdr {s : State} (hwaits : s.waits = []) (u : SubReq) (h : Nat) :
    ∃ t : State, s.pushed (s.subs.map (SubReq.outdated u.tag u.unit) ++ [(u.header h).sent t]) (s.writeHdr u h) := by
  have hset := s.hdrSetCell_only u.tag u.unit h
  unfold State.writeHdr
  generalize s.hdrSetCell u.tag u.unit h = t at *
  have ht : (t.outdate u.tag u.unit).waits = [] := by
    rw [hset]
    exact hwaits
  refine ⟨t.outdate u.tag u.unit, State.pushed.trans ⟨?_, ?_, ?_, rfl⟩ ?_ (t := t.outdate u.tag u.unit)⟩
  · rw [hset]
    rfl
  · rw [hset]
    rfl
  · rw [hset]
    rfl
  · have hsubs : (t.outdate u.tag u.unit).subs = s.subs.map (SubReq.outdated u.tag u.unit) := by
      rw [hset]
      rfl
    rw [← hsubs]
    exact State.pushed_push ht _

theorem State.linesOnly.rd {s t : State} (h : s.linesOnly t) (f : Fld) (i j : Nat) : t.rd f i j = s.rd f i j := by
  unfold State.linesOnly at h
  rw [h]
  rfl

theorem State.pump_idle {s : State} (hwaits : s.waits = []) (hheaders : s.hdrWait = []) (hcells : ∀ g, queueOf s.enc g = []) : s.linesOnly s.pump := by
  have h1 := State.pumpOnce_idle hwaits hheaders hcells
  refine h1.trans (State.pumpOnce_idle ?_ ?_ fun g => ?_)
  · rw [h1]
    exact hwaits
  · rw [h1]
    exact hheaders
  · rw [h1]
    exact hcells g

/-- The write of the cell of job `j`, whose payload and header follow it. -/
def EncJob.sub (j : EncJob) (g : Nat) : SubReq :=
  { id := 0, wait := j.wait, g := g, port := j.port, flow := j.flow, colour := j.colour, tag := j.tag, unit := j.cell
    kind := if j.wait.isSome then .wr else .wb, t0 := j.t0, rq := j.rq }

/-- Encoder job `k` of slice `g` leaves its queue. -/
def State.takeEnc (s : State) (g k : Nat) : State := { s with enc := Tab.insert g (dropAt (queueOf s.enc g) k) s.enc }

theorem exec_cellEncodeDone_single {s : State} {g : Nat} {j : EncJob} (henc : s.enc = [(g, [j])]) (hsealed : (s.surf j.tag.idx).sealed = true)
    (hphase : 2 ≤ j.phase) : exec (.cellEncodeDone g 0) s = .next (if j.phase = 3 then ((s.takeEnc g 0).encodePoison g j (j.sub g)).pump
      else ((s.takeEnc g 0).encode g j (j.sub g)).pump) := by
  change execCellEncodeDone g 0 s = _
  have hk : (queueOf s.enc g)[0]? = some j := by
    rw [henc]
    simp [queueOf, Tab.get, Tab.find]
  unfold execCellEncodeDone
  rw [hk]
  dsimp only
  refine (if_neg ?_).trans rfl
  have hhold : (j.phase == 1) = false := beq_eq_false_iff_ne.2 (by omega)
  rw [henc, hsealed]
  simp only [List.any_cons, List.any_nil, BEq.rfl, Bool.true_and, Bool.or_false, hhold, Bool.false_eq_true, Bool.true_eq_false, or_false]
  omega

theorem takeEnc_empty {s : State} {g : Nat} {j : EncJob} (henc : s.enc = [(g, [j])]) (h : Nat) : queueOf (s.takeEnc g 0).enc h = [] := by
  unfold State.takeEnc queueOf
  dsimp only
  rw [Tab.get_insert]
  split
  · simp [henc, Tab.get, Tab.find, dropAt]
  · next hne => simp [henc, Tab.get, Tab.find, hne]

theorem State.pushed.idleLines {s t : State} {l : List SubReq} (h : s.pushed l t) (hwaits : s.waits = []) (hheaders : s.hdrWait = [])
    (hcells : ∀ g, queueOf s.enc g = []) : t.linesOnly t.pump :=
  State.pump_idle (h.waits.trans hwaits) (h.headers.trans hheaders) fun g => (congrArg (queueOf · g) h.enc).trans (hcells g)

theorem State.pushed.idle {s t : State} {l : List SubReq} (h : s.pushed l t) (hwaits : s.waits = []) (hheaders : s.hdrWait = [])
    (hcells : ∀ g, queueOf s.enc g = []) (g : Nat) : queueOf t.pump.enc g = [] ∧ t.pump.subs = l := by
  have hlines := h.idleLines hwaits hheaders hcells
  constructor
  · rw [hlines]
    exact (congrArg (queueOf · g) h.enc).trans (hcells g)
  · rw [hlines]
    exact h.subs

/-- The write of a cell and the write of its header follow each other. -/
theorem State.pushed_cell {s : State} (hwaits : s.waits = []) {a : SubReq} (ha : a.write = true) (u : SubReq) (h : Nat) :
    ∃ b : SubReq, (∃ t : State, b = (u.header h).sent t) ∧
      s.pushed (s.subs.map (SubReq.outdated u.tag u.unit) ++ [a.sent s, b]) ((s.push a).writeHdr u h) := by
  have hpush := State.pushed_push hwaits a
  obtain ⟨t, ht⟩ := State.pushed_writeHdr (hpush.waits.trans hwaits) u h
  have hsame : SubReq.outdated u.tag u.unit (a.sent s) = a.sent s := by
    have hw : (a.sent s).write = true := ha
    unfold SubReq.outdated
    rw [hw]
    rfl
  refine ⟨_, ⟨t, rfl⟩, ?_⟩
  have hall := hpush.trans ht
  rw [hpush.subs, List.map_append, List.map_singleton, hsame, List.append_assoc] at hall
  exact hall

theorem State.partDone_idle {s : State} (h : s.waits = []) (id : Option Nat) (code : Nat) : s.partDone id code = s := by
  unfold State.partDone
  split
  · rfl
  · exact State.modWait_idle h _ _

/-- The payload of an encoded cell, as the channel takes it. -/
def EncJob.payload (j : EncJob) (g n d : Nat) (l : List Byte) : SubReq :=
  { j.sub g with write := true, addr := 0, atoms := n, charge := 32 * d, cells := (List.range l.length).zipWith (fun k b => (k, b)) l }

/-- The charge of a cell of depth `d` that makes no write. -/
def EncJob.rawCharge (j : EncJob) (g d : Nat) : SubReq :=
  { j.sub g with write := true, addr := 0, atoms := 0, charge := 32 * d, cells := [], named := none }

/-- What the encoder makes of job `j`. -/
def State.coded (s : State) (j : EncJob) : Nat × List Byte :=
  encodeCell (s.surf j.tag.idx).d ((s.surf j.tag.idx).replicate j.tag j.cell
    (overlay (if s.coversUnit j.tag j.cell j.samples then flat 0 else j.old) j.samples))

theorem State.pushed_encode {s : State} (hwaits : s.waits = []) (g : Nat) (j : EncJob) :
    ∃ (b : SubReq) (v : State), (∃ t : State, b = ((j.sub g).header (s.coded j).1).sent t) ∧ s.pushed (s.subs.map (SubReq.outdated j.tag j.cell) ++
      [(j.payload g (hdrGcnt (s.coded j).1) (s.surf j.tag.idx).d (s.coded j).2).sent v, b]) (s.encode g j (j.sub g)) := by
  unfold State.encode
  extract_lets x full base r n s1 s2 s3
  have h2 : s.pushed s.subs s2 := ⟨rfl, rfl, rfl, rfl⟩
  obtain ⟨b, hb, hcell⟩ := State.pushed_cell (h2.waits.trans hwaits) (a := j.payload g n x.d r.2) rfl (j.sub g) r.1
  have hall := h2.trans hcell
  have hs3 : s3 = s2.push (j.payload g n x.d r.2) := rfl
  clear_value s3
  rw [hs3, State.partDone_idle (hall.waits.trans hwaits)]
  rw [h2.subs] at hall
  exact ⟨b, s2, hb, hall⟩

theorem State.pushed_encodePoison {s : State} (hwaits : s.waits = []) (g : Nat) (j : EncJob) :
    (s.encodePoison g j (j.sub g)).rd R.CIR_STATUS_MERGE_POISON = 1 ∧
    ∃ a b : SubReq, (a.write = true ∧ a.atoms = 0 ∧ a.cells = [] ∧ a.charge = 32 * (s.surf j.tag.idx).d) ∧
      (∃ t : State, b = ((j.sub g).header hdrPoison).sent t) ∧
      s.pushed (s.subs.map (SubReq.outdated j.tag j.cell) ++ [a, b]) (s.encodePoison g j (j.sub g)) := by
  obtain ⟨b, hb, hcell⟩ := State.pushed_cell hwaits (a := j.rawCharge g (s.surf j.tag.idx).d) rfl (j.sub g) hdrPoison
  unfold State.encodePoison
  extract_lets s1 s2
  have h1 : s.pushed (s.subs.map (SubReq.outdated j.tag j.cell) ++ [(j.rawCharge g (s.surf j.tag.idx).d).sent s, b]) s1 :=
    hcell.keep ⟨rfl, rfl, rfl, rfl⟩
  have hset : s1.rd R.CIR_STATUS_MERGE_POISON = 1 := State.setBit_rd_self _ _ _ _
  clear_value s1
  have h2 : s1.wrote (R.CIR_FAIL_CNT_COUNT :: cirFirstFlds) s2 := by
    refine .ite _ (.bump ?_ (by simp) _ _ _) (s1.wrote_refl _)
    obtain ⟨heq, hreads⟩ := s1.cirCapture_wrote j.tag j.cell 5 1 0
    exact ⟨heq, hreads.mono fun f hf => List.mem_cons_of_mem _ hf⟩
  clear_value s2
  have h3 := s2.engineRead_detect (cirDet g (j.sub g) 7 5 (s2.subClass (j.sub g)) 0)
  have hall := (h1.keep h2.pushed).keep h3.pushed
  rw [State.partDone_idle (hall.waits.trans hwaits)]
  refine ⟨?_, (j.rawCharge g (s.surf j.tag.idx).d).sent s, b, ⟨rfl, rfl, rfl, rfl⟩, hb, hall⟩
  rw [h3.reads _ _ _ (by decide), h2.2 _ _ _ (by decide), hset]

theorem cirRetryResult_good {s : State} {g k h : Nat} {j : DecJob} {l : List Nat} (hk : (queueOf s.retry g)[k]? = some j)
    (hpend : s.cellPending j.sub.tag j.sub.unit = false) (hfree : ∀ p ∈ s.retryPlaces j.sub.tag j.sub.unit, s.engineFree p.1 j.cls 0 = true)
    (hreadable : s.cellReadable j.sub.tag j.sub.unit = true) (hgone : s.retryGone j.sub.tag j.sub.unit = false)
    (hread : s.retryRead j.sub.tag j.sub.unit = (h, .ok l)) (hmode : hdrMode h = 2 ∨ hdrMode h = 3) :
    Runs (.cirRetryResult g k false) s fun t =>
      queueOf t.retry g = dropAt (queueOf s.retry g) k ∧ queueOf t.arr g = queueOf s.arr g ++ [{ sub := j.sub, st := 1, data := l }] ∧
      t.rd R.CIR_STATUS_TRANSIENT = 1 ∧ t.rd R.CIR_TRANSIENT_CNT_COUNT = satAdd 16 (s.rd R.CIR_TRANSIENT_CNT_COUNT) 1 := by
  refine ⟨_, exec_cirRetryResult_good hk hpend hfree hreadable hgone hread hmode, ?_⟩
  dsimp only
  have hread := s.engineRead_retried j
  have hretry0 : (s.retried j).retry = s.retry := by rw [hread.frame]
  have harr0 : (s.retried j).arr = s.arr := by rw [hread.frame]
  have hcount0 := hread.reads R.CIR_TRANSIENT_CNT_COUNT 0 0 (by decide)
  obtain ⟨hretry, harr, hstatus, hcount⟩ := ((s.retried j).takeRetry g k).transient_spec g j
  rw [State.cellOk_retry, State.cellOk_arr, State.cellOk_rd, State.cellOk_rd, hretry, harr, hstatus, hcount, State.takeRetry_retry,
    State.takeRetry_arr, State.takeRetry_rd, hretry0, harr0, hcount0]
  exact ⟨rfl, rfl, rfl, rfl⟩

theorem cirRetryResult_link {s : State} {g k : Nat} {j : DecJob} (hk : (queueOf s.retry g)[k]? = some j)
    (hpend : s.cellPending j.sub.tag j.sub.unit = false) (hfree : ∀ p ∈ s.retryPlaces j.sub.tag j.sub.unit, s.engineFree p.1 j.cls 0 = true)
    (hnew : s.failed.contains (j.sub.tag, j.sub.unit, j.sub.stale) = false) : Runs (.cirRetryResult g k true) s fun t =>
      t.rd R.CIR_FAIL_CNT_COUNT = satAdd 16 (s.rd R.CIR_FAIL_CNT_COUNT) 1 ∧
      ∃ a, queueOf t.arr g = queueOf s.arr g ++ [a] ∧ a.sub = j.sub ∧ a.st = 3 := by
  obtain ⟨i, hi, hexec⟩ := exec_cirRetryResult_link hk hpend hfree
  refine ⟨_, hexec, ?_⟩
  have hread := s.engineRead_retried j
  have hfailed : (s.retried j).failed = s.failed := by rw [hread.frame]
  have harr0 : (s.retried j).arr = s.arr := by rw [hread.frame]
  have hcount0 := hread.reads R.CIR_FAIL_CNT_COUNT 0 0 (by decide)
  rw [← hi, ← hfailed, ← State.takeRetry_failed (g := g) (k := k)] at hnew
  obtain ⟨hcount, a, harr, ha, hst⟩ := State.cellFails_new (g := g) hnew 1 true
  rw [State.takeRetry_rd, hcount0] at hcount
  rw [State.takeRetry_arr, harr0] at harr
  exact ⟨hcount, a, harr, ha.trans hi, hst⟩

theorem cellEncodeDone_encode {s : State} {g : Nat} {j : EncJob} (hwaits : s.waits = []) (hheaders : s.hdrWait = []) (henc : s.enc = [(g, [j])])
    (hsealed : (s.surf j.tag.idx).sealed = true) (hphase : j.phase = 2) : Runs (.cellEncodeDone g 0) s fun t =>
      queueOf t.enc g = [] ∧ ∃ a b, t.subs = s.subs.map (SubReq.outdated j.tag j.cell) ++ [a, b] ∧
        a.write = true ∧ a.tag = j.tag ∧ a.unit = j.cell ∧ a.addr = 0 ∧ a.atoms = hdrGcnt (s.coded j).1 ∧ a.charge = 32 * (s.surf j.tag.idx).d ∧
        a.cells.map (·.2) = (s.coded j).2 ∧ b.kind = .hdrWr ∧ b.tag = j.tag ∧ b.unit = j.cell ∧
        b.cells = (List.range 4).map fun i => (j.cell % 8 * 4 + i, BitVec.ofNat 8 ((s.coded j).1 / 2 ^ (8 * i))) := by
  obtain ⟨b, v, ⟨t, hb⟩, hpushed⟩ := State.pushed_encode (s := s.takeEnc g 0) hwaits g j
  obtain ⟨hdone, hsubs⟩ := hpushed.idle hwaits hheaders (takeEnc_empty henc) g
  refine ⟨_, (exec_cellEncodeDone_single henc hsealed (by omega)).trans (congrArg _ (if_neg (by omega))), hdone, ?_⟩
  generalize ((s.takeEnc g 0).encode g j (j.sub g)).pump = t at *
  refine ⟨_, b, hsubs, rfl, rfl, rfl, rfl, rfl, rfl, ?_, ?_⟩
  · exact List.map_snd_zip (by simp)
  · rw [hb]
    exact ⟨rfl, rfl, rfl, rfl⟩

theorem cellEncodeDone_poison {s : State} {g : Nat} {j : EncJob} (hwaits : s.waits = []) (hheaders : s.hdrWait = []) (henc : s.enc = [(g, [j])])
    (hsealed : (s.surf j.tag.idx).sealed = true) (hphase : j.phase = 3) : Runs (.cellEncodeDone g 0) s fun t =>
      queueOf t.enc g = [] ∧ t.rd R.CIR_STATUS_MERGE_POISON = 1 ∧ ∃ a b, t.subs = s.subs.map (SubReq.outdated j.tag j.cell) ++ [a, b] ∧
        a.write = true ∧ a.atoms = 0 ∧ a.cells = [] ∧ a.charge = 32 * (s.surf j.tag.idx).d ∧ b.kind = .hdrWr ∧ b.tag = j.tag ∧
        b.unit = j.cell ∧ b.cells = (List.range 4).map fun i => (j.cell % 8 * 4 + i, BitVec.ofNat 8 (hdrPoison / 2 ^ (8 * i))) := by
  obtain ⟨hset, a, b, ⟨hwrite, hatoms, hcells, hcharge⟩, ⟨t, hb⟩, hpushed⟩ := State.pushed_encodePoison (s := s.takeEnc g 0) hwaits g j
  obtain ⟨hdone, hsubs⟩ := hpushed.idle hwaits hheaders (takeEnc_empty henc) g
  refine ⟨_, (exec_cellEncodeDone_single henc hsealed (by omega)).trans (congrArg _ (if_pos hphase)), hdone, ?_, ?_⟩
  · exact ((hpushed.idleLines hwaits hheaders (takeEnc_empty henc)).rd _ 0 0).trans hset
  · generalize ((s.takeEnc g 0).encodePoison g j (j.sub g)).pump = v at *
    refine ⟨a, b, hsubs, hwrite, hatoms, hcells, hcharge, ?_⟩
    rw [hb]
    exact ⟨rfl, rfl, rfl, rfl⟩

end Sys2Proof.Machine

open Sys2Proof Sys2Proof.Machine

/-- Settles O47: by the rules above for a check, a retry and the end of an encoding. -/
theorem cirrusCells : Obligations.CirrusCells := by
  unfold Obligations.CirrusCells
  intro s g
  refine ⟨fun k j hk => ⟨fun l hj => ?ok, fun c hj hen hlost => ?again, fun c hj hen hnew => ?bad⟩, fun k j hk hpend hfree => ?retry, ?encode⟩
  case ok => exact ⟨_, exec_cellCheck_ok hk hj, Tab.get_insert_self _ _ _ _, Tab.get_insert_self _ _ _ _, rfl⟩
  case again => exact ⟨_, (exec_cellCheck_bad hk hj).trans (if_pos ⟨hen, hlost⟩), Tab.get_insert_self _ _ _ _, Tab.get_insert_self _ _ _ _, rfl⟩
  case bad => exact ⟨_, (exec_cellCheck_bad hk hj).trans (if_neg fun h => hen h.1), cellCheck_fails hnew c⟩
  case retry => exact ⟨fun h l => cirRetryResult_good hk hpend hfree, cirRetryResult_link hk hpend hfree⟩
  case encode =>
    intro j hwaits hheaders henc hsealed before
    refine ⟨fun hphase => ?_, fun hphase => ?_⟩
    · exact cellEncodeDone_encode hwaits hheaders henc hsealed hphase
    · exact cellEncodeDone_poison hwaits hheaders henc hsealed hphase

end

section
/-! Resets, rails and domains: what a core reset leaves, and what each loss of a rail takes with it. -/

namespace Sys2Proof.Machine
open Sys2Proof

/-! ### Registers after a reset (R11, R408, R411) -/

set_option maxRecDepth 20000 in
theorem isPower_iff_ix : ∀ f ∈ allFields, f.isPower = decide (420 ≤ f.ix ∧ f.ix ≤ 437) := by decide +kernel

theorem Fld.key_ix (f : Fld) (i j : Nat) : f.key i j / 2 ^ 20 = f.ix := by
  unfold Fld.key
  omega

/-- The fields of a register table that a reset keeps are those of its own kind. -/
theorem keptBy_isPower {f : Fld} (hf : f ∈ allFields) (b : Bool) (i j : Nat) :
    (allFields.any fun g => decide (g.ix = f.key i j / 2 ^ 20) && (g.isPower == b)) = (f.isPower == b) := by
  rw [Fld.key_ix]
  cases hb : f.isPower == b
  · refine List.any_eq_false.2 fun g hg h => ?_
    simp only [Bool.and_eq_true, decide_eq_true_eq] at h
    obtain ⟨hix, hgb⟩ := h
    rw [isPower_iff_ix g hg, hix, ← isPower_iff_ix f hf, hb] at hgb
    exact Bool.false_ne_true hgb
  · exact List.any_eq_true.2 ⟨f, hf, by simp [hb]⟩

/-- A field outside the power registers returns to its reset value, those of the power registers stay. -/
theorem resetRegs_find {s : State} {f : Fld} (hf : f ∈ allFields) (i j : Nat) :
    Tab.find (s.resetRegs Fld.isPower).regs (f.key i j) = if f.isPower = true then Tab.find s.regs (f.key i j) else none := by
  have h := Tab.find_filter (fun k => allFields.any fun g => decide (g.ix = k / 2 ^ 20) && g.isPower) s.regs (f.key i j)
  have hkept := keptBy_isPower hf true i j
  simp only [beq_true] at hkept
  rw [hkept] at h
  exact h

theorem resetRegs_find_power {s : State} {f : Fld} (hf : f ∈ allFields) (i j : Nat) :
    Tab.find (s.resetRegs fun g => !g.isPower).regs (f.key i j) = if f.isPower = true then none else Tab.find s.regs (f.key i j) := by
  have h := Tab.find_filter (fun k => allFields.any fun g => decide (g.ix = k / 2 ^ 20) && !g.isPower) s.regs (f.key i j)
  have hkept := keptBy_isPower hf false i j
  simp only [beq_false] at hkept
  rw [hkept] at h
  refine h.trans ?_
  cases f.isPower <;> rfl

/-! ### The core reset (R407, R408) -/

/-- `t` is what a core reset leaves of `s`: nothing but the build, the power registers and what waits to be done. -/
def State.resetTo (s t : State) : Prop :=
  t.conf = none ∧ t.mem = [] ∧ t.sm = {} ∧ t.loader = {} ∧ t.tick = {} ∧ t.lines = [] ∧ t.waits = [] ∧
    t.evts = [] ∧ t.anyAttached = false ∧ t.cclk = 0 ∧ t.build = s.build ∧ t.pending = s.pending ∧
    ∀ f ∈ allFields, f.isPower = false → ∀ i j, t.rd f i j = f.reset s.build i

theorem coreReset_rd_power (s : State) {f : Fld} (hf : f ∈ allFields) (hp : f.isPower = true) (i j : Nat) : s.coreReset.rd f i j = s.rd f i j := by
  have h := resetRegs_find (s := s) hf i j
  rw [if_pos hp] at h
  unfold State.rd Tab.get
  exact congrArg (Option.getD · _) h

theorem coreReset_rd (s : State) {f : Fld} (hf : f ∈ allFields) (hp : f.isPower = false) (i j : Nat) : s.coreReset.rd f i j = f.reset s.build i := by
  have h := resetRegs_find (s := s) hf i j
  rw [if_neg (by simp [hp])] at h
  unfold State.rd Tab.get
  exact congrArg (Option.getD · _) h

theorem noPortAttached (s : State) (p : State) (h : p.ports = s.ports.map fun (e : Nat × Port) =>
    (e.1, { pin := e.2.pin, sawLow := !e.2.pin, gen := e.2.gen + 1 })) : p.anyAttached = false := by
  unfold State.anyAttached
  rw [h, List.any_map]
  exact List.any_eq_false.2 fun e _ => by simp

theorem coreReset_resetTo (s : State) : s.resetTo s.coreReset :=
  ⟨rfl, rfl, rfl, rfl, rfl, rfl, rfl, rfl, noPortAttached s _ rfl, rfl, rfl, rfl, fun _ hf hp => coreReset_rd s hf hp⟩

/-- The retained training state of a channel passes a core reset. -/
theorem coreReset_retained (s : State) (ch : Nat) : (s.coreReset.chan ch).retainedSt = (s.chan ch).retainedSt := by
  unfold State.chan Tab.get
  have h : Tab.find s.coreReset.chans ch = (Tab.find s.chans ch).map (Chan.afterReset true) := Tab.find_mapVals _ _ _
  rw [h]
  cases Tab.find s.chans ch <;> rfl

theorem fullReset_rd (s : State) (f : Fld) (i j : Nat) : s.fullReset.rd f i j = f.reset s.build i := rfl

theorem fullReset_resetTo (s : State) : s.resetTo s.fullReset :=
  ⟨rfl, rfl, rfl, rfl, rfl, rfl, rfl, rfl, noPortAttached s _ rfl, rfl, rfl, rfl, fun f _ _ => fullReset_rd s f⟩

theorem fullReset_retained (s : State) (ch : Nat) : (s.fullReset.chan ch).retainedSt = {} := by
  unfold State.chan Tab.get
  have h : Tab.find s.fullReset.chans ch = (Tab.find s.coreReset.chans ch).map (Chan.afterReset false) := Tab.find_mapVals _ _ _
  rw [h]
  cases Tab.find s.coreReset.chans ch <;> rfl

/-! ### SOFT_RESET (R410) -/

/-- A write of PWR_CTL that asks for a soft reset and for no Dusk. -/
theorem exec_softReset_open {s : State} (h : s.portOpen) {w : Word} (hw : bit w.toNat 0 = false) (tgt : Nat) :
    ∃ v : State, v = s.wr R.PWR_CTL_DUSK_DEEP 0 0 (bits (w ||| 4).toNat 1 1) ∧
      exec (.softReset w tgt) s = .next (v.softGo.1.busyIf v.softGo.2 0x800 tgt) := by
  refine ⟨_, rfl, (congrArg Host.Outcome.next (State.regAccess_open h _ _ _ _)).trans ?_⟩
  unfold State.writePwrCtl State.writeReg
  rw [applySlots_plain _ _ (by decide), runActs_skip ((bit_or_other (by decide)).trans hw), runActs_take (bit_or_self w 4 (by decide))]
  rfl

theorem softReset_done {s : State} (h : s.portOpen) {w : Word} (hw : bit w.toNat 0 = false) (tgt : Nat) (hfree : s.anyAttached = false)
    (hidle : s.loader.st = 0) : Runs (.softReset w tgt) s fun t =>
      s.resetTo t ∧ t.power.domains = sortNat (s.power.domains.filter (· == 11) ++ s.coreDomains) ∧
        ∀ ch, (t.chan ch).retainedSt = (s.chan ch).retainedSt := by
  obtain ⟨v, hv, hexec⟩ := exec_softReset_open h hw tgt
  obtain ⟨-, hst⟩ := h
  have hgo : v.softGo = (v.coreReset, false) := by
    refine if_neg ?_
    rw [hv]
    rintro (hpow | hatt | hload)
    · exact hpow hst
    · exact Bool.false_ne_true (hfree.symm.trans hatt)
    · exact hload hidle
  rw [hgo] at hexec
  refine ⟨_, hexec, ?_⟩
  rw [State.busyIf_false]
  have hreset := coreReset_resetTo v
  have hkeep := coreReset_retained v
  have hchan (ch : Nat) : v.chan ch = s.chan ch := by
    rw [hv]
    rfl
  refine ⟨?_, ?_, fun ch => (hkeep ch).trans (congrArg Chan.retainedSt (hchan ch))⟩
  · rw [hv] at hreset ⊢
    exact hreset
  · rw [hv]
    rfl

theorem softReset_refused {s : State} (h : s.portOpen) {w : Word} (hw : bit w.toNat 0 = false) (tgt : Nat) (hatt : s.anyAttached = true) :
    Runs (.softReset w tgt) s fun t =>
      t.rd R.GLB_STATUS_CFG_BUSY = 1 ∧ t = { s with regs := t.regs, bitsNow := t.bitsNow, evts := t.evts, meas := t.meas } ∧
        s.regsKept t (⟨R.PWR_CTL_DUSK_DEEP, 0, 0⟩ :: busySlots) := by
  obtain ⟨v, hv, hexec⟩ := exec_softReset_open h hw tgt
  have hgo : v.softGo = (v, true) := by
    refine if_pos (.inr (.inl ?_))
    rw [hv]
    exact hatt
  rw [hgo] at hexec
  refine ⟨_, hexec, v.cfgBusy_bit 0x800 tgt, ?_, ?_⟩
  · refine (v.cfgBusy_eq 0x800 tgt).trans ?_
    rw [hv]
    rfl
  · have hwrite : s.regsKept v [⟨R.PWR_CTL_DUSK_DEEP, 0, 0⟩] := by
      rw [hv]
      exact s.wr_regsKept _ _ _ _
    exact State.regsKept_trans hwrite (v.cfgBusy_regsKept 0x800 tgt)

/-! ### Release of a domain (R409) -/

theorem exec_domainResetRelease {s : State} {d : Nat} (hmay : s.mayRelease d = true) (hheld : s.power.domains.contains d = true) (hd : d < 12) :
    exec (.domainResetRelease d) s = .next { s.releaseValues d with
      power := { (s.releaseValues d).power with domains := (s.releaseValues d).power.domains.filter fun e => e != d } } := by
  change execDomainResetRelease d s = _
  refine if_neg ?_
  rw [hmay, hheld]
  simp only [Bool.true_eq_false, false_or]
  omega

theorem releaseValues_power (s : State) (d : Nat) : (s.releaseValues d).power = s.power := by
  unfold State.releaseValues
  split
  · rfl
  · split <;> rfl

/-- The release of aonclk gives the power registers their reset values. -/
theorem releaseValues_aon (s : State) {f : Fld} (hf : f ∈ allFields) (hp : f.isPower = true) (i j : Nat) :
    (s.releaseValues 11).rd f i j = f.reset s.build i := by
  have h := resetRegs_find_power (s := s) hf i j
  rw [if_pos hp] at h
  unfold State.rd Tab.get
  exact congrArg (Option.getD · _) h

/-- The release of cclk gives the other registers their reset values, unless the device sleeps. -/
theorem releaseValues_core {s : State} (h2 : s.power.st ≠ 2) (h3 : s.power.st ≠ 3) : (s.releaseValues 0).evts = [] ∧
    ∀ f ∈ allFields, f.isPower = false → ∀ i j, (s.releaseValues 0).rd f i j = f.reset s.build i := by
  have heq : s.releaseValues 0 = { s with regs := (s.resetRegs Fld.isPower).regs, evts := [], posts := [], now := {} } :=
    (if_neg (by decide)).trans (if_pos ⟨rfl, h2, h3⟩)
  rw [heq]
  refine ⟨rfl, fun f hf hp i j => ?_⟩
  have h := resetRegs_find (s := s) hf i j
  rw [if_neg (by simp [hp])] at h
  unfold State.rd Tab.get
  exact congrArg (Option.getD · _) h

theorem releaseValues_other (s : State) {d : Nat} (h0 : d ≠ 0) (h11 : d ≠ 11) : s.releaseValues d = s := by
  unfold State.releaseValues
  rw [if_neg h11]
  exact if_neg fun h => h0 h.1

theorem domainReleased {s : State} {d : Nat} (hmay : s.mayRelease d = true) (hheld : s.power.domains.contains d = true) (hd : d < 12) :
    Runs (.domainResetRelease d) s fun t =>
      t.power = { s.power with domains := s.power.domains.filter fun e => e != d } ∧
      (d = 11 → ∀ f ∈ allFields, f.isPower = true → ∀ i j, t.rd f i j = f.reset s.build i) ∧
      (d = 0 → s.power.st ≠ 2 → s.power.st ≠ 3 → t.evts = [] ∧ ∀ f ∈ allFields, f.isPower = false → ∀ i j, t.rd f i j = f.reset s.build i) ∧
      (d ≠ 0 → d ≠ 11 → t = { s with power := t.power }) := by
  refine ⟨_, exec_domainResetRelease hmay hheld hd, ?_, ?_, ?_, ?_⟩
  · rw [releaseValues_power]
  · rintro rfl f hf hp i j
    exact releaseValues_aon s hf hp i j
  · rintro rfl h2 h3
    exact releaseValues_core h2 h3
  · intro h0 h11
    rw [releaseValues_other s h0 h11]

/-! ### Rails (R403 to R407) -/

theorem bit_iff (w n : Nat) : bit w n = true ↔ w / 2 ^ n % 2 = 1 := by simp [bit]
theorem bit_false_iff (w n : Nat) : bit w n = false ↔ w / 2 ^ n % 2 = 0 := by
  rw [← Bool.not_eq_true, bit_iff]
  omega

/-- Of a rail that goes, the bit is 0; the others stay, and the five are not all good. -/
theorem rail_gone {r m : Nat} (hr : r < 5) (h : bit m r = true) :
    bit (m - 2 ^ r) r = false ∧ m - 2 ^ r ≠ 0x1F ∧ (r ≠ 1 → bit (m - 2 ^ r) 1 = bit m 1) := by
  rw [bit_iff] at h
  refine ⟨(bit_false_iff _ _).2 ?_, ?_, fun h1 => Bool.eq_iff_iff.2 (((bit_iff _ _).trans ?_).trans (bit_iff _ _).symm)⟩
  · interval_cases r <;> omega
  · interval_cases r <;> omega
  · interval_cases r <;> omega

theorem rail_back {r m : Nat} (hr : r < 5) (h : bit m r = false) : bit (m + 2 ^ r) r = true := by
  rw [bit_iff]
  rw [bit_false_iff] at h
  interval_cases r <;> omega

/-- The record of a loss names the rail. -/
theorem rail_noted {r : Nat} (hr : r < 5) (v : Nat) : bit ((v ||| 2 ^ r) % 2 ^ 5) r = true := by
  rw [bit_eq_testBit, Nat.testBit_mod_two_pow, Nat.testBit_or, Nat.testBit_two_pow_self]
  simp [hr]

/-- Rail `r` is no longer good. -/
def State.withoutRail (s : State) (r : Nat) : State := { s with power := { s.power with rails := s.power.rails - 2 ^ r } }

/-- A rail that may go in Dusk goes: the clocks of the channels are held. -/
def State.unpowered (s : State) (r : Nat) : State := (s.withoutRail r).dropPresence.holdChclk (List.range s.C)

/-- VDD_CORE goes in Dusk. -/
def State.coreless (s : State) : State := { (s.unpowered 0).wr R.PWR_STATUS_CORE_LOST 0 0 1 with
  power := { (s.unpowered 0).power with coreGone := true, domains := s.coreDomains }, rdata := 0 }

theorem State.unpowered_only (s : State) (r : Nat) :
    s.unpowered r = { s with power := (s.unpowered r).power, ports := (s.unpowered r).ports } := rfl

theorem State.coreless_only (s : State) :
    s.coreless = { s with power := s.coreless.power, ports := s.coreless.ports, regs := s.coreless.regs, rdata := 0 } := by
  have h := s.unpowered_only 0
  unfold State.coreless
  generalize s.unpowered 0 = t at *
  rw [h]
  rfl

theorem exec_railAbsent {s : State} {r : Nat} (hr : r < 5) (h : bit s.power.rails r = true) : exec (.railAbsent r) s =
    if r = 1 then .next (s.withoutRail r).fullReset
    else if s.power.evtDusk = true ∧ r ≠ 3 then
      if r = 0 then .next s.coreless else .next (s.unpowered r)
    else if bit (s.power.rails - 2 ^ r) 1 = true then
      .next { (s.withoutRail r).wr R.PWR_LOSS_RAILS 0 0 (s.rd R.PWR_LOSS_RAILS ||| 2 ^ r) with
        power := { (s.withoutRail r).power with lossPending := true } }.coreReset
    else .next (s.withoutRail r).coreReset := by
  change execRailAbsent r s = _
  unfold execRailAbsent
  rw [if_neg (by rw [h]; simp only [Bool.true_eq_false, or_false]; omega)]
  by_cases h0 : r = 0
  · subst h0
    rfl
  · simp only [if_neg h0]
    rfl

theorem mem_sortedInsert (x a : Nat) (l : List Nat) : x ∈ sortedInsert a l ↔ x = a ∨ x ∈ l := by
  induction l with
  | nil => simp [sortedInsert]
  | cons b l ih =>
    unfold sortedInsert
    split
    · simp
    · rw [List.mem_cons, ih, List.mem_cons]
      tauto

theorem mem_sortNat (x : Nat) (l : List Nat) : x ∈ sortNat l ↔ x ∈ l := by
  unfold sortNat
  suffices h : ∀ t : List Nat, x ∈ l.foldl (fun t x => sortedInsert x t) t ↔ x ∈ l ∨ x ∈ t by simpa using h []
  induction l with
  | nil => simp
  | cons a l ih =>
    intro t
    rw [List.foldl_cons, ih, mem_sortedInsert, List.mem_cons]
    tauto

/-- The clocks of the channels given are held. -/
theorem holdChclk_holds (s : State) {chs : List Nat} {ch : Nat} (h : ch ∈ chs) : (s.holdChclk chs).power.domains.contains (12 + ch) = true := by
  rw [List.contains_iff_mem]
  refine (mem_sortNat _ _).2 (List.mem_append_right _ ?_)
  exact List.mem_map.2 ⟨ch, h, Nat.add_comm _ _⟩

/-- What the loss of a rail outside Dusk leaves: the block is off. -/
theorem coreReset_off {s : State} (h : s.power.rails ≠ 0x1F) : s.coreReset.power.st = 4 := if_neg h

theorem railAbsent_aon {s : State} (h : bit s.power.rails 1 = true) : Runs (.railAbsent 1) s fun t =>
    s.resetTo t ∧ t.power.domains = sortNat (11 :: s.coreDomains) ∧ bit t.power.rails 1 = false ∧ ∀ f i j, t.rd f i j = f.reset s.build i :=
  ⟨_, (exec_railAbsent (by decide) h).trans (if_pos rfl), fullReset_resetTo (s.withoutRail 1), rfl, (rail_gone (by decide) h).1,
    fullReset_rd (s.withoutRail 1)⟩

theorem railAbsent_phy {s : State} {r : Nat} (hbit : bit s.power.rails r = true) (hdusk : s.power.evtDusk = true) (hr : r = 2 ∨ r = 4) :
    Runs (.railAbsent r) s fun t => t.power = { s.power with rails := s.power.rails - 2 ^ r, domains := t.power.domains } ∧
      (∀ ch, ch < s.C → t.power.domains.contains (12 + ch) = true) ∧ t = { s with power := t.power, ports := t.ports } := by
  refine ⟨s.unpowered r, (exec_railAbsent (by omega) hbit).trans ?_, rfl, fun ch hch => holdChclk_holds _ (List.mem_range.2 hch), rfl⟩
  rw [if_neg (by omega), if_pos ⟨hdusk, by omega⟩, if_neg (by omega)]

theorem railAbsent_core {s : State} (hbit : bit s.power.rails 0 = true) (hdusk : s.power.evtDusk = true) :
    Runs (.railAbsent 0) s fun t => t.power = { s.power with rails := s.power.rails - 1, coreGone := true, domains := s.coreDomains } ∧
      t.rd R.PWR_STATUS_CORE_LOST = 1 ∧ t = { s with power := t.power, ports := t.ports, regs := t.regs, rdata := 0 } := by
  have hpower : s.coreless.power = { s.power with rails := s.power.rails - 2 ^ 0, coreGone := true, domains := s.coreDomains } := rfl
  rw [pow_zero] at hpower
  refine ⟨s.coreless, (exec_railAbsent (by decide) hbit).trans ?_, hpower, ?_, s.coreless_only⟩
  · rw [if_neg (by decide), if_pos ⟨hdusk, by decide⟩, if_pos rfl]
  · have hrd : s.coreless.rd R.PWR_STATUS_CORE_LOST = ((s.unpowered 0).wr R.PWR_STATUS_CORE_LOST 0 0 1).rd R.PWR_STATUS_CORE_LOST := rfl
    rw [hrd, State.wr_rd_self]
    rfl

/-- A rail that goes with the block at work, or VDD_IO at any time: the block goes off, and the loss is recorded where VDD_AON is good. -/
theorem railAbsent_off {s : State} {r : Nat} (hr : r < 5) (hbit : bit s.power.rails r = true) (hdusk : s.power.evtDusk = false ∨ r = 3) (h1 : r ≠ 1) :
    Runs (.railAbsent r) s fun t => s.resetTo t ∧ bit t.power.rails r = false ∧ t.power.st = 4 ∧
      (bit s.power.rails 1 = true → t.power.lossPending = true ∧ bit (t.rd R.PWR_LOSS_RAILS) r = true) ∧
      (bit s.power.rails 1 = false → t.power.lossPending = s.power.lossPending ∧ t.rd R.PWR_LOSS_RAILS = s.rd R.PWR_LOSS_RAILS) := by
  obtain ⟨hgone, hoff, haon⟩ := rail_gone hr hbit
  have hexec := exec_railAbsent hr hbit
  have hout : ¬(s.power.evtDusk = true ∧ r ≠ 3) := by
    rintro ⟨hd, h3⟩
    exact hdusk.elim (fun h => Bool.false_ne_true (h.symm.trans hd)) h3
  rw [if_neg h1, if_neg hout, haon h1] at hexec
  have hmem : R.PWR_LOSS_RAILS ∈ allFields := by decide +kernel
  cases ha : bit s.power.rails 1 with
  | false =>
    rw [ha, if_neg (by decide)] at hexec
    exact ⟨_, hexec, coreReset_resetTo (s.withoutRail r), hgone, coreReset_off (s := s.withoutRail r) hoff, by simp,
      fun _ => ⟨rfl, coreReset_rd_power (s.withoutRail r) hmem (by decide) 0 0⟩⟩
  | true =>
    rw [ha, if_pos rfl] at hexec
    refine ⟨_, hexec, coreReset_resetTo _, hgone, coreReset_off hoff, fun _ => ⟨rfl, ?_⟩, by simp⟩
    rw [coreReset_rd_power _ hmem (by decide)]
    refine (congrArg (bit · r) (State.wr_rd_self _ _ _ _ _)).trans ?_
    exact rail_noted hr _

theorem railGood_good {s : State} {r : Nat} (hr : r < 5) (hbit : bit s.power.rails r = false) (h3 : s.power.st ≠ 3) : Runs (.railGood r) s fun t =>
    bit t.power.rails r = true ∧ (s.power.st ≠ 4 → t.power.st = s.power.st) ∧
      (s.power.st = 4 → t.power.st = if s.power.rails + 2 ^ r = 0x1F then 0 else 4) ∧
      t = { s with power := { s.power with rails := t.power.rails, st := t.power.st } } := by
  have hst : (if s.power.st = 4 ∧ s.power.rails + 2 ^ r = 0x1F then 0 else s.power.st) ≠ 3 := by
    split <;> omega
  have hexec : exec (.railGood r) s = .next { s with power := { s.power with
      rails := s.power.rails + 2 ^ r, st := if s.power.st = 4 ∧ s.power.rails + 2 ^ r = 0x1F then 0 else s.power.st } } := by
    change execRailGood r s = _
    unfold execRailGood
    refine (if_neg (by simp [hbit, hr])).trans (congrArg Host.Outcome.next ?_)
    exact if_pos (.inl hst)
  refine ⟨_, hexec, rail_back hr hbit, fun h => if_neg fun k => h k.1, fun h => ?_, rfl⟩
  dsimp only
  simp only [h, true_and]

end Sys2Proof.Machine

open Sys2Proof Sys2Proof.Machine

/-- Settles O58: by the rules above for a core reset, a release and the loss of a rail. -/
theorem resets : Obligations.Resets := by
  unfold Obligations.Resets
  intro s core
  refine ⟨?core, fun w tgt hopen hw => ⟨softReset_done hopen hw tgt, softReset_refused hopen hw tgt⟩, ?full, fun d => domainReleased,
    fun r hr hbit => ⟨?aon, railAbsent_phy hbit, ?vdd, railAbsent_off hr hbit⟩, fun r => railGood_good⟩
  case core => exact ⟨_, rfl, coreReset_resetTo s, rfl, fun f hf => coreReset_rd_power s hf, coreReset_retained s⟩
  case full => exact ⟨_, rfl, fullReset_resetTo s, rfl, fullReset_rd s, fullReset_retained s⟩
  case aon =>
    rintro rfl
    exact railAbsent_aon hbit
  case vdd =>
    rintro hdusk rfl
    exact railAbsent_core hbit hdusk

end

section
/-! Dusk: its entry, cycle S, the wake sources and the return to Run. -/

namespace Sys2Proof.Machine
open Sys2Proof

/-! ### What a sequence that starts leaves (R343, R351) -/

/-- The fields a sequence writes as it starts. -/
def dawnFlds : List Fld := [R.PHY_EYE_RD_DELAY, R.PHY_EYE_WR_DELAY, R.PHY_OSC_I_BASE, R.PHY_OSC_O_BASE, R.PHY_DAWN_TIME_TIME, R.PHY_DAWN_TIME_KIND]

/-- `t` is `s` after sequences of channels have started, as far as its state of power and the other fields go. -/
def State.sequenced (s t : State) : Prop :=
  t.power.st = s.power.st ∧ t.power.evtDusk = s.power.evtDusk ∧ t.power.latches = s.power.latches ∧ s.readsBut dawnFlds t

theorem State.sequenced_of_power {s t : State} (hpower : t.power = s.power) (h : s.readsBut dawnFlds t) : s.sequenced t := by
  unfold State.sequenced
  rw [hpower]
  exact ⟨rfl, rfl, rfl, h⟩

theorem State.sequenced_refl (s : State) : s.sequenced s := State.sequenced_of_power rfl (s.readsBut_refl _)

theorem State.sequenced.trans {s t u : State} (h : s.sequenced t) (k : t.sequenced u) : s.sequenced u := by
  obtain ⟨hst, hdusk, hlat, hreads⟩ := h
  obtain ⟨kst, kdusk, klat, kreads⟩ := k
  exact ⟨kst.trans hst, kdusk.trans hdusk, klat.trans hlat, hreads.trans kreads⟩

theorem State.sequenced_foldl {α : Type} {f : State → α → State} (hf : ∀ u a, State.sequenced u (f u a)) (l : List α) (s : State) :
    s.sequenced (l.foldl f s) :=
  foldl_keeps s.sequenced f (fun u a h => h.trans (hf u a)) l s s.sequenced_refl

theorem State.sequenced_of_regs {s t : State} (hpower : t.power = s.power) (hregs : t.regs = s.regs) (hbuild : t.build = s.build) : s.sequenced t :=
  State.sequenced_of_power hpower (State.readsBut_of_regs hregs hbuild)

theorem State.sequenced_wr (s : State) {f : Fld} (hf : f ∈ dawnFlds) (i j v : Nat) : s.sequenced (s.wr f i j v) :=
  State.sequenced_of_power rfl fun _ _ _ hg => State.wr_rd_ne _ (hg f hf) _ _ _ _ _

theorem State.sequenced.ite {s t u : State} (c : Prop) [Decidable c] (ht : s.sequenced t) (hu : s.sequenced u) : s.sequenced (if c then t else u) := by
  split
  · exact ht
  · exact hu

theorem State.sequenced_loadRank (s : State) (ch : Nat) (vals : List Int) (r : Nat) : s.sequenced (s.loadRank ch vals r) := by
  have hmem {f : Fld} (hf : dawnFlds.contains f = true) : f ∈ dawnFlds := by simpa using hf
  unfold State.loadRank
  extract_lets v s1 s2 x
  have h1 : s.sequenced s1 :=
    State.sequenced_foldl (fun u b => (u.sequenced_wr (hmem rfl) _ _ _).trans (State.sequenced_wr _ (hmem rfl) _ _ _)) _ _
  have h2 : s1.sequenced s2 := (s1.sequenced_wr (hmem rfl) _ _ _).trans (State.sequenced_wr _ (hmem rfl) _ _ _)
  clear_value s1 s2
  exact (h1.trans h2).trans (State.sequenced_of_regs rfl rfl rfl)

theorem State.sequenced_startSeq (s : State) (ch kind : Nat) (tgt : Option Nat) (full : Bool) : s.sequenced (s.startSeq ch kind tgt full) := by
  have hmem {f : Fld} (hf : dawnFlds.contains f = true) : f ∈ dawnFlds := by simpa using hf
  unfold State.startSeq
  extract_lets c k s1 s2 s3 s4 c1 c2
  have h1 : s.sequenced s1 := by
    refine .ite _ ?_ s.sequenced_refl
    unfold State.testInput
    exact .ite _ s.sequenced_refl (State.sequenced_of_regs rfl rfl rfl)
  have h2 : s1.sequenced s2 :=
    .ite _ s1.sequenced_refl ((s1.sequenced_wr (hmem rfl) _ _ _).trans (State.sequenced_wr _ (hmem rfl) _ _ _))
  have h3 : s2.sequenced s3 := .ite _ (State.sequenced_of_regs rfl rfl rfl) s2.sequenced_refl
  have h4 : s3.sequenced s4 := .ite _ (State.sequenced_foldl (fun u r => u.sequenced_loadRank _ _ r) _ _) s3.sequenced_refl
  exact (h1.trans (h2.trans (h3.trans h4))).trans (State.sequenced_of_regs rfl rfl rfl)

theorem State.sequenced_startWake (s : State) : s.sequenced s.startWake := by
  have hfree (u : State) (ch : Nat) : u.sequenced (u.freeChclk ch) := ⟨rfl, rfl, rfl, State.readsBut_of_regs rfl rfl⟩
  unfold State.startWake
  refine .ite _ s.sequenced_refl (.ite _ ⟨rfl, rfl, rfl, State.readsBut_of_regs rfl rfl⟩ ?_)
  dsimp only
  exact (State.sequenced_foldl hfree _ _).trans (State.sequenced_foldl (fun u ch => u.sequenced_startSeq ch _ _ _) _ _)

/-! ### Wake sources (R399, R401, R402) -/

theorem latchMask_none {s : State} {m : Nat} (h : m &&& s.rd R.PWR_WAKE_EN_EN = 0) (n : Nat) : s.latchMask m n = s := if_pos h

/-- In Run, in a wake and with the block off nothing is latched. -/
theorem latchMask_awake {s : State} (h1 : s.power.st ≠ 1) (h2 : s.power.st ≠ 2) (m n : Nat) : s.latchMask m n = s := by
  unfold State.latchMask
  dsimp only
  rw [if_neg h1, if_neg h2, ite_self]

/-- In Dusk an enabled source wakes the device. -/
theorem latchMask_dusk {s : State} {m : Nat} (h2 : s.power.st = 2) (he : m &&& s.rd R.PWR_WAKE_EN_EN ≠ 0) (n : Nat) :
    (s.latchMask m n).power.st = 3 ∧ (s.latchMask m n).power.evtDusk = false ∧
      (s.latchMask m n).power.latches = s.power.latches ||| (m &&& s.rd R.PWR_WAKE_EN_EN) ∧
      (s.latchMask m n).rd R.PWR_DUSK_TIME_TIME = min (n / 1024) 0xFFFFFFFF := by
  have heq : s.latchMask m n = ({ s.wr R.PWR_DUSK_TIME_TIME 0 0 (min (n / 1024) 0xFFFFFFFF) with
      power := { s.power with latches := s.power.latches ||| (m &&& s.rd R.PWR_WAKE_EN_EN), st := 3, evtDusk := false } } : State).startWake := by
    unfold State.latchMask
    dsimp only
    rw [if_neg he, if_neg (by omega), if_pos h2]
    rfl
  rw [heq]
  obtain ⟨hst, hdusk, hlat, hreads⟩ := State.sequenced_startWake ({ s.wr R.PWR_DUSK_TIME_TIME 0 0 (min (n / 1024) 0xFFFFFFFF) with
      power := { s.power with latches := s.power.latches ||| (m &&& s.rd R.PWR_WAKE_EN_EN), st := 3, evtDusk := false } } : State)
  refine ⟨hst, hdusk, hlat, ?_⟩
  rw [hreads _ _ _ (by decide)]
  refine (State.wr_rd_self s R.PWR_DUSK_TIME_TIME 0 0 _).trans (Nat.mod_eq_of_lt ?_)
  exact Nat.lt_of_le_of_lt (Nat.min_le_right _ _) (by decide)

/-- A source that shows itself during the entry aborts it. -/
theorem latchMask_abort {s : State} {m : Nat} (h1 : s.power.st = 1) (habort : s.power.aborting = false) (hchans : s.power.duskChans = [])
    (he : m &&& s.rd R.PWR_WAKE_EN_EN ≠ 0) (n : Nat) :
    (s.latchMask m n).power.st = 0 ∧ (s.latchMask m n).rd R.PWR_STATUS_SLEEP_ABORTED = 1 ∧ (s.latchMask m n).rd R.PWR_WAKE_CAUSE_ABORT = 1 ∧
      bit ((s.latchMask m n).evt (24 + s.power.duskTgt % 8)).pending 10 = true := by
  obtain ⟨v, hv⟩ : ∃ v : State, v = { s with power := { s.power with latches := s.power.latches ||| (m &&& s.rd R.PWR_WAKE_EN_EN) } } := ⟨_, rfl⟩
  have heq : s.latchMask m n = v.abortDusk := by
    rw [hv]
    exact (if_neg he).trans ((if_pos h1).trans (if_neg (by simp [habort])))
  have htgt : v.power.duskTgt = s.power.duskTgt := by rw [hv]
  have hv' : v.power.duskChans = [] := by
    rw [hv]
    exact hchans
  rw [heq, ← htgt]
  clear hv heq htgt
  have hflush : ∃ h, v.endFlush = { v with hdrs := h } := by
    unfold State.endFlush
    split
    · exact ⟨[], rfl⟩
    · exact ⟨v.hdrs, rfl⟩
  obtain ⟨h, hflush⟩ := hflush
  unfold State.abortDusk
  rw [hflush]
  extract_lets s0 s1 s2 chans s3
  have hchans3 : chans = [] := hv'
  have hs3 : s3 = s2 := by
    simp only [s3, hchans3, List.foldl_nil]
  rw [hs3, hchans3]
  refine ⟨rfl, ?_, ?_, ?_⟩
  · exact State.setBit_rd_self _ _ _ _
  · exact (State.setBit_rd_ne _ (by decide) _ _ _ _).trans (State.wr_rd_self _ _ _ _ _)
  · refine (congrArg (bit · 10) (State.raise_evt_pending _ _ _)).trans ?_
    rw [bit_or, bit_two_pow]
    simp

theorem exec_wakeLatch {s : State} (h0 : bit s.power.rails 0 = true) {srcs n m e : Nat} (hm : m = if s.anyPresent = true then srcs else srcs &&& 0x1D)
    (he : e = (if s.power.st = 2 ∧ s.rd R.PWR_TIMER_LOAD ≠ 0 ∧ n = s.rd R.PWR_TIMER_LOAD then m else m &&& 0x17) &&& s.rd R.PWR_WAKE_EN_EN) :
    ∃ k, k &&& s.rd R.PWR_WAKE_EN_EN = e ∧ exec (.wakeLatch srcs n) s = .next (s.latchMask k n) := by
  refine ⟨_, he.symm, ?_⟩
  change execWakeLatch srcs n s = _
  unfold execWakeLatch
  dsimp only
  rw [if_pos h0, ← hm]

/-- The timer's bit of the mask. -/
theorem timer_enabled {v : Nat} (h : bit v 3 = true) : bit (8 &&& v) 3 = true ∧ 8 &&& v ≠ 0 := by
  have hbit : bit (8 &&& v) 3 = true := by
    rw [bit_and, h]
    rfl
  refine ⟨hbit, fun h0 => ?_⟩
  rw [h0] at hbit
  exact absurd hbit (by decide)

theorem duskTimer_wakes {s : State} (h2 : s.power.st = 2) (hload : s.rd R.PWR_TIMER_LOAD ≠ 0) (hen : bit (s.rd R.PWR_WAKE_EN_EN) 3 = true) :
    Runs .duskTimerExpiry s fun t => t.power.st = 3 ∧ t.power.evtDusk = false ∧ bit t.power.latches 3 = true := by
  obtain ⟨hbit, hne⟩ := timer_enabled hen
  obtain ⟨hst, hdusk, hlat, -⟩ := latchMask_dusk h2 hne (s.rd R.PWR_TIMER_LOAD)
  have hexec : exec .duskTimerExpiry s = .next (s.latchMask 8 (s.rd R.PWR_TIMER_LOAD)) := by
    change execDuskTimerExpiry s = _
    refine if_neg ?_
    rintro (h | h)
    · exact h h2
    · exact hload h
  refine ⟨_, hexec, hst, hdusk, ?_⟩
  rw [hlat, bit_or, hbit, Bool.or_true]

/-! ### The entry (R397, R463) -/

/-- A write of PWR_CTL that asks for Dusk and for no soft reset. -/
theorem exec_duskRequest_open {s : State} (h : s.portOpen) {w : Word} (hw : bit w.toNat 2 = false) (tgt : Nat) :
    ∃ v : State, v = s.wr R.PWR_CTL_DUSK_DEEP 0 0 (bits (w ||| 1).toNat 1 1) ∧
      exec (.duskRequest w tgt) s = .next ((v.duskGo tgt).1.busyIf (v.duskGo tgt).2 0x800 tgt) := by
  refine ⟨_, rfl, (congrArg Host.Outcome.next (State.regAccess_open h _ _ _ _)).trans ?_⟩
  unfold State.writePwrCtl State.writeReg
  rw [applySlots_plain _ _ (by decide), runActs_take (bit_or_self w 1 (by decide)), runActs_skip ((bit_or_other (by decide)).trans hw)]
  rfl

theorem squallLock_rd (s : State) {f : Fld} (hf : f.ix < R.TEST_KEY_KEY.ix ∨ R.SQ_LINJ_COUNT.ix < f.ix) (i j : Nat) :
    s.squallLock.rd f i j = s.rd f i j := by
  have h := Tab.find_filter (fun k => decide (k / 2 ^ 20 < R.TEST_KEY_KEY.ix ∨ R.SQ_LINJ_COUNT.ix < k / 2 ^ 20)) s.regs (f.key i j)
  rw [Fld.key_ix, decide_eq_true hf, if_pos rfl] at h
  unfold State.rd Tab.get
  exact congrArg (Option.getD · _) h

theorem duskRequest_enters {s : State} (h : s.portOpen) {w : Word} (hw : bit w.toNat 2 = false) (tgt : Nat) (hfree : s.anyAttached = false)
    (hen : s.rd R.PWR_WAKE_EN_EN ≠ 0) : Runs (.duskRequest w tgt) s fun t =>
      t.power = { s.power with st := 1, latches := 0, duskTgt := tgt % 8, prepared := false, aborting := false, duskChans := [], duskAll := [] } ∧
      t.squall = {} ∧ t.rd R.PWR_CTL_DUSK_DEEP = bits w.toNat 1 1 ∧ t = { s with regs := t.regs, power := t.power, squall := t.squall } ∧
      ∀ f i j, f.ix ≠ R.PWR_CTL_DUSK_DEEP.ix → (f.ix < R.TEST_KEY_KEY.ix ∨ R.SQ_LINJ_COUNT.ix < f.ix) → t.rd f i j = s.rd f i j := by
  obtain ⟨v, hv, hexec⟩ := exec_duskRequest_open h hw tgt
  obtain ⟨-, hst⟩ := h
  have hrd (f : Fld) (i j : Nat) (hf : f.ix ≠ R.PWR_CTL_DUSK_DEEP.ix) : v.rd f i j = s.rd f i j := by
    rw [hv]
    exact State.wr_rd_ne _ hf _ _ _ _ _
  have hdeep : v.rd R.PWR_CTL_DUSK_DEEP = bits w.toNat 1 1 := by
    rw [hv, State.wr_rd_self, bits_or_of_clear w 1 (by decide)]
    exact Nat.mod_eq_of_lt (bits_lt _ _ _)
  have hgo : v.duskGo tgt = ({ v.squallLock with power := { v.power with
      st := 1, latches := 0, duskTgt := tgt % 8, prepared := false, aborting := false, duskChans := [], duskAll := [] } }, false) := by
    refine (if_neg ?_).trans rfl
    rintro (hpow | hatt | hno)
    · rw [hv] at hpow
      exact hpow hst
    · rw [hv] at hatt
      exact Bool.false_ne_true (hfree.symm.trans hatt)
    · rw [hrd _ _ _ (by decide)] at hno
      exact hen hno
  rw [hgo] at hexec
  have hlock (f : Fld) (i j : Nat) (hf : f.ix < R.TEST_KEY_KEY.ix ∨ R.SQ_LINJ_COUNT.ix < f.ix) : v.squallLock.rd f i j = v.rd f i j :=
    squallLock_rd v hf i j
  have hpower : v.power = s.power := by rw [hv]; rfl
  refine ⟨_, hexec, ?_, rfl, (hlock _ _ _ (by decide)).trans hdeep, ?_, fun f i j hne hf => (hlock f i j hf).trans (hrd f i j hne)⟩
  · rw [← hpower]
    rfl
  · rw [State.busyIf_false, hv]
    rfl

theorem duskRequest_refused {s : State} (h : s.portOpen) {w : Word} (hw : bit w.toNat 2 = false) (tgt : Nat) (hatt : s.anyAttached = true) :
    Runs (.duskRequest w tgt) s fun t => t.power = s.power ∧ t.rd R.GLB_STATUS_CFG_BUSY = 1 := by
  obtain ⟨v, hv, hexec⟩ := exec_duskRequest_open h hw tgt
  have hgo : v.duskGo tgt = (v, true) := by
    refine if_pos (.inr (.inl ?_))
    rw [hv]
    exact hatt
  rw [hgo] at hexec
  refine ⟨_, hexec, ?_, v.cfgBusy_bit 0x800 tgt⟩
  have hpower : v.power = s.power := by
    rw [hv]
    rfl
  exact (congrArg State.power (v.cfgBusy_eq 0x800 tgt)).trans hpower

/-! ### Cycle S (R398, R399) -/

theorem exec_duskClockStop {s : State} (h1 : s.power.st = 1) (habort : s.power.aborting = false) (hready : s.duskReady = true)
    (hprep : s.power.prepared = true) (hdrain : s.duskDrained = true) : exec .duskClockStop s = .next s.clockStop := by
  change execDuskClockStop s = _
  unfold execDuskClockStop
  rw [if_neg (by simp [h1, habort, hready])]
  dsimp only
  rw [if_pos hprep, if_pos hdrain]

theorem duskDrained_asleep {s : State} (h : s.duskDrained = true) {ch : Nat} (hch : ch < s.C) (hin : s.inService ch = true) : 2 ≤ (s.chan ch).pwr := by
  unfold State.duskDrained at h
  obtain ⟨-, hall⟩ := (Bool.and_eq_true _ _).mp h
  have hone := List.all_eq_true.1 hall ch (List.mem_range.2 hch)
  rw [hin] at hone
  exact of_decide_eq_true hone

/-! ### Run is reached (R402) -/

/-- The latches have been taken to PWR_WAKE_CAUSE. -/
def State.causeTaken (s : State) : State := { (s.wr R.PWR_WAKE_CAUSE_CAUSE 0 0 s.power.latches).wr R.PWR_WAKE_CAUSE_ABORT 0 0 0 with
  power := { s.power with latches := 0, heldReg := none, coreGone := false, abandon := false } }

theorem State.causeTaken_regsKept (s : State) : s.regsKept s.causeTaken [⟨R.PWR_WAKE_CAUSE_CAUSE, 0, 0⟩, ⟨R.PWR_WAKE_CAUSE_ABORT, 0, 0⟩] :=
  State.regsKept_trans (s.wr_regsKept _ _ _ _) (State.regsKept_congr (State.wr_regsKept _ _ _ _ _) rfl rfl)

theorem State.causeTaken_cause (s : State) : s.causeTaken.rd R.PWR_WAKE_CAUSE_CAUSE = s.power.latches % 32 :=
  (State.wr_rd_ne _ (by decide) _ _ _ _ _).trans (State.wr_rd_self _ _ _ _ _)

theorem State.causeTaken_abort (s : State) : s.causeTaken.rd R.PWR_WAKE_CAUSE_ABORT = 0 := State.wr_rd_self _ _ _ _ _

theorem exec_pwrWake_kept {s : State} {ok : Bool} {u : Nat} (h3 : s.power.st = 3) (hrails : s.power.rails = 0x1F)
    (hdom : (s.power.domains.any (· < 12)) = false) (hchans : s.power.duskChans = []) (hcore : s.power.coreGone = false) (hheld : s.power.heldReg = none) :
    exec (.pwrWake ok u) s = .next (s.causeTaken.reachRun u) := by
  change execPwrWake ok u s = _
  unfold execPwrWake
  rw [if_neg (by simp [h3, hrails, hdom, hchans])]
  dsimp only
  rw [hcore, hheld]
  rfl

/-- Run is reached: what it writes, and the acquisition that it starts where a configuration is in force. -/
theorem State.reachRun_spec (s : State) (u : Nat) : (s.reachRun u).power = { s.power with st := 0 } ∧ (s.reachRun u).rd R.PWR_STATUS_PWR_WAKE = 1 ∧
    bit ((s.reachRun u).evt (24 + s.power.duskTgt % 8)).pending 9 = true ∧
    (s.conf.isSome = true → (s.reachRun u).tick.st = 1 ∧ (s.reachRun u).tick.first = true) ∧ s.onlyTest (s.reachRun u) ∧
    s.reachRun u = { s with
      regs := (s.reachRun u).regs, bitsNow := (s.reachRun u).bitsNow, evts := (s.reachRun u).evts, tick := (s.reachRun u).tick
      power := (s.reachRun u).power, traffic := (s.reachRun u).traffic } ∧ s.regsKept (s.reachRun u) [⟨R.PWR_STATUS_PWR_WAKE, 0, 0⟩] := by
  obtain ⟨k, tr, hk, htest, hfirst⟩ : ∃ (k : TickUnit) (tr : Traffic), (if s.conf.isSome = true then
      ({ s with power := { s.power with st := 0 } } : State).acquire u true else { s with power := { s.power with st := 0 } }) =
      { s with power := { s.power with st := 0 }, tick := k, traffic := tr } ∧ s.onlyTest { s with traffic := tr } ∧
      (s.conf.isSome = true → k.st = 1 ∧ k.first = true) := by
    split
    · obtain ⟨tr, hnote, htest⟩ := State.noteIc_cases
        ({ s with power := { s.power with st := 0 }, tick := s.acquiring s.tick u true } : State)
      exact ⟨_, tr, hnote, htest, fun _ => ⟨rfl, rfl⟩⟩
    · next h => exact ⟨s.tick, s.traffic, rfl, rfl, fun hs => absurd hs h⟩
  have heq : s.reachRun u = (({ s with power := { s.power with st := 0 }, tick := k, traffic := tr } : State).setBit
      R.PWR_STATUS_PWR_WAKE 0 0).raisePriv s.power.duskTgt 9 := by
    unfold State.reachRun
    dsimp only
    rw [hk]
  rw [heq]
  refine ⟨rfl, State.setBit_rd_self _ _ _ _, ?_, hfirst, htest, rfl, ?_⟩
  · refine (congrArg (bit · 9) (State.raise_evt_pending _ _ _)).trans ?_
    rw [bit_or, bit_two_pow]
    simp
  · exact State.setBit_regsKept _ _ _ _

end Sys2Proof.Machine

open Sys2Proof Sys2Proof.Machine

/-- Settles O57: by the rules above for the entry, cycle S, the wake sources and the return to Run. -/
theorem dusk : Obligations.Dusk := by
  unfold Obligations.Dusk
  intro s
  refine ⟨fun w tgt hopen hw => ⟨duskRequest_enters hopen hw tgt, duskRequest_refused hopen hw tgt⟩, ?stop, ?wake, duskTimer_wakes, ?run⟩
  case stop =>
    intro h1 habort hready hprep hdrain
    exact ⟨_, exec_duskClockStop h1 habort hready hprep hdrain, rfl, rfl, State.wr_rd_self _ _ _ _ _, rfl,
      fun ch hch hin => duskDrained_asleep hdrain hch hin, rfl, s.wr_regsKept _ _ _ _⟩
  case wake =>
    intro srcs n m e h0 hm he
    obtain ⟨k, rfl, hexec⟩ := exec_wakeLatch h0 hm he
    refine ⟨fun h2 hne => ⟨_, hexec, latchMask_dusk h2 hne n⟩, fun hnone => ?_, fun h1 habort hchans hne =>
      ⟨_, hexec, latchMask_abort h1 habort hchans hne n⟩, fun h1 h2 => ?_⟩
    · rw [hexec, latchMask_none hnone]
    · rw [hexec, latchMask_awake h1 h2]
  case run =>
    intro ok u h3 hrails hdom hchans hcore hheld
    obtain ⟨hpower, hraised, hevt, htick, htest, honly, hkept⟩ := s.causeTaken.reachRun_spec u
    have hcause : s.regsKept s.causeTaken [⟨R.PWR_WAKE_CAUSE_CAUSE, 0, 0⟩, ⟨R.PWR_WAKE_CAUSE_ABORT, 0, 0⟩] := s.causeTaken_regsKept
    refine ⟨_, exec_pwrWake_kept h3 hrails hdom hchans hcore hheld, congrArg Power.st hpower, congrArg Power.latches hpower, ?_, ?_, hraised, hevt, htick,
      htest, honly, State.regsKept_trans hcause hkept⟩
    · rw [hkept _ _ _ (by decide), s.causeTaken_cause]
    · rw [hkept _ _ _ (by decide), s.causeTaken_abort]

end

section
/-! What falls due on a channel, and how maintenance ends. -/

namespace Sys2Proof.Machine
open Sys2Proof

/-- A field of another number than those that changed reads as before. -/
theorem State.regsKept.rd {s t : State} {l : List Slot} (h : s.regsKept t l) {f : Fld} (hf : ∀ x ∈ l, x.f.ix ≠ f.ix) (i j : Nat) :
    t.rd f i j = s.rd f i j :=
  h f i j fun x hx hkey => hf x hx (by rw [← Fld.key_ix x.f x.i x.j, hkey, Fld.key_ix])

/-! ### Ranks of a channel -/

@[simp] theorem Chan.setRank_rankAt_self (x : Chan) (r : Nat) (k : Rank) : (x.setRank r k).rankAt r = k := Tab.get_insert_self _ _ _ _

theorem Chan.setRank_rankAt_ne (x : Chan) {r q : Nat} (h : q ≠ r) (k : Rank) : (x.setRank r k).rankAt q = x.rankAt q := Tab.get_insert_ne h _ _ _

/-- Each of the first `n` ranks is changed by `f`. -/
theorem Chan.foldl_setRank (f : Rank → Rank) (x : Chan) (n q : Nat) :
    ((List.range n).foldl (fun (x : Chan) r => x.setRank r (f (x.rankAt r))) x).rankAt q = if q < n then f (x.rankAt q) else x.rankAt q := by
  induction n with
  | zero => rfl
  | succ n ih =>
    rw [List.range_succ, List.foldl_append]
    change (Chan.setRank _ n _).rankAt q = _
    by_cases hq : q = n
    · subst hq
      rw [Chan.setRank_rankAt_self, ih, if_neg (by omega), if_pos (by omega)]
    · rw [Chan.setRank_rankAt_ne _ hq, ih]
      by_cases hlt : q < n
      · rw [if_pos hlt, if_pos (by omega)]
      · rw [if_neg hlt, if_neg (by omega)]

theorem satAdd_bump (s : State) (f : Fld) (i j : Nat) : (s.bump f i j 1).rd f i j = satAdd f.width (s.rd f i j) 1 := State.bump_rd_self _ _ _ _ _

/-! ### What falls due (R331, R352, R355, R401) -/

theorem exec_mr4ReadDue {s : State} {ch r : Nat} (hin : s.inService ch = true) (hr : r < s.ranksOf ch) (hpwr : (s.chan ch).pwr < 2) :
    exec (.mr4ReadDue ch r) s = .next (s.setChan ch ((s.chan ch).setRank r
      { (s.chan ch).rankAt r with mr4 := min 2 (((s.chan ch).rankAt r).mr4 + 1) })) := by
  change execMr4ReadDue ch r s = _
  refine if_neg ?_
  rw [hin]
  simp only [Bool.true_eq_false, false_or]
  omega

theorem exec_zqDue {s : State} {ch r : Nat} (hin : s.inService ch = true) (hr : r < s.ranksOf ch) :
    exec (.zqDue ch r) s = .next (s.setChan ch ((s.chan ch).setRank r { (s.chan ch).rankAt r with zq := true })) := by
  change execZqDue ch r s = _
  refine if_neg ?_
  rw [hin]
  simp only [Bool.true_eq_false, false_or]
  omega

theorem exec_longTrainingDue {s : State} {ch r : Nat} (hin : s.inService ch = true) (hr : r < s.ranksOf ch) (hon : s.rd R.PHY_MAINT_LONG_PERIOD ch ≠ 0) :
    exec (.longTrainingDue ch r) s = .next (s.setChan ch ((s.chan ch).setRank r { (s.chan ch).rankAt r with long := true })) := by
  change execLongTrainingDue ch r s = _
  refine if_neg ?_
  rw [hin]
  simp only [Bool.true_eq_false, false_or, hon, or_false]
  omega

theorem oscDue_ranks {s : State} {ch : Nat} (hin : s.inService ch = true) (hpwr : (s.chan ch).pwr < 2) : Runs (.oscDue ch) s fun t =>
    (∀ q, q < s.ranksOf ch → ((t.chan ch).rankAt q).osc = min 2 (((s.chan ch).rankAt q).osc + 1)) ∧
      (∀ d, d ≠ ch → t.chan d = s.chan d) ∧ t = { s with chans := t.chans } := by
  have hexec : exec (.oscDue ch) s = .next (s.setChan ch ((List.range (s.ranksOf ch)).foldl
      (fun (x : Chan) r => x.setRank r { x.rankAt r with osc := min 2 ((x.rankAt r).osc + 1) }) (s.chan ch))) := by
    change execOscDue ch s = _
    refine if_neg ?_
    rw [hin]
    simp only [Bool.true_eq_false, false_or]
    omega
  refine ⟨_, hexec, fun q hq => ?_, fun d hd => State.setChan_chan_ne s hd _, rfl⟩
  rw [State.setChan_chan_self, Chan.foldl_setRank (fun k => { k with osc := min 2 (k.osc + 1) }), if_pos hq]

theorem maintStarved_raises {s : State} {ch : Nat} (hmax : s.rd R.PHY_MAINT_MAINT_WAIT_MAX ch ≠ 0) (hwaits : s.maintWaits ch = true) :
    Runs (.maintStarved ch) s fun t => t.rd R.PHY_STATUS_MAINT_STARVED ch = 1 ∧ bit (t.evt (11 + ch / 16)).pending (ch % 16) = true ∧
      t = { s with regs := t.regs, bitsNow := t.bitsNow, evts := t.evts } ∧ s.regsKept t [⟨R.PHY_STATUS_MAINT_STARVED, ch, 0⟩] := by
  have hexec : exec (.maintStarved ch) s = .next ((s.setBit R.PHY_STATUS_MAINT_STARVED ch 0).raiseChan 11 ch) := by
    change execMaintStarved ch s = _
    refine if_neg ?_
    rw [hwaits]
    simp only [Bool.true_eq_false, or_false]
    exact hmax
  refine ⟨_, hexec, State.setBit_rd_self _ _ _ _, ?_, rfl, s.setBit_regsKept _ _ _⟩
  refine (congrArg (bit · (ch % 16)) (State.raise_evt_pending _ _ _)).trans ?_
  rw [bit_or, bit_two_pow]
  simp

/-! ### TEMP_ALERT (R401) -/

/-- MR4 reads of every rank of channel `ch` fall due, where it is in service. -/
def State.alerted (s : State) (ch : Nat) : State :=
  if s.inService ch then
    s.setChan ch ((List.range (s.ranksOf ch)).foldl (fun (x : Chan) r => x.setRank r { x.rankAt r with mr4 := 2 }) (s.chan ch))
  else s

theorem State.alerted_only (s : State) (ch : Nat) : s.alerted ch = { s with chans := (s.alerted ch).chans } := by
  unfold State.alerted
  split <;> rfl

theorem State.foldl_alerted_only (l : List Nat) (s : State) : l.foldl State.alerted s = { s with chans := (l.foldl State.alerted s).chans } := by
  refine foldl_keeps (fun t => t = { s with chans := t.chans }) _ (fun u ch hu => ?_) l s rfl
  rw [u.alerted_only ch, hu]

theorem State.alerted_ne (s : State) {ch d : Nat} (h : d ≠ ch) : (s.alerted ch).chan d = s.chan d := by
  unfold State.alerted
  split
  · exact State.setChan_chan_ne s h _
  · rfl

theorem State.foldl_alerted_ne {l : List Nat} {ch : Nat} (h : ch ∉ l) (s : State) : (l.foldl State.alerted s).chan ch = s.chan ch := by
  induction l generalizing s with
  | nil => rfl
  | cons d l ih =>
    obtain ⟨hd, hl⟩ := not_or.1 (mt List.mem_cons.2 h)
    rw [List.foldl_cons, ih hl]
    exact s.alerted_ne hd

/-- The channels of the list that are in service have an MR4 read due on every rank. -/
theorem State.foldl_alerted_mr4 {l : List Nat} (hnd : l.Nodup) {s : State} {ch r : Nat} (hch : ch ∈ l) (hin : s.inService ch = true) (hr : r < s.ranksOf ch) :
    (((l.foldl State.alerted s).chan ch).rankAt r).mr4 = 2 := by
  induction l generalizing s with
  | nil => exact absurd hch (by simp)
  | cons d l ih =>
    obtain ⟨hdl, hnd⟩ := List.nodup_cons.1 hnd
    rw [List.foldl_cons]
    by_cases hd : ch = d
    · subst hd
      rw [State.foldl_alerted_ne hdl]
      unfold State.alerted
      rw [if_pos hin, State.setChan_chan_self, Chan.foldl_setRank (fun k => { k with mr4 := 2 }), if_pos hr]
    · have hsame := s.alerted_ne hd
      refine ih hnd ((List.mem_cons.1 hch).resolve_left hd) ?_ ?_
      · unfold State.inService at hin ⊢
        rw [hsame]
        exact hin
      · unfold State.ranksOf at hr ⊢
        rw [s.alerted_only d]
        exact hr

theorem tempAlert_reads {s : State} (hst : s.power.st = 0) (hrun : s.cclkRuns = true) (ch r : Nat) : Runs .tempAlert s fun t =>
    t.rd R.PWR_STATUS_TEMP_ALERT = 1 ∧ bit (t.evt 7).pending 8 = true ∧
      (ch < s.C → s.inService ch = true → r < s.ranksOf ch → ((t.chan ch).rankAt r).mr4 = 2) ∧
      t = { s with regs := t.regs, bitsNow := t.bitsNow, evts := t.evts, chans := t.chans } ∧ s.regsKept t [⟨R.PWR_STATUS_TEMP_ALERT, 0, 0⟩] := by
  obtain ⟨v, hv⟩ : ∃ v, v = (s.setBit R.PWR_STATUS_TEMP_ALERT 0 0).raise 7 8 := ⟨_, rfl⟩
  have hexec : exec .tempAlert s = .next ((List.range v.C).foldl State.alerted v) := by
    change execTempAlert s = _
    unfold execTempAlert
    rw [if_neg (by omega), if_neg (by simp [hst, hrun]), hv]
    rfl
  have honly := State.foldl_alerted_only (List.range v.C) v
  have hbit : bit (v.evt 7).pending 8 = true := by
    rw [hv, State.raise_evt_pending, bit_or, bit_two_pow]
    simp
  have hrd : v.rd R.PWR_STATUS_TEMP_ALERT = 1 := by
    rw [hv]
    exact State.setBit_rd_self _ _ _ _
  have hkept : s.regsKept v [⟨R.PWR_STATUS_TEMP_ALERT, 0, 0⟩] := by
    rw [hv]
    exact s.setBit_regsKept _ _ _
  have hmr4 (hch : ch < s.C) (hin : s.inService ch = true) (hr : r < s.ranksOf ch) :
      ((((List.range v.C).foldl State.alerted v).chan ch).rankAt r).mr4 = 2 := by
    refine State.foldl_alerted_mr4 List.nodup_range (List.mem_range.2 ?_) ?_ ?_
    · rw [hv]
      exact hch
    · rw [hv]
      exact hin
    · rw [hv]
      exact hr
  have hbase : v = { s with regs := v.regs, bitsNow := v.bitsNow, evts := v.evts } := by
    rw [hv]
    rfl
  generalize (List.range v.C).foldl State.alerted v = t at *
  clear hv
  refine ⟨t, hexec, ?_, ?_, hmr4, ?_, ?_⟩
  · rw [honly]
    exact hrd
  · rw [honly]
    exact hbit
  · rw [honly, hbase]
  · rw [honly]
    exact State.regsKept_congr hkept rfl rfl

/-! ### An eye sweep (R353, R354) -/

/-- What a sweep of bit `b` leaves of a rank, where its correction reaches the threshold (`far`) and its margin is below the least (`low`). -/
def Rank.swept10 (k : Rank) (b : Nat) (c : Int) (far low : Prop) [Decidable far] [Decidable low] : Rank :=
  let k := { k with swept := 10, rdOsc := 0 }
  let k := if far then { k with rdPend := Tab.insert b c k.rdPend } else k
  if low then { k with long := true } else k

theorem Rank.swept10_spec (k : Rank) (b : Nat) (c : Int) (far low : Prop) [Decidable far] [Decidable low] :
    (k.swept10 b c far low).swept = 10 ∧ (k.swept10 b c far low).rdOsc = 0 ∧ (far → Tab.get 0 (k.swept10 b c far low).rdPend b = c) := by
  unfold Rank.swept10
  dsimp only
  refine ⟨?_, ?_, fun hfar => ?_⟩
  · split <;> split <;> rfl
  · split <;> split <;> rfl
  · rw [if_pos hfar]
    split <;> exact Tab.get_insert_self _ _ _ _

/-- `t` is `s` but for event bits of a list that were set, with their sources. -/
def State.alarmed (s : State) (l : List Slot) (t : State) : Prop :=
  t = { s with regs := t.regs, bitsNow := t.bitsNow, evts := t.evts } ∧ s.regsKept t l

theorem State.alarmed_refl (s : State) (l : List Slot) : s.alarmed l s := ⟨rfl, State.regsKept_refl s l⟩

theorem State.alarmed.trans {s t u : State} {l : List Slot} (h : s.alarmed l t) (k : t.alarmed l u) : s.alarmed l u := by
  obtain ⟨heq, hkept⟩ := h
  obtain ⟨keq, kkept⟩ := k
  exact ⟨by rw [keq, heq], State.regsKept_mono (State.regsKept_trans hkept kkept) (by simp)⟩

theorem State.alarmed_raiseChan (s : State) {l : List Slot} {f : Fld} {ch : Nat} (hf : ⟨f, ch, 0⟩ ∈ l) (base : Nat) :
    s.alarmed l ((s.setBit f ch 0).raiseChan base ch) :=
  ⟨rfl, State.regsKept_mono (State.regsKept_congr (s.setBit_regsKept f ch 0) rfl rfl) (by simpa using hf)⟩

theorem State.alarmed.ite {s t u : State} {l : List Slot} (c : Prop) [Decidable c] (ht : s.alarmed l t) (hu : s.alarmed l u) :
    s.alarmed l (if c then t else u) := by
  split
  · exact ht
  · exact hu

/-- Rank `r` of channel `ch` after a sweep with `l` and `g` passing offsets. -/
def State.sweptRank (s : State) (ch r b l g : Nat) : Rank :=
  ((s.chan ch).rankAt r).swept10 b (((g : Int) - l).tdiv 2) (s.rd R.PHY_DRIFT_CFG_EYE_THRESH ch ≤ (((g : Int) - l).tdiv 2).natAbs)
    (min l g < s.rd R.PHY_DRIFT_CFG_EYE_MIN_MARGIN ch)

theorem State.sweptRank_spec (s : State) (ch r b l g : Nat) : (s.sweptRank ch r b l g).swept = 10 ∧ (s.sweptRank ch r b l g).rdOsc = 0 ∧
    (s.rd R.PHY_DRIFT_CFG_EYE_THRESH ch ≤ (((g : Int) - l).tdiv 2).natAbs → Tab.get 0 (s.sweptRank ch r b l g).rdPend b = ((g : Int) - l).tdiv 2) :=
  Rank.swept10_spec _ _ _ _ _

/-- The two sides of the eye are recorded. -/
def State.eyeTaken (s : State) (ch j l g : Nat) : State :=
  ((s.wr R.PHY_EYE_LEFT ch j l).wr R.PHY_EYE_RIGHT ch j g).count { ev := 0x117, ch := some ch }

theorem exec_eyeSweepDone {s : State} {ch r b left right : Nat} (hin : s.inService ch = true) (hr : r < s.ranksOf ch) (hb : b < 18) :
    ∃ t, exec (.eyeSweepDone ch r b left right) s = .next t ∧
      ((s.eyeTaken ch (r * 32 + b) (min left 32) (min right 32)).setChan ch
        ((s.chan ch).setRank r (s.sweptRank ch r b (min left 32) (min right 32)))).alarmed
        [⟨R.PHY_STATUS_EYE_LOW, ch, 0⟩, ⟨R.PHY_STATUS_DRIFT_HIGH, ch, 0⟩] t := by
  change ∃ t, execEyeSweepDone ch r b left right s = .next t ∧ _
  unfold execEyeSweepDone
  rw [if_neg (by simp only [hin, Bool.true_eq_false, false_or]; omega)]
  extract_lets j l g s1 c x k k0 k1 low k2 s2 s3
  have hthresh : s1.rd R.PHY_DRIFT_CFG_EYE_THRESH ch = s.rd R.PHY_DRIFT_CFG_EYE_THRESH ch :=
    (State.wr_rd_ne _ (by decide) _ _ _ _ _).trans (State.wr_rd_ne _ (by decide) _ _ _ _ _)
  have hmargin : s1.rd R.PHY_DRIFT_CFG_EYE_MIN_MARGIN ch = s.rd R.PHY_DRIFT_CFG_EYE_MIN_MARGIN ch :=
    (State.wr_rd_ne _ (by decide) _ _ _ _ _).trans (State.wr_rd_ne _ (by decide) _ _ _ _ _)
  have hs2 : s2 = (s.eyeTaken ch j l g).setChan ch ((s.chan ch).setRank r (s.sweptRank ch r b l g)) := by
    have hk2 : k2 = s.sweptRank ch r b l g := by
      simp only [k2, k1, low, decide_eq_true_eq, hthresh, hmargin]
      rfl
    simp only [s2, hk2]
    rfl
  rw [← hs2]
  clear_value s2
  have h3 : s2.alarmed [⟨R.PHY_STATUS_EYE_LOW, ch, 0⟩, ⟨R.PHY_STATUS_DRIFT_HIGH, ch, 0⟩] s3 :=
    .ite _ (s2.alarmed_raiseChan (by simp) 11) (s2.alarmed_refl _)
  split
  · exact ⟨_, rfl, h3.trans (s3.alarmed_raiseChan (by simp) 11)⟩
  · exact ⟨_, rfl, h3⟩

theorem eyeSwept {s : State} {ch r b left right : Nat} (hin : s.inService ch = true) (hr : r < s.ranksOf ch) (hb : b < 18) :
    Runs (.eyeSweepDone ch r b left right) s fun t =>
      t.rd R.PHY_EYE_LEFT ch (r * 32 + b) = min left 32 ∧ t.rd R.PHY_EYE_RIGHT ch (r * 32 + b) = min right 32 ∧
      ((t.chan ch).rankAt r).swept = 10 ∧ ((t.chan ch).rankAt r).rdOsc = 0 ∧
      (s.rd R.PHY_DRIFT_CFG_EYE_THRESH ch ≤ ((((min right 32 : Nat) : Int) - (min left 32 : Nat)).tdiv 2).natAbs →
        Tab.get 0 ((t.chan ch).rankAt r).rdPend b = (((min right 32 : Nat) : Int) - (min left 32 : Nat)).tdiv 2) ∧
      (∀ d, d ≠ ch → t.chan d = s.chan d) ∧ t = { s with regs := t.regs, bitsNow := t.bitsNow, chans := t.chans, evts := t.evts, meas := t.meas } ∧
        s.regsKept t [⟨R.PHY_EYE_LEFT, ch, (r * 32 + b)⟩, ⟨R.PHY_EYE_RIGHT, ch, (r * 32 + b)⟩, ⟨R.PHY_STATUS_EYE_LOW, ch, 0⟩, ⟨R.PHY_STATUS_DRIFT_HIGH, ch, 0⟩] := by
  obtain ⟨t, hexec, honly, hkept⟩ := exec_eyeSweepDone (left := left) (right := right) hin hr hb
  have hleft : (s.eyeTaken ch (r * 32 + b) (min left 32) (min right 32)).rd R.PHY_EYE_LEFT ch (r * 32 + b) = min left 32 := by
    refine (State.wr_rd_ne _ (by decide) _ _ _ _ _).trans ((State.wr_rd_self _ _ _ _ _).trans (Nat.mod_eq_of_lt ?_))
    exact Nat.lt_of_le_of_lt (Nat.min_le_right _ _) (by decide)
  have hright : (s.eyeTaken ch (r * 32 + b) (min left 32) (min right 32)).rd R.PHY_EYE_RIGHT ch (r * 32 + b) = min right 32 := by
    refine (State.wr_rd_self _ _ _ _ _).trans (Nat.mod_eq_of_lt ?_)
    exact Nat.lt_of_le_of_lt (Nat.min_le_right _ _) (by decide)
  have htaken : s.regsKept (s.eyeTaken ch (r * 32 + b) (min left 32) (min right 32))
      [⟨R.PHY_EYE_LEFT, ch, (r * 32 + b)⟩, ⟨R.PHY_EYE_RIGHT, ch, (r * 32 + b)⟩] :=
    State.regsKept_trans (s.wr_regsKept _ _ _ _) (State.regsKept_congr (State.wr_regsKept _ _ _ _ _) rfl rfl)
  have heyes : s.eyeTaken ch (r * 32 + b) (min left 32) (min right 32) =
      { s with regs := (s.eyeTaken ch (r * 32 + b) (min left 32) (min right 32)).regs, meas := (s.eyeTaken ch (r * 32 + b) (min left 32) (min right 32)).meas } := rfl
  obtain ⟨hswept, hosc, hpend⟩ := s.sweptRank_spec ch r b (min left 32) (min right 32)
  generalize s.eyeTaken ch (r * 32 + b) (min left 32) (min right 32) = v at *
  have hchan (d : Nat) (hd : d ≠ ch) : v.chan d = s.chan d := by
    rw [heyes]
    rfl
  generalize s.sweptRank ch r b (min left 32) (min right 32) = k at *
  have hrank : (t.chan ch).rankAt r = k := by
    rw [honly]
    exact (congrArg (Chan.rankAt · r) (State.setChan_chan_self _ _ _)).trans (Chan.setRank_rankAt_self _ _ _)
  refine ⟨t, hexec, ?_⟩
  dsimp only
  rw [hrank]
  refine ⟨(hkept.rd (by simp; decide) _ _).trans hleft, (hkept.rd (by simp; decide) _ _).trans hright, hswept, hosc, hpend, fun d hd => ?_, ?_, ?_⟩
  · rw [honly]
    exact (State.setChan_chan_ne v hd _).trans (hchan d hd)
  · rw [honly, heyes]
    rfl
  · exact State.regsKept_trans (m := [⟨R.PHY_STATUS_EYE_LOW, ch, 0⟩, ⟨R.PHY_STATUS_DRIFT_HIGH, ch, 0⟩])
      (State.regsKept_congr htaken rfl rfl) hkept

/-! ### Settings of a rank -/

/-- The fields that hold settings and counts of training. -/
def tunedFlds : List Fld :=
  [R.PHY_EYE_RD_DELAY, R.PHY_EYE_WR_DELAY, R.PHY_OSC_I_BASE, R.PHY_OSC_O_BASE, R.PHY_OSC_I_LAST, R.PHY_OSC_O_LAST]

/-- `t` is `s` after settings of rank `r` of channel `ch` changed. -/
structure State.tuned (s : State) (ch r : Nat) (t : State) : Prop where
  other : ∀ d, d ≠ ch → t.chan d = s.chan d
  maint : (t.chan ch).maint = (s.chan ch).maint
  idle : ((t.chan ch).rankAt r).idleFrom = ((s.chan ch).rankAt r).idleFrom
  long : ((t.chan ch).rankAt r).long = ((s.chan ch).rankAt r).long
  reads : s.readsBut tunedFlds t

theorem State.tuned_refl (s : State) (ch r : Nat) : s.tuned ch r s := ⟨fun _ _ => rfl, rfl, rfl, rfl, s.readsBut_refl _⟩

theorem State.tuned.trans {s t u : State} {ch r : Nat} (h : s.tuned ch r t) (k : t.tuned ch r u) : s.tuned ch r u :=
  ⟨fun d hd => (k.other d hd).trans (h.other d hd), k.maint.trans h.maint, k.idle.trans h.idle, k.long.trans h.long, h.reads.trans k.reads⟩

theorem State.tuned_foldl {α : Type} {ch r : Nat} {f : State → α → State} (hf : ∀ u a, State.tuned u ch r (f u a)) (l : List α) (s : State) :
    s.tuned ch r (l.foldl f s) :=
  foldl_keeps (s.tuned ch r) f (fun u a h => h.trans (hf u a)) l s (s.tuned_refl ch r)

theorem State.tuned_wr (s : State) {f : Fld} (hf : tunedFlds.contains f = true) (ch r i j v : Nat) : s.tuned ch r (s.wr f i j v) :=
  ⟨fun _ _ => rfl, rfl, rfl, rfl, fun _ _ _ hg => State.wr_rd_ne _ (hg f (by simpa using hf)) _ _ _ _ _⟩

/-- A channel is set to one whose maintenance is the same, and whose rank `r` is as idle and as due for training. -/
theorem State.tuned_setChan {s : State} {ch r : Nat} {x : Chan} (hmaint : x.maint = (s.chan ch).maint)
    (hidle : (x.rankAt r).idleFrom = ((s.chan ch).rankAt r).idleFrom) (hlong : (x.rankAt r).long = ((s.chan ch).rankAt r).long) :
    s.tuned ch r (s.setChan ch x) := by
  refine ⟨fun d hd => State.setChan_chan_ne s hd x, ?_, ?_, ?_, State.readsBut_of_regs rfl rfl⟩
  · rw [State.setChan_chan_self, hmaint]
  · rw [State.setChan_chan_self, hidle]
  · rw [State.setChan_chan_self, hlong]

theorem State.tuned_setWidth (s : State) (ch r b w n : Nat) : s.tuned ch r (s.setWidth ch r b w n) := State.tuned_setChan rfl rfl rfl

theorem State.tuned_setTrained (s : State) (ch r k v : Nat) : s.tuned ch r (s.setTrained ch r k v) := State.tuned_setChan rfl rfl rfl

theorem State.tuned_longPlace (s : State) (ch r : Nat) (l : LongRes) : s.tuned ch r (s.longPlace ch r l) := by
  unfold State.longPlace
  extract_lets v
  have h : s.tuned ch r v := State.tuned_foldl (fun u b => by
    extract_lets rw ww u1 u2
    have h1 : u.tuned ch r u1 := u.tuned_wr rfl _ _ _ _ _
    have h2 : u1.tuned ch r u2 := u1.tuned_wr rfl _ _ _ _ _
    exact (h1.trans h2).trans ((u2.tuned_setWidth _ _ _ _ _).trans (State.tuned_setWidth _ _ _ _ _ _))) _ s
  exact h.trans (State.tuned_foldl (fun u k => u.tuned_setTrained _ _ _ _) _ _)

theorem State.tuned_oscBase (s : State) (ch r oi oo : Nat) : s.tuned ch r (s.oscBase ch r oi oo) := by
  unfold State.oscBase
  extract_lets v1 v2
  have h1 : s.tuned ch r v1 := (s.tuned_wr rfl _ _ _ _ _).trans (State.tuned_wr _ rfl _ _ _ _ _)
  have h2 : v1.tuned ch r v2 := (v1.tuned_wr rfl _ _ _ _ _).trans (State.tuned_wr _ rfl _ _ _ _ _)
  clear_value v1 v2
  refine (h1.trans h2).trans (State.tuned_setChan rfl ?_ ?_)
  · rw [Chan.setRank_rankAt_self]
  · rw [Chan.setRank_rankAt_self]

theorem State.tuned_retain (s : State) (ch r : Nat) : s.tuned ch r (s.retain ch) := by
  unfold State.retain
  split
  · exact s.tuned_refl ch r
  · exact State.tuned_setChan rfl rfl rfl

/-! ### The end of maintenance (R355 to R357) -/

/-- A failure of the PHY changes fields of its capture only. -/
theorem State.phyFail_only (s : State) (ch step rank cause b : Nat) : s.phyFail ch step rank cause b = { s with regs := (s.phyFail ch step rank cause b).regs } ∧
    ∀ f i j, f.ix ≠ R.PHY_FAIL_STEP.ix ∧ f.ix ≠ R.PHY_FAIL_RANK.ix ∧ f.ix ≠ R.PHY_FAIL_CAUSE.ix ∧ f.ix ≠ R.PHY_FAIL_BIT.ix ∧ f.ix ≠ R.PHY_FAIL_VALID.ix →
      (s.phyFail ch step rank cause b).rd f i j = s.rd f i j := by
  unfold State.phyFail
  split
  · exact ⟨rfl, fun _ _ _ _ => rfl⟩
  · refine ⟨rfl, fun f i j h => ?_⟩
    obtain ⟨h1, h2, h3, h4, h5⟩ := h
    rw [State.wr_rd_ne _ h5, State.wr_rd_ne _ h4, State.wr_rd_ne _ h3, State.wr_rd_ne _ h2, State.wr_rd_ne _ h1]

theorem State.longNarrow_congr {s t : State} {ch : Nat} (hrd : t.rd R.PHY_DRIFT_CFG_EYE_MIN_MARGIN ch = s.rd R.PHY_DRIFT_CFG_EYE_MIN_MARGIN ch)
    (hwidths : (t.chan ch).widths = (s.chan ch).widths) (r : Nat) (wins : List (Nat × Nat)) : t.longNarrow ch r wins = s.longNarrow ch r wins := by
  unfold State.longNarrow State.wide
  rw [hrd, hwidths]

/-- What the end of a long training leaves. -/
structure State.longOver (s : State) (ch r : Nat) (l : LongRes) (t : State) : Prop where
  other : ∀ d, d ≠ ch → t.chan d = s.chan d
  maint : (t.chan ch).maint = (s.chan ch).maint
  idle : ((t.chan ch).rankAt r).idleFrom = ((s.chan ch).rankAt r).idleFrom
  count : t.rd R.PHY_MAINT_CNT_LONG ch = satAdd 16 (s.rd R.PHY_MAINT_CNT_LONG ch) 1
  good : s.longNarrow ch r l.wins = none → ((t.chan ch).rankAt r).long = false
  bad : (s.longNarrow ch r l.wins).isSome = true → t.rd R.PHY_STATUS_TRAIN_FAIL ch = 1 ∧
    ((t.chan ch).rankAt r).long = ((s.chan ch).rankAt r).long ∧ (t.chan ch).trained = (s.chan ch).trained

/-- A long training is counted. -/
def State.longCounted (s : State) (ch : Nat) : State := (s.bump R.PHY_MAINT_CNT_LONG ch 0 1).count { ev := 0x115, ch := some ch }

theorem State.longCounted_narrow (s : State) (ch r : Nat) (wins : List (Nat × Nat)) : (s.longCounted ch).longNarrow ch r wins = s.longNarrow ch r wins :=
  State.longNarrow_congr (State.bump_rd_ne _ (by decide) _ _ _ _ _) rfl r wins

theorem longDone_none {s : State} {ch r : Nat} {l : LongRes} (h : s.longNarrow ch r l.wins = none) : s.longDone ch r l =
    (((((s.longCounted ch).setChan ch ((s.chan ch).setRank r { (s.chan ch).rankAt r with long := false, longAt := none })).longPlace ch r l).oscBase
      ch r l.oscI l.oscO).retain ch) := by
  have hn := (s.longCounted_narrow ch r l.wins).trans h
  unfold State.longDone
  dsimp only
  rw [← State.longCounted, hn]
  rfl

theorem longDone_some {s : State} {ch r : Nat} {l : LongRes} {e : Nat × Nat} (h : s.longNarrow ch r l.wins = some e) : s.longDone ch r l =
    (((((s.longCounted ch).setChan ch ((s.chan ch).setRank r { (s.chan ch).rankAt r with longAt := some s.cclk })).phyFail ch e.1 r 6 e.2).setBit
      R.PHY_STATUS_TRAIN_FAIL ch 0).raiseChan 11 ch) := by
  have hn := (s.longCounted_narrow ch r l.wins).trans h
  unfold State.longDone
  dsimp only
  rw [← State.longCounted, hn]
  rfl

theorem longDone_over (s : State) (ch r : Nat) (l : LongRes) : s.longOver ch r l (s.longDone ch r l) := by
  have hcount : (s.longCounted ch).rd R.PHY_MAINT_CNT_LONG ch = satAdd 16 (s.rd R.PHY_MAINT_CNT_LONG ch) 1 := satAdd_bump s _ _ _
  cases hn : s.longNarrow ch r l.wins with
  | none =>
    rw [longDone_none hn]
    generalize hv : (s.longCounted ch).setChan ch ((s.chan ch).setRank r { (s.chan ch).rankAt r with long := false, longAt := none }) = v
    have hother (d : Nat) (hd : d ≠ ch) : v.chan d = s.chan d := by
      rw [← hv]
      exact State.setChan_chan_ne _ hd _
    have hchan : v.chan ch = (s.chan ch).setRank r { (s.chan ch).rankAt r with long := false, longAt := none } := by
      rw [← hv]
      exact State.setChan_chan_self _ _ _
    have hrd : v.rd R.PHY_MAINT_CNT_LONG ch = satAdd 16 (s.rd R.PHY_MAINT_CNT_LONG ch) 1 := by
      rw [← hv]
      exact hcount
    clear hv
    have htuned := ((v.tuned_longPlace ch r l).trans (State.tuned_oscBase _ ch r l.oscI l.oscO)).trans (State.tuned_retain _ ch r)
    generalize ((v.longPlace ch r l).oscBase ch r l.oscI l.oscO).retain ch = t at *
    obtain ⟨hd, hmaint, hidle, hlong, hreads⟩ := htuned
    refine ⟨fun d hne => (hd d hne).trans (hother d hne), ?_, ?_, (hreads _ _ _ (by decide)).trans hrd, fun _ => ?_, by simp [hn]⟩
    · rw [hmaint, hchan]
      rfl
    · rw [hidle, hchan, Chan.setRank_rankAt_self]
    · rw [hlong, hchan, Chan.setRank_rankAt_self]
  | some e =>
    rw [longDone_some hn]
    generalize hv : (s.longCounted ch).setChan ch ((s.chan ch).setRank r { (s.chan ch).rankAt r with longAt := some s.cclk }) = v
    have hother (d : Nat) (hd : d ≠ ch) : v.chan d = s.chan d := by
      rw [← hv]
      exact State.setChan_chan_ne _ hd _
    have hchan : v.chan ch = (s.chan ch).setRank r { (s.chan ch).rankAt r with longAt := some s.cclk } := by
      rw [← hv]
      exact State.setChan_chan_self _ _ _
    have hrd : v.rd R.PHY_MAINT_CNT_LONG ch = satAdd 16 (s.rd R.PHY_MAINT_CNT_LONG ch) 1 := by
      rw [← hv]
      exact hcount
    clear hv
    obtain ⟨honly, hreads⟩ := v.phyFail_only ch e.1 r 6 e.2
    have hsame (d : Nat) : (v.phyFail ch e.1 r 6 e.2).chan d = v.chan d := by
      rw [honly]
      rfl
    generalize v.phyFail ch e.1 r 6 e.2 = u at *
    have ht (d : Nat) : ((u.setBit R.PHY_STATUS_TRAIN_FAIL ch 0).raiseChan 11 ch).chan d = v.chan d := hsame d
    refine ⟨fun d hne => (ht d).trans (hother d hne), ?_, ?_, ?_, by simp [hn], fun _ => ⟨State.setBit_rd_self _ _ _ _, ?_, ?_⟩⟩
    · rw [ht, hchan]
      rfl
    · rw [ht, hchan, Chan.setRank_rankAt_self]
    · refine (State.setBit_rd_ne _ (by decide) _ _ _ _).trans ((hreads _ _ _ (by decide)).trans hrd)
    · rw [ht, hchan, Chan.setRank_rankAt_self]
    · rw [ht, hchan]
      rfl

/-- What the end of a drift correction leaves. -/
structure State.driftOver (s : State) (ch r : Nat) (t : State) : Prop where
  other : ∀ d, d ≠ ch → t.chan d = s.chan d
  maint : (t.chan ch).maint = (s.chan ch).maint
  rank : ((t.chan ch).rankAt r).wrPend = 0 ∧ ((t.chan ch).rankAt r).rdOsc = 0 ∧ ((t.chan ch).rankAt r).rdPend = []
  count : t.rd R.PHY_DRIFT_APPLIED ch r = if ((s.chan ch).rankAt r).wrPend = 0 ∧ ((s.chan ch).rankAt r).rdOsc = 0 ∧
      (∀ e ∈ ((s.chan ch).rankAt r).rdPend, e.2 = 0) then s.rd R.PHY_DRIFT_APPLIED ch r else satAdd 16 (s.rd R.PHY_DRIFT_APPLIED ch r) 1

/-- A correction of a rank moves its delays, and is counted unless it moves none. -/
theorem State.applyDrift_only (s : State) (ch r : Nat) (w o : Int) (eye : Tab Int) :
    (∀ d, (s.applyDrift ch r w o eye).chan d = s.chan d) ∧ (s.applyDrift ch r w o eye).rd R.PHY_DRIFT_APPLIED ch r =
      if w = 0 ∧ o = 0 ∧ (∀ e ∈ eye, e.2 = 0) then s.rd R.PHY_DRIFT_APPLIED ch r else satAdd 16 (s.rd R.PHY_DRIFT_APPLIED ch r) 1 := by
  unfold State.applyDrift
  extract_lets v
  have hv : s.tuned ch r v ∧ v.chans = s.chans := by
    refine foldl_keeps (fun t : State => s.tuned ch r t ∧ t.chans = s.chans) _ (fun u b hu => ?_) _ s ⟨s.tuned_refl ch r, rfl⟩
    refine ⟨hu.1.trans ?_, hu.2⟩
    unfold State.moveDelay
    exact (u.tuned_wr rfl _ _ _ _ _).trans (State.tuned_wr _ rfl _ _ _ _ _)
  clear_value v
  obtain ⟨htuned, hchans⟩ := hv
  have hchan (d : Nat) : v.chan d = s.chan d := congrArg (Tab.get ({} : Chan) · d) hchans
  have hrd : v.rd R.PHY_DRIFT_APPLIED ch r = s.rd R.PHY_DRIFT_APPLIED ch r := htuned.reads _ _ _ (by decide)
  have hall : (eye.all fun e => e.2 == 0) = true ↔ ∀ e ∈ eye, e.2 = 0 := by simp
  simp only [hall]
  split
  · exact ⟨hchan, hrd⟩
  · refine ⟨hchan, (satAdd_bump v _ _ _).trans ?_⟩
    rw [hrd]
    rfl

theorem driftDone_over (s : State) (ch r : Nat) : s.driftOver ch r (s.driftDone ch r) := by
  unfold State.driftDone
  extract_lets x k v
  obtain ⟨hchan, hrd⟩ := v.applyDrift_only ch r k.wrPend k.rdOsc k.rdPend
  have hself : v.chan ch = x.setRank r { k with
      wrDone := k.wrDone + k.wrPend, rdDone := k.rdDone + k.rdOsc, wrPend := 0, rdOsc := 0, rdPend := [], driftAt := none } :=
    State.setChan_chan_self _ _ _
  refine ⟨fun d hd => (hchan d).trans (State.setChan_chan_ne s hd _), ?_, ?_, hrd⟩
  · rw [hchan, hself]
    rfl
  · rw [hchan, hself, Chan.setRank_rankAt_self]
    exact ⟨rfl, rfl, rfl⟩

/-- What the end of a ZQ calibration leaves. -/
theorem zqDone_over (s : State) (ch r : Nat) : (∀ d, d ≠ ch → (s.zqDone ch r).chan d = s.chan d) ∧
    (s.zqDone ch r).chan ch = (s.chan ch).setRank r { (s.chan ch).rankAt r with zq := false } ∧
    (s.zqDone ch r).rd R.PHY_MAINT_CNT_ZQ ch = satAdd 16 (s.rd R.PHY_MAINT_CNT_ZQ ch) 1 := by
  unfold State.zqDone
  exact ⟨fun d hd => State.setChan_chan_ne s hd _, State.setChan_chan_self _ _ _, satAdd_bump _ _ _ _⟩

/-- Operation `k` on rank `r` is no longer in progress; a rank that it held is idle from its end on. -/
def State.maintEnded (s : State) (ch k r : Nat) : State :=
  s.setChan ch (if k = 2 then { s.chan ch with maint := none } else ({ s.chan ch with maint := none } : Chan).touchRank (some r)
    (max ((s.chan ch).rankAt r).idleFrom ((s.chan ch).mFrom + s.maintCk ch k)))

theorem exec_maintenanceDone {s : State} {ch k r : Nat} {l : LongRes} (hmaint : (s.chan ch).maint = some (k, r))
    (hdone : k = 2 ∨ (s.chan ch).openBanks r = [] ∧ (k = 3 → (s.chan ch).mStep = 2)) : exec (.maintenanceDone ch l) s =
      if k = 1 then .next ((s.maintEnded ch k r).longDone ch r l)
      else if k = 2 then .next ((s.maintEnded ch k r).driftDone ch r) else .next ((s.maintEnded ch k r).zqDone ch r) := by
  change execMaintenanceDone ch l s = _
  unfold execMaintenanceDone
  dsimp only
  rw [hmaint]
  refine (if_neg ?_).trans rfl
  rintro ⟨h2, hopen⟩
  obtain ⟨hbanks, hstep⟩ := hdone.resolve_left h2
  rcases hopen with hopen | ⟨h3, hne⟩
  · rw [hbanks] at hopen
    exact absurd hopen (by decide)
  · exact hne (hstep h3)

theorem State.maintEnded_only (s : State) (ch k r : Nat) : (∀ d, d ≠ ch → (s.maintEnded ch k r).chan d = s.chan d) ∧
    ((s.maintEnded ch k r).chan ch).maint = none ∧ ((s.maintEnded ch k r).chan ch).trained = (s.chan ch).trained ∧
    ((s.maintEnded ch k r).chan ch).widths = (s.chan ch).widths ∧
    (k ≠ 2 → ((s.maintEnded ch k r).chan ch).rankAt r = { (s.chan ch).rankAt r with
      idleFrom := max ((s.chan ch).rankAt r).idleFrom ((s.chan ch).mFrom + s.maintCk ch k) }) ∧
    (k = 2 → ((s.maintEnded ch k r).chan ch).rankAt r = (s.chan ch).rankAt r) := by
  unfold State.maintEnded
  rw [State.setChan_chan_self]
  refine ⟨fun d hd => State.setChan_chan_ne s hd _, ?_⟩
  split
  · next h => exact ⟨rfl, rfl, rfl, fun hne => absurd h hne, fun _ => rfl⟩
  · next h => exact ⟨rfl, rfl, rfl, fun _ => Chan.setRank_rankAt_self _ _ _, fun he => absurd he h⟩

theorem maintenanceOver {s : State} {ch k r : Nat} {l : LongRes} (hmaint : (s.chan ch).maint = some (k, r))
    (hdone : k = 2 ∨ (s.chan ch).openBanks r = [] ∧ (k = 3 → (s.chan ch).mStep = 2)) : Runs (.maintenanceDone ch l) s fun t =>
      (t.chan ch).maint = none ∧ (∀ d, d ≠ ch → t.chan d = s.chan d) ∧
      (k = 3 → ((t.chan ch).rankAt r).zq = false ∧ t.rd R.PHY_MAINT_CNT_ZQ ch = satAdd 16 (s.rd R.PHY_MAINT_CNT_ZQ ch) 1) ∧
      (k ≠ 2 → ((t.chan ch).rankAt r).idleFrom = max ((s.chan ch).rankAt r).idleFrom ((s.chan ch).mFrom + s.maintCk ch k)) ∧
      (k = 2 → ((t.chan ch).rankAt r).wrPend = 0 ∧ ((t.chan ch).rankAt r).rdOsc = 0 ∧ ((t.chan ch).rankAt r).rdPend = [] ∧
        t.rd R.PHY_DRIFT_APPLIED ch r = if ((s.chan ch).rankAt r).wrPend = 0 ∧ ((s.chan ch).rankAt r).rdOsc = 0 ∧
          (∀ e ∈ ((s.chan ch).rankAt r).rdPend, e.2 = 0) then s.rd R.PHY_DRIFT_APPLIED ch r else satAdd 16 (s.rd R.PHY_DRIFT_APPLIED ch r) 1) ∧
      (k = 1 → t.rd R.PHY_MAINT_CNT_LONG ch = satAdd 16 (s.rd R.PHY_MAINT_CNT_LONG ch) 1 ∧
        (s.longNarrow ch r l.wins = none → ((t.chan ch).rankAt r).long = false) ∧
        ((s.longNarrow ch r l.wins).isSome = true → t.rd R.PHY_STATUS_TRAIN_FAIL ch = 1 ∧
          ((t.chan ch).rankAt r).long = ((s.chan ch).rankAt r).long ∧ (t.chan ch).trained = (s.chan ch).trained)) := by
  have hexec := exec_maintenanceDone (l := l) hmaint hdone
  obtain ⟨hother, hnone, htrained, hwidths, hidle, hrank⟩ := s.maintEnded_only ch k r
  have hrd (f : Fld) (i j : Nat) : (s.maintEnded ch k r).rd f i j = s.rd f i j := rfl
  generalize s.maintEnded ch k r = v at *
  by_cases h1 : k = 1
  · rw [if_pos h1] at hexec
    obtain ⟨hd, hm, hi, hcount, hgood, hbad⟩ := longDone_over v ch r l
    have hnarrow : v.longNarrow ch r l.wins = s.longNarrow ch r l.wins := State.longNarrow_congr (hrd _ _ _) hwidths r l.wins
    rw [hnarrow] at hgood hbad
    rw [hidle (by omega)] at hi hbad
    rw [htrained] at hbad
    rw [hrd] at hcount
    exact ⟨_, hexec, hm.trans hnone, fun d hne => (hd d hne).trans (hother d hne), by omega, fun _ => hi, by omega, fun _ => ⟨hcount, hgood, hbad⟩⟩
  · by_cases h2 : k = 2
    · rw [if_neg h1, if_pos h2] at hexec
      obtain ⟨hd, hm, ⟨hw, ho, hp⟩, hcount⟩ := driftDone_over v ch r
      rw [hrank h2, hrd] at hcount
      exact ⟨_, hexec, hm.trans hnone, fun d hne => (hd d hne).trans (hother d hne), by omega, fun h => absurd h2 h, fun _ => ⟨hw, ho, hp, hcount⟩,
        fun h => absurd h h1⟩
    · rw [if_neg h1, if_neg h2] at hexec
      obtain ⟨hd, hself, hcount⟩ := zqDone_over v ch r
      rw [hrd] at hcount
      refine ⟨_, hexec, ?_, fun d hne => (hd d hne).trans (hother d hne), fun _ => ⟨?_, hcount⟩, fun _ => ?_, fun h => absurd h h2, fun h => absurd h h1⟩
      · rw [hself]
        exact hnone
      · rw [hself, Chan.setRank_rankAt_self]
      · rw [hself, Chan.setRank_rankAt_self, hidle h2]

end Sys2Proof.Machine

open Sys2Proof Sys2Proof.Machine

/-- Settles O51: by the rules above for what falls due, an eye sweep and the end of an operation. -/
theorem maintenance : Obligations.Maintenance := by
  unfold Obligations.Maintenance
  intro s ch r
  refine ⟨fun hin hr => ⟨exec_mr4ReadDue hin hr, oscDue_ranks hin, exec_zqDue hin hr, exec_longTrainingDue hin hr, fun b left right => eyeSwept hin hr⟩,
    fun k l => maintenanceOver, maintStarved_raises, fun hst hrun => tempAlert_reads hst hrun ch r⟩

end

section
/-! The checker mode: what its entry leaves in the register table. -/

namespace Sys2Proof.Machine
open Sys2Proof

/-- The checker mode is permitted, and region 3 is GUARDED; no field has been written. -/
def permitted : State := { State.reset with conf := some { regions := [{ region := 3, prot := 2, size := 0x200000 }], permit := some 4 } }

/-- The field at the place of MODE with another reset value: it tells a field that was never written from one that holds 0. -/
def modeUnset : Fld := { R.INT_CHECKER_MODE with rst := 3 }

theorem permitted_modeUnset : permitted.rd modeUnset = 3 := by decide +kernel

theorem permitted_accepts : permitted.rd R.INT_CHECKER_MODE = 0 ∧ permitted.rd R.INT_CHECKER_BUSY = 0 ∧ bits (0x302#32).toNat 0 2 = 2 ∧
    (permitted.guardedRegions.any fun r => r.region == bits (0x302#32).toNat 8 6) = true ∧ permitted.permits 2 = true := by decide +kernel

/-- The checker mode of region `reg` is entered: MODE is 0 while the slices flush. -/
def State.checking (s : State) (mode reg : Nat) : State :=
  { ((s.wr R.INT_CHECKER_REGION 0 0 reg).wr R.INT_CHECKER_MODE 0 0 0).wr R.INT_CHECKER_BUSY 0 0 1 with
    integ := { s.integ with checkBusy := true, checkNext := mode } }

theorem State.invSlice_empty {s : State} {g : Nat} (h : ∀ e, (s.line g e).valid = false) (cover : LTag → Bool) (discard : Bool) :
    s.invSlice g cover discard = s := by
  unfold State.invSlice
  refine foldl_fixed fun e _ => ?_
  rw [h e, Bool.false_and]
  exact if_neg Bool.false_ne_true

/-- Slices that hold no line have nothing to flush. -/
theorem exec_checkerMode_enters {s : State} (hopen : s.portOpen) {w : Word} (hzero : s.rd R.INT_CHECKER_MODE = 0) (hidle : s.rd R.INT_CHECKER_BUSY = 0)
    (hmode : bits w.toNat 0 2 = 2) (hguarded : (s.guardedRegions.any fun r => r.region == bits w.toNat 8 6) = true) (hpermit : s.permits 2 = true)
    (hlines : ∀ g e, (s.line g e).valid = false) (tgt : Nat) :
    exec (.checkerMode w tgt) s = .next (s.checking (bits w.toNat 0 2) (bits w.toNat 8 6)).pump := by
  refine congrArg Host.Outcome.next ((State.regAccess_open hopen _ _ _ _).trans ?_)
  have hchange : s.changes w.toNat [⟨R.INT_CHECKER_MODE, 0, 0⟩, ⟨R.INT_CHECKER_REGION, 0, 0⟩] = true := by
    unfold State.changes
    refine List.any_eq_true.2 ⟨⟨R.INT_CHECKER_MODE, 0, 0⟩, List.mem_cons_self, ?_⟩
    have hne : (bits w.toNat 0 2 != s.rd R.INT_CHECKER_MODE) = true := by
      rw [hmode, hzero]
      rfl
    exact hne
  unfold State.writeChecker
  extract_lets mode reg stays s1 cover s2 s3 v
  rw [if_neg (by simp [hchange]), if_neg (by simp [mode, reg, hmode, hpermit, hidle, hguarded]), if_neg (by simp [mode, stays, hmode, hzero])]
  have hentered : v = s.checking (bits w.toNat 0 2) (bits w.toNat 8 6) := rfl
  have hempty (g e : Nat) : (v.line g e).valid = false := hlines g e
  clear_value v
  have hfold : (List.range v.G).foldl (fun (s : State) g => s.invSlice g cover false) v = v :=
    foldl_fixed fun g _ => State.invSlice_empty (hempty g) cover false
  rw [hfold, hentered]

/-- The entry into the checker mode writes 0 to MODE while the slices flush. -/
theorem permitted_checkerMode : ∃ t, exec (.checkerMode 0x302#32 0) permitted = .next t ∧ t.rd modeUnset = 0 := by
  obtain ⟨hzero, hidle, htwo, hguarded, hpermit⟩ := permitted_accepts
  refine ⟨_, exec_checkerMode_enters ⟨rfl, rfl⟩ hzero hidle htwo hguarded hpermit (fun _ _ => rfl) 0, ?_⟩
  have hlines := State.pump_idle (s := permitted.checking (bits (0x302#32).toNat 0 2) (bits (0x302#32).toNat 8 6)) rfl rfl fun _ => rfl
  rw [hlines.rd]
  decide +kernel

theorem modeUnset_unnamed : ∀ x ∈ ([⟨R.INT_CHECKER_REGION, 0, 0⟩, ⟨R.INT_CHECKER_BUSY, 0, 0⟩] : List Slot), x.f.key x.i x.j ≠ modeUnset.key 0 0 := by
  decide +kernel

end Sys2Proof.Machine

open Sys2Proof Sys2Proof.Machine

/-- Refutes O56: the entry into the checker mode writes 0 to MODE, which the list of written fields does not name. A MODE that was never written reads as
the reset value of the field record it is read by, one that was written reads as 0, so the two states differ at a record with another reset value. -/
theorem not_repairAndChecker : ¬ Obligations.RepairAndChecker := by
  unfold Obligations.RepairAndChecker
  intro h
  obtain ⟨-, -, -, -, hmode, -⟩ := h permitted 0x302#32 0 ⟨rfl, rfl⟩
  obtain ⟨hzero, hidle, htwo, hguarded, hpermit⟩ := permitted_accepts
  obtain ⟨t, hexec, -, -, -, -, -, hkept⟩ := (hmode hzero hidle (.inr htwo) hguarded).1 hpermit ⟨rfl, rfl, fun _ => rfl⟩ fun _ _ => rfl
  obtain ⟨u, hrun, hwritten⟩ := permitted_checkerMode
  have hsame : t = u := by
    rw [hexec] at hrun
    exact Host.Outcome.next.inj hrun
  have hread : t.rd modeUnset = 3 := (hkept modeUnset 0 0 modeUnset_unnamed).trans permitted_modeUnset
  rw [hsame, hwritten] at hread
  exact absurd hread (by decide)

end

section
/-! The registers that control a channel: HOLD, the PHY's sequences, self-refresh, retirement. -/

namespace Sys2Proof.Machine
open Sys2Proof

/-! ### Writes of PHY_CTL -/

/-- The actions of a write of PHY_CTL. -/
def phyActs (ch tgt : Nat) : List (Nat × Act) :=
  [(0, fun s => s.phyStart ch 1 tgt), (1, fun s => s.phyStart ch 2 tgt), (2, fun s => s.phyLongReq ch),
    (4, fun s => (s.wr R.PHY_FAIL_VALID ch 0 0, false))]

/-- A write of PHY_CTL is its actions on a state that differs in fields only. -/
theorem exec_writePhyCtl {s : State} (hopen : s.portOpen) {ch : Nat} (hch : ch < s.C) (w : Word) (tgt : Nat) :
    ∃ r n b, s.regAccess (chAddr ch 0x1000) w tgt (fun w s => s.writePhyCtl ch w tgt) =
      (runActs w.toNat (phyActs ch tgt) ({ s with regs := r, now := n }, b)).1.busyIf
        (runActs w.toNat (phyActs ch tgt) ({ s with regs := r, now := n }, b)).2 (chAddr ch 0x1000) tgt := by
  obtain ⟨r, n, heq⟩ := applySlots_eq s w.toNat [⟨R.PHY_CTL_AUTO_EVAC, ch, 0⟩, ⟨R.PHY_CTL_TRAIN_RETRY, ch, 0⟩]
  refine ⟨r, n, (applySlots s w.toNat [⟨R.PHY_CTL_AUTO_EVAC, ch, 0⟩, ⟨R.PHY_CTL_TRAIN_RETRY, ch, 0⟩]).2, ?_⟩
  rw [State.regAccess_open hopen, ← heq]
  exact if_neg (by omega)

/-- The REARM bit of PHY_CTL, last of its actions, changes fields only. -/
theorem runActs_rearm (w ch : Nat) (u : State) (c : Bool) :
    ∃ r, runActs w [(4, fun s => (s.wr R.PHY_FAIL_VALID ch 0 0, false))] (u, c) = ({ u with regs := r }, c) := by
  cases h : bit w 4
  · exact ⟨u.regs, runActs_skip h _ _ _⟩
  · refine ⟨(u.wr R.PHY_FAIL_VALID ch 0 0).regs, ?_⟩
    rw [runActs_take h, runActs_nil, Bool.or_false]
    rfl

/-- A write of PHY_CTL whose only action, but for REARM, is `act`. -/
theorem exec_phyAct {s : State} (hopen : s.portOpen) {ch : Nat} (hch : ch < s.C) (w : Word) (tgt : Nat) {act : Act}
    (hact : ∀ sb, runActs w.toNat (phyActs ch tgt) sb =
      runActs w.toNat [(4, fun s => (s.wr R.PHY_FAIL_VALID ch 0 0, false))] ((act sb.1).1, sb.2 || (act sb.1).2)) :
    ∃ r n, ∃ t : State, s.regAccess (chAddr ch 0x1000) w tgt (fun w s => s.writePhyCtl ch w tgt) = t ∧
      t.chans = (act { s with regs := r, now := n }).1.chans ∧ t.mem = (act { s with regs := r, now := n }).1.mem ∧
      ((act { s with regs := r, now := n }).2 = true → t.rd R.GLB_STATUS_CFG_BUSY = 1) := by
  obtain ⟨r, n, b, hwrite⟩ := exec_writePhyCtl hopen hch w tgt
  rw [hact] at hwrite
  obtain ⟨r', hrearm⟩ := runActs_rearm w.toNat ch (act { s with regs := r, now := n }).1 (b || (act { s with regs := r, now := n }).2)
  rw [hrearm] at hwrite
  refine ⟨r, n, _, hwrite, ?_, ?_, fun h => ?_⟩
  · rw [State.busyIf_eq]
  · rw [State.busyIf_eq]
  · rw [h, Bool.or_true]
    exact State.cfgBusy_bit _ _ _

theorem bit_of_bits_clear {w l k n : Nat} (h : bits w l k = 0) (hl : l ≤ n) (hn : n < l + k) : bit w n = false := by
  have hbit := bit_bits w l k (n - l)
  rw [h, decide_eq_true (show n - l < k by omega), Bool.true_and, Nat.add_sub_cancel' hl] at hbit
  rw [← hbit]
  simp [bit]

/-- COLD is the only action of the word. -/
theorem runActs_cold {w : Word} (hw : bits w.toNat 1 2 = 0) (ch tgt : Nat) (sb : State × Bool) :
    runActs (w ||| 1).toNat (phyActs ch tgt) sb = runActs (w ||| 1).toNat [(4, fun s => (s.wr R.PHY_FAIL_VALID ch 0 0, false))]
      ((sb.1.phyStart ch 1 tgt).1, sb.2 || (sb.1.phyStart ch 1 tgt).2) := by
  unfold phyActs
  rw [runActs_take (bit_or_self w 1 (by decide)), runActs_skip ((bit_or_other (by decide)).trans (bit_of_bits_clear hw (by omega) (by omega))),
    runActs_skip ((bit_or_other (by decide)).trans (bit_of_bits_clear hw (by omega) (by omega)))]

theorem runActs_warm {w : Word} (h0 : bits w.toNat 0 1 = 0) (h2 : bits w.toNat 2 1 = 0) (ch tgt : Nat) (sb : State × Bool) :
    runActs (w ||| 2).toNat (phyActs ch tgt) sb = runActs (w ||| 2).toNat [(4, fun s => (s.wr R.PHY_FAIL_VALID ch 0 0, false))]
      ((sb.1.phyStart ch 2 tgt).1, sb.2 || (sb.1.phyStart ch 2 tgt).2) := by
  unfold phyActs
  rw [runActs_skip ((bit_or_other (by decide)).trans (bit_of_bits_clear h0 (by omega) (by omega))), runActs_take (bit_or_self w 2 (by decide)),
    runActs_skip ((bit_or_other (by decide)).trans (bit_of_bits_clear h2 (by omega) (by omega)))]

theorem runActs_long {w : Word} (hw : bits w.toNat 0 2 = 0) (ch tgt : Nat) (sb : State × Bool) :
    runActs (w ||| 4).toNat (phyActs ch tgt) sb = runActs (w ||| 4).toNat [(4, fun s => (s.wr R.PHY_FAIL_VALID ch 0 0, false))]
      ((sb.1.phyLongReq ch).1, sb.2 || (sb.1.phyLongReq ch).2) := by
  unfold phyActs
  rw [runActs_skip ((bit_or_other (by decide)).trans (bit_of_bits_clear hw (by omega) (by omega))),
    runActs_skip ((bit_or_other (by decide)).trans (bit_of_bits_clear hw (by omega) (by omega))), runActs_take (bit_or_self w 4 (by decide))]

/-! ### Sequences that start (R343, R344) -/

theorem State.loadRank_mem (s : State) (ch : Nat) (vals : List Int) (r : Nat) : (s.loadRank ch vals r).mem = s.mem := by
  unfold State.loadRank
  extract_lets v s1 s2 x
  have h1 : s1.mem = s.mem := by
    refine foldl_keeps (fun t : State => t.mem = s.mem) _ (fun u b hu => ?_) _ s rfl
    rw [← hu]
    rfl
  clear_value s1
  rw [← h1]
  rfl

theorem State.loadTrained_mem (s : State) (ch : Nat) : (s.loadTrained ch).mem = s.mem :=
  foldl_keeps (fun t : State => t.mem = s.mem) _ (fun u r hu => (u.loadRank_mem _ _ r).trans hu) _ s rfl

theorem State.testInput_mem (s : State) : s.testInput.mem = s.mem := by
  unfold State.testInput
  split <;> rfl

theorem State.seqEnd_mem (s : State) (ch : Nat) : (s.seqEnd ch).mem = s.mem := by
  unfold State.seqEnd
  dsimp only
  split <;> rfl

/-- A sequence of kind `k` runs on the channel. -/
structure Chan.runs (x : Chan) (k : Nat) (tgt : Option Nat) : Prop where
  seq : x.seq = k
  svc : x.svc = k
  step : x.step = (seqSteps k).headD 0
  seqTgt : x.seqTgt = tgt
  retired : x.retired = false

/-- A cold Dawn begins, and what the channel held is lost. -/
theorem State.startSeq_runs_cold (s : State) (ch : Nat) (tgt : Option Nat) (full : Bool) : ((s.startSeq ch 1 tgt full).chan ch).runs 1 tgt ∧
    (s.startSeq ch 1 tgt full).mem = s.mem.filter fun c => c.1 / 2 ^ 34 != ch := by
  unfold State.startSeq
  extract_lets c k s1 s2 s3 s4 c1 c2
  have hk : k = 1 := if_neg (by simp)
  have h2 : s2.mem = s.mem := by
    refine (s1.seqEnd_mem ch).trans ?_
    simp only [s1]
    split
    · exact s.testInput_mem
    · rfl
  have h4 : s4.mem = s.mem.filter fun c => c.1 / 2 ^ 34 != ch := by
    have hs4 : s4 = s3 := if_neg (by omega)
    have hs3 : s3 = s2.loseContents ch := if_pos hk
    rw [hs4, hs3, ← h2]
    rfl
  rw [State.setChan_chan_self, hk]
  exact ⟨⟨rfl, rfl, rfl, rfl, rfl⟩, h4⟩

/-- A warm Dawn begins from the retained training state; the contents stay. -/
theorem State.startSeq_runs_warm {s : State} {ch : Nat} (hok : s.retainedOk ch = true) (hcold : (s.chan ch).wasCold = false) (tgt : Option Nat) (full : Bool) :
    ((s.startSeq ch 2 tgt full).chan ch).runs 2 tgt ∧ (s.startSeq ch 2 tgt full).mem = s.mem := by
  unfold State.startSeq
  extract_lets c k s1 s2 s3 s4 c1 c2
  have hk : k = 2 := if_neg (by simp [hok, c, hcold])
  have h2 : s2.mem = s.mem := by
    refine (s1.seqEnd_mem ch).trans ?_
    simp only [s1]
    split
    · exact s.testInput_mem
    · rfl
  have h4 : s4.mem = s.mem := by
    have hs4 : s4 = s3.loadTrained ch := if_pos (.inl hk)
    have hs3 : s3 = s2 := if_neg (by omega)
    rw [hs4, State.loadTrained_mem, hs3, h2]
  rw [State.setChan_chan_self, hk]
  exact ⟨⟨rfl, rfl, rfl, rfl, rfl⟩, h4⟩

/-- The contents of memory without those of channel `ch`. -/
theorem memAt_without {s t : State} {ch : Nat} (h : t.mem = s.mem.filter fun c => c.1 / 2 ^ 34 != ch) (k : Nat) :
    t.memAt k = if k / 2 ^ 34 = ch then none else s.memAt k := by
  unfold State.memAt
  rw [h]
  refine (Tab.find_filter (fun k => k / 2 ^ 34 != ch) s.mem k).trans ?_
  by_cases hk : k / 2 ^ 34 = ch
  · rw [if_pos hk, hk, if_neg (by simp)]
  · rw [if_neg hk, if_pos (by simpa using hk)]

/-! ### COLD, WARM and LONG (R343, R344, R347, R355) -/

/-- What COLD and WARM ask of a channel. -/
structure State.startable (s : State) (ch : Nat) : Prop where
  quiesced : s.phyQuiesced ch = true
  idle : s.seqRuns ch = false
  kept : (s.chan ch).retired = false
  present : s.chPresent ch = true

theorem phyStart_refused {s : State} {ch : Nat} (h : s.phyQuiesced ch = false) (kind tgt : Nat) : s.phyStart ch kind tgt = (s, true) := if_pos (.inl h)

theorem phyStart_waits {s : State} {ch : Nat} (h : s.startable ch) (hin : s.inService ch = true) (hpwr : (s.chan ch).pwr < 2)
    (hok : s.retainedOk ch = true) (hcold : (s.chan ch).wasCold = false) (tgt : Nat) :
    s.phyStart ch 2 tgt = (s.setChan ch { s.chan ch with warm := some tgt }, false) := by
  obtain ⟨hq, hidle, hkept, hpres⟩ := h
  unfold State.phyStart
  rw [if_neg (by simp [hq, hidle, hkept]), if_neg (by simp [hpres])]
  exact if_pos ⟨rfl, hin, hpwr, hok, hcold⟩

/-- The sequence begins at once: the channel of `startSeq`, but for two marks. -/
theorem phyStart_starts {s : State} {ch kind : Nat} (h : s.startable ch) (hnow : kind ≠ 2 ∨ s.inService ch = false ∨ 2 ≤ (s.chan ch).pwr) (tgt : Nat) :
    ∃ b, (s.phyStart ch kind tgt).1.chans =
      Tab.insert ch { (s.startSeq ch kind (some tgt) false).chan ch with reinst := b, srReq := (s.chan ch).srReq } (s.startSeq ch kind (some tgt) false).chans ∧
      (s.phyStart ch kind tgt).1.mem = (s.startSeq ch kind (some tgt) false).mem := by
  obtain ⟨hq, hidle, hkept, hpres⟩ := h
  have hno : ¬(kind = 2 ∧ s.inService ch = true ∧ (s.chan ch).pwr < 2 ∧ s.retainedOk ch = true ∧ (s.chan ch).wasCold = false) := by
    rintro ⟨h2, hin, hpwr, -⟩
    rcases hnow with h | h | h
    · exact h h2
    · exact Bool.false_ne_true (h.symm.trans hin)
    · omega
  unfold State.phyStart
  rw [if_neg (by simp [hq, hidle, hkept]), if_neg (by simp [hpres])]
  dsimp only
  rw [if_neg hno]
  exact ⟨_, State.testInput_chans _, State.testInput_mem _⟩

theorem phyCold_starts {s : State} {ch : Nat} {w : Word} (hopen : s.portOpen) (hch : ch < s.C) (h : s.startable ch) (hw : bits w.toNat 1 2 = 0) (tgt : Nat) :
    Runs (.phyCold ch w tgt) s fun t => (t.chan ch).seq = 1 ∧ (t.chan ch).svc = 1 ∧ (t.chan ch).step = 1 ∧ (t.chan ch).seqTgt = some tgt ∧
      ∀ k, t.memAt k = if k / 2 ^ 34 = ch then none else s.memAt k := by
  obtain ⟨r, n, t, hwrite, hchans, hmem, -⟩ := exec_phyAct hopen hch (w ||| 1) tgt (act := fun s => s.phyStart ch 1 tgt) (runActs_cold hw ch tgt)
  have hv : ({ s with regs := r, now := n } : State).startable ch := ⟨h.quiesced, h.idle, h.kept, h.present⟩
  have hvmem : ({ s with regs := r, now := n } : State).mem = s.mem := rfl
  generalize ({ s with regs := r, now := n } : State) = v at *
  obtain ⟨b, hstart, hstartMem⟩ := phyStart_starts hv (kind := 1) (.inl (by decide)) tgt
  obtain ⟨hruns, hlost⟩ := v.startSeq_runs_cold ch (some tgt) false
  have hchan : t.chan ch = { (v.startSeq ch 1 (some tgt) false).chan ch with reinst := b, srReq := (v.chan ch).srReq } := by
    unfold State.chan
    rw [hchans, hstart]
    exact Tab.get_insert_self _ _ _ _
  refine ⟨t, congrArg _ hwrite, ?_⟩
  dsimp only
  rw [hchan]
  exact ⟨hruns.seq, hruns.svc, hruns.step, hruns.seqTgt, memAt_without (hmem.trans (hstartMem.trans (hlost.trans (by rw [hvmem]))))⟩

theorem phyWarm_starts {s : State} {ch : Nat} {w : Word} (hopen : s.portOpen) (hch : ch < s.C) (h : s.startable ch) (h0 : bits w.toNat 0 1 = 0)
    (h2 : bits w.toNat 2 1 = 0) (hok : s.retainedOk ch = true) (hcold : (s.chan ch).wasCold = false)
    (hnow : s.inService ch = false ∨ 2 ≤ (s.chan ch).pwr) (tgt : Nat) :
    Runs (.phyWarm ch w tgt) s fun t => (t.chan ch).seq = 2 ∧ (t.chan ch).svc = 2 ∧ (t.chan ch).step = 4 ∧ t.mem = s.mem := by
  obtain ⟨r, n, t, hwrite, hchans, hmem, -⟩ := exec_phyAct hopen hch (w ||| 2) tgt (act := fun s => s.phyStart ch 2 tgt) (runActs_warm h0 h2 ch tgt)
  have hv : ({ s with regs := r, now := n } : State).startable ch := ⟨h.quiesced, h.idle, h.kept, h.present⟩
  have hvok : ({ s with regs := r, now := n } : State).retainedOk ch = true := hok
  have hvcold : (({ s with regs := r, now := n } : State).chan ch).wasCold = false := hcold
  have hvnow : ({ s with regs := r, now := n } : State).inService ch = false ∨ 2 ≤ (({ s with regs := r, now := n } : State).chan ch).pwr := hnow
  have hvmem : ({ s with regs := r, now := n } : State).mem = s.mem := rfl
  generalize ({ s with regs := r, now := n } : State) = v at *
  obtain ⟨b, hstart, hstartMem⟩ := phyStart_starts hv (kind := 2) (.inr hvnow) tgt
  obtain ⟨hruns, hkeep⟩ := State.startSeq_runs_warm hvok hvcold (some tgt) false
  have hchan : t.chan ch = { (v.startSeq ch 2 (some tgt) false).chan ch with reinst := b, srReq := (v.chan ch).srReq } := by
    unfold State.chan
    rw [hchans, hstart]
    exact Tab.get_insert_self _ _ _ _
  refine ⟨t, congrArg _ hwrite, ?_⟩
  dsimp only
  rw [hchan]
  exact ⟨hruns.seq, hruns.svc, hruns.step, hmem.trans (hstartMem.trans (hkeep.trans hvmem))⟩

theorem phyWarm_waits {s : State} {ch : Nat} {w : Word} (hopen : s.portOpen) (hch : ch < s.C) (h : s.startable ch) (h0 : bits w.toNat 0 1 = 0)
    (h2 : bits w.toNat 2 1 = 0) (hok : s.retainedOk ch = true) (hcold : (s.chan ch).wasCold = false)
    (hin : s.inService ch = true) (hpwr : (s.chan ch).pwr < 2) (tgt : Nat) :
    Runs (.phyWarm ch w tgt) s fun t =>
      t.chan ch = { s.chan ch with warm := some tgt } ∧ (∀ d, d ≠ ch → t.chan d = s.chan d) ∧ t.mem = s.mem := by
  obtain ⟨r, n, t, hwrite, hchans, hmem, -⟩ := exec_phyAct hopen hch (w ||| 2) tgt (act := fun s => s.phyStart ch 2 tgt) (runActs_warm h0 h2 ch tgt)
  have hwait := phyStart_waits (s := { s with regs := r, now := n }) ⟨h.quiesced, h.idle, h.kept, h.present⟩ hin hpwr hok hcold tgt
  rw [hwait] at hchans hmem
  have hchan (d : Nat) : t.chan d = (s.setChan ch { s.chan ch with warm := some tgt }).chan d := congrArg (Tab.get ({} : Chan) · d) hchans
  exact ⟨t, congrArg _ hwrite, (hchan ch).trans (State.setChan_chan_self _ _ _), fun d hd => (hchan d).trans (State.setChan_chan_ne s hd _), hmem⟩

theorem phyCold_refused {s : State} {ch : Nat} {w : Word} (hopen : s.portOpen) (hch : ch < s.C) (h : s.phyQuiesced ch = false)
    (hw : bits w.toNat 1 2 = 0) (tgt : Nat) : Runs (.phyCold ch w tgt) s fun t => t.chans = s.chans ∧ t.mem = s.mem ∧ t.rd R.GLB_STATUS_CFG_BUSY = 1 := by
  obtain ⟨r, n, t, hwrite, hchans, hmem, hbusy⟩ := exec_phyAct hopen hch (w ||| 1) tgt (act := fun s => s.phyStart ch 1 tgt) (runActs_cold hw ch tgt)
  have hrefuse := phyStart_refused (s := { s with regs := r, now := n }) h 1 tgt
  rw [hrefuse] at hchans hmem hbusy
  exact ⟨t, congrArg _ hwrite, hchans, hmem, hbusy rfl⟩

theorem phyLong_asks {s : State} {ch : Nat} {w : Word} (hopen : s.portOpen) (hch : ch < s.C) (hw : bits w.toNat 0 2 = 0) (tgt : Nat) :
    Runs (.phyLong ch w tgt) s fun t =>
      (∀ r, r < s.ranksOf ch → ((t.chan ch).rankAt r).long = true) ∧ (∀ d, d ≠ ch → t.chan d = s.chan d) := by
  obtain ⟨r, n, t, hwrite, hchans, -, -⟩ := exec_phyAct hopen hch (w ||| 4) tgt (act := fun s => s.phyLongReq ch) (runActs_long hw ch tgt)
  have hchan (d : Nat) : t.chan d = (s.setChan ch ((List.range (s.ranksOf ch)).foldl
      (fun (x : Chan) r => x.setRank r { x.rankAt r with long := true }) (s.chan ch))).chan d := congrArg (Tab.get ({} : Chan) · d) hchans
  refine ⟨t, congrArg _ hwrite, fun q hq => ?_, fun d hd => (hchan d).trans (State.setChan_chan_ne s hd _)⟩
  rw [hchan, State.setChan_chan_self, Chan.foldl_setRank (fun k => { k with long := true }), if_pos hq]

/-! ### HOLD (R334) -/

theorem unquiesce_ne (s : State) {ch d : Nat} (h : d ≠ ch) : (s.unquiesce ch).chan d = s.chan d := by
  unfold State.unquiesce
  dsimp only
  split
  · rfl
  · exact State.setChan_chan_ne s h _

theorem unquiesce_rd (s : State) (ch : Nat) (f : Fld) (i j : Nat) : (s.unquiesce ch).rd f i j = s.rd f i j := by
  unfold State.unquiesce
  dsimp only
  split <;> rfl

/-- What stops a channel. -/
def State.stops (s : State) (ch : Nat) : Prop :=
  s.rd R.CH_CTL_HOLD ch = 1 ∨ (s.chan ch).imgStop = true ∨ (s.chan ch).pprHold = true ∨ (s.chan ch).srReq = true

theorem unquiesce_stopped {s : State} {ch : Nat} (h : s.stops ch) : s.unquiesce ch = s := if_pos h

theorem unquiesce_free {s : State} {ch : Nat} (h : ¬s.stops ch) : s.unquiesce ch = s.setChan ch { s.chan ch with quiesced := false } := if_neg h

theorem foldl_applySlot_rd {xs : List Slot} {f : Fld} (h : ∀ x ∈ xs, x.f.ix ≠ f.ix) (s : State) (w : Nat) (sb : State × Bool) (i j : Nat) :
    (xs.foldl (applySlot s w) sb).1.rd f i j = sb.1.rd f i j := by
  induction xs generalizing sb with
  | nil => rfl
  | cons x xs ih =>
    rw [List.foldl_cons, ih fun y hy => h y (List.mem_cons_of_mem x hy)]
    exact (applySlot_regsKept s w sb x).rd (by simpa using h x List.mem_cons_self) i j

/-- The field HOLD takes its bit of the word, and no channel changes. -/
theorem applySlots_chCtl {s : State} {ch : Nat} (hch : ch < s.C) (w : Nat) : (applySlots s w (chCtlSlots ch)).1.rd R.CH_CTL_HOLD ch = bits w 0 1 ∧
    ∃ r n, (applySlots s w (chCtlSlots ch)).1 = { s with regs := r, now := n } := by
  refine ⟨?_, applySlots_eq s w _⟩
  unfold applySlots chCtlSlots
  rw [List.foldl_cons, applySlot_now s w (s, false) ⟨R.CH_CTL_HOLD, ch, 0⟩ rfl rfl (decide_eq_true hch) rfl,
    foldl_applySlot_rd (by simp; decide), State.wr_rd_self]
  exact bits_mod w 0 1

/-- A write of CH_CTL: HOLD has its bit of the word, debts may have been cleared, and QUIESCED falls where nothing stops the channel. -/
theorem writeChCtl_spec {s : State} {ch : Nat} (hch : ch < s.C) (w tgt : Nat) : ∃ v : State, s.writeChCtl ch w tgt = v.unquiesce ch ∧
    v.rd R.CH_CTL_HOLD ch = bits w 0 1 ∧ (v.chan ch = s.chan ch ∨ v.chan ch = (s.chan ch).clearDebt) ∧ ∀ d, d ≠ ch → v.chan d = s.chan d := by
  obtain ⟨hhold, r, n, heq⟩ := applySlots_chCtl hch w
  have hwrite : s.writeReg (chCtlSlots ch) [] (chAddr ch 0) w tgt =
      (applySlots s w (chCtlSlots ch)).1.busyIf (applySlots s w (chCtlSlots ch)).2 (chAddr ch 0) tgt := rfl
  unfold State.writeChCtl
  rw [if_neg (by omega), hwrite]
  have hrd : ((applySlots s w (chCtlSlots ch)).1.busyIf (applySlots s w (chCtlSlots ch)).2 (chAddr ch 0) tgt).rd R.CH_CTL_HOLD ch = bits w 0 1 :=
    (State.busyIf_rd _ _ _ _ (by decide) _ _).trans hhold
  have hchan (d : Nat) : ((applySlots s w (chCtlSlots ch)).1.busyIf (applySlots s w (chCtlSlots ch)).2 (chAddr ch 0) tgt).chan d = s.chan d := by
    rw [State.busyIf_eq, heq]
    rfl
  generalize (applySlots s w (chCtlSlots ch)).1.busyIf (applySlots s w (chCtlSlots ch)).2 (chAddr ch 0) tgt = u at *
  extract_lets u0 u1 u2
  have h1 : u1.rd R.CH_CTL_HOLD ch = bits w 0 1 ∧ (u1.chan ch = s.chan ch ∨ u1.chan ch = (s.chan ch).clearDebt) ∧ ∀ d, d ≠ ch → u1.chan d = s.chan d := by
    simp only [u1]
    split
    · refine ⟨hrd, .inr ?_, fun d hd => (State.setChan_chan_ne u hd _).trans (hchan d)⟩
      rw [State.setChan_chan_self]
      exact congrArg Chan.clearDebt (hchan ch)
    · exact ⟨hrd, .inl (hchan ch), fun d _ => hchan d⟩
  have h2 : u2.chans = u1.chans ∧ u2.rd R.CH_CTL_HOLD ch = u1.rd R.CH_CTL_HOLD ch := by
    simp only [u2]
    split
    · unfold State.testInput
      split
      · exact ⟨rfl, rfl⟩
      · exact ⟨rfl, rfl⟩
    · exact ⟨rfl, rfl⟩
  obtain ⟨hhold1, hself, hother⟩ := h1
  obtain ⟨hchans, hhold2⟩ := h2
  have hsame (d : Nat) : u2.chan d = u1.chan d := congrArg (Tab.get ({} : Chan) · d) hchans
  refine ⟨u2, rfl, hhold2.trans hhold1, ?_, fun d hd => (hsame d).trans (hother d hd)⟩
  rw [hsame]
  exact hself

theorem channelHold_stops {s : State} {ch : Nat} (hopen : s.portOpen) (hch : ch < s.C) (w : Word) (tgt : Nat) : Runs (.channelHold ch w tgt) s fun t =>
    t.rd R.CH_CTL_HOLD ch = 1 ∧ (t.chan ch).quiesced = (s.chan ch).quiesced ∧ (t.chan ch).ctl = (s.chan ch).ctl ∧ ∀ d, d ≠ ch → t.chan d = s.chan d := by
  obtain ⟨v, hwrite, hhold, hself, hother⟩ := writeChCtl_spec hch (w ||| 1).toNat tgt
  have hone : bits (w ||| 1).toNat 0 1 = 1 := by
    rw [bits_one, bit_or_self w 1 (by decide)]
    rfl
  rw [hone] at hhold
  rw [unquiesce_stopped (.inl hhold)] at hwrite
  refine ⟨v, congrArg Host.Outcome.next ((State.regAccess_open hopen _ _ _ _).trans hwrite), hhold, ?_, ?_, hother⟩
  · exact hself.elim (congrArg Chan.quiesced) fun h => (congrArg Chan.quiesced h).trans rfl
  · exact hself.elim (congrArg Chan.ctl) fun h => (congrArg Chan.ctl h).trans rfl

theorem chHoldClear_frees {s : State} {ch : Nat} (hopen : s.portOpen) (hch : ch < s.C) (w : Word) (tgt : Nat) : Runs (.chHoldClear ch w tgt) s fun t =>
    t.rd R.CH_CTL_HOLD ch = 0 ∧
      ((s.chan ch).imgStop = false → (s.chan ch).pprHold = false → (s.chan ch).srReq = false → (t.chan ch).quiesced = false) ∧
      ∀ d, d ≠ ch → t.chan d = s.chan d := by
  obtain ⟨v, hwrite, hhold, hself, hother⟩ := writeChCtl_spec hch (w &&& 0xFFFFFFFE).toNat tgt
  have hzero : bits (w &&& 0xFFFFFFFE).toNat 0 1 = 0 := by
    rw [bits_one, BitVec.toNat_and, bit_and]
    have h : bit (0xFFFFFFFE : Word).toNat 0 = false := by decide
    rw [h, Bool.and_false]
    rfl
  rw [hzero] at hhold
  refine ⟨v.unquiesce ch, congrArg Host.Outcome.next ((State.regAccess_open hopen _ _ _ _).trans hwrite), (unquiesce_rd _ _ _ _ _).trans hhold,
    fun himg hppr hsr => ?_, fun d hd => (unquiesce_ne v hd).trans (hother d hd)⟩
  have hfree : ¬v.stops ch := by
    unfold State.stops
    rcases hself with h | h <;> rw [hhold, h] <;> simp [himg, hppr, hsr, Chan.clearDebt]
  rw [unquiesce_free hfree, State.setChan_chan_self]

theorem chQuiesced_rises {s : State} {ch : Nat} (hdrain : s.drainedCh ch = true) (hno : (s.chan ch).quiesced = false) (hpres : s.chPresent ch = true) :
    Runs (.chQuiesced ch) s fun t => t.chan ch = { s.chan ch with quiesced := true } ∧ bit (t.evt (9 + ch / 16)).pending (ch % 16) = true ∧
      t = { s with chans := t.chans, evts := t.evts } := by
  have hexec : exec (.chQuiesced ch) s = .next ((s.setChan ch { s.chan ch with quiesced := true }).raiseChan 9 ch) := by
    change execChQuiesced ch s = _
    exact if_neg (by simp [hdrain, hno, hpres])
  refine ⟨_, hexec, State.setChan_chan_self s ch _, ?_, rfl⟩
  refine (congrArg (bit · (ch % 16)) (State.raise_evt_pending _ _ _)).trans ?_
  rw [bit_or, bit_two_pow]
  simp

/-! ### Self-refresh, retirement (R394 to R396) -/

/-- The slots of CH_PWR. -/
def chPwrSlots (ch : Nat) : List Slot := [⟨R.CH_PWR_REQ, ch, 0⟩, ⟨R.CH_PWR_DSM_EXIT, ch, 0⟩]

/-- A write of a Quiet field with the value it holds changes nothing. -/
theorem applySlot_quiet_same (s0 : State) (w : Nat) (sb : State × Bool) (x : Slot) (hc : x.f.cls = .quiet)
    (hv : bits w x.f.lsb x.f.width = s0.rd x.f x.i x.j) : applySlot s0 w sb x = sb := by
  unfold applySlot
  simp [hc, hv]

/-- A write of a present Quiet field whose unit is quiet takes a value within its range. -/
theorem applySlot_quiet (s0 : State) (w : Nat) (sb : State × Bool) (x : Slot) (ha : x.f.acc = .rw) (hc : x.f.cls = .quiet)
    (hp : x.f.present s0.build x.i = true) (hv : bits w x.f.lsb x.f.width ≠ s0.rd x.f x.i x.j) (hq : s0.quietOk x.f x.i x.j = true)
    (hr : s0.rangeOk x.f x.i x.j (bits w x.f.lsb x.f.width) = true) :
    applySlot s0 w sb x = (sb.1.wr x.f x.i x.j (bits w x.f.lsb x.f.width), sb.2) := by
  unfold applySlot
  simp [ha, hc, hp, hv, hq, hr]

/-- REQ takes a value its field accepts from a quiesced channel. -/
theorem applySlots_chPwr_req {s : State} {ch : Nat} (hch : ch < s.C) (hq : (s.chan ch).quiesced = true) (himg : (s.chan ch).imgHold = false) {w : Nat}
    (hw : bits w 0 2 = 1) (hno : s.rd R.CH_PWR_REQ ch = 0) : (applySlots s w (chPwrSlots ch)).1.rd R.CH_PWR_REQ ch = 1 := by
  have hv : bits w R.CH_PWR_REQ.lsb R.CH_PWR_REQ.width = 1 := hw
  have hquiet : s.quietOk R.CH_PWR_REQ ch 0 = true := by
    have h : (s.chQuiesced ch && !(s.chan ch).imgHold) = true := by
      unfold State.chQuiesced
      rw [hq, himg]
      rfl
    exact h
  have hrange : s.rangeOk R.CH_PWR_REQ ch 0 (bits w R.CH_PWR_REQ.lsb R.CH_PWR_REQ.width) = true := by
    rw [hv]
    rfl
  unfold applySlots chPwrSlots
  rw [List.foldl_cons, foldl_applySlot_rd (by simp; decide),
    applySlot_quiet s w (s, false) ⟨R.CH_PWR_REQ, ch, 0⟩ rfl rfl (decide_eq_true hch) (by rw [hv, hno]; decide) hquiet hrange, State.wr_rd_self, hv]
  rfl

/-- REQ is written the value it holds: it keeps it. -/
theorem applySlots_chPwr_same {s : State} {ch : Nat} {w : Nat} (hw : bits w 0 2 = s.rd R.CH_PWR_REQ ch) :
    (applySlots s w (chPwrSlots ch)).1.rd R.CH_PWR_REQ ch = s.rd R.CH_PWR_REQ ch := by
  unfold applySlots chPwrSlots
  rw [List.foldl_cons, foldl_applySlot_rd (by simp; decide), applySlot_quiet_same s w (s, false) ⟨R.CH_PWR_REQ, ch, 0⟩ rfl hw]

/-- The actions of a write of CH_PWR. -/
def chPwrActs (ch : Nat) : List (Nat × Act) := [(16, fun s => s.retireGo ch), (17, fun s => s.reinstateGo ch)]

theorem writeChPwr_run {s : State} {ch : Nat} (hch : ch < s.C) (hst : s.power.st = 0) (w tgt : Nat) : s.writeChPwr ch w tgt =
    (runActs w (chPwrActs ch) ((applySlots s w (chPwrSlots ch)).1.reqChanged ch (s.rd R.CH_PWR_REQ ch), (applySlots s w (chPwrSlots ch)).2)).1.busyIf
      (runActs w (chPwrActs ch) ((applySlots s w (chPwrSlots ch)).1.reqChanged ch (s.rd R.CH_PWR_REQ ch), (applySlots s w (chPwrSlots ch)).2)).2
      (chAddr ch 0x3000) tgt := by
  unfold State.writeChPwr
  rw [if_neg (by omega), if_neg (by omega)]
  rfl

theorem reqChanged_same {s : State} {ch was : Nat} (h : s.rd R.CH_PWR_REQ ch = was) : s.reqChanged ch was = s := if_pos h

theorem chSelfRefresh_asked {s : State} {ch : Nat} {w : Word} (hopen : s.portOpen) (hch : ch < s.C) (hin : s.inService ch = true)
    (hno : s.rd R.CH_PWR_REQ ch = 0) (hq : (s.chan ch).quiesced = true) (himg : (s.chan ch).imgHold = false) (hreq : bits w.toNat 0 2 = 1)
    (hacts : bits w.toNat 16 2 = 0) (tgt : Nat) : Runs (.chSelfRefreshReq ch w tgt) s fun t =>
      t.rd R.CH_PWR_REQ ch = 1 ∧ (t.chan ch).pwr = (if 2 ≤ (s.chan ch).pwr then 2 else (s.chan ch).pwr) ∧ (t.chan ch).srReq = true ∧
        ∀ d, d ≠ ch → t.chan d = s.chan d := by
  have hrd := applySlots_chPwr_req hch hq himg hreq hno
  obtain ⟨r, n, heq⟩ := applySlots_eq s w.toNat (chPwrSlots ch)
  have hwrite := writeChPwr_run hch hopen.2 w.toNat tgt
  unfold chPwrActs at hwrite
  rw [runActs_skip (bit_of_bits_clear hacts (by omega) (by omega)), runActs_skip (bit_of_bits_clear hacts (by omega) (by omega)), runActs_nil] at hwrite
  have hchan (d : Nat) : (applySlots s w.toNat (chPwrSlots ch)).1.chan d = s.chan d := by
    rw [heq]
    rfl
  generalize (applySlots s w.toNat (chPwrSlots ch)).1 = v at *
  have hvin : ¬ v.inService ch = false := by
    unfold State.inService at hin ⊢
    rw [hchan, hin]
    decide
  have hchanged : v.reqChanged ch (s.rd R.CH_PWR_REQ ch) =
      v.setChan ch { v.chan ch with pwr := if 2 ≤ (v.chan ch).pwr then 2 else (v.chan ch).pwr, srReq := true } := by
    unfold State.reqChanged
    dsimp only
    rw [hrd, hno, if_neg (by decide), if_neg hvin, if_neg (by decide)]
    rfl
  rw [hchanged] at hwrite
  refine ⟨_, congrArg Host.Outcome.next ((State.regAccess_open hopen _ _ _ _).trans hwrite), (State.busyIf_rd _ _ _ _ (by decide) _ _).trans hrd, ?_⟩
  dsimp only
  rw [State.busyIf_eq]
  refine ⟨?_, ?_, fun d hd => (State.setChan_chan_ne v hd _).trans (hchan d)⟩
  · refine (congrArg Chan.pwr (State.setChan_chan_self v ch _)).trans ?_
    rw [hchan]
  · exact congrArg Chan.srReq (State.setChan_chan_self v ch _)

/-- An event raised leaves what was pending. -/
theorem raise_pending_mono {s : State} {g m : Nat} (h : bit (s.evt g).pending m = true) (k n : Nat) : bit ((s.raise k n).evt g).pending m = true := by
  by_cases hg : g = k
  · subst hg
    rw [State.raise_evt_pending, bit_or, h, Bool.true_or]
  · rwa [State.raise_evt_ne s hg]

theorem busyIf_pending_mono {s : State} {g m : Nat} (h : bit (s.evt g).pending m = true) (b : Bool) (a tgt : Nat) :
    bit ((s.busyIf b a tgt).evt g).pending m = true := by
  cases b with
  | false => exact h
  | true =>
    have hraise : bit ((s.raise (24 + tgt % 8) 1).evt g).pending m = true := raise_pending_mono h _ _
    rw [State.busyIf_true]
    unfold State.cfgBusy
    dsimp only
    split
    · exact hraise
    · exact hraise

/-- A write of CH_PWR that leaves REQ as it is, and whose only action is `act`. -/
theorem exec_chPwrAct {s : State} {ch : Nat} {w : Word} (hopen : s.portOpen) (hch : ch < s.C) (hsame : bits w.toNat 0 2 = s.rd R.CH_PWR_REQ ch) (tgt : Nat)
    {act : Act} (hact : ∀ sb, runActs w.toNat (chPwrActs ch) sb = ((act sb.1).1, sb.2 || (act sb.1).2)) : ∃ r n b,
      s.regAccess (chAddr ch 0x3000) w tgt (fun w s => s.writeChPwr ch w tgt) =
        (act { s with regs := r, now := n }).1.busyIf b (chAddr ch 0x3000) tgt := by
  have hrd := applySlots_chPwr_same hsame
  obtain ⟨r, n, heq⟩ := applySlots_eq s w.toNat (chPwrSlots ch)
  have hwrite := writeChPwr_run hch hopen.2 w.toNat tgt
  rw [reqChanged_same hrd, hact, heq] at hwrite
  exact ⟨r, n, _, (State.regAccess_open hopen _ _ _ _).trans hwrite⟩

theorem retireGo_done {s : State} {ch : Nat} (hpres : s.chPresent ch = true) (hno : (s.chan ch).retired = false) (hempty : s.emptyCh ch = true)
    (hq : s.chQuiesced ch = true) : s.retireGo ch = (s.retire ch, false) :=
  if_neg (by simp [hpres, hno, hempty, hq])

theorem retire_spec (s : State) (ch : Nat) : ((s.retire ch).chan ch).retired = true ∧ ((s.retire ch).chan ch).pwr = 0 ∧
    (s.retire ch).rd R.CH_PWR_RETIRED ch = 1 ∧ bit ((s.retire ch).evt (15 + ch / 16)).pending (ch % 16) = true := by
  unfold State.retire
  extract_lets x v u
  have hu : u.chans = v.chans := by
    simp only [u]
    unfold State.endRetire
    split <;> rfl
  have hchan : u.chan ch = v.chan ch := congrArg (Tab.get ({} : Chan) · ch) hu
  have hself : v.chan ch = { x with
      retired := true, out := false, pwr := 0, srReq := false, autoEvac := false, seq := 0, step := 0, warm := none
      svc := if x.seq = 0 then x.svc else svcOut } := State.setChan_chan_self _ _ _
  clear_value u v
  have htest (t : State) : t.testInput.chan ch = t.chan ch := congrArg (Tab.get ({} : Chan) · ch) t.testInput_chans
  have hrest (t : State) : t.testInput.rd R.CH_PWR_RETIRED ch = t.rd R.CH_PWR_RETIRED ch ∧ t.testInput.evts = t.evts := by
    unfold State.testInput
    split
    · exact ⟨rfl, rfl⟩
    · exact ⟨rfl, rfl⟩
  have hraised : ((u.setBit R.CH_PWR_RETIRED ch 0).raiseChan 15 ch).chan ch = u.chan ch := rfl
  rw [htest, hraised, hchan, hself, (hrest _).1]
  refine ⟨rfl, rfl, State.setBit_rd_self _ _ _ _, ?_⟩
  refine (congrArg (fun e : Tab EvtGrp => bit (Tab.get ({} : EvtGrp) e (15 + ch / 16)).pending (ch % 16)) (hrest _).2).trans ?_
  refine (congrArg (bit · (ch % 16)) (State.raise_evt_pending _ _ _)).trans ?_
  rw [bit_or, bit_two_pow]
  simp

theorem chRetire_retires {s : State} {ch : Nat} {w : Word} (hopen : s.portOpen) (hch : ch < s.C) (hsame : bits w.toNat 0 2 = s.rd R.CH_PWR_REQ ch)
    (hpres : s.chPresent ch = true) (hno : (s.chan ch).retired = false) (hempty : s.emptyCh ch = true) (hq : s.chQuiesced ch = true)
    (hw : bits w.toNat 17 1 = 0) (tgt : Nat) : Runs (.chRetire ch w tgt) s fun t =>
      (t.chan ch).retired = true ∧ (t.chan ch).pwr = 0 ∧ t.rd R.CH_PWR_RETIRED ch = 1 ∧ bit (t.evt (15 + ch / 16)).pending (ch % 16) = true := by
  have hsame' : bits (w ||| 0x10000).toNat 0 2 = s.rd R.CH_PWR_REQ ch := (bits_or_of_clear w 0x10000 (by decide)).trans hsame
  obtain ⟨r, n, b, hwrite⟩ := exec_chPwrAct hopen hch hsame' tgt (act := fun s => s.retireGo ch) fun sb => by
    unfold chPwrActs
    rw [runActs_take (bit_or_self w 0x10000 (by decide)), runActs_skip ((bit_or_other (by decide)).trans (bit_of_bits_clear hw (by omega) (by omega))),
      runActs_nil]
  have hdone := retireGo_done (s := { s with regs := r, now := n }) hpres hno hempty hq
  rw [hdone] at hwrite
  obtain ⟨hret, hpwr, hrd, hevt⟩ := retire_spec { s with regs := r, now := n } ch
  refine ⟨_, congrArg Host.Outcome.next hwrite, ?_⟩
  generalize State.retire _ ch = u at *
  have hchan : (u.busyIf b (chAddr ch 0x3000) tgt).chan ch = u.chan ch := by
    rw [State.busyIf_eq]
    rfl
  dsimp only
  rw [hchan, State.busyIf_rd _ _ _ _ (by decide)]
  exact ⟨hret, hpwr, hrd, busyIf_pending_mono hevt _ _ _⟩

theorem chReinstate_starts {s : State} {ch : Nat} {w : Word} (hopen : s.portOpen) (hch : ch < s.C) (hsame : bits w.toNat 0 2 = s.rd R.CH_PWR_REQ ch)
    (hret : (s.chan ch).retired = true) (hw : bits w.toNat 16 1 = 0) (tgt : Nat) : Runs (.chReinstate ch w tgt) s fun t =>
      (t.chan ch).retired = false ∧ (t.chan ch).seq = 1 ∧ (t.chan ch).reinst = true := by
  have hsame' : bits (w ||| 0x20000).toNat 0 2 = s.rd R.CH_PWR_REQ ch := (bits_or_of_clear w 0x20000 (by decide)).trans hsame
  obtain ⟨r, n, b, hwrite⟩ := exec_chPwrAct hopen hch hsame' tgt (act := fun s => s.reinstateGo ch) fun sb => by
    unfold chPwrActs
    rw [runActs_skip ((bit_or_other (by decide)).trans (bit_of_bits_clear hw (by omega) (by omega))), runActs_take (bit_or_self w 0x20000 (by decide)),
      runActs_nil]
  have hv : (({ s with regs := r, now := n } : State).chan ch).retired = true := hret
  generalize ({ s with regs := r, now := n } : State) = v at *
  have hgo : (v.reinstateGo ch).1 = (v.startSeq ch 1 none false).setChan ch { (v.startSeq ch 1 none false).chan ch with reinst := true } := by
    unfold State.reinstateGo
    rw [if_neg (by simp [hv])]
  obtain ⟨hruns, -⟩ := v.startSeq_runs_cold ch none false
  rw [hgo] at hwrite
  refine ⟨_, congrArg Host.Outcome.next hwrite, ?_⟩
  have hchan : (((v.startSeq ch 1 none false).setChan ch { (v.startSeq ch 1 none false).chan ch with reinst := true }).busyIf b (chAddr ch 0x3000) tgt).chan ch =
      { (v.startSeq ch 1 none false).chan ch with reinst := true } := by
    rw [State.busyIf_eq]
    exact State.setChan_chan_self _ _ _
  dsimp only
  rw [hchan]
  exact ⟨hruns.retired, hruns.seq, rfl⟩

end Sys2Proof.Machine
end

section
/-! The steps of a Dawn sequence. -/

namespace Sys2Proof.Machine
open Sys2Proof

/-! ### ENTER completes (R341) -/

/-- `t` is `s` as far as the service of channel `ch` and its DAWN_DONE go. -/
structure State.sameEntry (s : State) (ch : Nat) (t : State) : Prop where
  svc : (t.chan ch).svc = (s.chan ch).svc
  seq : (t.chan ch).seq = (s.chan ch).seq
  rd : t.rd R.PHY_STATUS_DAWN_DONE ch = s.rd R.PHY_STATUS_DAWN_DONE ch

theorem State.sameEntry_refl (s : State) (ch : Nat) : s.sameEntry ch s := ⟨rfl, rfl, rfl⟩

theorem State.sameEntry.trans {s t u : State} {ch : Nat} (h : s.sameEntry ch t) (k : t.sameEntry ch u) : s.sameEntry ch u :=
  ⟨k.svc.trans h.svc, k.seq.trans h.seq, k.rd.trans h.rd⟩

theorem State.sameEntry.ite {s t u : State} {ch : Nat} (c : Prop) [Decidable c] (ht : s.sameEntry ch t) (hu : s.sameEntry ch u) :
    s.sameEntry ch (if c then t else u) := by
  split
  · exact ht
  · exact hu

theorem State.sameEntry_of_chans {s t : State} {ch : Nat} (hchans : t.chans = s.chans) (hrd : t.rd R.PHY_STATUS_DAWN_DONE ch = s.rd R.PHY_STATUS_DAWN_DONE ch) :
    s.sameEntry ch t := by
  have h : t.chan ch = s.chan ch := congrArg (Tab.get ({} : Chan) · ch) hchans
  exact ⟨by rw [h], by rw [h], hrd⟩

theorem State.sameEntry_setChan {s : State} {ch : Nat} {x : Chan} (hsvc : x.svc = (s.chan ch).svc) (hseq : x.seq = (s.chan ch).seq) :
    s.sameEntry ch (s.setChan ch x) := by
  refine ⟨?_, ?_, rfl⟩
  · rw [State.setChan_chan_self, hsvc]
  · rw [State.setChan_chan_self, hseq]

theorem State.engineRead.sameEntry {s t : State} (h : s.engineRead t) (ch : Nat) : s.sameEntry ch t := by
  have hframe := (h.chan ch).frame
  exact ⟨by rw [hframe], by rw [hframe], h.reads _ _ _ (by decide)⟩

theorem State.sameEntry_lostContents (s : State) (ch : Nat) : s.sameEntry ch (s.lostContents ch) := by
  unfold State.lostContents
  dsimp only
  split
  · exact ((s.engineRead_detect _).sameEntry ch).trans ((State.engineRead_detect _ _).sameEntry ch)
  · exact (s.engineRead_detect _).sameEntry ch

theorem State.sameEntry_retryDue (s : State) (ch : Nat) (f : PoolRec → Bool) : s.sameEntry ch (s.retryDue f) := by
  unfold State.retryDue
  split
  · exact s.sameEntry_refl ch
  · exact State.sameEntry_of_chans rfl rfl

theorem State.sameEntry_testInput (s : State) (ch : Nat) : s.sameEntry ch s.testInput :=
  .ite _ (s.sameEntry_refl ch) (State.sameEntry_of_chans rfl rfl)

theorem State.imgEnd_dawnDone (s : State) {e : ImgErr} (h : e.code = 0) (ch : Nat) :
    (s.imgEnd e).rd R.PHY_STATUS_DAWN_DONE ch = s.rd R.PHY_STATUS_DAWN_DONE ch := by
  unfold State.imgEnd
  dsimp only
  rw [if_pos h, State.raisePriv_count_rd, State.setBit_rd_ne _ (by decide), State.wr_rd_ne _ (by decide), State.wr_rd_ne _ (by decide),
    State.wr_rd_ne _ (by decide), State.wr_rd_ne _ (by decide), State.wr_rd_ne _ (by decide), State.wr_rd_ne _ (by decide), State.wr_rd_ne _ (by decide)]
  rfl

theorem State.sameEntry_resumeChanImage (s : State) (ch : Nat) : s.sameEntry ch (s.resumeChanImage ch) := by
  have h : s.sameEntry ch (s.setChan ch { s.chan ch with imgHold := false, imgStop := false }) := State.sameEntry_setChan rfl rfl
  unfold State.resumeChanImage
  refine .ite _ (h.trans ?_) (s.sameEntry_refl ch)
  obtain ⟨-, hchans, -⟩ := State.imgEnd_done_kept (s.setChan ch { s.chan ch with imgHold := false, imgStop := false }) (e := { code := 0 }) rfl
  exact State.sameEntry_of_chans hchans (State.imgEnd_dawnDone _ rfl ch)

theorem State.sameEntry_pprEnd (s : State) (ch : Nat) : s.sameEntry ch (s.pprEnd ch) := by
  unfold State.pprEnd
  refine .ite _ (s.sameEntry_refl ch) ?_
  extract_lets t k v u
  have hv : s.sameEntry ch v := State.sameEntry_of_chans rfl rfl
  have hu : v.sameEntry ch u := State.sameEntry_of_chans rfl (State.setBit_rd_ne _ (by decide) _ _ _ _)
  clear_value v u
  exact (hv.trans hu).trans (.ite _ (State.sameEntry_of_chans rfl (State.setBit_rd_ne _ (by decide) _ _ _ _)) (u.sameEntry_refl ch))

theorem State.sameEntry_unquiesce (s : State) (ch : Nat) : s.sameEntry ch (s.unquiesce ch) :=
  .ite _ (s.sameEntry_refl ch) (State.sameEntry_setChan rfl rfl)

theorem State.sameEntry_dawnPower (s : State) (ch : Nat) : s.sameEntry ch (s.dawnPower ch) :=
  .ite _ (State.sameEntry_of_chans rfl rfl) (State.sameEntry_of_chans rfl rfl)

theorem raiseSeq_done (s : State) (n ch : Nat) (tgt : Option Nat) : (s.raiseSeq R.PHY_STATUS_DAWN_DONE n ch tgt).chans = s.chans ∧
    (s.raiseSeq R.PHY_STATUS_DAWN_DONE n ch tgt).rd R.PHY_STATUS_DAWN_DONE ch = 1 := by
  unfold State.raiseSeq
  extract_lets u
  have hu : u.rd R.PHY_STATUS_DAWN_DONE ch = 1 := State.setBit_rd_self _ _ _ _
  have hchans : u.chans = s.chans := rfl
  clear_value u
  split
  · exact ⟨hchans, (State.wr_rd_ne _ (by decide) _ _ _ _ _).trans hu⟩
  · exact ⟨hchans, hu⟩

/-- A channel that completes ENTER is in service. -/
theorem enter_spec (s : State) (ch : Nat) :
    ((s.enter ch).chan ch).svc = 5 ∧ ((s.enter ch).chan ch).seq = 0 ∧ (s.enter ch).rd R.PHY_STATUS_DAWN_DONE ch = 1 := by
  unfold State.enter
  extract_lets x kind s1 y reserve lost y1 s2 s3 s4 s5 s6 k s7 s8
  have h2 : s2.chan ch = y1 := State.setChan_chan_self _ _ _
  obtain ⟨hchans, hdone⟩ := raiseSeq_done s2 4 ch x.seqTgt
  have h3 : s3.chan ch = y1 := (congrArg (Tab.get ({} : Chan) · ch) hchans).trans h2
  have hsvc : (s3.chan ch).svc = 5 := congrArg Chan.svc h3
  have hseq : (s3.chan ch).seq = 0 := congrArg Chan.seq h3
  have hd3 : s3.rd R.PHY_STATUS_DAWN_DONE ch = 1 := hdone
  clear_value s3
  have h4 : s3.sameEntry ch s4 :=
    .ite _ (State.sameEntry_of_chans rfl (State.setBit_rd_ne _ (by decide) _ _ _ _)) (s3.sameEntry_refl ch)
  have h5 : s4.sameEntry ch s5 := .ite _ (State.sameEntry_of_chans rfl rfl) (s4.sameEntry_refl ch)
  have h6 : s5.sameEntry ch s6 := .ite _ (s5.sameEntry_lostContents ch) (s5.sameEntry_refl ch)
  have h7 : s6.sameEntry ch s7 := .ite _ (State.sameEntry_of_chans rfl rfl) (s6.sameEntry_refl ch)
  have h8 : s7.sameEntry ch s8 := s7.sameEntry_retryDue ch _
  have hrest := ((((s8.sameEntry_testInput ch).trans (State.sameEntry_resumeChanImage _ ch)).trans (State.sameEntry_pprEnd _ ch)).trans
    (State.sameEntry_unquiesce _ ch)).trans (State.sameEntry_dawnPower _ ch)
  have hall := ((h4.trans h5).trans (h6.trans h7)).trans (h8.trans hrest)
  exact ⟨hall.svc.trans hsvc, hall.seq.trans hseq, hall.rd.trans hd3⟩

/-! ### Steps that pass or fail (R341, R342, R347) -/

/-- The step in progress on channel `ch` has taken `us` µs more. -/
def State.timed (s : State) (ch us : Nat) : State := s.setChan ch { s.chan ch with us := (s.chan ch).us + us }

theorem State.timed_chan (s : State) (ch us : Nat) : (s.timed ch us).chan ch = { s.chan ch with us := (s.chan ch).us + us } :=
  State.setChan_chan_self _ _ _

theorem exec_dawnStepDone_pass {s : State} {ch : Nat} (hseq : (s.chan ch).seq ≠ 0) (hstep : (s.chan ch).step ∉ [2, 6, 7, 8, 9, 12]) (us : Nat) :
    exec (.dawnStepDone ch us .pass) s = .next ((s.timed ch us).stepPassed ch) := by
  change execDawnStepDone ch us .pass s = _
  exact (if_neg hseq).trans (if_neg hstep)

theorem exec_dawnStepDone_failed {s : State} {ch : Nat} (hseq : (s.chan ch).seq ≠ 0) (hstep : (s.chan ch).step ∉ [2, 6, 8, 9, 12]) (us rank cause b : Nat) :
    exec (.dawnStepDone ch us (.failed rank cause b)) s = .next ((s.timed ch us).stepFailed ch rank cause b) := by
  change execDawnStepDone ch us (.failed rank cause b) s = _
  exact (if_neg hseq).trans (if_neg hstep)

theorem exec_dawnStepDone_trained {s : State} {ch : Nat} (hseq : (s.chan ch).seq ≠ 0) (hstep : (s.chan ch).step ∈ [6, 7, 8, 9]) (us : Nat)
    (wins : List (Nat × Nat)) (codes : List Nat) :
    exec (.dawnStepDone ch us (.trained wins codes)) s = .next ((s.timed ch us).trainedStep ch wins codes) := by
  change execDawnStepDone ch us (.trained wins codes) s = _
  exact (if_neg hseq).trans (if_pos hstep)

/-- A passed step leads to the next. -/
theorem stepPassed_next {s : State} {ch n : Nat} (hwait : s.chanImgWaits ch = false)
    (hnext : nextStep (seqSteps (s.chan ch).seq) (s.chan ch).step = some n) : s.stepPassed ch =
      (if (s.chan ch).step = 4 then s.freeChclk ch else s).setChan ch
        { (if (s.chan ch).step = 14 then (s.chan ch).clearDebt else s.chan ch) with step := n, tries := 0 } := by
  have hsame : nextStep (seqSteps (if (s.chan ch).step = 14 then (s.chan ch).clearDebt else s.chan ch).seq)
      (if (s.chan ch).step = 14 then (s.chan ch).clearDebt else s.chan ch).step = some n := by
    split
    · exact hnext
    · exact hnext
  unfold State.stepPassed
  rw [if_neg (by simp [hwait])]
  dsimp only
  rw [hsame]

/-- The last step leads to service. -/
theorem stepPassed_last {s : State} {ch : Nat} (hwait : s.chanImgWaits ch = false)
    (hnext : nextStep (seqSteps (s.chan ch).seq) (s.chan ch).step = none) : ∃ v : State, s.stepPassed ch = v.enter ch := by
  have hsame : nextStep (seqSteps (if (s.chan ch).step = 14 then (s.chan ch).clearDebt else s.chan ch).seq)
      (if (s.chan ch).step = 14 then (s.chan ch).clearDebt else s.chan ch).step = none := by
    split
    · exact hnext
    · exact hnext
  unfold State.stepPassed
  rw [if_neg (by simp [hwait])]
  dsimp only
  rw [hsame]
  exact ⟨_, rfl⟩

theorem stepFailed_again {s : State} {ch : Nat} (h2 : (s.chan ch).step ≠ 2) (htries : (s.chan ch).tries < s.rd R.PHY_CTL_TRAIN_RETRY ch)
    (hwait : s.chanImgWaits ch = false) (rank cause b : Nat) :
    s.stepFailed ch rank cause b = s.setChan ch { s.chan ch with tries := (s.chan ch).tries + 1 } := by
  unfold State.stepFailed
  dsimp only
  rw [if_pos ⟨h2, htries⟩, if_neg (by simp [hwait])]

theorem timed_chanImgWaits {s : State} {ch : Nat} (h : s.chanImgWaits ch = false) (us : Nat) : (s.timed ch us).chanImgWaits ch = false := by
  unfold State.chanImgWaits at h ⊢
  rw [State.timed_chan]
  exact h

/-! ### Windows found (R342) -/

/-- `t` is `s` after settings of channel `ch` changed: the course of its sequence is the same. -/
structure State.placed (s : State) (ch : Nat) (t : State) : Prop where
  frame : t = { s with chans := t.chans, regs := t.regs }
  other : ∀ d, d ≠ ch → t.chan d = s.chan d
  self : t.chan ch = { s.chan ch with trained := (t.chan ch).trained, widths := (t.chan ch).widths }

theorem State.placed_refl (s : State) (ch : Nat) : s.placed ch s := ⟨rfl, fun _ _ => rfl, rfl⟩

theorem State.placed.trans {s t u : State} {ch : Nat} (h : s.placed ch t) (k : t.placed ch u) : s.placed ch u :=
  ⟨by rw [k.frame, h.frame], fun d hd => (k.other d hd).trans (h.other d hd), by rw [k.self, h.self]⟩

theorem State.placed_foldl {α : Type} {ch : Nat} {f : State → α → State} (hf : ∀ u a, State.placed u ch (f u a)) (l : List α) (s : State) :
    s.placed ch (l.foldl f s) :=
  foldl_keeps (s.placed ch) f (fun u a h => h.trans (hf u a)) l s (s.placed_refl ch)

theorem State.placed_wr (s : State) (ch : Nat) (f : Fld) (i j v : Nat) : s.placed ch (s.wr f i j v) := ⟨rfl, fun _ _ => rfl, rfl⟩

theorem State.placed_setTrained (s : State) (ch r k v : Nat) : s.placed ch (s.setTrained ch r k v) := by
  refine ⟨rfl, fun d hd => State.setChan_chan_ne s hd _, ?_⟩
  unfold State.setTrained
  rw [State.setChan_chan_self]

theorem State.placed_setWidth (s : State) (ch r b w n : Nat) : s.placed ch (s.setWidth ch r b w n) := by
  refine ⟨rfl, fun d hd => State.setChan_chan_ne s hd _, ?_⟩
  unfold State.setWidth
  rw [State.setChan_chan_self]

/-- The setting that a step finds for a bit is placed. -/
def State.placeBit (s : State) (ch step : Nat) (wins : List (Nat × Nat)) (e : Nat × Nat) : State :=
  let w := winOf step wins e
  if step = 6 then s.setTrained ch e.1 e.2 (centre w)
  else if step = 8 then (s.wr R.PHY_EYE_RD_DELAY ch (e.1 * 32 + e.2) (centre w)).setWidth ch e.1 e.2 0 w.2
  else if step = 9 then (s.wr R.PHY_EYE_WR_DELAY ch (e.1 * 32 + e.2) (centre w)).setWidth ch e.1 e.2 32 w.2
  else s

/-- The codes that a step finds for a rank are in force. -/
def State.placeCodes (s : State) (ch step : Nat) (codes : List Nat) (r : Nat) : State :=
  if step = 6 then s.setTrained ch r 8 (codes.getD r 0)
  else
    let k := if step = 7 then 9 else if step = 8 then 11 else 13
    (s.setTrained ch r k (codes.getD (2 * r) 0)).setTrained ch r (k + 1) (codes.getD (2 * r + 1) 0)

theorem State.placeStep_eq (s : State) (ch step : Nat) (wins : List (Nat × Nat)) (codes : List Nat) : s.placeStep ch step wins codes =
    (List.range (((s.trainedBits ch step).foldl (fun s e => s.placeBit ch step wins e) s).ranksOf ch)).foldl (fun s r => s.placeCodes ch step codes r)
      ((s.trainedBits ch step).foldl (fun s e => s.placeBit ch step wins e) s) := rfl

theorem State.placed_placeBit (s : State) (ch step : Nat) (wins : List (Nat × Nat)) (e : Nat × Nat) : s.placed ch (s.placeBit ch step wins e) := by
  unfold State.placeBit
  dsimp only
  split
  · exact s.placed_setTrained _ _ _ _
  · split
    · exact (s.placed_wr ch _ _ _ _).trans (State.placed_setWidth _ _ _ _ _ _)
    · split
      · exact (s.placed_wr ch _ _ _ _).trans (State.placed_setWidth _ _ _ _ _ _)
      · exact s.placed_refl ch

theorem State.placed_placeCodes (s : State) (ch step : Nat) (codes : List Nat) (r : Nat) : s.placed ch (s.placeCodes ch step codes r) := by
  unfold State.placeCodes
  split
  · exact s.placed_setTrained _ _ _ _
  · exact (s.placed_setTrained _ _ _ _).trans (State.placed_setTrained _ _ _ _ _)

theorem State.placed_placeStep (s : State) (ch step : Nat) (wins : List (Nat × Nat)) (codes : List Nat) : s.placed ch (s.placeStep ch step wins codes) := by
  rw [State.placeStep_eq]
  exact (State.placed_foldl (fun u e => u.placed_placeBit ch step wins e) _ s).trans
    (State.placed_foldl (fun u r => u.placed_placeCodes ch step codes r) _ _)

/-- A write of a field leaves its other units alone. -/
theorem wr_rd_index (s : State) (f : Fld) {i j k : Nat} (hj : j < 1024) (hk : k < 1024) (hne : k ≠ j) (v : Nat) : (s.wr f i j v).rd f i k = s.rd f i k := by
  refine Tab.get_insert_ne (fun h => hne ?_) _ _ _
  unfold Fld.key at h
  omega

/-- Each entry of a list gives its own unit of a field its value: an entry of the list, or one that has its value already, has it in the end. -/
theorem foldl_wr_rd {f : Fld} {i : Nat} {k v : Nat × Nat → Nat} {g : State → Nat × Nat → State}
    (hg : ∀ (u : State) e j, (g u e).rd f i j = (u.wr f i (k e) (v e)).rd f i j) {l : List (Nat × Nat)} (hlt : ∀ e ∈ l, k e < 1024) {a : Nat × Nat}
    (ha : k a < 1024) (hinj : ∀ e ∈ l, k e = k a → e = a) (s : State) (h : a ∈ l ∨ s.rd f i (k a) = v a % 2 ^ f.width) :
    (l.foldl g s).rd f i (k a) = v a % 2 ^ f.width := by
  induction l generalizing s with
  | nil => exact h.resolve_left List.not_mem_nil
  | cons e l ih =>
    rw [List.foldl_cons]
    refine ih (fun x hx => hlt x (List.mem_cons_of_mem e hx)) (fun x hx => hinj x (List.mem_cons_of_mem e hx)) (g s e) ?_
    by_cases hae : a = e
    · refine .inr ((hg s e _).trans ?_)
      rw [hae, State.wr_rd_self]
    · rcases h with hmem | hrd
      · exact .inl ((List.mem_cons.1 hmem).resolve_left hae)
      · refine .inr (((hg s e _).trans ?_).trans hrd)
        exact wr_rd_index s f (hlt e List.mem_cons_self) ha (fun hk => hae (hinj e List.mem_cons_self hk.symm).symm) _

theorem mem_trainedBits {s : State} {ch step : Nat} (h6 : step ≠ 6) (e : Nat × Nat) : e ∈ s.trainedBits ch step ↔ e.1 < s.ranksOf ch ∧ e.2 < trainBits := by
  obtain ⟨r, b⟩ := e
  unfold State.trainedBits
  rw [if_neg h6]
  simp

/-- The delays that a training step has found are at the centres of their windows. -/
theorem State.placeStep_delay {s : State} {ch r b step : Nat} {f : Fld} (hstep : step = 8 ∧ f = R.PHY_EYE_RD_DELAY ∨ step = 9 ∧ f = R.PHY_EYE_WR_DELAY)
    (hranks : s.ranksOf ch ≤ 2) (hr : r < s.ranksOf ch) (hb : b < trainBits) (wins : List (Nat × Nat)) (codes : List Nat) :
    (s.placeStep ch step wins codes).rd f ch (r * 32 + b) = centre (winOf step wins (r, b)) % 2 ^ 8 := by
  have h6 : step ≠ 6 := by omega
  have hwidth : f.width = 8 := by
    rcases hstep with ⟨-, rfl⟩ | ⟨-, rfl⟩ <;> rfl
  have hcodes (l : List Nat) (u : State) (j : Nat) : (l.foldl (fun s r => s.placeCodes ch step codes r) u).rd f ch j = u.rd f ch j := by
    refine foldl_keeps (fun t : State => t.rd f ch j = u.rd f ch j) _ (fun v q hv => ?_) l u rfl
    unfold State.placeCodes
    rw [if_neg h6]
    exact hv
  have hbit (u : State) (e : Nat × Nat) (j : Nat) :
      (u.placeBit ch step wins e).rd f ch j = (u.wr f ch (e.1 * 32 + e.2) (centre (winOf step wins e))).rd f ch j := by
    unfold State.placeBit
    rcases hstep with ⟨rfl, rfl⟩ | ⟨rfl, rfl⟩
    · rfl
    · rfl
  have htrain : trainBits = 18 := rfl
  rw [State.placeStep_eq, hcodes, ← hwidth]
  refine foldl_wr_rd (k := fun e => e.1 * 32 + e.2) (v := fun e => centre (winOf step wins e)) (a := (r, b)) hbit (fun e he => ?_) ?_ (fun e he hk => ?_) s
    (.inl ((mem_trainedBits h6 _).2 ⟨hr, hb⟩))
  · obtain ⟨h1, h2⟩ := (mem_trainedBits h6 e).1 he
    omega
  · dsimp only
    omega
  · obtain ⟨h1, h2⟩ := (mem_trainedBits h6 e).1 he
    dsimp only at hk
    ext <;> dsimp only <;> omega

/-! ### The outcomes of a step -/

theorem trainedStep_narrow {s : State} {ch : Nat} {wins : List (Nat × Nat)} {e : Nat × Nat} (h : s.narrow ch (s.chan ch).step wins = some e) (codes : List Nat) :
    s.trainedStep ch wins codes = s.stepFailed ch e.1 2 e.2 := by
  unfold State.trainedStep
  dsimp only
  rw [h]

theorem trainedStep_wide {s : State} {ch : Nat} {wins : List (Nat × Nat)} (h : s.narrow ch (s.chan ch).step wins = none) (codes : List Nat) :
    s.trainedStep ch wins codes = (s.placeStep ch (s.chan ch).step wins codes).stepPassed ch := by
  unfold State.trainedStep
  dsimp only
  rw [h]

theorem dawnStep_next {s : State} {ch n : Nat} (hseq : (s.chan ch).seq ≠ 0) (hstep : (s.chan ch).step ∉ [2, 6, 7, 8, 9, 12])
    (hwait : s.chanImgWaits ch = false) (us : Nat) (hnext : nextStep (seqSteps (s.chan ch).seq) (s.chan ch).step = some n) :
    Runs (.dawnStepDone ch us .pass) s fun t =>
      t.chan ch = { (if (s.chan ch).step = 14 then (s.chan ch).clearDebt else s.chan ch) with us := (s.chan ch).us + us, step := n, tries := 0 } ∧
      (∀ d, d ≠ ch → t.chan d = s.chan d) ∧ ((s.chan ch).step ≠ 4 → t.power = s.power) ∧
      t = { s with chans := t.chans, power := { s.power with domains := t.power.domains } } := by
  have hchan := s.timed_chan ch us
  have hpass := stepPassed_next (s := s.timed ch us) (n := n) (timed_chanImgWaits hwait us) (by rw [hchan]; exact hnext)
  have hexec := exec_dawnStepDone_pass hseq hstep us
  rw [hpass, hchan] at hexec
  dsimp only at hexec
  have hother (d : Nat) (hd : d ≠ ch) : (s.timed ch us).chan d = s.chan d := State.setChan_chan_ne s hd _
  refine ⟨_, hexec, ?_, fun d hd => ?_, fun h4 => ?_, ?_⟩
  · rw [State.setChan_chan_self]
    split <;> rfl
  · rw [State.setChan_chan_ne _ hd, ← hother d hd]
    split <;> rfl
  · rw [if_neg h4]
    rfl
  · split <;> rfl

theorem dawnStep_enters {s : State} {ch : Nat} (hseq : (s.chan ch).seq ≠ 0) (hstep : (s.chan ch).step ∉ [2, 6, 7, 8, 9, 12])
    (hwait : s.chanImgWaits ch = false) (us : Nat) (hnext : nextStep (seqSteps (s.chan ch).seq) (s.chan ch).step = none) :
    Runs (.dawnStepDone ch us .pass) s fun t => (t.chan ch).svc = 5 ∧ (t.chan ch).seq = 0 ∧ t.rd R.PHY_STATUS_DAWN_DONE ch = 1 := by
  obtain ⟨v, hpass⟩ := stepPassed_last (s := s.timed ch us) (timed_chanImgWaits hwait us) (by rw [s.timed_chan]; exact hnext)
  have hexec := exec_dawnStepDone_pass hseq hstep us
  rw [hpass] at hexec
  exact ⟨_, hexec, enter_spec v ch⟩

/-- A step that fails is repeated while TRAIN_RETRY allows it. -/
theorem timed_stepFailed {s : State} {ch : Nat} (h2 : (s.chan ch).step ≠ 2) (hwait : s.chanImgWaits ch = false)
    (htries : (s.chan ch).tries < s.rd R.PHY_CTL_TRAIN_RETRY ch) (us rank cause b : Nat) :
    ((s.timed ch us).stepFailed ch rank cause b).chan ch = { s.chan ch with us := (s.chan ch).us + us, tries := (s.chan ch).tries + 1 } ∧
      (s.timed ch us).stepFailed ch rank cause b = { s with chans := ((s.timed ch us).stepFailed ch rank cause b).chans } := by
  have hchan := s.timed_chan ch us
  have hfail := stepFailed_again (s := s.timed ch us) (by rw [hchan]; exact h2) (by rw [hchan]; exact htries) (timed_chanImgWaits hwait us) rank cause b
  rw [hfail, hchan]
  exact ⟨State.setChan_chan_self _ _ _, rfl⟩

theorem dawnStep_repeats {s : State} {ch : Nat} (hseq : (s.chan ch).seq ≠ 0) (hstep : (s.chan ch).step ∉ [2, 6, 8, 9, 12])
    (hwait : s.chanImgWaits ch = false) (htries : (s.chan ch).tries < s.rd R.PHY_CTL_TRAIN_RETRY ch) (us rank cause b : Nat) :
    Runs (.dawnStepDone ch us (.failed rank cause b)) s fun t =>
      t.chan ch = { s.chan ch with us := (s.chan ch).us + us, tries := (s.chan ch).tries + 1 } ∧ t = { s with chans := t.chans } :=
  ⟨_, exec_dawnStepDone_failed hseq hstep us rank cause b, timed_stepFailed (fun h => hstep (by simp [h])) hwait htries us rank cause b⟩

theorem State.timed_narrow (s : State) (ch us : Nat) (wins : List (Nat × Nat)) :
    (s.timed ch us).narrow ch ((s.timed ch us).chan ch).step wins = s.narrow ch (s.chan ch).step wins := by
  rw [s.timed_chan]
  rfl

theorem dawnStep_narrow {s : State} {ch : Nat} (hseq : (s.chan ch).seq ≠ 0) (hstep : (s.chan ch).step ∈ [6, 7, 8, 9])
    (hwait : s.chanImgWaits ch = false) (us : Nat) {wins : List (Nat × Nat)} (codes : List Nat) (hnarrow : s.narrow ch (s.chan ch).step wins ≠ none)
    (htries : (s.chan ch).tries < s.rd R.PHY_CTL_TRAIN_RETRY ch) : Runs (.dawnStepDone ch us (.trained wins codes)) s fun t =>
      t.chan ch = { s.chan ch with us := (s.chan ch).us + us, tries := (s.chan ch).tries + 1 } ∧ t = { s with chans := t.chans } := by
  obtain ⟨e, he⟩ := Option.ne_none_iff_exists'.1 hnarrow
  have hexec := exec_dawnStepDone_trained hseq hstep us wins codes
  rw [trainedStep_narrow ((s.timed_narrow ch us wins).trans he)] at hexec
  exact ⟨_, hexec, timed_stepFailed (fun h => by simp [h] at hstep) hwait htries us _ _ _⟩

theorem dawnStep_wide {s : State} {ch n : Nat} (hseq : (s.chan ch).seq ≠ 0) (hstep : (s.chan ch).step ∈ [6, 7, 8, 9])
    (hwait : s.chanImgWaits ch = false) (hranks : s.ranksOf ch ≤ 2) (us : Nat) {wins : List (Nat × Nat)} (codes : List Nat)
    (hnarrow : s.narrow ch (s.chan ch).step wins = none) (hnext : nextStep (seqSteps (s.chan ch).seq) (s.chan ch).step = some n) :
    Runs (.dawnStepDone ch us (.trained wins codes)) s fun t =>
      (t.chan ch).step = n ∧ (t.chan ch).tries = 0 ∧ (t.chan ch).us = (s.chan ch).us + us ∧ (∀ d, d ≠ ch → t.chan d = s.chan d) ∧
      (∀ r b, r < s.ranksOf ch → b < trainBits →
        ((s.chan ch).step = 8 → t.rd R.PHY_EYE_RD_DELAY ch (r * 32 + b) = centre (winOf 8 wins (r, b)) % 2 ^ 8) ∧
        ((s.chan ch).step = 9 → t.rd R.PHY_EYE_WR_DELAY ch (r * 32 + b) = centre (winOf 9 wins (r, b)) % 2 ^ 8)) ∧
      t = { s with chans := t.chans, regs := t.regs } := by
  have h14 : (s.chan ch).step ≠ 14 ∧ (s.chan ch).step ≠ 4 := by
    simp only [List.mem_cons, List.not_mem_nil, or_false] at hstep
    omega
  have hexec := exec_dawnStepDone_trained hseq hstep us wins codes
  have htimed := s.timed_chan ch us
  rw [trainedStep_wide ((s.timed_narrow ch us wins).trans hnarrow)] at hexec
  have hstepT : ((s.timed ch us).chan ch).step = (s.chan ch).step := by rw [htimed]
  rw [hstepT] at hexec
  have hdelay (r b : Nat) (hr : r < s.ranksOf ch) (hb : b < trainBits) (f : Fld)
      (hf : (s.chan ch).step = 8 ∧ f = R.PHY_EYE_RD_DELAY ∨ (s.chan ch).step = 9 ∧ f = R.PHY_EYE_WR_DELAY) :=
    State.placeStep_delay (s := s.timed ch us) hf hranks hr hb wins codes
  obtain ⟨hframe, hother, hself⟩ := (s.timed ch us).placed_placeStep ch (s.chan ch).step wins codes
  have hothers (d : Nat) (hd : d ≠ ch) : (s.timed ch us).chan d = s.chan d := State.setChan_chan_ne s hd _
  rw [htimed] at hself
  have hbase : s.timed ch us = { s with chans := (s.timed ch us).chans } := rfl
  have hwaitT := timed_chanImgWaits hwait us
  have himg : ((s.timed ch us).chan ch).imgHold = (s.chan ch).imgHold := by rw [htimed]
  generalize s.timed ch us = v at *
  generalize v.placeStep ch (s.chan ch).step wins codes = p at *
  have hwaitP : p.chanImgWaits ch = false := by
    unfold State.chanImgWaits State.repairing at hwaitT ⊢
    rw [hself, hframe]
    rw [himg] at hwaitT
    exact hwaitT
  have hpass := stepPassed_next (s := p) (n := n) hwaitP (by rw [hself]; exact hnext)
  rw [hself, if_neg h14.1, if_neg h14.2] at hpass
  rw [hpass] at hexec
  refine ⟨_, hexec, ?_, ?_, ?_, fun d hd => ?_, fun r b hr hb => ⟨fun h8 => ?_, fun h9 => ?_⟩, ?_⟩
  · rw [State.setChan_chan_self]
  · rw [State.setChan_chan_self]
  · rw [State.setChan_chan_self]
  · rw [State.setChan_chan_ne _ hd, hother d hd, hothers d hd]
  · exact (hdelay r b hr hb _ (.inl ⟨h8, rfl⟩)).trans (by rw [h8])
  · exact (hdelay r b hr hb _ (.inr ⟨h9, rfl⟩)).trans (by rw [h9])
  · rw [hframe, hbase]
    rfl

end Sys2Proof.Machine

open Sys2Proof Sys2Proof.Machine

/-- Settles O52: by the rules above for the channel's registers and for the steps of its sequences. -/
theorem channelControl : Obligations.ChannelControl := by
  unfold Obligations.ChannelControl
  intro s ch w tgt hopen hch
  refine ⟨channelHold_stops hopen hch w tgt, chHoldClear_frees hopen hch w tgt, chQuiesced_rises, fun hq hidle hkept hpres => ⟨fun hw => ?_, fun h0 h2 hok hcold =>
    ⟨fun hnow => ?_, fun hin hpwr => ?_⟩⟩, fun hq hw => phyCold_refused hopen hch hq hw tgt, fun hw => phyLong_asks hopen hch hw tgt,
    fun hin hno hq himg hreq hacts => chSelfRefresh_asked hopen hch hin hno hq himg hreq hacts tgt,
    fun hsame => ⟨fun hpres hno hempty hq hw => chRetire_retires hopen hch hsame hpres hno hempty hq hw tgt,
      fun hret hw => chReinstate_starts hopen hch hsame hret hw tgt⟩,
    fun us hseq hstep hwait => ⟨fun n => dawnStep_next hseq hstep hwait us, dawnStep_enters hseq hstep hwait us⟩,
    fun us rank cause b hseq hstep hwait htries => dawnStep_repeats hseq hstep hwait htries us rank cause b,
    fun us wins codes hseq hstep hwait hranks => ⟨fun n => dawnStep_wide hseq hstep hwait hranks us codes, dawnStep_narrow hseq hstep hwait us codes⟩⟩
  · exact phyCold_starts hopen hch ⟨hq, hidle, hkept, hpres⟩ hw tgt
  · exact phyWarm_starts hopen hch ⟨hq, hidle, hkept, hpres⟩ h0 h2 hok hcold hnow tgt
  · exact phyWarm_waits hopen hch ⟨hq, hidle, hkept, hpres⟩ h0 h2 hok hcold hin hpwr tgt

end

section
/-! Moves of storage: how an evacuation or a migration begins, is cancelled and ends (R197, R202 to R206, R348). -/

namespace Sys2Proof.Machine
open Sys2Proof

/-! ### The ends of moves -/

/-- A raised event is pending. -/
theorem State.raise_evt_bit (s : State) (g n : Nat) : bit ((s.raise g n).evt g).pending n = true := by
  rw [State.raise_evt_pending, bit_or, bit_two_pow]
  simp

/-- What the end of an evacuation that retires nothing does: EVAC_DONE, and nothing of the channels or of the moves. -/
def State.evacOver (s t : State) : Prop :=
  t.rd R.SM_EVAC_STATUS_EVAC_DONE = 1 ∧ bit (t.evt 6).pending 9 = true ∧ t.chans = s.chans ∧
    t.sm.move = s.sm.move ∧ t.sm.parked = s.sm.parked ∧ t.sm.start = s.sm.start

theorem State.evacOver_moveEnd (s : State) {m : Move} (hk : m.kind = 1) (hr : m.retire = false ∨ m.cancel = true) : s.evacOver (s.moveEnd m) := by
  have hnot : ¬ (m.retire = true ∧ m.cancel = false) := by
    rintro ⟨hretire, hcancel⟩
    rcases hr with h | h
    · exact absurd (h.symm.trans hretire) (by decide)
    · exact absurd (h.symm.trans hcancel) (by decide)
  obtain ⟨due, hdue⟩ : ∃ due, (s.retryDue fun r => bit r.mask m.ch) = { s with sm := { s.sm with due := due } } := ⟨_, s.retryDue_only _⟩
  have hmove : s.moveEnd m = if ((({ s with sm := { s.sm with due := due } } : State).setBit R.SM_EVAC_STATUS_EVAC_DONE 0 0).raise 6 9).emptyCh m.ch = true
      then (({ s with sm := { s.sm with due := due } } : State).setBit R.SM_EVAC_STATUS_EVAC_DONE 0 0).raise 6 9
      else { (({ s with sm := { s.sm with due := due } } : State).setBit R.SM_EVAC_STATUS_EVAC_DONE 0 0).raise 6 9 with
        sm := { s.sm with due := due, partEvac := m.ch :: s.sm.partEvac.filter fun c => c != m.ch } } := by
    unfold State.moveEnd
    simp only [hk, hdue, if_true, if_neg hnot]
    rfl
  have hdone : (({ s with sm := { s.sm with due := due } } : State).setBit R.SM_EVAC_STATUS_EVAC_DONE 0 0).rd R.SM_EVAC_STATUS_EVAC_DONE = 1 :=
    (setBit_rd_self _ _ _ _).trans (by decide)
  have hraise : bit (((({ s with sm := { s.sm with due := due } } : State).setBit R.SM_EVAC_STATUS_EVAC_DONE 0 0).raise 6 9).evt 6).pending 9 = true :=
    State.raise_evt_bit _ _ _
  rw [hmove]
  split
  · exact ⟨hdone, hraise, rfl, rfl, rfl, rfl⟩
  · exact ⟨hdone, hraise, rfl, rfl, rfl, rfl⟩

/-- A migration that has nothing to move ends with MIGRATE_DONE and its event. -/
theorem State.moveEnd_migrate (s : State) {m : Move} (hk : m.kind = 2) :
    s.moveEnd m = (s.setBit R.SM_MIGRATE_STATUS_MIGRATE_DONE 0 0).raise 6 12 := by
  unfold State.moveEnd
  simp [hk]

/-- The end of a move other than re-placement lets the one it had parked go on. -/
theorem State.endMove_eq {s : State} (h : s.sm.move.kind ≠ 3) :
    s.endMove = ({ s with sm := { s.sm with move := s.sm.parked, parked := {} } } : State).moveEnd s.sm.move := by
  unfold State.endMove
  dsimp only
  rw [if_neg h, if_neg h]

/-! ### The beginning of moves -/

/-- A move begins at once where none runs, waits or is parked. -/
theorem State.startMove_idle {s : State} (hmove : s.sm.move = {}) (hstart : s.sm.start = {}) {m : Move} (hk : m.kind ≠ 0) :
    s.startMove m = (s.setMove m).goOn := by
  have hyield : ({ s with sm := { s.sm with start := m } } : State).moveYields = true := by
    unfold State.moveYields
    dsimp only
    rw [hmove]
    rfl
  have hkind : s.sm.move.kind = 0 := by rw [hmove]
  have hsm : ({ s.sm with start := {} } : SurfMgr) = s.sm := by rw [← hstart]
  unfold State.startMove State.handOn
  dsimp only
  rw [if_neg (by rw [hyield]; simp [hk]), if_pos hkind]
  exact congrArg State.goOn (congrArg (fun sm => (({ s with sm := sm } : State).setMove m)) hsm)

/-- A move with nothing left ends. -/
theorem State.goOn_over {s : State} (hk : s.sm.move.kind = 1 ∨ s.sm.move.kind = 2) (hc : s.sm.move.cancel = false) (hnext : s.nextStep = none) :
    s.goOn = s.endMove := by
  unfold State.goOn
  dsimp only
  rw [if_neg (by omega), if_neg (by rw [hc]; simp; omega), hnext]

/-- A move with a unit left begins it, holds, or waits for its cycle. -/
theorem State.goOn_unit {s : State} (hk : s.sm.move.kind = 1 ∨ s.sm.move.kind = 2) (hc : s.sm.move.cancel = false) {u : MoveUnit}
    (hnext : s.nextStep = some u) :
    s.goOn = if s.power.st ≠ 0 ∨ s.allocFree = false then s else (s.tryUnit u).getD s.holdMove := by
  unfold State.goOn
  dsimp only
  rw [if_neg (by omega), if_neg (by rw [hc]; simp; omega), hnext]

/-- Without a parked unit the next unit of an evacuation is the channel's. -/
theorem State.nextStep_evac {s : State} (hk : s.sm.move.kind = 1) (hpark : s.sm.parked.unit = none) : s.nextStep = s.nextUnit s.sm.move.ch := by
  unfold State.nextStep
  dsimp only
  rw [if_pos hk, hpark]

/-- The next unit of a channel depends on what lies there alone. -/
theorem State.nextUnit_setMove (s : State) (e : Option Nat) (l : List Nat) (m : Move) (ch : Nat) :
    (({ s with sm := { s.sm with evacCh := e, partEvac := l } } : State).setMove m).nextUnit ch = s.nextUnit ch := rfl

/-- A channel that holds something has a next unit. -/
theorem State.nextUnit_isSome {s : State} {ch : Nat} (h : s.emptyCh ch = false) : (s.nextUnit ch).isSome = true := by
  unfold State.nextUnit
  split
  · rfl
  · next hnone =>
    rw [List.findSome?_eq_none_iff] at hnone
    have hlanes : ((List.range 9).all fun set => (s.lanesOn set ch).isEmpty) = true := by
      rw [List.all_eq_true]
      intro set hset
      have hlt : set < 9 := List.mem_range.mp hset
      have := hnone set (by
        rcases Nat.lt_succ_iff_lt_or_eq.mp hlt with h | h
        · exact List.mem_cons_of_mem _ (List.mem_range.mpr h)
        · exact h ▸ List.mem_cons_self)
      cases hl : s.lanesOn set ch with
      | nil => rfl
      | cons a l => simp [hl] at this
    unfold State.emptyCh at h
    rw [hlanes, Bool.true_and] at h
    cases hp : s.posOn ch with
    | nil => simp [hp] at h
    | cons a l => rfl

/-- With no other channel in service a unit has no destination. -/
theorem State.evacDest_none {s : State} {ch : Nat} (h : ∀ d, d < s.C → d ≠ ch → s.inService d = false) (u : MoveUnit) : s.evacDest u ch = none := by
  have hnil : ∀ q : Nat → Bool, ((List.range s.C).filter fun d => d != ch && s.inService d && q d) = [] := by
    intro q
    rw [List.filter_eq_nil_iff]
    intro d hd
    by_cases hne : d = ch
    · simp [hne]
    · simp [h d (List.mem_range.mp hd) hne]
  cases u with
  | lane set l =>
    have hdests : s.laneDests set ch = [] := by
      refine Eq.trans ?_ (hnil fun d => !s.noNew d && (set == 8 || s.setDomain set == some (s.domainOf d)))
      unfold State.laneDests
      simp only [Bool.and_assoc]
    unfold State.evacDest
    dsimp only
    rw [hdests]
    rfl
  | pos i p =>
    unfold State.evacDest
    dsimp only
    split
    · rfl
    · next r _ =>
      have hdests : ((List.range s.C).filter fun d => bit r.mask d && d != ch && s.inService d && !s.noNew d) = [] := by
        refine Eq.trans ?_ (hnil fun d => bit r.mask d && !s.noNew d)
        refine List.filter_congr fun d _ => ?_
        cases bit r.mask d <;> simp
      rw [hdests]
      rfl

/-- An evacuation starts. -/
theorem State.startEvac_idle {s : State} (hmove : s.sm.move = {}) (hstart : s.sm.start = {}) {ch : Nat} (hout : s.outOfService ch = false)
    (retire : Bool) :
    s.startEvac ch retire = (({ s with sm := { s.sm with evacCh := some ch, partEvac := s.sm.partEvac.filter fun c => c != ch } } : State).setMove
      { kind := 1, ch := ch, retire := retire }).goOn := by
  unfold State.startEvac
  dsimp only
  rw [hout]
  exact State.startMove_idle (s := { s with sm := { s.sm with evacCh := some ch, partEvac := s.sm.partEvac.filter fun c => c != ch } })
    hmove hstart (by simp)

/-- START of SM_EVAC_CTL on a present channel that is not retired, while no move runs. -/
theorem State.evacGo_idle {s : State} (hmove : s.sm.move = {}) (hstart : s.sm.start = {}) {ch : Nat} (hch : ch = s.rd R.SM_EVAC_CTL_CH)
    (hpresent : s.chPresent ch = true) (hret : (s.chan ch).retired = false) :
    s.evacGo = (s.startEvac ch (s.rd R.SM_EVAC_CTL_RETIRE == 1), false) := by
  have hmoving : s.moving = false := by
    unfold State.moving
    rw [hmove, hstart]
    rfl
  unfold State.evacGo
  rw [← hch]
  exact if_neg (by simp [hmoving, hpresent, hret])

/-! ### SM_EVAC_CTL and SM_MIGRATE_CTL -/

/-- A write that leaves CH and RETIRE as they are runs its actions alone. -/
theorem State.writeEvacCtl_same {s : State} {w : Nat} (hch : bits w 0 5 = s.rd R.SM_EVAC_CTL_CH) (hret : bits w 8 1 = s.rd R.SM_EVAC_CTL_RETIRE)
    (tgt : Nat) :
    s.writeEvacCtl w tgt =
      (runActs w [(16, fun s => s.evacGo), (17, fun s => (s.evacCancel, false))] (s, false)).1.busyIf
        (runActs w [(16, fun s => s.evacGo), (17, fun s => (s.evacCancel, false))] (s, false)).2 0x20400 tgt := by
  have hslots : applySlots s w [⟨R.SM_EVAC_CTL_CH, 0, 0⟩, ⟨R.SM_EVAC_CTL_RETIRE, 0, 0⟩] = (s, false) := by
    unfold applySlots
    rw [List.foldl_cons, applySlot_quiet_same s w _ _ rfl hch, List.foldl_cons, applySlot_quiet_same s w _ _ rfl hret, List.foldl_nil]
  unfold State.writeEvacCtl State.writeReg
  rw [hslots]

/-- EVAC_START. -/
theorem exec_evacStart {s : State} (hopen : s.portOpen) {w : Word} {tgt : Nat} (hch : bits w.toNat 0 5 = s.rd R.SM_EVAC_CTL_CH)
    (hret : bits w.toNat 8 1 = s.rd R.SM_EVAC_CTL_RETIRE) (hcancel : bits w.toNat 17 1 = 0) (hgo : s.evacGo.2 = false) :
    exec (.evacStart w tgt) s = .next s.evacGo.1 := by
  have hskip : bit (w ||| 0x10000).toNat 17 = false := by
    rw [bit_or_other (by decide)]
    exact bit_of_bits_clear hcancel (by omega) (by omega)
  change Host.Outcome.next _ = _
  rw [State.regAccess_open hopen]
  rw [State.writeEvacCtl_same ((bits_or_of_clear w _ (by decide)).trans hch) ((bits_or_of_clear w _ (by decide)).trans hret),
    runActs_take (bit_or_self w _ (by decide)), runActs_skip hskip, runActs_nil, hgo]
  rfl

/-- EVAC_CANCEL. -/
theorem exec_evacCancel {s : State} (hopen : s.portOpen) {w : Word} {tgt : Nat} (hch : bits w.toNat 0 5 = s.rd R.SM_EVAC_CTL_CH)
    (hret : bits w.toNat 8 1 = s.rd R.SM_EVAC_CTL_RETIRE) (hstart : bits w.toNat 16 1 = 0) :
    exec (.evacCancel w tgt) s = .next s.evacCancel := by
  have hskip : bit (w ||| 0x20000).toNat 16 = false := by
    rw [bit_or_other (by decide)]
    exact bit_of_bits_clear hstart (by omega) (by omega)
  change Host.Outcome.next _ = _
  rw [State.regAccess_open hopen]
  rw [State.writeEvacCtl_same ((bits_or_of_clear w _ (by decide)).trans hch) ((bits_or_of_clear w _ (by decide)).trans hret),
    runActs_skip hskip, runActs_take (bit_or_self w _ (by decide)), runActs_nil]
  rfl

/-- MIGRATE_START of a write that leaves the fields of SM_MIGRATE_CTL as they are. -/
theorem exec_migrateStart {s : State} (hopen : s.portOpen) {w : Word} {tgt : Nat} (hset : bits w.toNat 0 3 = s.rd R.SM_MIGRATE_CTL_SET)
    (hlane : bits w.toNat 8 8 = s.rd R.SM_MIGRATE_CTL_LANE) (hdest : bits w.toNat 16 5 = s.rd R.SM_MIGRATE_CTL_DEST)
    (hgo : s.migrateGo.2 = false) : exec (.migrateStart w tgt) s = .next s.migrateGo.1 := by
  have hslots : applySlots s (w ||| 0x1000000).toNat
      [⟨R.SM_MIGRATE_CTL_SET, 0, 0⟩, ⟨R.SM_MIGRATE_CTL_LANE, 0, 0⟩, ⟨R.SM_MIGRATE_CTL_DEST, 0, 0⟩] = (s, false) := by
    unfold applySlots
    rw [List.foldl_cons, applySlot_quiet_same s _ _ _ rfl ((bits_or_of_clear w _ (by decide)).trans hset), List.foldl_cons,
      applySlot_quiet_same s _ _ _ rfl ((bits_or_of_clear w _ (by decide)).trans hlane), List.foldl_cons,
      applySlot_quiet_same s _ _ _ rfl ((bits_or_of_clear w _ (by decide)).trans hdest), List.foldl_nil]
  change Host.Outcome.next _ = _
  rw [State.regAccess_open hopen]
  unfold State.writeMigrateCtl State.writeReg
  rw [hslots, runActs_take (bit_or_self w _ (by decide)), runActs_nil, hgo]
  rfl

/-! ### Evacuations -/

/-- An evacuation that finds nothing on its channel is done at once. -/
theorem evacStart_nothing {s : State} (hmove : s.sm.move = {}) (hstart : s.sm.start = {}) (hpark : s.sm.parked = {}) {ch : Nat}
    (hout : s.outOfService ch = false) (hnext : s.nextUnit ch = none) :
    (s.startEvac ch false).sm.move = {} ∧ (s.startEvac ch false).rd R.SM_EVAC_STATUS_EVAC_DONE = 1 ∧
      bit ((s.startEvac ch false).evt 6).pending 9 = true ∧ (s.startEvac ch false).chans = s.chans := by
  rw [State.startEvac_idle hmove hstart hout]
  obtain ⟨u, hu⟩ : ∃ u, u = (({ s with sm := { s.sm with evacCh := some ch, partEvac := s.sm.partEvac.filter fun c => c != ch } } : State).setMove
    { kind := 1, ch := ch, retire := false }) := ⟨_, rfl⟩
  have humove : u.sm.move = { kind := 1, ch := ch, retire := false } := by rw [hu]; rfl
  have hupark : u.sm.parked = {} := by rw [hu]; exact hpark
  have huchans : u.chans = s.chans := by rw [hu]; rfl
  have hustep : u.nextStep = none := by
    rw [State.nextStep_evac (by rw [humove]) (by rw [hupark]), humove, hu, State.nextUnit_setMove]
    exact hnext
  rw [← hu, State.goOn_over (.inl (by rw [humove])) (by rw [humove]) hustep, State.endMove_eq (by rw [humove]; simp)]
  obtain ⟨hdone, hevt, hchans, hm, -, -⟩ :=
    State.evacOver_moveEnd ({ u with sm := { u.sm with move := u.sm.parked, parked := {} } } : State) (m := u.sm.move) (by rw [humove])
      (.inl (by rw [humove]))
  exact ⟨hm.trans hupark, hdone, hevt, hchans.trans huchans⟩

/-- An evacuation that finds no destination holds and says so. -/
theorem evacStart_stalled {s : State} (hmove : s.sm.move = {}) (hstart : s.sm.start = {}) (hpark : s.sm.parked = {}) {ch : Nat}
    (hout : s.outOfService ch = false) (hrun : s.power.st = 0) (hfree : s.allocFree = true) (hnext : (s.nextUnit ch).isSome = true)
    (hnone : ∀ d, d < s.C → d ≠ ch → s.inService d = false) (retire : Bool) :
    (s.startEvac ch retire).sm.move = { kind := 1, ch := ch, held := true, retire := retire } ∧ (s.startEvac ch retire).sm.evacCh = some ch ∧
      bit ((s.startEvac ch retire).evt 6).pending 11 = true ∧ (s.startEvac ch retire).chans = s.chans := by
  rw [State.startEvac_idle hmove hstart hout]
  obtain ⟨x, hx⟩ := Option.isSome_iff_exists.mp hnext
  obtain ⟨l, hl⟩ : ∃ l, l = s.sm.partEvac.filter fun c => c != ch := ⟨_, rfl⟩
  rw [← hl]
  obtain ⟨u, hu⟩ : ∃ u, u = (({ s with sm := { s.sm with evacCh := some ch, partEvac := l } } : State).setMove
    { kind := 1, ch := ch, retire := retire }) := ⟨_, rfl⟩
  have humove : u.sm.move = { kind := 1, ch := ch, retire := retire } := by rw [hu]; rfl
  have hupark : u.sm.parked = {} := by rw [hu]; exact hpark
  have huchans : u.chans = s.chans := by rw [hu]; rfl
  have hustep : u.nextStep = some x := by
    rw [State.nextStep_evac (by rw [humove]) (by rw [hupark]), humove, hu, State.nextUnit_setMove]
    exact hx
  have hufree : u.allocFree = true := by rw [hu]; exact hfree
  have hurun : u.power.st = 0 := by rw [hu]; exact hrun
  have hserve : ∀ d, d < u.C → d ≠ ch → u.inService d = false := by rw [hu]; exact hnone
  have htry : u.tryUnit x = none := by
    have hdest : u.stepDest x = none := by
      unfold State.stepDest
      dsimp only
      rw [if_pos (by rw [humove]), humove]
      exact State.evacDest_none hserve x
    unfold State.tryUnit
    rw [if_neg (by rw [hupark]; exact fun h => by cases h), hdest]
    rfl
  have hheld : ¬ u.sm.move.held = true := by rw [humove]; simp
  rw [← hu, State.goOn_unit (.inl (by rw [humove])) (by rw [humove]) hustep, if_neg (by simp [hurun, hufree]), htry, Option.getD_none]
  unfold State.holdMove
  rw [if_neg hheld]
  refine ⟨?_, ?_, State.raise_evt_bit _ _ _, huchans⟩
  · change ({ u.sm.move with held := true } : Move) = _
    rw [humove]
  · change u.sm.evacCh = _
    rw [hu]
    rfl

/-- CANCEL of an evacuation that waits to begin. -/
theorem evacCancel_waiting {s : State} (hk : s.sm.start.kind = 1) :
    s.evacCancel.sm.start = {} ∧ s.evacCancel.sm.move = s.sm.move ∧ s.evacCancel.rd R.SM_EVAC_STATUS_EVAC_DONE = 1 ∧
      bit (s.evacCancel.evt 6).pending 9 = true ∧ s.evacCancel.chans = s.chans := by
  have heq : s.evacCancel = ({ s with sm := { s.sm with start := {} } } : State).moveEnd { s.sm.start with cancel := true } := if_pos hk
  obtain ⟨hdone, hevt, hchans, hmove, -, hst⟩ :=
    State.evacOver_moveEnd ({ s with sm := { s.sm with start := {} } } : State) (m := { s.sm.start with cancel := true }) hk (.inr rfl)
  rw [heq]
  exact ⟨hst, hmove, hdone, hevt, hchans⟩

/-- CANCEL of an evacuation with a unit in progress is noted. -/
theorem evacCancel_unit {s : State} (hstart : s.sm.start.kind ≠ 1) (hk : s.sm.move.kind = 1) (hunit : s.sm.move.unit ≠ none) :
    s.evacCancel = s.setMove { s.sm.move with cancel := true } := by
  unfold State.evacCancel
  dsimp only
  rw [if_neg hstart, if_neg (by omega), if_neg (by simpa using hunit)]

/-- CANCEL of an evacuation between two units. -/
theorem evacCancel_between {s : State} (hstart : s.sm.start.kind ≠ 1) (hk : s.sm.move.kind = 1) (hunit : s.sm.move.unit = none) :
    s.evacCancel.sm.move = s.sm.parked ∧ s.evacCancel.sm.parked = {} ∧ s.evacCancel.rd R.SM_EVAC_STATUS_EVAC_DONE = 1 ∧
      bit (s.evacCancel.evt 6).pending 9 = true ∧ s.evacCancel.chans = s.chans := by
  have heq : s.evacCancel = (s.setMove { s.sm.move with cancel := true }).endMove := by
    unfold State.evacCancel
    dsimp only
    rw [if_neg hstart, if_neg (by omega), if_pos (by rw [hunit]; rfl)]
  have hkind : (s.setMove { s.sm.move with cancel := true }).sm.move.kind ≠ 3 := by
    change s.sm.move.kind ≠ 3
    omega
  rw [heq, State.endMove_eq hkind]
  obtain ⟨hdone, hevt, hchans, hmove, hpark, -⟩ :=
    State.evacOver_moveEnd ({ s with sm := { s.sm with move := s.sm.parked, parked := {} } } : State) (m := { s.sm.move with cancel := true }) hk (.inr rfl)
  exact ⟨hmove, hpark, hdone, hevt, hchans⟩

/-! ### Migrations -/

/-- A migration to where the lane lies is done at once. -/
theorem migrateGo_done {s : State} (hmove : s.sm.move = {}) (hstart : s.sm.start = {}) (hpark : s.sm.parked = {})
    (hserve : s.inService (s.rd R.SM_MIGRATE_CTL_DEST) = true)
    (hdom : s.setDomain (s.rd R.SM_MIGRATE_CTL_SET) = some (s.domainOf (s.rd R.SM_MIGRATE_CTL_DEST)))
    (hlane : s.laneCh (s.rd R.SM_MIGRATE_CTL_SET) (s.rd R.SM_MIGRATE_CTL_LANE) = s.rd R.SM_MIGRATE_CTL_DEST) :
    s.migrateGo = ((s.setBit R.SM_MIGRATE_STATUS_MIGRATE_DONE 0 0).raise 6 12, false) := by
  have hmoving : s.moving = false := by
    unfold State.moving
    rw [hmove, hstart]
    rfl
  obtain ⟨m, hm⟩ : ∃ m : Move, m = { kind := 2, set := s.rd R.SM_MIGRATE_CTL_SET, lane := s.rd R.SM_MIGRATE_CTL_LANE, dst := s.rd R.SM_MIGRATE_CTL_DEST,
                                     dest := s.rd R.SM_MIGRATE_CTL_DEST } := ⟨_, rfl⟩
  have hkind : m.kind = 2 := by rw [hm]
  have hgo : s.migrateGo = (s.startMove m, false) := by
    rw [hm]
    exact if_neg (by simp [hmoving, hserve, hdom])
  have hnext : (s.setMove m).nextStep = none := by
    have hthere : (s.setMove m).laneCh m.set m.lane = m.dest := by rw [hm]; exact hlane
    unfold State.nextStep
    dsimp only
    rw [if_neg (by change ¬ m.kind = 1; omega), if_neg]
    rintro ⟨-, h⟩
    exact h hthere
  have hend : (s.setMove m).goOn = ({ (s.setMove m) with sm := { s.sm with move := s.sm.parked, parked := {} } } : State).moveEnd m := by
    rw [State.goOn_over (.inr hkind) (by change m.cancel = false; rw [hm]) hnext, State.endMove_eq (by change m.kind ≠ 3; omega)]
    rfl
  have hback : ({ (s.setMove m) with sm := { s.sm with move := s.sm.parked, parked := {} } } : State) = s := by
    have hsm : ({ s.sm with move := s.sm.parked, parked := {} } : SurfMgr) = s.sm := by
      conv => rhs; rw [show s.sm = { s.sm with move := s.sm.move, parked := s.sm.parked } from rfl, hmove, hpark]
      rw [hpark]
    rw [hsm]
    rfl
  rw [hgo, State.startMove_idle hmove hstart (by omega), hend, hback, State.moveEnd_migrate _ hkind]

end Sys2Proof.Machine
end

section
/-! Moves of storage: what a move takes, and the copy of its pieces (R197, R198, R200, R203, R207); the obligation `Moves`. -/

namespace Sys2Proof.Machine
open Sys2Proof

/-! ### What a move takes -/

/-- What taking extents for a move leaves as it is. -/
def State.takenFor (s t : State) : Prop :=
  t.chans = s.chans ∧ t.sm.evacCh = s.sm.evacCh ∧ t.sm.move.kind = s.sm.move.kind ∧ t.sm.move.ch = s.sm.move.ch ∧ t.sm.move.lost = s.sm.move.lost ∧
    t.rd R.SM_EVAC_STATUS_EVAC_LOST = s.rd R.SM_EVAC_STATUS_EVAC_LOST

theorem State.takenFor_refl (s : State) : s.takenFor s := ⟨rfl, rfl, rfl, rfl, rfl, rfl⟩

theorem State.takenFor.trans {s t u : State} (h : s.takenFor t) (k : t.takenFor u) : s.takenFor u := by
  obtain ⟨h1, h2, h3, h4, h5, h6⟩ := h
  obtain ⟨k1, k2, k3, k4, k5, k6⟩ := k
  exact ⟨k1.trans h1, k2.trans h2, k3.trans h3, k4.trans h4, k5.trans h5, k6.trans h6⟩

theorem State.takenFor_setMove (s : State) {m : Move} (hk : m.kind = s.sm.move.kind) (hch : m.ch = s.sm.move.ch) (hl : m.lost = s.sm.move.lost) :
    s.takenFor (s.setMove m) := ⟨rfl, rfl, hk, hch, hl, rfl⟩

theorem State.takenFor_raise (s : State) (g n : Nat) : s.takenFor (s.raise g n) := ⟨rfl, rfl, rfl, rfl, rfl, rfl⟩

theorem State.takenFor_foldl {α : Type} {f : State → α → State} (hf : ∀ u a, State.takenFor u (f u a)) (l : List α) (s : State) :
    s.takenFor (l.foldl f s) :=
  foldl_keeps s.takenFor f (fun u a h => h.trans (hf u a)) l s s.takenFor_refl

theorem State.takenFor_poolUpdate (s : State) (n : Nat) : s.takenFor (s.poolUpdate n) := by
  unfold State.poolUpdate
  split
  · exact s.takenFor_refl
  · refine State.takenFor.trans ?_ (State.takenFor_foldl ?_ _ _)
    · exact ⟨rfl, rfl, rfl, rfl, rfl, State.wr_rd_ne _ (by decide) _ _ _ _ _⟩
    · intro u k
      split
      · exact u.takenFor_raise _ _
      · exact u.takenFor_refl

theorem State.takenFor_takeMove {s t : State} {d kind k : Nat} {l : List Nat} (h : s.takeMove d kind k = some (l, t)) : s.takenFor t := by
  unfold State.takeMove at h
  extract_lets sp a pools all b at h
  split at h
  · exact absurd h (by simp)
  · obtain ⟨-, rfl⟩ : a ++ b.map (·.1) = l ∧ _ = t := by simpa using h
    refine State.takenFor.trans ?_ (State.takenFor_foldl (fun u n => u.takenFor_poolUpdate n) _ _)
    refine State.takenFor.trans ?_ (t := b.foldl (fun (s : State) (e : Nat × Nat) =>
      { s with sm := { s.sm with poolFree := Tab.insert (e.2 * 32 + d) ((s.freeIn e.2 d).filter fun x => x != e.1) s.sm.poolFree } })
        ((s.setMove { s.sm.move with pools := s.sm.move.pools ++ b }).setSpare d (sp.drop k))) ⟨rfl, rfl, rfl, rfl, rfl, rfl⟩
    refine State.takenFor.trans (t := (s.setMove { s.sm.move with pools := s.sm.move.pools ++ b }).setSpare d (sp.drop k))
      ⟨rfl, rfl, rfl, rfl, rfl, rfl⟩ (State.takenFor_foldl ?_ _ _)
    exact fun u e => ⟨rfl, rfl, rfl, rfl, rfl, rfl⟩

theorem State.takenFor_beginUnit {s t : State} {u : MoveUnit} {d : Nat} (h : s.beginUnit u d = some t) : s.takenFor t := by
  unfold State.beginUnit at h
  extract_lets k v at h
  split at h
  · exact absurd h (by simp)
  · next l x hx =>
    obtain rfl := Option.some.inj h
    refine State.takenFor.trans (s.takenFor_setMove rfl rfl rfl) ((State.takenFor_takeMove hx).trans ?_)
    exact ⟨rfl, rfl, rfl, rfl, rfl, rfl⟩

/-- A move that goes on with a unit, holds, or waits, keeps what it is. -/
theorem State.takenFor_goOn {s : State} (hk : s.sm.move.kind = 1 ∨ s.sm.move.kind = 2) (hc : s.sm.move.cancel = false)
    (hpark : s.sm.parked.unit = none) {u : MoveUnit} (hnext : s.nextStep = some u) : s.takenFor s.goOn := by
  rw [State.goOn_unit hk hc hnext]
  split
  · exact s.takenFor_refl
  · cases htry : s.tryUnit u with
    | none =>
      rw [Option.getD_none]
      unfold State.holdMove
      split
      · exact s.takenFor_refl
      · exact (s.takenFor_setMove rfl rfl rfl).trans (State.takenFor_raise _ _ _)
    | some t =>
      rw [Option.getD_some]
      unfold State.tryUnit at htry
      rw [if_neg (by rw [hpark]; simp)] at htry
      obtain ⟨d, -, hd⟩ := Option.bind_eq_some_iff.mp htry
      exact State.takenFor_beginUnit hd

/-- What lies on a channel is read from the configuration, the lanes and the surfaces. -/
theorem State.nextUnit_congr {s t : State} (hconf : t.conf = s.conf) (hlanes : t.sm.lanes = s.sm.lanes) (hsurfs : t.sm.surfs = s.sm.surfs) (ch : Nat) :
    t.nextUnit ch = s.nextUnit ch := by
  have hregions : ∀ set, t.regionsOf set = s.regionsOf set := fun set => by
    unfold State.regionsOf State.allRegions
    rw [hconf]
  unfold State.nextUnit State.lanesOn State.posOn
  simp only [hregions, hlanes, hsurfs]

/-- A detection is a matter of its queue, or of the count of those dropped. -/
theorem State.detect_only (s : State) (d : Det) : s.detect d = { s with regs := (s.detect d).regs, integ := (s.detect d).integ } := by
  unfold State.detect
  split <;> rfl

theorem State.detect_evacLost (s : State) (d : Det) : (s.detect d).rd R.SM_EVAC_STATUS_EVAC_LOST = s.rd R.SM_EVAC_STATUS_EVAC_LOST := by
  unfold State.detect
  split
  · exact State.bump_rd_ne _ (by decide) _ _ _ _ _
  · rfl

/-- A channel out of service that holds something begins its evacuation as lost. -/
theorem autoEvac_starts {s : State} {ch : Nat} (hout : s.outOfService ch = true) (hmove : s.sm.move = {}) (hstart : s.sm.start = {})
    (hpark : s.sm.parked = {}) (hempty : s.emptyCh ch = false) (retire : Bool) :
    (s.startEvac ch retire).sm.move.kind = 1 ∧ (s.startEvac ch retire).sm.move.ch = ch ∧ (s.startEvac ch retire).sm.move.lost = true ∧
      (s.startEvac ch retire).sm.evacCh = some ch ∧ (s.startEvac ch retire).chans = s.chans ∧
      (s.startEvac ch retire).rd R.SM_EVAC_STATUS_EVAC_LOST = 1 := by
  obtain ⟨x, hx⟩ := Option.isSome_iff_exists.mp (State.nextUnit_isSome hempty)
  obtain ⟨l, hl⟩ : ∃ l, l = s.sm.partEvac.filter fun c => c != ch := ⟨_, rfl⟩
  obtain ⟨a, ha⟩ : ∃ a, a = (({ s with sm := { s.sm with evacCh := some ch, partEvac := l } } : State).setBit R.SM_EVAC_STATUS_EVAC_LOST 0 0).raise 6 10 := ⟨_, rfl⟩
  obtain ⟨d, hd⟩ : ∃ d : Det, d = { unit := 0x30, kind := 0x12, init := 0x40, cls := 15 } := ⟨_, rfl⟩
  have hsm : (a.detect d).sm = { s.sm with evacCh := some ch, partEvac := l } := by rw [a.detect_only, ha]; rfl
  have hconf : (a.detect d).conf = s.conf := by rw [a.detect_only, ha]; rfl
  have hchans : (a.detect d).chans = s.chans := by rw [a.detect_only, ha]; rfl
  have hrd : (a.detect d).rd R.SM_EVAC_STATUS_EVAC_LOST = 1 := by
    rw [a.detect_evacLost, ha]
    exact (State.setBit_rd_self _ _ _ _).trans (by decide)
  have hgo : s.startEvac ch retire = ((a.detect d).setMove { kind := 1, ch := ch, retire := retire, lost := true }).goOn := by
    rw [← State.startMove_idle (by rw [hsm]; exact hmove) (by rw [hsm]; exact hstart) (by simp), ha, hd, hl]
    unfold State.startEvac
    dsimp only
    rw [hout]
    rfl
  obtain ⟨u, hu⟩ : ∃ u, u = (a.detect d).setMove { kind := 1, ch := ch, retire := retire, lost := true } := ⟨_, rfl⟩
  have hunext : u.nextUnit ch = s.nextUnit ch := by
    refine State.nextUnit_congr (by rw [hu]; exact hconf) ?_ ?_ ch
    · rw [hu]
      change (a.detect d).sm.lanes = _
      rw [hsm]
    · rw [hu]
      change (a.detect d).sm.surfs = _
      rw [hsm]
  have humove : u.sm.move = { kind := 1, ch := ch, retire := retire, lost := true } := by rw [hu]; rfl
  have hupark : u.sm.parked.unit = none := by
    rw [hu]
    change (a.detect d).sm.parked.unit = none
    rw [hsm]
    change s.sm.parked.unit = none
    rw [hpark]
  have hustep : u.nextStep = some x := by
    rw [State.nextStep_evac (by rw [humove]) hupark, humove]
    exact hunext.trans hx
  obtain ⟨h1, h2, h3, h4, h5, h6⟩ := State.takenFor_goOn (.inl (by rw [humove])) (by rw [humove]) hupark hustep
  rw [hgo, ← hu, h1, h2, h3, h4, h5, h6, humove]
  refine ⟨rfl, rfl, rfl, ?_, ?_, ?_⟩
  · rw [hu]
    change (a.detect d).sm.evacCh = _
    rw [hsm]
  · rw [hu]
    exact hchans
  · rw [hu]
    exact hrd

/-! ### Copying -/

/-- Bytes written leave the others. -/
theorem State.memWrite_other (s : State) {l : List (Nat × Byte)} {k : Nat} (h : ∀ c ∈ l, c.1 ≠ k) : (s.memWrite l).memAt k = s.memAt k := by
  unfold State.memAt State.memWrite
  dsimp only
  generalize s.mem = m
  induction l generalizing m with
  | nil => rfl
  | cons c l ih =>
    rw [List.foldl_cons, ih fun e he => h e (List.mem_cons_of_mem _ he), Tab.find_insert_ne (Ne.symm (h c List.mem_cons_self))]

/-- A run of bytes written at `a`. -/
theorem State.memWrite_run (s : State) (a n : Nat) (v : Nat → Byte) {k : Nat} (hk : k < n) :
    (s.memWrite ((List.range n).map fun k => (a + k, v k))).memAt (a + k) = some (v k) := by
  unfold State.memAt State.memWrite
  dsimp only
  rw [List.foldl_map]
  exact (Tab.find_foldl_insert a v (List.range n) s.mem k).trans (if_pos (List.mem_range.mpr hk))

/-- Without remapped blocks, stored bytes are written as they stand. -/
theorem State.cellsPut_plain {s : State} (h : ∀ d, (s.chan d).remap = []) (l : List (Nat × Byte)) : s.cellsPut l = s.memWrite l := by
  unfold State.cellsPut
  rw [if_neg (by simp [h])]

/-- Without remapped blocks no spare word has errors. -/
theorem State.spareCheck_plain {s : State} (h : ∀ d, (s.chan d).remap = []) (ch a n init cls : Nat) : s.spareCheck ch a n init cls = s := by
  have herrs : ∀ key, s.spareErrs key = 0 := fun key => by
    unfold State.spareErrs Chan.remapOf
    simp only [h]
    rfl
  unfold State.spareCheck
  extract_lets hit bad mend
  have hhit : hit = [] := by
    refine List.filter_eq_nil_iff.mpr fun k _ => ?_
    rw [herrs]
    decide
  rw [hhit]
  rfl

/-- What a table finds is listed in it. -/
theorem Tab.mem_of_find {α : Type} {t : Tab α} {k : Nat} {v : α} (h : Tab.find t k = some v) : (k, v) ∈ t := by
  induction t with
  | nil => exact absurd h (by simp [Tab.find])
  | cons e t ih =>
    unfold Tab.find at h
    split at h
    · next hk =>
      obtain rfl := Option.some.inj h
      rw [hk]
      exact List.mem_cons_self
    · exact List.mem_cons_of_mem _ (ih h)

theorem State.chan_remap {s : State} (h : ∀ e ∈ s.chans, e.2.remap = []) (d : Nat) : (s.chan d).remap = [] := by
  unfold State.chan Tab.get
  cases hfind : Tab.find s.chans d with
  | none => rfl
  | some x => exact h (d, x) (Tab.mem_of_find hfind)

/-- Engine bytes are counted at their channel. -/
theorem State.engineBytes_chan (s : State) (ch cls n : Nat) :
    (∃ l b, ((s.engineBytes ch cls n).chan ch) = { s.chan ch with bytesCur := b, sendLeft := l }) ∧
      (∀ d, d ≠ ch → (s.engineBytes ch cls n).chan d = s.chan d) ∧
      s.engineBytes ch cls n = { s with chans := (s.engineBytes ch cls n).chans, meas := (s.engineBytes ch cls n).meas } := by
  unfold State.engineBytes
  split
  · exact ⟨⟨_, _, rfl⟩, fun _ _ => rfl, rfl⟩
  · dsimp only
    exact ⟨⟨_, _, State.setChan_chan_self _ _ _⟩, fun d hd => State.setChan_chan_ne _ hd _, rfl⟩

/-- A piece of unguarded data as it is copied. -/
theorem copyPiece_plain {s : State} {src dst : At} {n : Nat} (hpiece : s.pieceOf s.sm.move.chunk s.sm.move.piece = some (src, dst, n, false))
    (hremap : ∀ d, (s.chan d).remap = []) (cls : Nat) :
    s.copyPiece s.sm.move.chunk s.sm.move.piece cls =
      s.memWrite ((List.range n).map fun k => (memKey dst.ch dst.a + k, s.cellByte (memKey src.ch (src.a + k)))) := by
  have hkeys : ∀ k, memKey dst.ch (dst.a + k) = memKey dst.ch dst.a + k := fun k => by
    unfold memKey
    omega
  unfold State.copyPiece
  rw [hpiece]
  dsimp only
  rw [if_neg (by simp), if_neg (by simp)]
  unfold State.copyRaw
  dsimp only
  rw [State.spareCheck_plain hremap, State.cellsPut_plain hremap]
  simp only [hkeys]

/-- The bytes of a piece are counted at its source and at its destination. -/
theorem pieceBytes_counted {s : State} {src dst : At} {n : Nat} {chunk piece : Nat} (hpiece : s.pieceOf chunk piece = some (src, dst, n, false))
    (cls : Nat) :
    (∀ d, ∃ l b, (s.pieceBytes chunk piece cls).chan d = { s.chan d with bytesCur := b, sendLeft := l }) ∧
      (∀ d, d ≠ src.ch → d ≠ dst.ch → (s.pieceBytes chunk piece cls).chan d = s.chan d) ∧
      s.pieceBytes chunk piece cls = { s with chans := (s.pieceBytes chunk piece cls).chans, meas := (s.pieceBytes chunk piece cls).meas } := by
  have heq : s.pieceBytes chunk piece cls = (s.engineBytes src.ch cls n).engineBytes dst.ch cls n := by
    unfold State.pieceBytes State.pieceEnds
    rw [hpiece]
    rfl
  have hone : ∀ (u : State) (c d : Nat), ∃ l b, (u.engineBytes c cls n).chan d = { u.chan d with bytesCur := b, sendLeft := l } := fun u c d => by
    obtain ⟨⟨l, b, h⟩, hother, -⟩ := u.engineBytes_chan c cls n
    by_cases hd : d = c
    · subst hd
      exact ⟨l, b, h⟩
    · exact ⟨_, _, hother d hd⟩
  obtain ⟨-, hsrc, hframe⟩ := s.engineBytes_chan src.ch cls n
  obtain ⟨-, hdst, hframe'⟩ := (s.engineBytes src.ch cls n).engineBytes_chan dst.ch cls n
  rw [heq]
  refine ⟨fun d => ?_, fun d h h' => (hdst d h').trans (hsrc d h), ?_⟩
  · obtain ⟨l, b, h⟩ := hone s src.ch d
    obtain ⟨l', b', h'⟩ := hone (s.engineBytes src.ch cls n) dst.ch d
    exact ⟨l', b', by rw [h', h]⟩
  · rw [hframe']
    generalize ((s.engineBytes src.ch cls n).engineBytes dst.ch cls n).chans = c
    generalize ((s.engineBytes src.ch cls n).engineBytes dst.ch cls n).meas = m
    rw [hframe]

/-- PIECE_COPY_DONE on a unit in copy whose next piece may be read and may pass. -/
theorem exec_pieceCopyDone {s : State} {u : MoveUnit} (hunit : s.sm.move.unit = some u) (hstart : s.sm.start = {}) (hcopy : s.copying = true)
    (hrun : s.power.st = 0) (hpiece : s.sm.move.piece < 16) (hchunk : s.sm.move.chunk < s.unitChunks u) (hfreed : s.unitFreed = false)
    (hready : s.pieceReady = true) (hfree : s.pieceFree = true) :
    ∃ cls, exec .pieceCopyDone s = .next
      (((s.copyPiece s.sm.move.chunk s.sm.move.piece cls).pieceBytes s.sm.move.chunk s.sm.move.piece cls).setMove
        { ((s.copyPiece s.sm.move.chunk s.sm.move.piece cls).pieceBytes s.sm.move.chunk s.sm.move.piece cls).sm.move with
          piece := s.sm.move.piece + 1 }) := by
  refine ⟨if s.pieceUrgent then 0 else 15, ?_⟩
  change execPieceCopyDone s = _
  unfold execPieceCopyDone
  dsimp only
  rw [hunit]
  dsimp only
  rw [if_neg (by rw [hstart]; simp), if_neg (by simp [hcopy]), if_neg (by simp [hfreed]),
    if_neg (by simp only [hready, hfree, hrun]; simp; omega)]

/-- A piece is copied byte for byte. -/
theorem pieceCopied {s : State} {u : MoveUnit} {src dst : At} {n : Nat} (hunit : s.sm.move.unit = some u) (hstart : s.sm.start = {})
    (hcopy : s.copying = true) (hrun : s.power.st = 0) (hsixteen : s.sm.move.piece < 16) (hchunk : s.sm.move.chunk < s.unitChunks u)
    (hfreed : s.unitFreed = false) (hready : s.pieceReady = true) (hfree : s.pieceFree = true)
    (hpiece : s.pieceOf s.sm.move.chunk s.sm.move.piece = some (src, dst, n, false)) (hremap : ∀ e ∈ s.chans, e.2.remap = []) :
    Runs .pieceCopyDone s fun t =>
      t.sm.move = { s.sm.move with piece := s.sm.move.piece + 1 } ∧
      (∀ k, k < n → t.memAt (memKey dst.ch (dst.a + k)) = some (s.cellByte (memKey src.ch (src.a + k)))) ∧
      (∀ k, (k < memKey dst.ch dst.a ∨ memKey dst.ch (dst.a + n) ≤ k) → t.memAt k = s.memAt k) ∧
      (∀ d, t.chan d = { s.chan d with bytesCur := (t.chan d).bytesCur, sendLeft := (t.chan d).sendLeft }) ∧
      (∀ d, d ≠ src.ch → d ≠ dst.ch → t.chan d = s.chan d) ∧
      t = { s with mem := t.mem, chans := t.chans, meas := t.meas, sm := { s.sm with move := t.sm.move } } := by
  obtain ⟨cls, hexec⟩ := exec_pieceCopyDone hunit hstart hcopy hrun hsixteen hchunk hfreed hready hfree
  refine ⟨_, hexec, ?_⟩
  dsimp only
  rw [copyPiece_plain hpiece (State.chan_remap hremap)]
  obtain ⟨w, hw⟩ : ∃ w, w = (List.range n).map fun k => (memKey dst.ch dst.a + k, s.cellByte (memKey src.ch (src.a + k))) := ⟨_, rfl⟩
  have hput : ∀ k, k < n → (s.memWrite w).memAt (memKey dst.ch (dst.a + k)) = some (s.cellByte (memKey src.ch (src.a + k))) := fun k hk => by
    rw [hw, show memKey dst.ch (dst.a + k) = memKey dst.ch dst.a + k by unfold memKey; omega]
    exact s.memWrite_run (memKey dst.ch dst.a) n (fun k => s.cellByte (memKey src.ch (src.a + k))) hk
  have hkeep : ∀ k, (k < memKey dst.ch dst.a ∨ memKey dst.ch (dst.a + n) ≤ k) → (s.memWrite w).memAt k = s.memAt k := fun k hk => by
    refine s.memWrite_other fun c hc => ?_
    rw [hw] at hc
    obtain ⟨i, hi, rfl⟩ := List.mem_map.mp hc
    have hlt : i < n := List.mem_range.mp hi
    unfold memKey at hk ⊢
    dsimp only
    omega
  have hof : (s.memWrite w).pieceOf s.sm.move.chunk s.sm.move.piece = some (src, dst, n, false) := hpiece
  obtain ⟨hcounted, hother, hframe⟩ := pieceBytes_counted hof cls
  have hchans : ∀ d, (s.memWrite w).chan d = s.chan d := fun d => rfl
  have hsmw : (s.memWrite w).sm = s.sm := rfl
  rw [← hw]
  obtain ⟨v, hv⟩ : ∃ v, v = (s.memWrite w).pieceBytes s.sm.move.chunk s.sm.move.piece cls := ⟨_, rfl⟩
  rw [← hv] at hcounted hother hframe ⊢
  have hsm : v.sm = s.sm := by rw [hframe]; exact hsmw
  have hmem : ∀ k, v.memAt k = (s.memWrite w).memAt k := fun k => by rw [hframe]; rfl
  refine ⟨?_, fun k hk => (hmem _).trans (hput k hk), fun k hk => (hmem k).trans (hkeep k hk), fun d => ?_, hother, ?_⟩
  · change ({ v.sm.move with piece := s.sm.move.piece + 1 } : Move) = _
    rw [hsm]
  · obtain ⟨l, b, h⟩ := hcounted d
    change v.chan d = { s.chan d with bytesCur := (v.chan d).bytesCur, sendLeft := (v.chan d).sendLeft }
    rw [h]
    rfl
  · rw [hsm, hframe]
    rfl

/-- Sixteen pieces make a chunk COPIED. -/
theorem chunkCopied_next {s : State} {u : MoveUnit} (hunit : s.sm.move.unit = some u) (hstart : s.sm.start = {}) (hheld : s.sm.move.held = false)
    (hlost : s.sm.move.lost = false) (hchunk : s.sm.move.chunk + 1 < s.unitChunks u) (hpiece : s.sm.move.piece = 16)
    (hmirrors : s.mirrorsPending = false) (hfreed : s.unitFreed = false) (hk : s.sm.move.kind ≠ 3) :
    exec .chunkCopied s = .next ((s.setMove { s.sm.move with chunk := s.sm.move.chunk + 1, piece := 0 }).count { ev := 0x079 }) := by
  obtain ⟨v, hv⟩ : ∃ v, v = (s.setMove { s.sm.move with chunk := s.sm.move.chunk + 1, piece := 0 }).count { ev := 0x079 } := ⟨_, rfl⟩
  have hkv : v.sm.move.kind ≠ 3 := by rw [hv]; exact hk
  have hstops : v.replaceStops = v := by
    unfold State.replaceStops
    exact if_neg fun h => hkv h.1
  have hsv : v.sm.start.kind = 0 := by
    rw [hv]
    change s.sm.start.kind = 0
    rw [hstart]
  have hon : v.handOn = v := if_pos (.inl hsv)
  change execChunkCopied s = _
  unfold execChunkCopied
  dsimp only
  rw [hunit]
  dsimp only
  rw [if_neg (by simp [hheld]), if_neg (by simp [hfreed]), if_neg (by simp [hlost]), if_neg (by omega), if_neg (by simp [hpiece, hmirrors]),
    if_neg (by omega), ← hunit, ← hv, hstops, hon]

/-- A held migration goes on once its unit can begin. -/
theorem moveResume_begins {s v : State} (hheld : s.sm.move.held = true) (hstart : s.sm.start = {}) (hrun : s.power.st = 0)
    (hunit : s.sm.move.unit = none) (hk : s.sm.move.kind = 2) (hfree : s.allocFree = true)
    (hlane : s.laneCh s.sm.move.set s.sm.move.lane ≠ s.sm.move.dest) (hserve : s.inService s.sm.move.dest = true)
    (hdom : s.setDomain s.sm.move.set = some (s.domainOf s.sm.move.dest))
    (hpark : s.sm.parked.unit ≠ some (.lane s.sm.move.set s.sm.move.lane))
    (hbegin : s.beginUnit (.lane s.sm.move.set s.sm.move.lane) s.sm.move.dest = some v) : exec .moveResume s = .next v := by
  have hfreed : s.unitFreed = false := by
    unfold State.unitFreed
    rw [hunit]
  have hnext : s.nextStep = some (.lane s.sm.move.set s.sm.move.lane) := by
    unfold State.nextStep
    dsimp only
    rw [if_neg (by omega), if_pos ⟨hk, hlane⟩]
  have htry : s.tryUnit (.lane s.sm.move.set s.sm.move.lane) = some v := by
    have hdest : s.stepDest (.lane s.sm.move.set s.sm.move.lane) = some s.sm.move.dest := by
      unfold State.stepDest
      dsimp only
      rw [if_neg (by omega), if_pos ⟨hserve, hdom⟩]
    unfold State.tryUnit
    rw [if_neg hpark, hdest]
    exact hbegin
  have hresume : s.resumeUnit = v := by
    unfold State.resumeUnit
    rw [if_neg (by simp [hfree]), if_neg (by omega), hnext]
    dsimp only
    rw [htry]
    rfl
  change execMoveResume s = _
  unfold execMoveResume
  dsimp only
  rw [if_neg (by omega), if_neg (by rw [hstart]; simp), if_neg (by simp [hheld]), if_neg (by simp [hfreed]), hunit]
  dsimp only
  rw [hresume]

/-- REPLACE_ROUND in a cycle in which a round may run. -/
theorem exec_replaceRound {s : State} (hen : s.rd R.SM_CTL_REPLACE_EN ≠ 0) (hrun : s.power.st = 0) (hk : s.sm.move.kind = 0)
    (hwait : s.sm.roundWait = false) (hconf : s.conf.isSome = true) (hfree : s.allocFree = true) :
    (s.replaceTask = none → exec .replaceRound s = .next { s with sm := { s.sm with roundWait := true } }) ∧
      ∀ u d, s.replaceTask = some (u, d) →
        exec .replaceRound s = .next (((s.setMove { kind := 3 }).beginUnit u d).getD ((s.setMove { kind := 3 }).holdMove)) := by
  have hsome : s.conf.isNone = false := by simpa using hconf
  have hgo : ¬ (s.rd R.SM_CTL_REPLACE_EN = 0 ∨ s.power.st ≠ 0 ∨ s.sm.move.kind ≠ 0 ∨ s.sm.roundWait = true ∨ s.conf.isNone = true ∨ s.allocFree = false) := by
    simp [hen, hrun, hk, hwait, hsome, hfree]
  refine ⟨fun h => ?_, fun u d h => ?_⟩
  all_goals
    change execReplaceRound s = _
    unfold execReplaceRound
    rw [if_neg hgo, h]

/-- The first task comes first. -/
theorem State.replaceTask_first {s : State} {p : MoveUnit × Nat} (h : s.task1 = some p) : s.replaceTask = some p := by
  unfold State.replaceTask
  rw [h]
  rfl

end Sys2Proof.Machine

open Sys2Proof Sys2Proof.Machine

/-- Settles O54: a move begins at once where none stands in its way (`startMove_idle`) and then has nothing left, no destination, or a unit to begin;
a piece is one write of its bytes. -/
theorem moves : Obligations.Moves := by
  unfold Obligations.Moves
  intro s w tgt
  refine ⟨?_, ?_, ?_, ?_, ?_, ?_, ?_, ?_⟩
  · intro ch hopen hmove hstart hpark hw hch hret hcancel hpresent hretired hout
    have hgo := State.evacGo_idle hmove hstart hch hpresent hretired
    have hexec := exec_evacStart hopen (tgt := tgt) (hw.trans hch) hret hcancel (by rw [hgo])
    rw [hgo] at hexec
    refine ⟨fun hnext hzero _ => ⟨_, hexec, ?_⟩, fun hnext hfree hnone => ⟨_, hexec, ?_⟩⟩
    · dsimp only
      rw [hzero]
      exact evacStart_nothing hmove hstart hpark hout hnext
    · exact evacStart_stalled hmove hstart hpark hout hopen.2 hfree hnext hnone _
  · intro hopen hch hret hbit
    have hexec := exec_evacCancel hopen (tgt := tgt) hch hret hbit
    refine ⟨fun hk => ⟨_, hexec, evacCancel_waiting hk⟩, fun hstart hk => ⟨fun hunit => ⟨_, hexec, evacCancel_between hstart hk hunit⟩, fun hunit => ?_⟩⟩
    rw [hexec, evacCancel_unit hstart hk hunit]
  · intro d hopen hmove hstart hpark hset hlane hbits hd hserve hdom hthere
    subst hd
    have hgo := migrateGo_done hmove hstart hpark hserve hdom hthere
    have hexec := exec_migrateStart hopen (tgt := tgt) hset hlane hbits (by rw [hgo])
    rw [hgo] at hexec
    refine ⟨_, hexec, ?_⟩
    dsimp only
    refine ⟨?_, (State.setBit_rd_self s _ 0 0).trans (by decide), State.raise_evt_bit _ _ _, rfl, s.setBit_regsKept _ _ _⟩
    exact hmove
  · intro ch hen hauto hrun hout hmove hstart hpark hempty
    have hmoving : s.moving = false := by
      unfold State.moving
      rw [hmove, hstart]
      rfl
    have hexec : exec (.autoEvacStart ch) s = .next ((s.setChan ch { s.chan ch with autoEvac := false }).startEvac ch false) :=
      if_neg (by simp [hen, hauto, hrun, hout, hmoving, hempty])
    have hout' : (s.setChan ch { s.chan ch with autoEvac := false }).outOfService ch = true := by
      unfold State.outOfService at hout ⊢
      rw [State.setChan_chan_self]
      exact hout
    obtain ⟨h1, h2, h3, h4, h5, h6⟩ := autoEvac_starts hout' hmove hstart hpark hempty false
    refine ⟨_, hexec, h1, h2, h3, h4, ?_, h6⟩
    exact (congrArg (fun c => (Tab.get ({} : Chan) c ch).autoEvac) h5).trans (congrArg Chan.autoEvac (State.setChan_chan_self s ch _))
  · intro u src dst n hunit hstart hcopy hrun hsixteen hchunk hfreed hready hfree hpiece _ hremap
    exact pieceCopied hunit hstart hcopy hrun hsixteen hchunk hfreed hready hfree hpiece hremap
  · intro u hunit hstart hheld hlost hchunk hpiece hmirrors hfreed hk
    exact ⟨_, chunkCopied_next hunit hstart hheld hlost hchunk hpiece hmirrors hfreed hk, rfl, rfl⟩
  · intro v hheld hstart hrun hunit hk hfree hlane hserve hdom hpark hbegin
    exact moveResume_begins hheld hstart hrun hunit hk hfree hlane hserve hdom hpark hbegin
  · intro hen hrun hk hwait hconf hfree
    obtain ⟨hnone, hsome⟩ := exec_replaceRound hen hrun hk hwait hconf hfree
    refine ⟨fun h1 h2 h3 => hnone ?_, fun u d v htask hbegin => ?_, fun u d htask hbegin => ?_⟩
    · unfold State.replaceTask
      rw [h1, h2, h3]
      rfl
    · rw [hsome u d (State.replaceTask_first htask), hbegin, Option.getD_some]
    · rw [hsome u d (State.replaceTask_first htask), hbegin, Option.getD_none]
end

section
/-! The front end of a channel, refresh debt, power-down and the return of a read (R130, R296, R315, R326, R333). -/

namespace Sys2Proof.Machine
open Sys2Proof

/-! ### The front end -/

/-- At the present cycle nothing elapses. -/
theorem State.atCycle_now {s : State} {c : Nat} (h : s.cclk = c) : s.atCycle c = s := by
  unfold State.atCycle State.elapse
  rw [h, Nat.sub_self]
  split <;> rfl

/-- Deficit round robin changes the front end's deficits, pointer and turn. -/
theorem State.drrPick_ctl (s : State) (l : List (Option Piece)) (fuel : Nat) (x : Chan) (n : Nat) : (s.drrPick l fuel x n).2.1.ctl = x.ctl := by
  induction fuel generalizing x n with
  | zero => rfl
  | succ fuel ih =>
    unfold State.drrPick
    extract_lets go c
    have hgo : ∀ y d m, (go y d m).2.1.ctl = y.ctl := by
      intro y d m
      simp only [go]
      split
      · exact ih _ _
      · split
        · rfl
        · exact ih _ _
    split
    · exact hgo _ _ _
    · split
      · exact ih _ _
      · exact hgo _ _ _

/-- What passes next leaves the controller's entries as they are. -/
theorem State.pick_ctl {s : State} {ch : Nat} {p : Piece} {x : Chan} {n : Nat} (h : s.pick ch = some (p, x, n)) : x.ctl = (s.chan ch).ctl := by
  unfold State.pick at h
  extract_lets y l at h
  split at h
  · exact absurd h (by simp)
  · next q _ =>
    split at h
    · split at h
      · obtain ⟨-, rfl, -⟩ : q.1 = p ∧ y = x ∧ 0 = n := by simpa using h
        rfl
      · exact absurd h (by simp)
    · have hdrr := s.drrPick_ctl ((List.range 15).map fun c => State.headOf c l) 4096 y 0
      split at h
      · next r x' m heq =>
        rw [heq] at hdrr
        split at h
        · obtain ⟨-, rfl, -⟩ : r = p ∧ x' = x ∧ m = n := by simpa using h
          exact hdrr
        · exact absurd h (by simp)
      · exact absurd h (by simp)

theorem State.settle_chans (s : State) (id : Option Nat) : (s.settle id).chans = s.chans := by
  unfold State.settle
  split
  · rfl
  · split
    · rfl
    · split <;> rfl

/-- An unguarded entry that passes joins the controller's entries. -/
theorem State.passEntry_chans {s : State} {ch : Nat} {p : Piece} (hguard : p.q.sub.guarded = false) (x : Chan) :
    ∃ y : Chan, (s.passEntry ch p x).chans = (s.setChan ch y).chans ∧
      y.ctl = x.ctl ++ [s.mkEntry ch p (p.q.sub.addr + 32 * p.off) p.q.sub.bsw false] := by
  unfold State.passEntry
  extract_lets q b e es q' whole cq y occ esc lifted s1 s2 s3 s4
  have hy : y.ctl = x.ctl ++ es := rfl
  have hes : es = [e] := if_neg (by simp [q, hguard])
  have h2 : s2.chans = (s.setChan ch y).chans := rfl
  clear_value s2 y es lifted esc whole
  refine ⟨y, ?_, hy.trans (by rw [hes])⟩
  · have h3 : s3.chans = s2.chans := by
      simp only [s3]
      split <;> rfl
    have h4 : s4.chans = s3.chans := by
      simp only [s4]
      split <;> rfl
    split
    · rw [State.settle_chans, h4, h3, h2]
    · rw [h4, h3, h2]

theorem exec_entryPass {s : State} {ch c : Nat} (hc : s.cclk = c) {p : Piece} {x : Chan} {n : Nat} (hmay : s.mayPass ch = true)
    (hpick : s.pick ch = some (p, x, n)) :
    exec (.entryPass ch c) s = .next ((s.count { ev := 0x0D3, n := n, ch := some ch }).passEntry ch p x) := by
  change execEntryPass ch c s = _
  unfold execEntryPass
  rw [State.atCycle_now hc]
  dsimp only
  rw [if_neg (by simp [hmay]), hpick]

/-- The entry chosen passes to the controller with its place in the DRAM. -/
theorem entryPassed {s : State} {ch c : Nat} (hc : s.cclk = c) {p : Piece} {x : Chan} {n : Nat} (hmay : s.mayPass ch = true)
    (hpick : s.pick ch = some (p, x, n)) (hguard : p.q.sub.guarded = false) :
    Runs (.entryPass ch c) s fun t =>
      ∃ e, (t.chan ch).ctl = (s.chan ch).ctl ++ [e] ∧ e.seq = p.q.seq ∧ e.write = p.q.sub.write ∧ e.cols.length = p.n ∧
        (let l := mapAddr (s.densityOf ch) (p.q.sub.addr + 32 * p.off) p.q.sub.bsw
         e.rank = l.rank ∧ e.bank = l.bank ∧ e.row = l.row) ∧
        (∀ d, d ≠ ch → t.chan d = s.chan d) := by
  obtain ⟨y, hchans, hctl⟩ := (s.count { ev := 0x0D3, n := n, ch := some ch }).passEntry_chans (ch := ch) hguard x
  have hchan : ∀ d, ((s.count { ev := 0x0D3, n := n, ch := some ch }).passEntry ch p x).chan d = (s.setChan ch y).chan d := fun d =>
    congrArg (fun c => Tab.get ({} : Chan) c d) hchans
  refine ⟨_, exec_entryPass hc hmay hpick, (s.count { ev := 0x0D3, n := n, ch := some ch }).mkEntry ch p (p.q.sub.addr + 32 * p.off) p.q.sub.bsw false, ?_, rfl, rfl, ?_, ⟨rfl, rfl, rfl⟩, fun d hd => (hchan d).trans (State.setChan_chan_ne s hd y)⟩
  · rw [hchan, State.setChan_chan_self, hctl, State.pick_ctl hpick]
  · change ((List.range p.n).map _).length = p.n
    rw [List.length_map, List.length_range]

/-! ### Refresh debt and power-down -/

theorem State.debtMax_chans (s : State) (ch r : Nat) : (s.debtMax ch r).chans = s.chans := by
  unfold State.debtMax
  split <;> rfl

/-- A refresh that has become forced is noted and raised. -/
theorem State.debtMax_forced {s : State} {ch r : Nat} (h : s.refForced ch r = true) :
    (s.debtMax ch r).rd R.CH_STATUS_DEBT_MAX ch = 1 ∧ bit ((s.debtMax ch r).evt (9 + ch / 16)).pending (ch % 16) = true := by
  unfold State.debtMax
  rw [if_pos h]
  exact ⟨(State.setBit_rd_self s _ ch 0).trans (by decide), State.raise_evt_bit _ _ _⟩

theorem State.debtMax_only (s : State) (ch r : Nat) :
    s.debtMax ch r = { s with regs := (s.debtMax ch r).regs, bitsNow := (s.debtMax ch r).bitsNow, evts := (s.debtMax ch r).evts } ∧
      s.regsKept (s.debtMax ch r) [⟨R.CH_STATUS_DEBT_MAX, ch, 0⟩] := by
  unfold State.debtMax
  split
  · exact ⟨rfl, s.setBit_regsKept _ _ _⟩
  · exact ⟨rfl, s.regsKept_refl _⟩

/-- Whether the next refresh is forced does not depend on DEBT_MAX. -/
theorem State.refForced_congr {s t : State} {ch : Nat} (hchan : t.chan ch = s.chan ch)
    (hkept : s.regsKept t [⟨R.CH_STATUS_DEBT_MAX, ch, 0⟩]) (r : Nat) :
    t.refForced ch r = s.refForced ch r := by
  have hunit : t.unitU ch = s.unitU ch := by
    unfold State.unitU
    rw [hkept.rd (by simp; decide) ch 0]
  have hurgent : t.rd R.CH_REF_REF_URGENT ch = s.rd R.CH_REF_REF_URGENT ch := hkept.rd (by simp; decide) ch 0
  unfold State.refForced
  rw [hchan, hunit, hurgent]

theorem exec_refreshAccrual {s : State} {ch r : Nat} (hserve : s.inService ch = true) (hpwr : (s.chan ch).pwr < 2) (hr : r < s.ranksOf ch) (ck : Nat) :
    exec (.refreshAccrual ch r ck) s = .next
      (if s.refForced ch r then s.setChan ch ((s.chan ch).setRank r { (s.chan ch).rankAt r with debt := ((s.chan ch).rankAt r).debt + 1 })
       else (s.setChan ch ((s.chan ch).setRank r { (s.chan ch).rankAt r with debt := ((s.chan ch).rankAt r).debt + 1 })).debtMax ch r) := by
  change execRefreshAccrual ch r ck s = _
  unfold execRefreshAccrual
  dsimp only
  rw [if_neg (by simp [hserve, hpwr]; omega)]

/-- Refresh debt accrues by 1. -/
theorem refreshAccrued {s : State} {ch r : Nat} (hserve : s.inService ch = true) (hpwr : (s.chan ch).pwr < 2) (hr : r < s.ranksOf ch) (ck : Nat) :
    Runs (.refreshAccrual ch r ck) s fun t =>
      t.chan ch = (s.chan ch).setRank r { (s.chan ch).rankAt r with debt := ((s.chan ch).rankAt r).debt + 1 } ∧
      (∀ d, d ≠ ch → t.chan d = s.chan d) ∧
      (t.refForced ch r = true → s.refForced ch r = false → t.rd R.CH_STATUS_DEBT_MAX ch = 1 ∧
        bit (t.evt (9 + ch / 16)).pending (ch % 16) = true) ∧
      t = { s with chans := t.chans, regs := t.regs, bitsNow := t.bitsNow, evts := t.evts } ∧
        s.regsKept t [⟨R.CH_STATUS_DEBT_MAX, ch, 0⟩] := by
  refine ⟨_, exec_refreshAccrual hserve hpwr hr ck, ?_⟩
  dsimp only
  obtain ⟨x, hx⟩ : ∃ x, x = (s.chan ch).setRank r { (s.chan ch).rankAt r with debt := ((s.chan ch).rankAt r).debt + 1 } := ⟨_, rfl⟩
  rw [← hx]
  have hself : (s.setChan ch x).chan ch = x := State.setChan_chan_self s ch x
  have hother : ∀ d, d ≠ ch → (s.setChan ch x).chan d = s.chan d := fun d hd => State.setChan_chan_ne s hd x
  cases hforced : s.refForced ch r
  · rw [if_neg (by simp)]
    have hchan : ∀ d, ((s.setChan ch x).debtMax ch r).chan d = (s.setChan ch x).chan d := fun d =>
      congrArg (fun c => Tab.get ({} : Chan) c d) (State.debtMax_chans _ ch r)
    obtain ⟨hframe, hkept⟩ := (s.setChan ch x).debtMax_only ch r
    refine ⟨(hchan ch).trans hself, fun d hd => (hchan d).trans (hother d hd), fun h _ => State.debtMax_forced ?_, ?_, hkept⟩
    · exact (State.refForced_congr (hchan ch) hkept r).symm.trans h
    · rw [hframe]
      rfl
  · rw [if_pos rfl]
    exact ⟨hself, hother, fun _ h => absurd h (by simp), rfl, s.regsKept_refl _⟩

/-- An idle rank enters power-down. -/
theorem powerDownEntered {s : State} {ch r ck : Nat} (hwait : s.pdWaits ch ck (s.chan ch) r = true) (hopen : (s.chan ch).openBanks r = [])
    (hready : ((s.chan ch).rankAt r).ready ≤ ck) (hcmd : (s.chan ch).cmdAt ≤ ck) :
    Runs (.powerDownEntry ch r ck) s fun t =>
      t.chan ch = { (s.chan ch).setRank r { (s.chan ch).rankAt r with pd := true, pdAt := ck } with cmdAt := ck + 1 } ∧
      (∀ d, d ≠ ch → t.chan d = s.chan d) ∧ t = { s with chans := t.chans, regs := t.regs, meas := t.meas } ∧
        s.regsKept t [⟨R.CH_PD_CNT_COUNT, ch, 0⟩] := by
  have hpd : ((s.chan ch).rankAt r).pd = false := by
    unfold State.pdWaits at hwait
    simp only [Bool.and_eq_true, Bool.not_eq_true'] at hwait
    tauto
  have hidle : (s.chan ch).idleLegal ck r = true := by
    unfold Chan.idleLegal
    simp [hpd, hready]
  have hexec : exec (.powerDownEntry ch r ck) s = .next
      (((s.setChan ch { (s.chan ch).setRank r { (s.chan ch).rankAt r with pd := true, pdAt := ck } with cmdAt := ck + 1 }).bump
        R.CH_PD_CNT_COUNT ch 0 1).count { ev := 0x101, ch := some ch }) := by
    change execPowerDownEntry ch r ck s = _
    unfold execPowerDownEntry
    dsimp only
    rw [if_neg (by simp [hwait, hopen, hidle]; omega)]
  exact ⟨_, hexec, State.setChan_chan_self s ch _, fun d hd => State.setChan_chan_ne s hd _, rfl, State.bump_regsKept _ _ _ _ _⟩

end Sys2Proof.Machine
end

section
/-! A read returns to its slice (R130). -/

namespace Sys2Proof.Machine
open Sys2Proof

/-- Where the link has no error correction, its bursts meet no error. -/
theorem State.linkBursts_plain {s : State} {ch : Nat} (h : s.option ch 0 = false) (q : QEnt) (link : List Nat) :
    s.linkBursts ch q link = ({ q with sent := [], again := true }, s) := by
  have hstep : ∀ (b : CEnt) (n : Nat), s.linkOutcome ch q.again b n = (0, 0, s) := fun b n => by
    unfold State.linkOutcome
    rw [h]
    rfl
  unfold State.linkBursts
  extract_lets r src
  have hr : r = (([], q), s) := by
    refine foldl_fixed fun i _ => ?_
    dsimp only
    split
    · rfl
    · rw [hstep]
      rfl
  have hsrc : src = q := congrArg (fun p => p.1.2) hr
  rw [hsrc, hr]

/-- One linear atom without errors and without check bytes is as it was read. -/
theorem State.readAtoms_one {s : State} {q : QEnt} (hone : q.sub.atoms = 1) (hlost : q.lost = false) (hguard : q.sub.guarded = false)
    (hbad : q.bad = []) (hcbad : q.cbad = []) (hc : q.cdata = []) (hlen : q.data.length = 32) (hall : (q.data.all (·.isSome)) = true) (ch : Nat) :
    s.readAtoms ch q = ([(0, q.data.map fun x => x.getD 0)], s) := by
  have hdata : ∀ n, delivered n [] q.data = q.data := fun _ => rfl
  have hcdata : ∀ n, delivered n [] [] = [] := fun _ => rfl
  have htake : q.data.take 32 = q.data := List.take_of_length_le (by omega)
  have hsome : none ∉ q.data := fun h => absurd (List.all_eq_true.mp hall none h) (by simp)
  unfold State.readAtoms
  extract_lets u sent n s'
  have hs : s' = s := if_pos (by rw [hbad, hcbad]; rfl)
  have hone' : u.atoms = 1 := hone
  rw [hs, hone', List.range_one, List.foldl_cons, List.foldl_nil, hbad, hcbad, hc]
  simp [u, hdata, hcdata, htake, hlost, hguard, hsome]

/-- A linear fill reaches its slice. -/
theorem State.deliver_linear {s : State} {q : QEnt} (hkind : q.sub.kind = .fill) (hlin : q.sub.tag.lin = true) (d : List Byte) (failed : Bool) :
    s.deliver q [(0, d)] failed = s.arrive q.sub.g { sub := { q.sub with unit := q.sub.unit + 0 }, st := 1, data := d.map BitVec.toNat, corr := false } := by
  unfold State.deliver
  extract_lets u bytes fl dec x
  rw [if_neg (by rw [show u.kind = .fill from hkind]; decide), if_pos hlin]
  rfl

/-- In a slice without waiting requests no READ keeps a read's space. -/
theorem State.keeper_none {s : State} (h : s.waits = []) (u : SubReq) : s.keeper u = none := by
  have hof : ∀ id, s.waitOf id = none := fun id => by
    unfold State.waitOf
    rw [h]
    rfl
  have hbind : (u.wait.bind s.waitOf) = none := by
    cases u.wait with
    | none => rfl
    | some id => exact hof id
  unfold State.keeper
  rw [hbind]

/-- A read whose bursts are all delivered returns to its slice. -/
theorem exec_readDataReturn {s : State} {ch : Nat} {q : QEnt} {l : List QEnt} (hdone : (s.chan ch).done = q :: l)
    (hturn : s.returnTurn q.sub.g = some ch) (hlost : q.lost = false) (hopt : s.option ch 0 = false) :
    exec (.readDataReturn ch []) s = .next ((s.setChan ch { s.chan ch with done := l }).readBack ch { q with sent := [], again := true }) := by
  have hplain : (s.setChan ch { s.chan ch with done := l }).linkBursts ch q [] = ({ q with sent := [], again := true }, s.setChan ch { s.chan ch with done := l }) :=
    State.linkBursts_plain (s := s.setChan ch { s.chan ch with done := l }) hopt q []
  change execReadDataReturn ch [] s = _
  unfold execReadDataReturn
  rw [hdone]
  dsimp only
  rw [if_neg (by simp [hturn]), if_neg (show ¬ q.lost = true by simp [hlost]), hplain, if_neg (by simp)]

/-- The oldest read returns its bytes to its slice. -/
theorem readReturned {s : State} {ch : Nat} {q : QEnt} {l : List QEnt} (hquiet : s.quiet) (hdone : (s.chan ch).done = q :: l)
    (hturn : s.returnTurn q.sub.g = some ch) (hlost : q.lost = false) (hhalf : q.sub.half = 0) (hlin : q.sub.tag.lin = true)
    (hguard : q.sub.guarded = false) (hkind : q.sub.kind = .fill) (hone : q.sub.atoms = 1) (hlen : q.data.length = 32)
    (hall : (q.data.all (·.isSome)) = true) (hc : q.cdata = []) (hbad : q.bad = []) (hcbad : q.cbad = []) (hopt : s.option ch 0 = false) :
    Runs (.readDataReturn ch []) s fun t =>
      (t.chan ch).done = l ∧ (t.group q.sub.g).lastRet = ch ∧
      ∃ a, queueOf t.arr q.sub.g = queueOf s.arr q.sub.g ++ [a] ∧ a.st = 1 ∧ a.sub.unit = q.sub.unit ∧ a.sub.tag = q.sub.tag ∧
        a.data = q.data.map (fun b => (b.getD 0).toNat) := by
  obtain ⟨hwaits, hheaders, hcells⟩ := hquiet
  refine ⟨_, exec_readDataReturn hdone hturn hlost hopt, ?_⟩
  dsimp only
  obtain ⟨q', hq'⟩ : ∃ q' : QEnt, q' = { q with sent := [], again := true } := ⟨_, rfl⟩
  have hsub : q'.sub = q.sub := by rw [hq']
  obtain ⟨u, hu⟩ : ∃ u, u = s.setChan ch { s.chan ch with done := l } := ⟨_, rfl⟩
  have hudone : (u.chan ch).done = l := by rw [hu, State.setChan_chan_self]
  have huwaits : u.waits = [] := by rw [hu]; exact hwaits
  have huheaders : u.hdrWait = [] := by rw [hu]; exact hheaders
  have hucells : ∀ g, queueOf u.enc g = [] := by rw [hu]; exact hcells
  have huarr : u.arr = s.arr := by rw [hu]; rfl
  rw [← hq', ← hu]
  obtain ⟨v, hv⟩ : ∃ v, v = u.setGroup q'.sub.g { u.group q'.sub.g with lastRet := ch } := ⟨_, rfl⟩
  have hatoms : v.readAtoms ch q' = ([(0, q'.data.map fun x => x.getD 0)], v) :=
    State.readAtoms_one (by rw [hsub]; exact hone) (by rw [hq']; exact hlost) (by rw [hsub]; exact hguard) (by rw [hq']; exact hbad)
      (by rw [hq']; exact hcbad) (by rw [hq']; exact hc) (by rw [hq']; exact hlen) (by rw [hq']; exact hall) ch
  obtain ⟨a, ha⟩ : ∃ a : Arrival, a = { sub := { q'.sub with unit := q'.sub.unit + 0 }, st := 1
                                        data := (q'.data.map fun x => x.getD 0).map BitVec.toNat, corr := false } := ⟨_, rfl⟩
  have hpart : (v.stamp q'.sub.sctag 7).deliverPart q' [(0, q'.data.map fun x => x.getD 0)] (!q'.bad.isEmpty) =
      (v.stamp q'.sub.sctag 7).arrive q'.sub.g a := by
    unfold State.deliverPart
    rw [if_pos (by rw [hsub]; exact hhalf), ha]
    exact State.deliver_linear (by rw [hsub]; exact hkind) (by rw [hsub]; exact hlin) _ _
  obtain ⟨w, hw⟩ : ∃ w, w = (v.stamp q'.sub.sctag 7).arrive q'.sub.g a := ⟨_, rfl⟩
  obtain ⟨m, hstamp⟩ : ∃ m, v.stamp q'.sub.sctag 7 = { v with meas := m } := by
    unfold State.stamp
    split
    · exact ⟨v.meas, rfl⟩
    · exact ⟨_, rfl⟩
  have hwframe : w = { u with groups := v.groups, meas := m, arr := Tab.insert q'.sub.g (queueOf s.arr q'.sub.g ++ [a]) s.arr } := by
    rw [hw, hstamp, ← huarr, hv]
    rfl
  have hgroups : v.groups = Tab.insert q'.sub.g { u.group q'.sub.g with lastRet := ch } u.groups := by rw [hv]; rfl
  have hback : ∃ x, u.readBack ch q' = State.pump x ∧ (x = w ∨ ∃ p y, x = w.setPort p y) := by
    unfold State.readBack
    dsimp only
    rw [State.keeper_none huwaits, ← hv, hatoms]
    dsimp only
    rw [hpart, ← hw]
    split
    · exact ⟨w, rfl, .inl rfl⟩
    · exact ⟨_, rfl, .inr ⟨_, _, rfl⟩⟩
  obtain ⟨x, hx, hxw⟩ := hback
  have hxframe : ∃ p, x = { w with ports := p } := by
    rcases hxw with rfl | ⟨p, y, rfl⟩
    · exact ⟨_, rfl⟩
    · exact ⟨_, rfl⟩
  obtain ⟨p, hxp⟩ := hxframe
  have hpump : x.linesOnly x.pump := State.pump_idle (by rw [hxp, hwframe]; exact huwaits) (by rw [hxp, hwframe]; exact huheaders)
    (by rw [hxp, hwframe]; exact hucells)
  unfold State.linesOnly at hpump
  rw [hx, hpump, hxp, hwframe]
  refine ⟨hudone, ?_, a, ?_, ?_, ?_, ?_, ?_⟩
  · change (Tab.get ({} : Group) v.groups q.sub.g).lastRet = ch
    rw [hgroups, hsub, Tab.get_insert_self]
  · change queueOf (Tab.insert q'.sub.g (queueOf s.arr q'.sub.g ++ [a]) s.arr) q.sub.g = _
    rw [hsub]
    exact Tab.get_insert_self _ _ _ _
  · rw [ha]
  · rw [ha, hsub]
    rfl
  · rw [ha, hsub]
  · rw [ha, List.map_map, hq']
    rfl

end Sys2Proof.Machine
end

section
/-! DRAM commands: what a command leaves as it is, and when it takes effect (R318, R324, R326). -/

namespace Sys2Proof.Machine
open Sys2Proof

/-! ### Other channels and the command bus -/

/-- Only channel `ch` has changed, and its command bus is taken as before. -/
def State.within (s t : State) (ch : Nat) : Prop := (∀ d, d ≠ ch → t.chan d = s.chan d) ∧ (t.chan ch).cmdAt = (s.chan ch).cmdAt

theorem State.within_of_chans {s t : State} (h : t.chans = s.chans) (ch : Nat) : s.within t ch :=
  ⟨fun d _ => congrArg (fun c => Tab.get ({} : Chan) c d) h, congrArg (fun c => (Tab.get ({} : Chan) c ch).cmdAt) h⟩

theorem State.within.trans {s t u : State} {ch : Nat} (h : s.within t ch) (k : t.within u ch) : s.within u ch :=
  ⟨fun d hd => (k.1 d hd).trans (h.1 d hd), k.2.trans h.2⟩

theorem State.within_setChan (s : State) (ch : Nat) {x : Chan} (h : x.cmdAt = (s.chan ch).cmdAt) : s.within (s.setChan ch x) ch :=
  ⟨fun _ hd => State.setChan_chan_ne s hd x, by rw [State.setChan_chan_self, h]⟩

theorem State.within_ite {s t u : State} {ch : Nat} {p : Prop} [Decidable p] (h : s.within t ch) (k : s.within u ch) : s.within (if p then t else u) ch := by
  split
  · exact h
  · exact k

theorem State.within_refl (s : State) (ch : Nat) : s.within s ch := ⟨fun _ _ => rfl, rfl⟩

theorem State.within_foldl {α : Type} {f : State → α → State} {ch : Nat} (hf : ∀ u a, State.within u (f u a) ch) (l : List α) (s : State) :
    s.within (l.foldl f s) ch :=
  foldl_keeps (fun t => s.within t ch) f (fun u a h => h.trans (hf u a)) l s (s.within_refl ch)

theorem State.within_rateRead (s : State) (ch r code : Nat) : s.within (s.rateRead ch r code) ch := by
  unfold State.rateRead
  extract_lets raised x k s1 s2 s3 s4
  have h1 : s.within s1 ch := State.within_setChan s ch rfl
  have h2 : s1.within s2 ch := by
    simp only [s2]
    exact State.within_ite (State.within_of_chans rfl ch) (State.within_refl _ ch)
  have h3 : s2.within s3 ch := by
    simp only [s3]
    exact State.within_ite (State.within_of_chans rfl ch) (State.within_refl _ ch)
  have h4 : s3.within s4 ch := by
    simp only [s4]
    exact State.within_ite (State.within_of_chans (State.testInput_chans _) ch) (State.within_refl _ ch)
  exact ((h1.trans h2).trans (h3.trans h4)).trans (State.within_ite (State.within_of_chans rfl ch) (State.within_refl _ ch))

theorem State.within_oscResult (s : State) (ch r : Nat) : s.within (s.oscResult ch r) ch := by
  unfold State.oscResult
  extract_lets oi oo x k dI dO k' s1 m
  have h1 : s.within s1 ch := State.within_setChan s ch rfl
  exact h1.trans (State.within_ite (State.within_of_chans rfl ch) (State.within_refl _ ch))

theorem State.within_loadTrained (s : State) (ch : Nat) : s.within (s.loadTrained ch) ch := by
  refine State.within_foldl (fun u r => ?_) _ _
  unfold State.loadRank
  extract_lets v s1 s2 x
  have h1 : s1.chans = u.chans := by
    refine foldl_keeps (fun t : State => t.chans = u.chans) _ ?_ _ u rfl
    intro w b hw
    exact hw
  clear_value s1 v
  have h2 : s2.chans = s1.chans := rfl
  clear_value s2
  refine State.within.trans (State.within_of_chans (h2.trans h1) ch) ?_
  generalize (List.range 15).foldl _ _ = learned
  exact State.within_setChan s2 ch rfl

theorem State.within_startSeq (s : State) (ch kind : Nat) (tgt : Option Nat) (full : Bool) : s.within (s.startSeq ch kind tgt full) ch := by
  unfold State.startSeq
  extract_lets c k s1 s2 s3 s4 c1 c2
  have h1 : s.within s1 ch := by
    simp only [s1]
    exact State.within_ite (State.within_of_chans s.testInput_chans ch) (State.within_refl _ ch)
  have h2 : s1.within s2 ch := State.within_of_chans (State.seqEnd_chans s1 ch) ch
  have h3 : s2.within s3 ch := by
    simp only [s3]
    exact State.within_ite (State.within_setChan _ ch rfl) (State.within_refl _ ch)
  have h4 : s3.within s4 ch := by
    simp only [s4]
    exact State.within_ite (s3.within_loadTrained ch) (State.within_refl _ ch)
  have hc : c2.cmdAt = (s4.chan ch).cmdAt := by
    simp only [c2]
    split <;> rfl
  exact ((h1.trans h2).trans (h3.trans h4)).trans (State.within_setChan s4 ch hc)

/-- The command bus is taken up to after CK cycle `ck`, and only channel `ch` has changed. -/
def State.commanded (s t : State) (ch ck : Nat) : Prop := ck < (t.chan ch).cmdAt ∧ ∀ d, d ≠ ch → t.chan d = s.chan d

theorem State.commanded.within {s t u : State} {ch ck : Nat} (h : s.commanded t ch ck) (k : t.within u ch) : s.commanded u ch ck :=
  ⟨by rw [k.2]; exact h.1, fun d hd => (k.1 d hd).trans (h.2 d hd)⟩

theorem State.commanded_setChan (s : State) {t : State} (ch : Nat) {ck : Nat} {x : Chan} (h : ck < x.cmdAt) (ht : t.chans = (s.setChan ch x).chans) :
    s.commanded t ch ck := by
  have hchan : ∀ d, t.chan d = (s.setChan ch x).chan d := fun d => congrArg (fun c => Tab.get ({} : Chan) c d) ht
  refine ⟨?_, fun d hd => (hchan d).trans (State.setChan_chan_ne s hd x)⟩
  rw [hchan, State.setChan_chan_self]
  exact h

theorem State.stamp_chans (s : State) (tg : Option Nat) (k : Nat) : (s.stamp tg k).chans = s.chans := by
  unfold State.stamp
  split <;> rfl

/-- A column command of an entry that has columns left. -/
theorem State.commanded_issueCol (s : State) (ch ck : Nat) {e : CEnt} (h : e.cols ≠ []) : s.commanded (s.issueCol ch ck e) ch ck := by
  unfold State.issueCol
  split
  · next hnil => exact absurd hnil h
  · extract_lets x bl32 rest n l lastData bg bgm cs k limit lifted reached x1 wtr x2 e' same b note ctl whole fly fin x3 s1 s2 s3 s4 s5 s6
    have hx : ck < x3.cmdAt := Nat.lt_succ_self ck
    have h1 : s.commanded s1 ch ck := State.commanded_setChan s ch hx rfl
    clear_value s1 reached
    have h2 : s1.within s2 ch := by
      simp only [s2]
      exact State.within_ite (State.within_of_chans rfl ch) (State.within_refl _ ch)
    have h3 : s2.within s3 ch := State.within_of_chans ((State.stamp_chans _ _ _).trans (State.stamp_chans _ _ _)) ch
    have h4 : s3.within s4 ch := State.within_of_chans rfl ch
    have h5 : s4.within s5 ch := by
      simp only [s5]
      exact State.within_ite (State.within_of_chans rfl ch) (State.within_refl _ ch)
    have h6 : s5.within s6 ch := State.within_of_chans rfl ch
    clear_value s6
    exact h1.within ((h2.trans h3).trans (((h4.trans h5).trans h6).trans
      (State.within_ite (State.within_of_chans rfl ch) (State.within_ite (State.within_of_chans rfl ch) (State.within_of_chans rfl ch)))))

/-- The entry of a column command is one of the controller's, with columns left. -/
def State.columnOf (s : State) (ch : Nat) : DCmd → Prop
  | .col seq off check => ∃ e, ((s.chan ch).ctl.find? fun e => e.seq == seq && e.off == off && e.check == check) = some e ∧ e.cols ≠ []
  | _ => True

/-- A refresh is counted, and its rank's next one noted. -/
theorem State.commanded_refresh {s u : State} {ch ck : Nat} (h : s.commanded u ch ck) (p : Bool) (o : Occ) (r : Nat) :
    s.commanded ((if p then u.count o else u).debtMax ch r) ch ck :=
  h.within (State.within_of_chans ((State.debtMax_chans _ ch r).trans (by cases p <;> rfl)) ch)

theorem State.commanded_set (s : State) (ch : Nat) {ck : Nat} {x : Chan} (h : ck < x.cmdAt) : s.commanded (s.setChan ch x) ch ck :=
  State.commanded_setChan s ch h rfl

/-- A command takes the command bus and changes its own channel only. -/
theorem State.commanded_issue (s : State) (ch ck : Nat) {c : DCmd} (hcol : s.columnOf ch c) (mr : MrrData) : s.commanded (s.issue ch ck c mr) ch ck := by
  have hlt : ck < ck + 1 := Nat.lt_succ_self ck
  have hlt2 : ck < ck + 2 := by omega
  unfold State.issue
  cases c with
  | pdx r | cas r | zqStart r | zqLatch r | oscStart r | oscStop r =>
    dsimp only
    refine State.commanded_set s ch ?_
    exact hlt
  | refPb r b =>
    dsimp only
    generalize (refCovers (s.bgMode ch) b).foldl _ (s.chan ch) = y
    refine State.commanded_refresh ?_ _ _ r
    refine State.commanded.within (State.commanded_set s ch ?_) (State.within_of_chans rfl ch)
    exact hlt
  | refAb r =>
    dsimp only
    generalize (List.range 16).foldl _ (s.chan ch) = y
    refine State.commanded_refresh ?_ _ _ r
    refine State.commanded.within (State.commanded_set s ch ?_) (State.within_of_chans rfl ch)
    exact hlt
  | rfm r b =>
    dsimp only
    refine State.commanded.within (State.commanded_set s ch ?_) (State.within_of_chans rfl ch)
    exact hlt
  | pre r b why =>
    dsimp only
    refine State.commanded.within (State.commanded_set s ch ?_)
      (State.within_ite (State.within_of_chans rfl ch) (State.within_ite (State.within_of_chans rfl ch) (State.within_of_chans rfl ch)))
    exact hlt
  | preAb r =>
    dsimp only
    generalize (List.range 16).foldl _ (s.chan ch) = y
    refine State.commanded.within (State.commanded_set s ch ?_) (State.within_of_chans rfl ch)
    exact hlt
  | act r b row seq =>
    dsimp only
    refine State.commanded.within (State.commanded_set s ch ?_) (State.within_of_chans (State.stamp_chans _ _ _) ch)
    exact hlt2
  | col seq off check =>
    obtain ⟨e, hfind, hne⟩ := hcol
    dsimp only
    rw [hfind]
    exact State.commanded_issueCol s ch ck hne
  | sre =>
    dsimp only
    split
    · refine State.commanded.within (State.commanded_set s ch ?_) (State.within_startSeq _ ch _ _ _)
      exact hlt
    · split
      · refine State.commanded.within (State.commanded_set s ch ?_) (State.within_of_chans rfl ch)
        exact hlt
      · refine State.commanded_set s ch ?_
        exact hlt
  | mrr r =>
    dsimp only
    refine State.commanded.within (State.commanded_set s ch ?_) ((State.within_rateRead _ ch _ _).trans (State.within_of_chans rfl ch))
    exact hlt
  | oscMrr r n =>
    dsimp only
    split
    · refine State.commanded.within (State.commanded_set s ch ?_) (State.within_of_chans rfl ch)
      exact hlt
    · refine State.commanded.within (t := State.oscResult _ ch r) ?_ (State.within_of_chans rfl ch)
      refine State.commanded.within ?_ (State.within_oscResult _ ch r)
      refine State.commanded.within (State.commanded_set s ch ?_) (State.within_of_chans rfl ch)
      exact hlt

end Sys2Proof.Machine
end

section
/-! The choice of a DRAM command and what an activate and a refresh do (R318, R324, R326); the obligation `ChannelCommands`. -/

namespace Sys2Proof.Machine
open Sys2Proof

/-! ### Where column commands come from -/

/-- A choice that gives no column command. -/
def noColumn (o : Option DCmd) : Prop := ∀ seq off check, o ≠ some (.col seq off check)

theorem noColumn_none : noColumn none := fun _ _ _ => by simp

theorem noColumn_ite {p : Prop} [Decidable p] {a b : Option DCmd} (h : noColumn a) (k : noColumn b) : noColumn (if p then a else b) := by
  split
  · exact h
  · exact k

theorem noColumn_findSome {α : Type} {f : α → Option DCmd} (h : ∀ a, noColumn (f a)) (l : List α) : noColumn (l.findSome? f) := fun seq off check hf => by
  obtain ⟨a, -, ha⟩ := List.exists_of_findSome?_eq_some hf
  exact h a seq off check ha

theorem noColumn_map {α : Type} {f : α → DCmd} (h : ∀ a, noColumn (some (f a))) (o : Option α) : noColumn (o.map f) := by
  cases o with
  | none => exact noColumn_none
  | some a => exact h a

theorem noColumn_refOrPre (s : State) (ch ck : Nat) (x : Chan) (r : Nat) : noColumn (s.refOrPre ch ck x r) := by
  unfold State.refOrPre
  refine noColumn_ite (noColumn_ite (fun _ _ _ => by simp) (noColumn_map (fun b _ _ _ => by simp) _)) ?_
  exact noColumn_ite (fun _ _ _ => by simp) (noColumn_ite (fun _ _ _ => by simp) noColumn_none)

theorem noColumn_refOffer (s : State) (ch ck : Nat) (x : Chan) (r : Nat) : noColumn (s.refOffer ch ck x r) := by
  unfold State.refOffer
  exact noColumn_ite (noColumn_ite (fun _ _ _ => by simp) noColumn_none) (noColumn_refOrPre s ch ck x r)

theorem noColumn_oscCmd (x : Chan) (ck r : Nat) : noColumn (x.oscCmd ck r) := by
  unfold Chan.oscCmd
  exact noColumn_ite noColumn_none (noColumn_ite (fun _ _ _ => by simp) (noColumn_ite (fun _ _ _ => by simp) fun _ _ _ => by simp))

theorem noColumn_group1 (s : State) (ch ck : Nat) (x : Chan) : noColumn (s.group1 ch ck x) := by
  unfold State.group1
  refine noColumn_findSome (fun r => ?_) _
  have href : noColumn (if s.refForced ch r then s.refOrPre ch ck x r else none) := noColumn_ite (noColumn_refOrPre s ch ck x r) noColumn_none
  have hrfm : noColumn ((List.range 16).findSome? fun b =>
      if x.rfmForced r b then
        if x.refBankLegal ck r b then some (DCmd.rfm r b) else if x.preLegal ck r b then some (DCmd.pre r b 0) else none
      else none) :=
    noColumn_findSome (fun b => noColumn_ite (noColumn_ite (fun _ _ _ => by simp) (noColumn_ite (fun _ _ _ => by simp) noColumn_none)) noColumn_none) _
  dsimp only
  split
  · next c hc => exact hc ▸ href
  · split
    · next c hc => exact hc ▸ hrfm
    · exact noColumn_ite (fun _ _ _ => by simp) (noColumn_ite (noColumn_oscCmd x ck r) noColumn_none)

theorem noColumn_group2 (ck : Nat) (x : Chan) : noColumn (State.group2 ck x) := by
  unfold State.group2
  split
  · refine noColumn_ite noColumn_none (noColumn_ite (noColumn_ite (fun _ _ _ => by simp) noColumn_none) (noColumn_ite noColumn_none ?_))
    exact noColumn_ite (fun _ _ _ => by simp) (noColumn_ite (fun _ _ _ => by simp) noColumn_none)
  · exact noColumn_none

theorem noColumn_group4 (s : State) (ch ck : Nat) (x : Chan) (l : List CEnt) : noColumn (s.group4 ch ck x l) := by
  unfold State.group4
  refine noColumn_findSome (fun e => noColumn_ite noColumn_none (noColumn_ite (noColumn_ite noColumn_none ?_) (noColumn_ite noColumn_none ?_))) _
  · exact noColumn_ite (fun _ _ _ => by simp) noColumn_none
  · exact noColumn_ite (fun _ _ _ => by simp) noColumn_none

theorem noColumn_group5 (s : State) (ch ck : Nat) (x : Chan) : noColumn (s.group5 ch ck x) := by
  unfold State.group5
  extract_lets rs busy opp rfm mr pull held shut idle
  have hopp : noColumn opp :=
    noColumn_ite noColumn_none (noColumn_findSome (fun r => noColumn_ite (noColumn_refOffer s ch ck x r) noColumn_none) _)
  have hrfm : noColumn rfm :=
    noColumn_ite noColumn_none (noColumn_findSome (fun r => noColumn_findSome (fun b => noColumn_ite (fun _ _ _ => by simp) noColumn_none) _) _)
  have hmr : noColumn mr := noColumn_findSome (fun r => noColumn_ite (fun _ _ _ => by simp) (noColumn_oscCmd x ck r)) _
  have hpull : noColumn pull :=
    noColumn_ite noColumn_none (noColumn_findSome (fun r => noColumn_ite (noColumn_refOffer s ch ck x r) noColumn_none) _)
  have hshut : noColumn shut := noColumn_findSome (fun r => noColumn_ite (fun _ _ _ => by simp) noColumn_none) _
  have hidle : noColumn idle :=
    noColumn_findSome (fun r => noColumn_findSome (fun b => noColumn_ite (fun _ _ _ => by simp) noColumn_none) _) _
  intro seq off check h
  obtain ⟨o, ho, heq⟩ := List.exists_of_findSome?_eq_some h
  clear_value opp rfm mr pull shut idle
  simp only [List.mem_cons, List.not_mem_nil, or_false] at ho
  obtain rfl | rfl | rfl | rfl | rfl | rfl := ho
  · exact hopp _ _ _ heq
  · exact hrfm _ _ _ heq
  · exact hmr _ _ _ heq
  · exact hpull _ _ _ heq
  · exact hshut _ _ _ heq
  · exact hidle _ _ _ heq

theorem noColumn_pdExit (s : State) (ch ck : Nat) (x : Chan) : noColumn (s.pdExit ch ck x) := by
  unfold State.pdExit
  exact noColumn_findSome (fun r => noColumn_ite (fun _ _ _ => by simp) noColumn_none) _

/-- A column command of group 3 is one of a listed entry. -/
theorem State.group3_column {s : State} {ch ck : Nat} {x : Chan} {dir : Bool} {l : List CEnt} {seq off : Nat} {check : Bool}
    (h : s.group3 ch ck x dir l = some (.col seq off check)) : ∃ e ∈ l, e.seq = seq ∧ e.off = off ∧ e.check = check := by
  obtain ⟨e, he, heq⟩ := List.exists_of_findSome?_eq_some h
  refine ⟨e, he, ?_⟩
  split at heq
  · split at heq
    · exact absurd heq (by simp)
    · split at heq
      · simpa using heq
      · exact absurd heq (by simp)
  · exact absurd heq (by simp)

/-- What a fold gathers comes from its list or its start. -/
theorem foldl_mem {α : Type} (f : List α → α → List α) (hf : ∀ t x a, a ∈ f t x → a = x ∨ a ∈ t) (l t : List α) {a : α} (h : a ∈ l.foldl f t) :
    a ∈ l ∨ a ∈ t := by
  induction l generalizing t with
  | nil => exact .inr h
  | cons b l ih =>
    rw [List.foldl_cons] at h
    rcases ih _ h with h | h
    · exact .inl (List.mem_cons_of_mem _ h)
    · rcases hf _ _ _ h with rfl | h
      · exact .inl List.mem_cons_self
      · exact .inr h

theorem mem_of_mem_insertBy {α : Type} {key : α → List Nat} {x a : α} {l : List α} (h : a ∈ insertBy key x l) : a = x ∨ a ∈ l := by
  induction l with
  | nil => simpa [insertBy] using h
  | cons b l ih =>
    unfold insertBy at h
    split at h
    · simpa using h
    · rcases List.mem_cons.mp h with rfl | h
      · simp
      · rcases ih h with h | h <;> simp [h]

/-- A sorted list has the elements of the list. -/
theorem mem_of_mem_sortBy {α : Type} {key : α → List Nat} {a : α} {l : List α} (h : a ∈ sortBy key l) : a ∈ l := by
  have hgen := foldl_mem (fun t x => insertBy key x t) (fun t x a h => mem_of_mem_insertBy h) l [] h
  simpa using hgen

/-- A column command is one of an entry of the controller. -/
theorem State.choose_column {s : State} {ch ck : Nat} {x : Chan} {dir : Bool} {seq off : Nat} {check : Bool}
    (h : s.choose ch ck x dir = some (.col seq off check)) : ∃ e ∈ x.ctl, e.seq = seq ∧ e.off = off ∧ e.check = check := by
  have hlift : ∀ e ∈ (s.lift x).ctl, ∃ f ∈ x.ctl, f.seq = e.seq ∧ f.off = e.off ∧ f.check = e.check := by
    intro e he
    obtain ⟨f, hf, rfl⟩ := List.mem_map.mp he
    refine ⟨f, hf, ?_⟩
    split <;> exact ⟨rfl, rfl, rfl⟩
  unfold State.choose at h
  extract_lets y l at h
  have hy : y = s.lift x := rfl
  clear_value y
  have hmem : ∀ e ∈ l, e ∈ (s.lift x).ctl := fun e he => by
    rw [← hy]
    exact mem_of_mem_sortBy he
  split at h
  · exact absurd h (by simp)
  · split at h
    · split at h
      · exact absurd h (noColumn_findSome (fun r => noColumn_ite (noColumn_refOrPre s ch ck y r) noColumn_none) _ _ _ _)
      · exact absurd h (by simp)
    · split at h
      · exact absurd h (by simp)
      · split at h
        · next c hc => exact absurd (hc.trans h) (noColumn_pdExit s ch ck y _ _ _)
        · split at h
          · next c hc => exact absurd (hc.trans h) (noColumn_group1 s ch ck y _ _ _)
          · split at h
            · exact absurd h (by simp)
            · split at h
              · next c hc => exact absurd (hc.trans h) (noColumn_group2 ck y _ _ _)
              · split at h
                · next c hc =>
                  obtain ⟨e, he, h1, h2, h3⟩ := State.group3_column (hc.trans h)
                  obtain ⟨f, hf, k1, k2, k3⟩ := hlift e (hmem e he)
                  exact ⟨f, hf, k1.trans h1, k2.trans h2, k3.trans h3⟩
                · split at h
                  · next c hc => exact absurd (hc.trans h) (noColumn_group4 s ch ck y l _ _ _)
                  · exact absurd h (noColumn_group5 s ch ck y _ _ _)

/-- A chosen command finds its entry. -/
theorem State.columnOf_choose {s : State} {ch ck : Nat} {dir : Bool} {c : DCmd} (h : s.choose ch ck (s.chan ch) dir = some c)
    (hcols : ∀ e ∈ (s.chan ch).ctl, e.cols ≠ []) : s.columnOf ch c := by
  cases c with
  | col seq off check =>
    obtain ⟨e, he, h1, h2, h3⟩ := State.choose_column h
    have hsome : ((s.chan ch).ctl.find? fun e => e.seq == seq && e.off == off && e.check == check).isSome = true :=
      List.find?_isSome.mpr ⟨e, he, by simp [h1, h2, h3]⟩
    obtain ⟨f, hf⟩ := Option.isSome_iff_exists.mp hsome
    exact ⟨f, hf, hcols f (List.mem_of_find?_eq_some hf)⟩
  | _ => trivial

/-! ### Activates and refreshes -/

theorem State.chan_of_chans {s t : State} (h : t.chans = s.chans) (ch : Nat) : t.chan ch = s.chan ch := congrArg (fun c => Tab.get ({} : Chan) c ch) h

/-- An activate opens its row and starts tRCD, tRAS and tRC. -/
theorem State.issue_act (s : State) (ch ck r b row seq : Nat) (mr : MrrData) :
    (((s.issue ch ck (.act r b row seq) mr).chan ch).bankAt r b).row = some row ∧
      (((s.issue ch ck (.act r b row seq) mr).chan ch).bankAt r b).colOk = ck + s.tp ch 0x01 ∧
      ck + s.tp ch 0x04 ≤ (((s.issue ch ck (.act r b row seq) mr).chan ch).bankAt r b).preOk ∧
      ck + s.tp ch 0x05 ≤ (((s.issue ch ck (.act r b row seq) mr).chan ch).bankAt r b).actOk := by
  unfold State.issue
  dsimp only
  have hchan : ∀ (x : Chan) (tag : Option Nat) (o : Occ), (((s.setChan ch x).stamp tag 5).count o).chan ch = x := fun x tag o =>
    (State.chan_of_chans (State.stamp_chans _ _ _) ch).trans (State.setChan_chan_self s ch x)
  rw [hchan]
  obtain ⟨k, hk⟩ : ∃ k : Bank, k = { (s.chan ch).bankAt r b with
      row := some row, hits := 0, raa := if ((s.chan ch).rankAt r).rfmReq then ((s.chan ch).bankAt r b).raa + 1 else ((s.chan ch).bankAt r b).raa
      lastCol := ck, colOk := ck + s.tp ch 0x01, preOk := max ((s.chan ch).bankAt r b).preOk (ck + s.tp ch 0x04)
      actOk := max ((s.chan ch).bankAt r b).actOk (ck + s.tp ch 0x05) } := ⟨_, rfl⟩
  have hbank : ∀ (y : Rank) (l : List CEnt),
      ({ ((s.chan ch).setBank r b k).setRank r y with cmdAt := ck + 2, ctl := l } : Chan).bankAt r b = k := fun y l => Tab.get_insert_self _ _ _ _
  rw [← hk, hbank, hk]
  exact ⟨rfl, rfl, le_max_right _ _, le_max_right _ _⟩

/-- An all-bank refresh lowers the rank's debt and holds the rank for tRFCab; it is counted. -/
theorem State.issue_refAb (s : State) (ch ck r : Nat) (mr : MrrData) :
    (((s.issue ch ck (.refAb r) mr).chan ch).rankAt r).debt = ((s.chan ch).rankAt r).debt - 1 ∧
      (((s.issue ch ck (.refAb r) mr).chan ch).rankAt r).ready = ck + s.tp ch 0x12 ∧
      (s.issue ch ck (.refAb r) mr).rd R.CH_REF_CNT_COUNT ch = satAdd R.CH_REF_CNT_COUNT.width (s.rd R.CH_REF_CNT_COUNT ch) 1 := by
  unfold State.issue
  dsimp only
  generalize (List.range 16).foldl _ (s.chan ch) = y
  obtain ⟨k, hk⟩ : ∃ k : Rank, k = { y.rankAt r with debt := ((s.chan ch).rankAt r).debt - 1, ready := ck + s.tp ch 0x12
                                                     refUntil := ck + s.tp ch 0x12 } := ⟨_, rfl⟩
  obtain ⟨x, hx⟩ : ∃ x : Chan, x = { y.setRank r k with cmdAt := ck + 1 } := ⟨_, rfl⟩
  have hrank : x.rankAt r = k := by
    rw [hx]
    exact Chan.setRank_rankAt_self y r k
  obtain ⟨u, hu⟩ : ∃ u, u = ((s.setChan ch x).bump R.CH_REF_CNT_COUNT ch 0 1).count { ev := 0x0F8, ch := some ch } := ⟨_, rfl⟩
  rw [← hk, ← hx, ← hu]
  have huchan : u.chan ch = x := by
    rw [hu]
    exact State.setChan_chan_self s ch x
  have hurd : u.rd R.CH_REF_CNT_COUNT ch = satAdd R.CH_REF_CNT_COUNT.width (s.rd R.CH_REF_CNT_COUNT ch) 1 := by
    rw [hu]
    exact satAdd_bump (s.setChan ch x) R.CH_REF_CNT_COUNT ch 0
  obtain ⟨v, hv⟩ : ∃ v, v = if s.refForced ch r then u.count { ev := 0x100, ch := some ch } else u := ⟨_, rfl⟩
  have hvchan : v.chan ch = x := by
    rw [hv]
    split <;> exact huchan
  have hvrd : v.rd R.CH_REF_CNT_COUNT ch = u.rd R.CH_REF_CNT_COUNT ch := by
    rw [hv]
    split <;> rfl
  rw [← hv, State.chan_of_chans (v.debtMax_chans ch r) ch, hvchan, hrank]
  refine ⟨by rw [hk], by rw [hk], ?_⟩
  rw [(v.debtMax_only ch r).2.rd (by simp; decide) ch 0]
  exact hvrd.trans hurd

/-! ### Issuing -/

/-- What the accounts of a channel's slots and cycles leave as it is. -/
structure State.accounted (s t : State) (ch : Nat) : Prop where
  other : ∀ d, d ≠ ch → t.chan d = s.chan d
  regs : t.regs = s.regs
  build : t.build = s.build
  squall : t.squall = s.squall
  chan : t.chan ch = { s.chan ch with chclkAt := (t.chan ch).chclkAt, slotNext := (t.chan ch).slotNext, mrrAt := (t.chan ch).mrrAt }

theorem State.accounted_refl (s : State) (ch : Nat) : s.accounted s ch := ⟨fun _ _ => rfl, rfl, rfl, rfl, rfl⟩

theorem State.accounted.trans {s t u : State} {ch : Nat} (h : s.accounted t ch) (k : t.accounted u ch) : s.accounted u ch :=
  ⟨fun d hd => (k.other d hd).trans (h.other d hd), k.regs.trans h.regs, k.build.trans h.build, k.squall.trans h.squall, by rw [k.chan, h.chan]⟩

theorem State.accounted_count (s : State) (o : Occ) (ch : Nat) : s.accounted (s.count o) ch := ⟨fun _ _ => rfl, rfl, rfl, rfl, rfl⟩

theorem State.accounted_foldl {α : Type} {f : State → α → State} {ch : Nat} (hf : ∀ u a, State.accounted u (f u a) ch) (l : List α) (s : State) :
    s.accounted (l.foldl f s) ch :=
  foldl_keeps (fun t => s.accounted t ch) f (fun u a h => h.trans (hf u a)) l s (s.accounted_refl ch)

theorem State.accounted_setChan (s : State) (ch : Nat) {x : Chan} (h : x = { s.chan ch with chclkAt := x.chclkAt, slotNext := x.slotNext, mrrAt := x.mrrAt }) :
    s.accounted (s.setChan ch x) ch :=
  ⟨fun _ hd => State.setChan_chan_ne s hd x, rfl, rfl, rfl, by rw [State.setChan_chan_self]; exact h⟩

theorem State.accounted_countSlots (s : State) (ch row n : Nat) (d : Nat) : s.accounted (s.countSlots ch row n) d := by
  unfold State.countSlots
  split
  · exact s.accounted_refl d
  · exact (s.accounted_count _ d).trans (State.accounted_foldl (fun u e => u.accounted_count _ d) _ _)

theorem State.accounted_countChclk (s : State) (ch ck : Nat) : s.accounted (s.countChclk ch ck) ch := by
  unfold State.countChclk
  extract_lets x from_ s1 s2
  have h1 : s.accounted s1 ch := s.accounted_count _ ch
  have h2 : s1.accounted s2 ch := by
    simp only [s2]
    split
    · exact s1.accounted_count _ ch
    · exact s1.accounted_refl ch
  exact (h1.trans h2).trans (State.accounted_setChan s2 ch rfl)

theorem State.accounted_accountSlots (s : State) (ch ck : Nat) : s.accounted (s.accountSlots ch ck) ch := by
  unfold State.accountSlots
  extract_lets x l first last mine cand judge mid s1 s2 n s3
  have h1 : s.accounted s1 ch := State.accounted_foldl (fun u i => by
    split
    · exact u.accounted_refl ch
    · exact u.accounted_countSlots ch _ _ ch) _ _
  have h2 : s1.accounted s2 ch := s1.accounted_countSlots ch _ _ ch
  clear_value s1
  have h3 : s.accounted s3 ch := by
    simp only [s3]
    split
    · exact s.accounted_refl ch
    · split
      · exact h1.trans h2
      · exact (h1.trans h2).trans ((s2.accounted_count _ ch).trans (State.accounted_count _ _ ch))
  clear_value s2 s3
  exact h3.trans (State.accounted_setChan s3 ch rfl)

theorem State.accounted.tp {s t : State} {ch : Nat} (h : s.accounted t ch) (d p : Nat) : t.tp d p = s.tp d p := by
  unfold State.tp State.rd
  rw [h.regs, h.build, h.squall]

theorem State.accounted.rd {s t : State} {ch : Nat} (h : s.accounted t ch) (f : Fld) (i j : Nat) : t.rd f i j = s.rd f i j := by
  unfold State.rd
  rw [h.regs, h.build]

theorem Chan.touchRank_cmdAt (x : Chan) (r : Option Nat) (ck : Nat) : (x.touchRank r ck).cmdAt = x.cmdAt := by
  unfold Chan.touchRank
  split <;> rfl

theorem Chan.touchRank_bankAt (x : Chan) (r : Option Nat) (ck q b : Nat) : (x.touchRank r ck).bankAt q b = x.bankAt q b := by
  unfold Chan.touchRank
  split <;> rfl

/-- A rank that is touched has its idle time begun anew. -/
theorem Chan.touchRank_rankAt (x : Chan) (r : Option Nat) (ck q : Nat) :
    (x.touchRank r ck).rankAt q = { x.rankAt q with idleFrom := ((x.touchRank r ck).rankAt q).idleFrom } := by
  unfold Chan.touchRank
  cases r with
  | none => rfl
  | some r =>
    by_cases h : q = r
    · subst h
      rw [Chan.setRank_rankAt_self]
    · rw [Chan.setRank_rankAt_ne _ h]

/-- DRAM_COMMAND_ISSUE with its direction kept and no maintenance operation to start. -/
theorem exec_dramCommandIssue {s v w : State} {ch ck : Nat} (mr : MrrData) {d : DCmd} (hv : v = (s.countChclk ch ck).accountSlots ch ck)
    (hw : w = v.setChan ch (v.chan ch)) (hdir : v.direction ch = ((s.chan ch).dir, (s.chan ch).drain, false)) (hmaint : w.maintStart ch = none)
    (hchoose : w.choose ch ck (w.chan ch) (s.chan ch).dir = some d) :
    ∃ u : State, u.chans = w.chans ∧ w.accounted u ch ∧ exec (.dramCommandIssue ch ck mr) s = .next
      (((u.issue ch ck d mr).setChan ch (((u.issue ch ck d mr).chan ch).touchRank (d.busyRank (w.chan ch)) ck)).endRetire ch) := by
  have hacc : s.accounted v ch := by
    rw [hv]
    exact (s.accounted_countChclk ch ck).trans (State.accounted_accountSlots _ ch ck)
  have hsame : v.setChan ch { v.chan ch with dir := (s.chan ch).dir, drain := (s.chan ch).drain, bursts := (v.chan ch).bursts } = w := by
    have hchan : ({ v.chan ch with dir := (s.chan ch).dir, drain := (s.chan ch).drain, bursts := (v.chan ch).bursts } : Chan) = v.chan ch := by
      rw [hacc.chan]
    rw [hchan, hw]
  have hbegin : w.beginMaint ch ck = w := by
    unfold State.beginMaint
    rw [hmaint]
  refine ⟨if d.lower (w.lift (w.chan ch)) then w.count { ev := 0x105, ch := some ch } else w, ?_, ?_, ?_⟩
  · split <;> rfl
  · split
    · exact w.accounted_count _ ch
    · exact w.accounted_refl ch
  · change execDramCommandIssue ch ck mr s = _
    unfold execDramCommandIssue
    rw [← hv]
    dsimp only
    rw [hdir]
    dsimp only
    rw [if_neg (by simp), if_neg (by simp), hsame, hbegin, hchoose]

/-- A command issued takes effect. -/
theorem commandIssued {s v w : State} {ch ck : Nat} (mr : MrrData) {d : DCmd} (hv : v = (s.countChclk ch ck).accountSlots ch ck)
    (hw : w = v.setChan ch (v.chan ch)) (hdir : v.direction ch = ((s.chan ch).dir, (s.chan ch).drain, false)) (hmaint : w.maintStart ch = none)
    (hcols : ∀ e ∈ (s.chan ch).ctl, e.cols ≠ []) (hchoose : w.choose ch ck (w.chan ch) (s.chan ch).dir = some d) :
    Runs (.dramCommandIssue ch ck mr) s fun t =>
      ck < (t.chan ch).cmdAt ∧ (∀ e, e ≠ ch → t.chan e = s.chan e) ∧
      (∀ r b row seq, d = .act r b row seq → b < 16 → ((t.chan ch).bankAt r b).row = some row ∧
        ((t.chan ch).bankAt r b).colOk = ck + s.tp ch 0x01 ∧ ck + s.tp ch 0x04 ≤ ((t.chan ch).bankAt r b).preOk ∧
        ck + s.tp ch 0x05 ≤ ((t.chan ch).bankAt r b).actOk) ∧
      (∀ r, d = .refAb r → ((t.chan ch).rankAt r).debt = ((s.chan ch).rankAt r).debt - 1 ∧
        ((t.chan ch).rankAt r).ready = ck + s.tp ch 0x12 ∧
        t.rd R.CH_REF_CNT_COUNT ch = satAdd R.CH_REF_CNT_COUNT.width (s.rd R.CH_REF_CNT_COUNT ch) 1) := by
  obtain ⟨u, huw, hacc, hexec⟩ := exec_dramCommandIssue mr hv hw hdir hmaint hchoose
  have hsv : s.accounted v ch := by
    rw [hv]
    exact (s.accounted_countChclk ch ck).trans (State.accounted_accountSlots _ ch ck)
  have hvw : v.accounted w ch := by
    rw [hw]
    exact State.accounted_setChan v ch rfl
  have hsu : s.accounted u ch := (hsv.trans hvw).trans hacc
  have hctl : (w.chan ch).ctl = (s.chan ch).ctl := by rw [(hsv.trans hvw).chan]
  have hcol : u.columnOf ch d := by
    have hwcol : w.columnOf ch d := State.columnOf_choose hchoose (by rw [hctl]; exact hcols)
    cases d with
    | col seq off check =>
      unfold State.columnOf at hwcol ⊢
      rw [State.chan_of_chans huw ch]
      exact hwcol
    | _ => trivial
  obtain ⟨hcmd, hother⟩ := State.commanded_issue u ch ck hcol mr
  obtain ⟨y, hy⟩ : ∃ y, y = u.issue ch ck d mr := ⟨_, rfl⟩
  obtain ⟨x, hx⟩ : ∃ x, x = (y.chan ch).touchRank (d.busyRank (w.chan ch)) ck := ⟨_, rfl⟩
  obtain ⟨t, ht⟩ : ∃ t, t = (y.setChan ch x).endRetire ch := ⟨_, rfl⟩
  rw [← hy, ← hx, ← ht] at hexec
  rw [← hy] at hcmd hother
  have htchans : t.chans = (y.setChan ch x).chans := by
    rw [ht]
    unfold State.endRetire
    split <;> rfl
  have htregs : t.regs = y.regs := by
    rw [ht]
    unfold State.endRetire
    split <;> rfl
  have htbuild : t.build = y.build := by
    rw [ht]
    unfold State.endRetire
    split <;> rfl
  have htx : t.chan ch = x := (State.chan_of_chans htchans ch).trans (State.setChan_chan_self y ch x)
  have hte : ∀ e, e ≠ ch → t.chan e = y.chan e := fun e he => (State.chan_of_chans htchans e).trans (State.setChan_chan_ne y he x)
  have htrd : ∀ f i j, t.rd f i j = y.rd f i j := fun f i j => by
    unfold State.rd
    rw [htregs, htbuild]
  have hrank : (u.chan ch).ranks = (s.chan ch).ranks := by rw [hsu.chan]
  refine ⟨t, hexec, ?_, fun e he => ((hte e he).trans (hother e he)).trans (hsu.other e he), ?_, ?_⟩
  · rw [htx, hx, Chan.touchRank_cmdAt]
    exact hcmd
  · rintro r b row seq rfl -
    obtain ⟨h1, h2, h3, h4⟩ := u.issue_act ch ck r b row seq mr
    rw [← hy] at h1 h2 h3 h4
    rw [hsu.tp] at h2 h3 h4
    rw [htx, hx, Chan.touchRank_bankAt]
    exact ⟨h1, h2, h3, h4⟩
  · rintro r rfl
    obtain ⟨h1, h2, h3⟩ := u.issue_refAb ch ck r mr
    rw [← hy] at h1 h2 h3
    have hdebt : ((u.chan ch).rankAt r).debt = ((s.chan ch).rankAt r).debt := by
      unfold Chan.rankAt
      rw [hrank]
    rw [hdebt] at h1
    rw [hsu.tp] at h2
    rw [hsu.rd] at h3
    rw [htx, hx, Chan.touchRank_rankAt, htrd]
    exact ⟨h1, h2, h3⟩

end Sys2Proof.Machine

open Sys2Proof Sys2Proof.Machine

/-- Settles O50: what a channel's front end and controller do, step by step; a column command finds its entry since every group of R318 but the third
chooses others. -/
theorem channelCommands : Obligations.ChannelCommands := by
  unfold Obligations.ChannelCommands
  intro s ch c ck mr hc
  refine ⟨?_, ?_, ?_, ?_, ?_⟩
  · intro p x n hmay hpick hguard
    exact entryPassed hc hmay hpick hguard
  · intro d v w hdir hmaint hcols hchoose
    exact commandIssued mr rfl rfl hdir hmaint hcols hchoose
  · intro q l hquiet hdone hturn hlost hhalf hlin hguard hkind hone hlen hall hcdata hbad hcbad hopt
    exact readReturned hquiet hdone hturn hlost hhalf hlin hguard hkind hone hlen hall hcdata hbad hcbad hopt
  · intro r hserve hpwr hr
    exact refreshAccrued hserve hpwr hr ck
  · intro r hwait hopen hready hcmd
    exact powerDownEntered hwait hopen hready hcmd
end

section
/-! The patrol scrub meets a lost spare word (R371, R374): the counterexample to `Errors`. -/

namespace Sys2Proof.Machine
open Sys2Proof

/-! ### Findings stay in the handling queue -/

theorem State.detect_queue (s : State) (d : Det) : (s.detect d).integ.queue ≠ [] := by
  unfold State.detect
  split
  · next h =>
    change s.integ.queue ≠ []
    rintro hnil
    rw [hnil] at h
    exact absurd h (by decide)
  · exact List.append_ne_nil_of_right_ne_nil _ (by simp)

/-- Detections of a list leave the queue with what it had. -/
theorem State.foldl_detect_queue (f : Nat → Det) (l : List Nat) {s : State} (h : s.integ.queue ≠ [] ∨ l ≠ []) :
    (l.foldl (fun (s : State) k => s.detect (f k)) s).integ.queue ≠ [] := by
  induction l generalizing s with
  | nil => simpa using h
  | cons k l ih => exact ih (.inl (s.detect_queue _))

/-- A check of spare words finds what is lost, and loses no finding. -/
theorem State.spareCheck_queue {s : State} {ch a n : Nat} (h : s.integ.queue ≠ [] ∨ 0 < n ∧ s.spareErrs (memKey ch a) = 2) (init cls : Nat) :
    (s.spareCheck ch a n init cls).integ.queue ≠ [] := by
  unfold State.spareCheck
  extract_lets hit bad mend t
  have hbad : 0 < n ∧ s.spareErrs (memKey ch a) = 2 → 0 ∈ bad := fun ⟨hn, herr⟩ => by
    simp only [bad, hit, List.mem_filter, List.mem_range, Nat.mul_zero, Nat.add_zero, herr]
    exact ⟨⟨by omega, rfl⟩, rfl⟩
  split
  · next hempty =>
    rcases h with h | h
    · exact h
    · have hmem : 0 ∈ hit := (List.mem_filter.mp (hbad h)).1
      rw [List.isEmpty_iff.mp hempty] at hmem
      exact absurd hmem (by simp)
  · exact State.foldl_detect_queue _ bad (h.imp id fun h => List.ne_nil_of_mem (hbad h))

/-- Where no spare word of a run has errors, a check of it finds nothing. -/
theorem State.spareCheck_clean {s : State} {ch a n : Nat} (h : ∀ k, s.spareErrs (memKey ch (a + 8 * k)) = 0 ∨ (n + 7) / 8 ≤ k) (init cls : Nat) :
    s.spareCheck ch a n init cls = s := by
  unfold State.spareCheck
  extract_lets hit bad mend
  have hhit : hit = [] := by
    refine List.filter_eq_nil_iff.mpr fun k hk => ?_
    rcases h k with h | h
    · rw [h]
      decide
    · exact absurd (List.mem_range.mp hk) (by omega)
  rw [hhit]
  rfl

/-- A scrub of a block pair whose first check byte lies in a lost spare word finds it. -/
theorem State.scrubBlock_queue {s : State} {ch a ca : Nat} (hclean : s.spareCheck ch a 32 0x41 15 = s) (hlost : s.spareErrs (memKey ch ca) = 2) :
    (s.scrubBlock ch a ca).integ.queue ≠ [] := by
  have hrest : ∀ (u : State) (o : Occ) (r : Nat) (d : Det), u.integ.queue ≠ [] → (if r = 0 then u else (u.count o).detect d).integ.queue ≠ [] :=
    fun u o r d hu => by
      split
      · exact hu
      · exact State.detect_queue _ _
  unfold State.scrubBlock
  rw [List.range_succ_eq_map, List.foldl_cons]
  refine foldl_keeps (fun t : State => t.integ.queue ≠ []) _ ?_ _ _ ?_
  · intro u k hu
    dsimp only
    refine hrest _ _ _ _ ?_
    exact State.spareCheck_queue (.inl (State.spareCheck_queue (.inl hu) _ _)) _ _
  · dsimp only
    refine hrest _ _ _ _ ?_
    rw [Nat.mul_zero, Nat.add_zero, Nat.add_zero, hclean]
    exact State.spareCheck_queue (.inr ⟨by decide, hlost⟩) _ _

/-! ### The counterexample -/

/-- Channel 0 holds a GUARDED surface whose companion extent, number 8192, has its stored bytes beyond the channel's 2^34, where channel 1 keeps a block
in a spare word that has lost a byte. Data and check bytes are zeros. -/
def farCheck : State := { State.reset.wr R.INT_SCRUB_CTL_EN 0 0 1 with
  conf := some { chans := [{ ch := 0 }, { ch := 1 }] }
  sm := { surfs := [(0, { live := true, width := 64, height := 16, prot := 2, pos := [{ ch := 0, exts := [5], comps := [8192] }], prep := 16384 })] }
  chans := [(0, { svc := 5 }), (1, { svc := 5, remap := [(0, { block := 0, valid := true, errs := [(0, 2)] })] })]
  mem := (List.range 512).map (fun k => (memKey 0 (5 * extBytes + k), 0)) ++ (List.range 512).map fun k => (memKey 0 (8192 * extBytes + k), 0) }

theorem farCheck_data (n : Nat) (hn : n < 512) : farCheck.cellByte (memKey 0 (5 * extBytes + n)) = 0 := by
  have h : farCheck.memAt (memKey 0 (5 * extBytes + n)) = some 0 := by
    refine Tab.find_const (fun e he => ?_) ⟨_, List.mem_append_left _ (List.mem_map.2 ⟨n, List.mem_range.2 hn, rfl⟩), rfl⟩
    rcases List.mem_append.1 he with he | he <;> (obtain ⟨k, -, rfl⟩ := List.mem_map.1 he; rfl)
  have hc : memKey 0 (5 * extBytes + n) / 2 ^ 34 = 0 := by simp only [memKey, extBytes]; omega
  have hr : ∀ b, (farCheck.chan 0).remapOf b = none := fun _ => rfl
  simp only [State.cellByte, hc, hr, State.memByte, h, Option.getD_some]

theorem farCheck_check (n : Nat) (hn : n < 512) : farCheck.cellByte (memKey 0 (8192 * extBytes + n)) = 0 := by
  have h : farCheck.memAt (memKey 0 (8192 * extBytes + n)) = some 0 := by
    refine Tab.find_const (fun e he => ?_) ⟨_, List.mem_append_right _ (List.mem_map.2 ⟨n, List.mem_range.2 hn, rfl⟩), rfl⟩
    rcases List.mem_append.1 he with he | he <;> (obtain ⟨k, -, rfl⟩ := List.mem_map.1 he; rfl)
  have hc : memKey 0 (8192 * extBytes + n) / 2 ^ 34 = 1 := by simp only [memKey, extBytes]; omega
  have hword : Tab.get ({} : Remap) (farCheck.chan 1).remap 0 = { block := 0, valid := true, errs := [(0, 2)] } := rfl
  unfold State.cellByte
  dsimp only
  rw [hc]
  split
  · next k hk =>
    have hkey : ∃ e ∈ (farCheck.chan 1).remap, e.1 = k := by
      unfold Chan.remapOf at hk
      obtain ⟨e, he, rfl⟩ := Option.map_eq_some_iff.mp hk
      exact ⟨e, List.mem_of_find?_eq_some he, rfl⟩
    obtain ⟨e, he, rfl⟩ := hkey
    obtain rfl : e = (0, { block := 0, valid := true, errs := [(0, 2)] }) := List.mem_singleton.mp he
    rw [hword]
    rfl
  · unfold State.memByte
    rw [h]
    rfl

/-- The conditions of a scrub of the pair, which is clean as it is stored. -/
theorem farCheck_scrubs : farCheck.rd R.INT_SCRUB_CTL_EN ≠ 0 ∧ farCheck.power.st = 0 ∧ farCheck.chPresent 0 = true ∧ farCheck.scrubs 0 = true ∧
    (farCheck.chan 0).scrubDone = false ∧
    ((farCheck.scrubExts 0).find? fun x => decide ((farCheck.chan 0).scrubAt < (x + 1) * extBytes)) = some 5 ∧
    farCheck.scrubPair 0 (max (farCheck.chan 0).scrubAt (5 * extBytes)) = some (8192 * extBytes, true) ∧
    farCheck.engineFree 0 15 0 = true := by decide +kernel

/-- SCRUB_STEP on a pair that the scrub reads now. -/
theorem exec_scrubStep_reads {s : State} {ch e a ca : Nat} (hen : s.rd R.INT_SCRUB_CTL_EN ≠ 0) (hrun : s.power.st = 0) (hpresent : s.chPresent ch = true)
    (hscrubs : s.scrubs ch = true) (hdone : (s.chan ch).scrubDone = false)
    (hfind : ((s.scrubExts ch).find? fun x => decide ((s.chan ch).scrubAt < (x + 1) * extBytes)) = some e)
    (ha : a = max (s.chan ch).scrubAt (e * extBytes)) (hpair : s.scrubPair ch a = some (ca, true)) (hfree : s.engineFree ch 15 0 = true) :
    exec (.scrubStep ch) s = .next
      ((((s.setChan ch { s.chan ch with scrubAt := a + 512 }).count { ev := 0x0DD, ch := some ch }).engineBytes ch 15 1024).scrubBlock ch a ca) := by
  have hretired : (s.chan ch).retired = false := by
    unfold State.scrubs State.inService at hscrubs
    simp only [Bool.and_eq_true, Bool.not_eq_true'] at hscrubs
    tauto
  change execScrubStep ch s = _
  unfold execScrubStep
  dsimp only
  rw [if_neg (by simp [hen, hrun, hpresent, hdone]), if_neg (by simp [hretired]), if_neg (by simp [hscrubs]), hfind]
  dsimp only
  rw [← ha, hpair]
  dsimp only
  rw [if_pos hfree]

/-- Spare words are read from the remap entries of the byte's channel. -/
theorem State.spareErrs_congr {s t : State} {key : Nat} (h : (t.chan (key / 2 ^ 34)).remap = (s.chan (key / 2 ^ 34)).remap) :
    t.spareErrs key = s.spareErrs key := by
  unfold State.spareErrs Chan.remapOf
  dsimp only
  rw [h]

theorem State.spareErrs_of_empty {s : State} {key : Nat} (h : (s.chan (key / 2 ^ 34)).remap = []) : s.spareErrs key = 0 := by
  unfold State.spareErrs Chan.remapOf
  dsimp only
  rw [h]
  rfl

end Sys2Proof.Machine

open Sys2Proof Sys2Proof.Machine

/-- Refutes O55: the check bytes of a block pair may lie in the address space of another channel, whose spare word has lost a byte there; the scrub of
the pair, clean as it is stored, then adds a detection to the handling queue. -/
theorem not_errors : ¬ Obligations.Errors := by
  unfold Obligations.Errors
  intro h
  obtain ⟨hscrub, -⟩ := h farCheck 0
  obtain ⟨hen, hrun, hpresent, hscrubs, hdone, hfind, hpair, hfree⟩ := farCheck_scrubs
  have hat : 5 * extBytes = max (farCheck.chan 0).scrubAt (5 * extBytes) := rfl
  rw [← hat] at hpair
  obtain ⟨t, hexec, -, -, hframe⟩ := hscrub 5 (5 * extBytes) (8192 * extBytes) hen hrun hpresent hscrubs hdone hfind hat hpair hfree
    (fun r hr => absurd hr List.not_mem_nil) fun n hn => by
      rw [farCheck_data n hn, farCheck_check n hn]
      rfl
  rw [exec_scrubStep_reads hen hrun hpresent hscrubs hdone hfind hat hpair hfree] at hexec
  obtain ⟨v, hv⟩ : ∃ v, v = (farCheck.setChan 0 { farCheck.chan 0 with scrubAt := 5 * extBytes + 512 }).count { ev := 0x0DD, ch := some 0 } := ⟨_, rfl⟩
  rw [← hv] at hexec
  obtain ⟨⟨l, b, hself⟩, hother, -⟩ := v.engineBytes_chan 0 15 1024
  have hremap0 : ((v.engineBytes 0 15 1024).chan 0).remap = [] := by
    rw [hself, hv]
    exact congrArg Chan.remap (State.setChan_chan_self farCheck 0 _)
  have hremap1 : ((v.engineBytes 0 15 1024).chan 1).remap = (farCheck.chan 1).remap := by
    rw [hother 1 (by decide), hv]
    exact congrArg Chan.remap (State.setChan_chan_ne farCheck (show 1 ≠ 0 by decide) _)
  have hclean : (v.engineBytes 0 15 1024).spareCheck 0 (5 * extBytes) 32 0x41 15 = v.engineBytes 0 15 1024 := by
    refine State.spareCheck_clean (fun k => ?_) _ _
    by_cases hk : k < 4
    · refine .inl (State.spareErrs_of_empty ?_)
      rw [show memKey 0 (5 * extBytes + 8 * k) / 2 ^ 34 = 0 by simp only [memKey, extBytes]; omega]
      exact hremap0
    · exact .inr (by omega)
  have hlost : (v.engineBytes 0 15 1024).spareErrs (memKey 0 (8192 * extBytes)) = 2 := by
    rw [State.spareErrs_congr (s := farCheck)]
    · decide +kernel
    · exact hremap1
  have hqueue := State.scrubBlock_queue hclean hlost
  rw [Host.Outcome.next.inj hexec, hframe] at hqueue
  exact hqueue rfl
end

section
/-! Flow contexts, urgency and the capacity test (R281, R282, R287, R292, R302). -/

namespace Sys2Proof.Machine
open Sys2Proof

/-! ### A missing context (R281) -/

/-- A sub-request whose context is missing asks for it. -/
theorem contextAsked {s : State} {c k : Nat} {u : SubReq} (hc : s.cclk = c) (hk : s.subs[k]? = some u) (hctx : s.ctxHere u = false)
    (hwait : s.traffic.fwait.contains u.flow = false) :
    Runs (.subrequestAssign k c) s fun t =>
      t.traffic = { s.traffic with fwait := s.traffic.fwait ++ [u.flow] } ∧
      t.rd R.TR_FCACHE_MISS_COUNT = satAdd R.TR_FCACHE_MISS_COUNT.width (s.rd R.TR_FCACHE_MISS_COUNT) 1 ∧ t.subs = s.subs := by
  have hexec : exec (.subrequestAssign k c) s = .next
      (((({ s with traffic := { s.traffic with fwait := s.traffic.fwait ++ [u.flow] } } : State).bump R.TR_FCACHE_MISS_COUNT 0 0 1).count
        { ev := 0x0AA }).count { ev := 0x0AB }) := by
    change execSubrequestAssign k c s = _
    unfold execSubrequestAssign
    rw [State.atCycle_now hc]
    dsimp only
    rw [hk]
    dsimp only
    rw [if_pos hctx, if_neg (by rw [hwait]; decide)]
  exact ⟨_, hexec, rfl, satAdd_bump ({ s with traffic := { s.traffic with fwait := s.traffic.fwait ++ [u.flow] } } : State) R.TR_FCACHE_MISS_COUNT 0 0, rfl⟩

/-! ### What the engine's own bytes leave -/

/-- Only channels, memory and counters have changed. -/
def State.putOnly (s t : State) : Prop := t = { s with chans := t.chans, mem := t.mem, meas := t.meas }

theorem State.putOnly_refl (s : State) : s.putOnly s := rfl

theorem State.putOnly.trans {s t u : State} (h : s.putOnly t) (k : t.putOnly u) : s.putOnly u := by
  unfold State.putOnly at *
  rw [k, h]

theorem State.putOnly_foldl {α : Type} {f : State → α → State} (hf : ∀ u a, State.putOnly u (f u a)) (l : List α) (s : State) : s.putOnly (l.foldl f s) :=
  foldl_keeps s.putOnly f (fun u a h => h.trans (hf u a)) l s s.putOnly_refl

theorem State.putOnly_engineBytes (s : State) (ch cls n : Nat) : s.putOnly (s.engineBytes ch cls n) := by
  unfold State.engineBytes
  split <;> rfl

theorem State.putOnly_cellPut (s : State) (c : Nat × Byte) : s.putOnly (s.cellPut c) := by
  unfold State.cellPut
  dsimp only
  split <;> rfl

theorem State.putOnly_cellsPut (s : State) (l : List (Nat × Byte)) : s.putOnly (s.cellsPut l) := by
  unfold State.cellsPut
  split
  · exact State.putOnly_foldl State.putOnly_cellPut l s
  · rfl

theorem State.putOnly_rsvWrite (s : State) (o : Nat) (l : List Byte) (cls : Nat) : s.putOnly (s.rsvWrite o l cls) := by
  have hput : ∀ (u : State) (p : At) (n : Nat),
      u.putOnly (if u.inService p.ch then
        ((u.cellsPut ((List.range l.length).zipWith (fun k b => (memKey p.ch (p.a + k), b)) l)).cellsPut
          ((List.range l.length).zipWith (fun k b => (memKey p.ch (p.ca + k), checkByte b)) l)).engineBytes p.ch n (2 * l.length)
      else u) := fun u p n => by
    split
    · exact ((u.putOnly_cellsPut _).trans (State.putOnly_cellsPut _ _)).trans (State.putOnly_engineBytes _ _ _ _)
    · exact u.putOnly_refl
  unfold State.rsvWrite
  extract_lets put r v
  have hv : s.putOnly v := hput s r.at_ cls
  clear_value v
  split
  · exact hv.trans (hput v _ 15)
  · exact hv

theorem State.putOnly_ctxWrite (s : State) (f : Nat) : s.putOnly (s.ctxWrite f) := State.putOnly_rsvWrite s _ _ _

theorem State.putOnly.traffic {s t : State} (h : s.putOnly t) : t.traffic = s.traffic := by rw [h]
theorem State.putOnly.ports {s t : State} (h : s.putOnly t) : t.ports = s.ports := by rw [h]

/-! ### A context that arrives (R281) -/

/-- What a context's arrival in the cache does, before its contents are looked at. -/
structure State.cachedIn (s t : State) (f : Nat) : Prop where
  here : f ∈ t.traffic.fcache ∨ f ∈ t.traffic.fpass
  asked : f ∉ t.traffic.fwait
  flows : t.traffic.flows = s.traffic.flows
  unpinned : s.traffic.pins = [] → f ∈ t.traffic.fcache ∧ t.traffic.fpass = s.traffic.fpass
  ports : t.ports = s.ports
  room : (s.traffic.fcache.filter fun g => g != f && g % 4096 == f % 4096).length < 8 → t = { s with
    traffic := { s.traffic with fcache := f :: s.traffic.fcache.filter (fun g => g != f), fwait := s.traffic.fwait.filter fun g => g != f } }

theorem State.cacheFlow_cachedIn (s : State) (f : Nat) : s.cachedIn (s.cacheFlow f) f := by
  have hasked : f ∉ s.traffic.fwait.filter fun g => g != f := by simp
  have hset : ((s.traffic.fcache.filter fun g => g != f).filter fun g => g % 4096 == f % 4096) =
      s.traffic.fcache.filter fun g => g != f && g % 4096 == f % 4096 := by
    rw [List.filter_filter]
    exact List.filter_congr fun g _ => Bool.and_comm _ _
  unfold State.cacheFlow
  extract_lets t same rest mine wait
  have hmine : mine = s.traffic.fcache.filter fun g => g != f && g % 4096 == f % 4096 := hset
  split
  · exact ⟨.inl List.mem_cons_self, hasked, rfl, fun _ => ⟨List.mem_cons_self, rfl⟩, rfl, fun _ => rfl⟩
  · next hfull =>
    have hnoroom : ¬ (s.traffic.fcache.filter fun g => g != f && g % 4096 == f % 4096).length < 8 := by rw [← hmine]; exact hfull
    split
    · next hnone =>
      refine ⟨.inr List.mem_cons_self, hasked, rfl, fun hpins => ?_, rfl, fun h => absurd h hnoroom⟩
      have hall : (mine.filter fun g => !t.pins.contains g) = mine := by
        refine List.filter_eq_self.mpr fun g _ => ?_
        rw [show t.pins = [] from hpins]
        rfl
      rw [hall, List.getLast?_eq_none_iff] at hnone
      rw [hnone] at hfull
      exact absurd hfull (by decide)
    · next g _ =>
      obtain ⟨v, hv⟩ : ∃ v, v = ({ s with traffic := { t with fcache := f :: rest.filter fun h => h != g, fwait := wait } } : State) := ⟨_, rfl⟩
      rw [← hv]
      have hput := v.putOnly_ctxWrite g
      have htraffic : (v.ctxWrite g).traffic = { t with fcache := f :: rest.filter fun h => h != g, fwait := wait } := by
        rw [hput.traffic, hv]
      refine ⟨.inl ?_, ?_, ?_, fun _ => ⟨?_, ?_⟩, ?_, fun h => absurd h hnoroom⟩
      · rw [htraffic]
        exact List.mem_cons_self
      · rw [htraffic]
        exact hasked
      · rw [htraffic]
      · rw [htraffic]
        exact List.mem_cons_self
      · rw [htraffic]
      · rw [hput.ports, hv]

/-- A read of a context leaves what the cache holds. -/
theorem State.ctxLost_traffic (s : State) (f lost cls : Nat) : ∃ x, (s.ctxLost f lost cls).traffic = { s.traffic with flows := x } ∧
    (s.ctxLost f lost cls).ports = s.ports := by
  unfold State.ctxLost
  split
  · exact ⟨_, rfl, rfl⟩
  · dsimp only
    rw [State.detect_only]
    exact ⟨_, rfl, rfl⟩

theorem State.ctxLost_zero (s : State) (f cls : Nat) : s.ctxLost f 0 cls = s := if_pos rfl

/-- What a port's queue becomes as the class of flow `f` is learnt. -/
def State.learns (s : State) (f : Nat) (q : Port) : Port :=
  { q with queue := q.queue.map fun x =>
    if (x.cls.isNone && ((Tab.find s.traffic.live x.id).map (·.1)) == some f) = true then { x with cls := some (s.flowClass f) } else x }

theorem State.classKnown_eq (s : State) (f : Nat) : s.classKnown f = { s with ports := s.ports.map fun e => (e.1, s.learns f e.2) } := rfl

/-- Learning a class changes the transfers in the queues only, and keeps each in its place. -/
theorem State.classKnown_ports (s : State) (f p : Nat) : s.port p = { (s.classKnown f).port p with queue := (s.port p).queue } ∧
    ((s.classKnown f).port p).queue.map (·.id) = (s.port p).queue.map (·.id) := by
  rw [State.classKnown_eq]
  unfold State.port Tab.get
  dsimp only
  rw [Tab.find_mapVals (s.learns f)]
  cases Tab.find s.ports p with
  | none => exact ⟨rfl, rfl⟩
  | some x =>
    refine ⟨rfl, ?_⟩
    simp only [Option.map_some, Option.getD_some, State.learns, List.map_map]
    refine List.map_congr_left fun y _ => ?_
    simp only [Function.comp_apply]
    split <;> rfl

theorem exec_flowContextFill {s : State} {f : Nat} (hwait : s.traffic.fwait.contains f = true) (hdawn : s.dawning = false)
    (hready : s.rsvReady (64 * f) = true) (hfree : s.engineFree (s.rsvChan (64 * f)) 0 0 = true) :
    exec (.flowContextFill f 0) s = .next
      ((((s.engineBytes (s.rsvChan (64 * f)) 0 ctxBytes).cacheFlow f).ctxLost f (s.ctxBad f) 0).classKnown f) := by
  change execFlowContextFill f 0 s = _
  unfold execFlowContextFill
  dsimp only
  rw [if_neg (by simp [hready, hfree, hdawn, List.contains_iff_mem.mp hwait]), Nat.zero_or]

/-- A context that arrives is in the cache, or kept for one sub-request where every way is pinned. -/
theorem contextFilled {s : State} {f : Nat} (hwait : s.traffic.fwait.contains f = true) (hdawn : s.dawning = false)
    (hready : s.rsvReady (64 * f) = true) (hfree : s.engineFree (s.rsvChan (64 * f)) 0 0 = true) :
    Runs (.flowContextFill f 0) s fun t =>
      (f ∈ t.traffic.fcache ∨ f ∈ t.traffic.fpass) ∧ f ∉ t.traffic.fwait ∧ (s.ctxBad f = 0 → t.traffic.flows = s.traffic.flows) ∧
      (s.traffic.pins = [] → f ∈ t.traffic.fcache ∧ t.traffic.fpass = s.traffic.fpass) ∧
      (s.ctxBad f = 0 → (s.traffic.fcache.filter fun g => g != f && g % 4096 == f % 4096).length < 8 → t = { s with
        traffic := { s.traffic with fcache := f :: s.traffic.fcache.filter (fun g => g != f), fwait := s.traffic.fwait.filter fun g => g != f }
        ports := t.ports, chans := t.chans, meas := t.meas }) ∧
      ∀ p, s.port p = { t.port p with queue := (s.port p).queue } ∧ (t.port p).queue.map (·.id) = (s.port p).queue.map (·.id) := by
  refine ⟨_, exec_flowContextFill hwait hdawn hready hfree, ?_⟩
  dsimp only
  obtain ⟨-, -, hbytes⟩ := s.engineBytes_chan (s.rsvChan (64 * f)) 0 ctxBytes
  obtain ⟨a, ha⟩ : ∃ a, a = s.engineBytes (s.rsvChan (64 * f)) 0 ctxBytes := ⟨_, rfl⟩
  rw [← ha] at hbytes ⊢
  have hatraffic : a.traffic = s.traffic := by rw [hbytes]
  have haports : a.ports = s.ports := by rw [hbytes]
  obtain ⟨hhere, hasked, hflows, hunpinned, hports, hroom⟩ := a.cacheFlow_cachedIn f
  obtain ⟨b, hb⟩ : ∃ b, b = a.cacheFlow f := ⟨_, rfl⟩
  rw [← hb] at hhere hasked hflows hunpinned hports hroom ⊢
  obtain ⟨x, hx, hxports⟩ := b.ctxLost_traffic f (s.ctxBad f) 0
  obtain ⟨c, hc⟩ : ∃ c, c = b.ctxLost f (s.ctxBad f) 0 := ⟨_, rfl⟩
  have hclean : s.ctxBad f = 0 → c = b := fun h => by rw [hc, h, State.ctxLost_zero]
  rw [← hc] at hx hxports ⊢
  have htraffic : (c.classKnown f).traffic = c.traffic := rfl
  have hport : ∀ p, c.port p = s.port p := fun p => congrArg (fun l => Tab.get ({} : Port) l p) ((hxports.trans hports).trans haports)
  refine ⟨?_, ?_, fun h => ?_, fun h => ?_, fun h hlen => ?_, fun p => ?_⟩
  · rw [htraffic, hx]
    exact hhere
  · rw [htraffic, hx]
    exact hasked
  · rw [htraffic, hclean h, hflows, hatraffic]
  · rw [htraffic, hx]
    rw [hatraffic] at hunpinned
    exact hunpinned h
  · rw [hatraffic] at hroom
    have hcb : c = _ := (hclean h).trans (hroom hlen)
    rw [hcb, hbytes]
    rfl
  · obtain ⟨h1, h2⟩ := c.classKnown_ports f p
    rw [hport] at h1 h2
    exact ⟨h1, h2⟩

end Sys2Proof.Machine
end

section
/-! The sweep of a flow's buckets, its urgency, and the end of a capacity test (R282, R288, R292, R302). -/

namespace Sys2Proof.Machine
open Sys2Proof

/-! ### The sweep (R282, R288) -/

/-- The buckets of the single-rate-in-two policer fill up to their sizes. -/
theorem Flow.fill_two (x : Flow) (now : Nat) (h : x.policy % 4 = 1) :
    (x.fill now).tc = min (x.tc + (min ((now + 2 ^ 32 - x.tLast) % 2 ^ 32) (2 ^ 28) * x.cir + x.fracC) / 16) x.cbs ∧
      (x.fill now).tp = min (x.tp + (min ((now + 2 ^ 32 - x.tLast) % 2 ^ 32) (2 ^ 28) * x.pir + x.fracP) / 16) x.pbs ∧ (x.fill now).tLast = now := by
  unfold Flow.fill
  extract_lets el a add noted m up room filled cut
  have hfilled : filled = { noted with tc := min (noted.tc + add) noted.cbs, fracP := up % 16, tp := min (noted.tp + up / 16) noted.pbs } := if_pos h
  have hcut : cut.tc = filled.tc ∧ cut.tp = filled.tp ∧ cut.tLast = filled.tLast := by
    simp only [cut]
    split <;> exact ⟨rfl, rfl, rfl⟩
  rw [hfilled] at hcut
  clear_value cut
  split <;> exact hcut

/-- A window account and a charge leave the buckets. -/
theorem Flow.account_charge (x : Flow) (win carry b colour : Nat) :
    ((x.account win carry).charge b colour).tc = x.tc ∧ ((x.account win carry).charge b colour).tp = x.tp ∧
      ((x.account win carry).charge b colour).tLast = x.tLast := by
  unfold Flow.account Flow.charge
  split <;> exact ⟨rfl, rfl, rfl⟩

/-- Flow `f`'s context as the sweep leaves it. -/
def State.swept (s : State) (f : Nat) : Flow :=
  (((Tab.get ({} : Flow) s.traffic.flows f).fill s.units64).account s.traffic.window (s.carryOf f)).charge 0 0

/-- FLOW_SWEEP of a defined flow whose context is in the cache, or may be read. -/
theorem exec_flowSweep {s : State} {f c : Nat} (hc : s.cclk = c) (hdef : (Tab.get ({} : Flow) s.traffic.flows f).defined = true)
    (hread : s.traffic.fcache.contains f = true ∨
      s.dawning = false ∧ s.rsvReady (64 * f) = true ∧ s.engineFree (s.rsvChan (64 * f)) 15 0 = true ∧ s.ctxBad f = 0) :
    ∃ u t : State, s.putOnly u ∧ (u.setFlow f (s.swept f)).putOnly t ∧ exec (.flowSweep f c) s = .next t ∧
      (s.traffic.fcache.contains f = true → t = s.setFlow f (s.swept f)) := by
  have hgo : ¬ ((Tab.get ({} : Flow) s.traffic.flows f).defined = false ∨
      (s.traffic.fcache.contains f || (!s.dawning && s.rsvReady (64 * f) && s.engineFree (s.rsvChan (64 * f)) 15 0)) = false) := by
    rcases hread with h | ⟨h1, h2, h3, -⟩
    · rw [hdef, h]
      simp
    · rw [hdef, h1, h2, h3]
      simp
  have hexec : exec (.flowSweep f c) s = execFlowSweep f c s := rfl
  unfold execFlowSweep at hexec
  rw [State.atCycle_now hc] at hexec
  dsimp only at hexec
  rw [if_neg hgo] at hexec
  cases hcached : s.traffic.fcache.contains f
  · rw [hcached] at hexec hread
    obtain ⟨-, -, -, hbad⟩ := hread.resolve_left (by decide)
    rw [hbad, State.ctxLost_zero] at hexec
    simp only [Bool.false_eq_true, if_false] at hexec
    obtain ⟨u, hu⟩ : ∃ u, u = s.engineBytes (s.rsvChan (64 * f)) 15 ctxBytes := ⟨_, rfl⟩
    have hput : s.putOnly u := by
      rw [hu]
      exact s.putOnly_engineBytes _ _ _
    have hswept : u.swept f = s.swept f := by
      rw [hput]
      rfl
    rw [← hu, if_pos (by rw [hput.traffic]; exact hdef)] at hexec
    refine ⟨u, _, hput, ?_, hexec, fun h => absurd h (by simp)⟩
    rw [← hswept]
    exact State.putOnly_ctxWrite _ f
  · rw [hcached] at hexec
    rw [if_pos rfl, if_pos rfl, if_pos hdef] at hexec
    exact ⟨s, _, s.putOnly_refl, State.putOnly_refl _, hexec, fun _ => rfl⟩

/-- The sweep fills the buckets of a flow. -/
theorem flowSwept {s : State} {f c : Nat} (hc : s.cclk = c) (hdef : (Tab.get ({} : Flow) s.traffic.flows f).defined = true)
    (hpol : (Tab.get ({} : Flow) s.traffic.flows f).policy % 4 = 1)
    (hread : s.traffic.fcache.contains f = true ∨
      s.dawning = false ∧ s.rsvReady (64 * f) = true ∧ s.engineFree (s.rsvChan (64 * f)) 15 0 = true ∧ s.ctxBad f = 0) :
    Runs (.flowSweep f c) s fun t =>
      let x := Tab.get ({} : Flow) s.traffic.flows f
      let y := Tab.get ({} : Flow) t.traffic.flows f
      let n := min ((s.units64 + 2 ^ 32 - x.tLast) % 2 ^ 32) (2 ^ 28)
      y.tc = min (x.tc + (n * x.cir + x.fracC) / 16) x.cbs ∧ y.tp = min (x.tp + (n * x.pir + x.fracP) / 16) x.pbs ∧
      y.tLast = s.units64 ∧ (∀ h, h ≠ f → Tab.get ({} : Flow) t.traffic.flows h = Tab.get ({} : Flow) s.traffic.flows h) ∧
      t = { s with traffic := { s.traffic with flows := t.traffic.flows }, chans := t.chans, mem := t.mem, meas := t.meas } ∧
      (s.traffic.fcache.contains f = true → t.chans = s.chans ∧ t.mem = s.mem ∧ t.meas = s.meas) := by
  obtain ⟨u, t, hsu, hut, hexec, hcached⟩ := exec_flowSweep hc hdef hread
  obtain ⟨y, hy⟩ : ∃ y, y = s.swept f := ⟨_, rfl⟩
  rw [← hy] at hut hcached
  have htraffic : t.traffic = { s.traffic with flows := Tab.insert f y s.traffic.flows } := by
    rw [hut.traffic]
    change ({ u.traffic with flows := Tab.insert f y u.traffic.flows } : Traffic) = _
    rw [hsu.traffic]
  obtain ⟨h1, h2, h3⟩ := (Tab.get ({} : Flow) s.traffic.flows f).fill_two s.units64 hpol
  obtain ⟨k1, k2, k3⟩ := ((Tab.get ({} : Flow) s.traffic.flows f).fill s.units64).account_charge s.traffic.window (s.carryOf f) 0 0
  refine ⟨t, hexec, ?_⟩
  dsimp only
  rw [htraffic]
  dsimp only
  rw [Tab.get_insert_self]
  refine ⟨?_, ?_, ?_, fun h hne => Tab.get_insert_ne hne _ _ _, ?_, fun h => ?_⟩
  · rw [hy]
    exact k1.trans h1
  · rw [hy]
    exact k2.trans h2
  · rw [hy]
    exact k3.trans h3
  · unfold State.putOnly at hut hsu
    rw [hut, hsu]
    rfl
  · rw [hcached h]
    exact ⟨rfl, rfl, rfl⟩

/-! ### Urgency (R292) -/

/-- The thresholds of urgency. -/
theorem urgencyOf_spec {lat : Nat} (h : lat ≠ 0) (age : Nat) : urgencyOf lat age ≤ 3 ∧ (urgencyOf lat age = 0 ↔ 100 * age < 50 * lat) ∧
    (urgencyOf lat age ≤ 1 ↔ 100 * age < 75 * lat) ∧ (urgencyOf lat age ≤ 2 ↔ 100 * age < 90 * lat) := by
  unfold urgencyOf
  rw [if_neg h]
  split
  · omega
  · split
    · omega
    · split <;> omega

/-- Noting a flow's pending requests leaves its urgency. -/
theorem State.notePend_urgency (s : State) (f : Nat) :
    (Tab.get ({} : Flow) (s.notePend f).traffic.flows f).urgency = (Tab.get ({} : Flow) s.traffic.flows f).urgency := by
  unfold State.notePend State.setFlow
  dsimp only
  rw [Tab.get_insert_self]

/-- Urgency follows the age of the oldest pending request. -/
theorem urgencyUpdated {s : State} {f c lat age : Nat} (hc : s.cclk = c) (hlat : lat = (Tab.get ({} : Flow) s.traffic.flows f).latency) (hne : lat ≠ 0)
    (hpend : (s.pendOf f).2 ≠ 0) (hage : age = (c + 2 ^ 32 - (s.pendOf f).1 % 2 ^ 32) % 2 ^ 32) :
    Runs (.urgencyUpdate f c) s fun t =>
      let u := (Tab.get ({} : Flow) t.traffic.flows f).urgency
      u ≤ 3 ∧ (u = 0 ↔ 100 * age < 50 * lat) ∧ (u ≤ 1 ↔ 100 * age < 75 * lat) ∧ (u ≤ 2 ↔ 100 * age < 90 * lat) ∧
      t = { s with traffic := { s.traffic with flows := t.traffic.flows }, chans := t.chans } := by
  have hexec : exec (.urgencyUpdate f c) s = execUrgencyUpdate f c s := rfl
  unfold execUrgencyUpdate at hexec
  rw [State.atCycle_now hc] at hexec
  dsimp only at hexec
  rw [if_neg hpend, hc, ← hage] at hexec
  obtain ⟨x, hx⟩ : ∃ x : Flow, x = { Tab.get ({} : Flow) s.traffic.flows f with
    urgency := urgencyOf (Tab.get ({} : Flow) s.traffic.flows f).latency age } := ⟨_, rfl⟩
  rw [← hx] at hexec
  refine ⟨_, hexec, ?_⟩
  dsimp only
  have hurg : (Tab.get ({} : Flow) ((s.setFlow f x).notePend f).traffic.flows f).urgency = urgencyOf lat age := by
    rw [State.notePend_urgency]
    change (Tab.get ({} : Flow) (Tab.insert f x s.traffic.flows) f).urgency = _
    rw [Tab.get_insert_self, hx, hlat]
  rw [hurg]
  obtain ⟨h1, h2, h3, h4⟩ := urgencyOf_spec hne age
  exact ⟨h1, h2, h3, h4, rfl⟩

/-! ### The capacity test (R302, R462) -/

/-- Only fields of a capacity test's list have changed. -/
def State.figured (s t : State) : Prop := t = { s with regs := t.regs } ∧ s.regsKept t (capSlots s.C)

theorem State.figured_refl (s : State) : s.figured s := ⟨rfl, fun _ _ _ _ => rfl⟩

theorem State.figured_wr {s t : State} (h : s.figured t) {f : Fld} {i : Nat} (hmem : (⟨f, i, 0⟩ : Slot) ∈ capSlots s.C) (v : Nat) : s.figured (t.wr f i 0 v) :=
  ⟨by
    unfold State.wr
    rw [h.1], State.regsKept_wr h.2 hmem v⟩

theorem mem_capSlots {f : Fld} (h : f ∈ [R.TR_OVC_FAIL_CHANNEL, R.TR_OVC_FAIL_DOMAIN, R.TR_OVC_FAIL_WINDOW, R.TR_OVC_FAIL_VALID, R.ADM_MARGIN_MARGIN,
    R.ADM_MARGIN_CHANNEL, R.ADM_MARGIN_WINDOW, R.ADM_MARGIN_DOMAIN, R.ADM_MARGIN_VALID]) (n : Nat) : (⟨f, 0, 0⟩ : Slot) ∈ capSlots n :=
  List.mem_append_left _ (List.mem_map_of_mem h)

theorem mem_capSlots_chan {n ch : Nat} (h : ch < n) : (⟨R.ADM_CH_LOAD, ch, 0⟩ : Slot) ∈ capSlots n ∧ (⟨R.ADM_CH_CAP, ch, 0⟩ : Slot) ∈ capSlots n :=
  ⟨List.mem_append_right _ (List.mem_flatMap.mpr ⟨ch, List.mem_range.mpr h, List.mem_cons_self⟩),
    List.mem_append_right _ (List.mem_flatMap.mpr ⟨ch, List.mem_range.mpr h, List.mem_cons_of_mem _ List.mem_cons_self⟩)⟩

theorem foldl_mem_keeps {α β : Type} (P : β → Prop) (f : β → α → β) (l : List α) (h : ∀ b, ∀ a ∈ l, P b → P (f b a)) (b : β) (hb : P b) :
    P (l.foldl f b) := List.foldlRecOn l f hb fun b hb a ha => h b a ha hb

/-- The figures of a capacity test are fields of its list. -/
theorem State.figured_figures {s t : State} (h : s.figured t) (c : CapIn) : s.figured (t.figures c) := by
  have hC : t.C = s.C := by rw [h.1]; rfl
  unfold State.figures
  extract_lets tight margin all
  have hmargin : s.figured margin := State.figured_wr (State.figured_wr (State.figured_wr h (mem_capSlots (by simp) _) _) (mem_capSlots (by simp) _) _) (mem_capSlots (by simp) _) _
  have hall : s.figured all := State.figured_wr (State.figured_wr hmargin (mem_capSlots (by simp) _) _) (mem_capSlots (by simp) _) _
  have hallC : all.C = s.C := by rw [hall.1]; rfl
  refine foldl_mem_keeps s.figured _ _ (fun u ch hch hu => ?_) all hall
  rw [hallC, List.mem_range] at hch
  obtain ⟨hload, hcap⟩ := mem_capSlots_chan hch
  split <;> exact State.figured_wr (State.figured_wr hu hload _) hcap _

/-- What a capacity test's end notes of its outcome. -/
def State.tested (s : State) : Traffic :=
  { s.traffic with
    testing := false, testDone := true, testFails := !(s.capRun (capFlowsOf s.traffic.flows)).fails.isEmpty
    testAt := max s.cclk (s.traffic.testFrom + 1) }

/-- A capacity test ends with its outcome noted. -/
theorem capacityTested {s : State} (htest : s.traffic.testing = true) (hconf : s.conf.isSome = true) :
    Runs .capacityTestDone s fun t => t.traffic = s.tested ∧ t = { s with traffic := t.traffic, regs := t.regs, meas := t.meas } ∧
      s.regsKept t (capSlots s.C) := by
  obtain ⟨u, hu⟩ : ∃ u : State, u = { s with traffic := s.tested, meas := s.counted { ev := 0x0AD } } := ⟨_, rfl⟩
  obtain ⟨t, hexec, hfig⟩ : ∃ t, exec .capacityTestDone s = .next t ∧ u.figured t := by
    have hexec : exec .capacityTestDone s = execCapacityTestDone s := rfl
    have hgo : ¬ (s.traffic.testing = false ∨ s.conf.isNone = true) := by
      rw [htest]
      simpa [Option.isSome_iff_ne_none] using hconf
    unfold execCapacityTestDone at hexec
    rw [if_neg hgo] at hexec
    extract_lets fails counted old noted named at hexec
    have hnoted : noted = u := hu.symm
    refine ⟨_, hexec, State.figured_figures ?_ _⟩
    clear_value noted
    subst hnoted
    simp only [named]
    split
    · exact noted.figured_refl
    · exact State.figured_wr (State.figured_wr (State.figured_wr (State.figured_wr noted.figured_refl (mem_capSlots (by simp) _) _) (mem_capSlots (by simp) _) _) (mem_capSlots (by simp) _) _)
        (mem_capSlots (by simp) _) _
  have hslots : capSlots u.C = capSlots s.C := by rw [hu]; rfl
  obtain ⟨hframe, hkept⟩ := hfig
  rw [hslots] at hkept
  rw [hu] at hframe
  refine ⟨t, hexec, ?_, ?_, ?_⟩
  · rw [hframe]
  · rw [hframe]
  · intro f i j h
    rw [hkept f i j h, hu]
    rfl

end Sys2Proof.Machine
end

section
/-! A sub-request enters the front end of its channel (R198, R287, R317). -/

namespace Sys2Proof.Machine
open Sys2Proof

/-! ### What an entry into a front end leaves -/

/-- Only queues at the front ends, counters and detections have changed, and sub-requests that wait. -/
structure State.feeding (s t : State) : Prop where
  frame : t = { s with subs := t.subs, chans := t.chans, meas := t.meas, regs := t.regs, integ := t.integ }
  reads : s.readsBut [R.INT_HANDLE_DROP] t
  chan : ∀ d, t.chan d = { s.chan d with cq := (t.chan d).cq, seqNext := (t.chan d).seqNext, inLast := (t.chan d).inLast }

theorem State.feeding_refl (s : State) : s.feeding s := ⟨rfl, s.readsBut_refl _, fun _ => rfl⟩

theorem State.feeding.trans {s t u : State} (h : s.feeding t) (k : t.feeding u) : s.feeding u :=
  ⟨by rw [k.frame, h.frame], h.reads.trans k.reads, fun d => by rw [k.chan d, h.chan d]⟩

/-- Counters, and the sub-requests that wait, may change. -/
theorem State.feeding_of_chans {s t : State} (hframe : t = { s with subs := t.subs, meas := t.meas }) : s.feeding t := by
  refine ⟨?_, State.readsBut_of_regs ?_ ?_, fun d => ?_⟩ <;> rw [hframe]
  rfl

theorem State.feeding_setChan {s : State} {ch : Nat} {x : Chan}
    (h : x = { s.chan ch with cq := x.cq, seqNext := x.seqNext, inLast := x.inLast }) : s.feeding (s.setChan ch x) := by
  refine ⟨rfl, State.readsBut_of_regs rfl rfl, fun d => ?_⟩
  by_cases hd : d = ch
  · subst hd
    rw [State.setChan_chan_self]
    exact h
  · rw [State.setChan_chan_ne s hd]

/-- Only counters and detections have changed. -/
structure State.looked (s t : State) : Prop where
  feeding : s.feeding t
  subs : t.subs = s.subs
  chan : ∀ d, t.chan d = s.chan d

theorem State.looked_refl (s : State) : s.looked s := ⟨s.feeding_refl, rfl, fun _ => rfl⟩

theorem State.looked.trans {s t u : State} (h : s.looked t) (k : t.looked u) : s.looked u :=
  ⟨h.feeding.trans k.feeding, k.subs.trans h.subs, fun d => (k.chan d).trans (h.chan d)⟩

theorem State.looked_count (s : State) (o : Occ) : s.looked (s.count o) := ⟨State.feeding_of_chans rfl, rfl, fun _ => rfl⟩

/-- A check of spare words of a channel whose spare words show no wrong bit. -/
theorem State.looked_spareCheck {s : State} {ch : Nat} (hclean : ∀ e ∈ (s.chan ch).remap, e.2.errs = []) (a n init cls : Nat) :
    s.looked (s.spareCheck ch a n init cls) := by
  have h := s.engineRead_spareCheck ch a n init cls
  have hchan : ∀ d, (s.spareCheck ch a n init cls).chan d = s.chan d := by
    have hdetect (u : State) (l : List Nat) (f : Nat → Det) : ∀ d, (l.foldl (fun (v : State) k => v.detect (f k)) u).chan d = u.chan d := fun d =>
      foldl_keeps (fun v : State => v.chan d = u.chan d) _ (fun v k hv => by rw [State.detect_only]; exact hv) l u rfl
    intro d
    unfold State.spareCheck
    extract_lets hit bad mend cleared t
    have hmap : (s.chan ch).remap.map (fun r => (r.1, { r.2 with errs := r.2.errs.filter fun e => !mend r.2.block e.1 e.2 })) = (s.chan ch).remap := by
      refine (List.map_congr_left fun e he => ?_).trans (List.map_id _)
      have hfilter : e.2.errs.filter (fun x => !mend e.2.block x.1 x.2) = e.2.errs := by rw [hclean e he]; rfl
      rw [hfilter]
      rfl
    split
    · rfl
    · refine (hdetect t bad _ d).trans ?_
      simp only [t, cleared]
      rw [hmap]
      by_cases hd : d = ch
      · rw [hd, State.setChan_chan_self]
      · exact State.setChan_chan_ne s hd _
  refine ⟨⟨?_, h.reads, fun d => ?_⟩, ?_, hchan⟩
  · rw [h.frame]
  · rw [hchan]
  · rw [h.frame]

theorem SubReq.placed_read {u : SubReq} (hcells : u.cells = []) (hccells : u.ccells = []) (p : At) (guarded : Bool) (mode : Nat) :
    u.placed p guarded mode = ([], []) := by
  unfold SubReq.placed
  rw [hcells, hccells]
  split
  · rfl
  · split
    · rfl
    · split
      · rfl
      · split <;> rfl

theorem State.cellsPut_nil (s : State) : s.cellsPut [] = s := by
  unfold State.cellsPut State.memWrite
  rfl

/-- Queue entry `q` is part `p` of sub-request `id` in class `cls`, with what DRAM holds there. -/
structure State.takenAs (s : State) (id cls : Nat) (p : At) (atoms : Nat) (q : QEnt) : Prop where
  cls : q.cls = cls
  id : q.sub.id = id
  addr : q.sub.addr = p.a
  size : q.sub.atoms = atoms
  data : q.data = s.sample p.ch p.a (32 * atoms)

/-- A read enters the front end of a channel in service, whose spare words show no wrong bit. -/
theorem State.enqueue_read {s : State} {u : SubReq} {p : At} (hwrite : u.write = false) (hkind : u.kind ≠ .hdrWr) (hcells : u.cells = [])
    (hccells : u.ccells = []) (hout : s.outOfService p.ch = false) (hclean : ∀ e ∈ (s.chan p.ch).remap, e.2.errs = []) (guarded : Bool) (cls urg : Nat)
    (yellow : Bool) :
    ∃ (v : State) (q : QEnt) (n : Nat), s.looked v ∧ s.takenAs u.id cls p u.atoms q ∧
      s.enqueue u p guarded 0 cls yellow urg = v.setChan p.ch { s.chan p.ch with cq := (s.chan p.ch).cq ++ [q], seqNext := n } := by
  unfold State.enqueue
  extract_lets x bsw w i w' s' u' n q lost lostChan seen checked both hits counted y meets join put noted
  have hi : i = ([], [], s) := by
    simp only [i, hwrite, w, SubReq.placed_read hcells hccells]
    simp
  have hs' : s' = s := by simp only [s', hi]
  have hw' : w' = ([], []) := by simp only [w', hi]
  have hq : s.takenAs u.id cls p u.atoms q := by
    refine ⟨rfl, rfl, rfl, rfl, ?_⟩
    change (if u.write = true then [] else s'.sample p.ch p.a (32 * u.atoms)) = _
    rw [if_neg (by simp [hwrite]), hs']
  have hlook : s.looked counted := by
    have hspare {v : State} (hv : s.looked v) (a m init : Nat) : s.looked (v.spareCheck p.ch a m init cls) :=
      hv.trans (State.looked_spareCheck (by rw [hv.chan]; exact hclean) _ _ _ _)
    have hseen : s.looked seen := by
      simp only [seen, hs']
      split
      · exact s.looked_count _
      · exact s.looked_refl
    have hchecked : s.looked checked := hspare hseen _ _ _
    have hboth : s.looked both := by
      simp only [both]
      split
      · exact hseen
      · split
        · exact hspare hchecked _ _ _
        · exact hchecked
    simp only [counted]
    split
    · exact hboth
    · exact hboth.trans (State.looked_count _ _)
  have hy : y = s.chan p.ch := hlook.chan p.ch
  have hmeets : (y.cq ++ y.fly).any meets = false := by
    refine List.any_eq_false.mpr fun e _ => ?_
    have hne : (u'.kind == SubKind.hdrWr) = false := by simpa [u'] using hkind
    simp only [meets, hne]
    simp
  have hput : put = counted.setChan p.ch { s.chan p.ch with cq := (s.chan p.ch).cq ++ [q], seqNext := x.seqNext + 1 } := by
    simp only [put]
    rw [hmeets, hy]
    rfl
  have hnoted : noted = put := by
    simp only [noted]
    rw [if_neg (by simp [u', hwrite])]
  refine ⟨counted, q, x.seqNext + 1, hlook, hq, ?_⟩
  rw [if_neg (by rw [hs', hout]; simp), hw', hnoted, hput]
  rw [State.cellsPut_nil, State.cellsPut_nil]

/-! ### What reads the same after entries -/

theorem State.feeding.remap {s t : State} (h : s.feeding t) (d : Nat) : (t.chan d).remap = (s.chan d).remap := by rw [h.chan]

theorem State.feeding.outOfService {s t : State} (h : s.feeding t) (d : Nat) : t.outOfService d = s.outOfService d := by
  unfold State.outOfService
  rw [h.chan]

theorem State.feeding.cellByte {s t : State} (h : s.feeding t) (key : Nat) : t.cellByte key = s.cellByte key := by
  have hmem : t.mem = s.mem := by rw [h.frame]
  have hgen : (t.chan (key / 2 ^ 34)).memGen = (s.chan (key / 2 ^ 34)).memGen := by rw [h.chan]
  unfold State.cellByte Chan.remapOf State.memByte State.memAt
  simp only [h.remap, hmem, hgen]

theorem State.feeding.sample {s t : State} (h : s.feeding t) (ch a n : Nat) : t.sample ch a n = s.sample ch a n := by
  unfold State.sample
  simp only [h.cellByte, State.spareErrs_congr (h.remap _)]

theorem State.feeding.checkerMode {s t : State} (h : s.feeding t) {u v : SubReq} (htag : v.tag = u.tag) (hunit : v.unit = u.unit) (haddr : v.addr = u.addr) :
    t.checkerMode v = s.checkerMode u := by
  have hconf : t.conf = s.conf := by rw [h.frame]
  have hregion : t.rd R.INT_CHECKER_REGION = s.rd R.INT_CHECKER_REGION := h.reads _ 0 0 (by decide)
  have hmode : t.rd R.INT_CHECKER_MODE = s.rd R.INT_CHECKER_MODE := h.reads _ 0 0 (by decide)
  unfold State.checkerMode State.subRegion State.regionAt
  rw [htag, hunit, haddr, hconf, hregion, hmode]

/-! ### The parts of a sub-request enter (R198) -/

/-- The channels' queues in `t` are those of `s` with one more entry for each part of `l` on the channel. -/
def State.frontFed (s r : State) (id cls : Nat) (l : List (Nat × Nat × Route)) (t : State) : Prop :=
  ∀ d, ∃ tail : List QEnt, (t.chan d).cq = (r.chan d).cq ++ tail ∧ tail.length = (l.filter fun p => p.2.2.at_.ch == d).length ∧
    ∀ p ∈ l, p.2.2.at_.ch = d → ∃ q ∈ tail, s.takenAs id cls p.2.2.at_ p.2.1 q

/-- What every part of a sub-request has of it. -/
theorem SubReq.part_same (u : SubReq) (p : Nat × Nat × Route) : (u.part p).id = u.id ∧ (u.part p).write = u.write ∧ (u.part p).kind = u.kind ∧
    (u.part p).atoms = p.2.1 := by
  unfold SubReq.part
  split
  · next h => exact ⟨rfl, rfl, rfl, h.symm⟩
  · exact ⟨rfl, rfl, rfl, rfl⟩

theorem SubReq.part_cells {u : SubReq} (hcells : u.cells = []) (hccells : u.ccells = []) (p : Nat × Nat × Route) :
    (u.part p).cells = [] ∧ (u.part p).ccells = [] := by
  unfold SubReq.part
  split
  · exact ⟨hcells, hccells⟩
  · dsimp only
    rw [hcells, hccells]
    exact ⟨rfl, rfl⟩

/-- A sub-request that only reads, none of whose parts the checker mode or a wrong bit of a spare word concerns. -/
structure State.plainRead (s : State) (u : SubReq) (l : List (Nat × Nat × Route)) : Prop where
  write : u.write = false
  kind : u.kind ≠ .hdrWr
  cells : u.cells = []
  ccells : u.ccells = []
  serves : ∀ p ∈ l, s.outOfService p.2.2.at_.ch = false ∧ ∀ e ∈ (s.chan p.2.2.at_.ch).remap, e.2.errs = []
  checker : s.checkerMode u = 0

/-- A part of a read enters. -/
theorem State.enterPart_read {s r : State} {u : SubReq} {p : Nat × Nat × Route} (h : s.plainRead u [p]) (hr : s.feeding r) (guarded : Bool) (cls urg : Nat)
    (yellow : Bool) :
    s.feeding (r.enterPart u p guarded cls yellow urg) ∧ (r.enterPart u p guarded cls yellow urg).subs = r.subs ∧
      s.frontFed r u.id cls [p] (r.enterPart u p guarded cls yellow urg) := by
  obtain ⟨hid, hwrite, hkind, hatoms⟩ := u.part_same p
  obtain ⟨hcells, hccells⟩ := SubReq.part_cells h.cells h.ccells p
  obtain ⟨hout, hclean⟩ := h.serves p List.mem_cons_self
  obtain ⟨v, q, n, hv, hq, heq⟩ := State.enqueue_read (s := r) (p := p.2.2.at_) (hwrite.trans h.write) (by rw [hkind]; exact h.kind) hcells hccells
    (by rw [hr.outOfService]; exact hout) (by rw [hr.remap]; exact hclean) guarded cls urg yellow
  have henter : r.enterPart u p guarded cls yellow urg =
      v.setChan p.2.2.at_.ch { r.chan p.2.2.at_.ch with cq := (r.chan p.2.2.at_.ch).cq ++ [q], seqNext := n } := by
    unfold State.enterPart
    dsimp only
    rw [hr.checkerMode rfl rfl rfl, h.checker, heq, h.write]
    split <;> rfl
  rw [henter]
  have hset : v.feeding (v.setChan p.2.2.at_.ch { r.chan p.2.2.at_.ch with cq := (r.chan p.2.2.at_.ch).cq ++ [q], seqNext := n }) :=
    State.feeding_setChan (by rw [hv.chan])
  refine ⟨(hr.trans hv.feeding).trans hset, hv.subs, fun d => ?_⟩
  by_cases hd : p.2.2.at_.ch = d
  · subst hd
    rw [State.setChan_chan_self]
    refine ⟨[q], rfl, by simp, fun p' hp' _ => ⟨q, List.mem_cons_self, ?_⟩⟩
    rw [List.mem_singleton.mp hp']
    obtain ⟨h1, h2, h3, h4, h5⟩ := hq
    exact ⟨h1, h2.trans hid, h3, h4.trans hatoms, by rw [h5, hr.sample, hatoms]⟩
  · rw [State.setChan_chan_ne _ (Ne.symm hd), hv.chan]
    exact ⟨[], by simp, by simp [hd], fun p' hp' h' => absurd (by rw [← h', List.mem_singleton.mp hp']) hd⟩

theorem State.frontFed.trans {s r t v : State} {id cls : Nat} {p : Nat × Nat × Route} {l : List (Nat × Nat × Route)} (h : s.frontFed r id cls [p] t)
    (k : s.frontFed t id cls l v) : s.frontFed r id cls (p :: l) v := fun d => by
  obtain ⟨tail1, h1, h2, h3⟩ := h d
  obtain ⟨tail2, k1, k2, k3⟩ := k d
  refine ⟨tail1 ++ tail2, by rw [k1, h1, List.append_assoc], ?_, fun p' hp' hd => ?_⟩
  · rw [List.length_append, h2, k2, ← List.length_append, ← List.filter_append]
    rfl
  · rcases List.mem_cons.mp hp' with rfl | hp'
    · obtain ⟨q, hq, hqq⟩ := h3 p' List.mem_cons_self hd
      exact ⟨q, List.mem_append_left _ hq, hqq⟩
    · obtain ⟨q, hq, hqq⟩ := k3 p' hp' hd
      exact ⟨q, List.mem_append_right _ hq, hqq⟩

/-- All parts of a read enter. -/
theorem State.enterParts_read {s : State} {u : SubReq} (guarded : Bool) (cls urg : Nat) (yellow : Bool) : ∀ (l : List (Nat × Nat × Route)) {r : State},
    s.plainRead u l → s.feeding r →
    s.feeding (l.foldl (fun (s : State) p => s.enterPart u p guarded cls yellow urg) r) ∧
      (l.foldl (fun (s : State) p => s.enterPart u p guarded cls yellow urg) r).subs = r.subs ∧
      s.frontFed r u.id cls l (l.foldl (fun (s : State) p => s.enterPart u p guarded cls yellow urg) r)
  | [], r, _, hr => ⟨hr, rfl, fun d => ⟨[], by simp, rfl, fun p hp => absurd hp (by simp)⟩⟩
  | p :: l, r, h, hr => by
    have hp : s.plainRead u [p] := ⟨h.write, h.kind, h.cells, h.ccells, fun p' hp' => h.serves p' (by rw [List.mem_singleton.mp hp']; exact List.mem_cons_self),
      h.checker⟩
    have hl : s.plainRead u l := ⟨h.write, h.kind, h.cells, h.ccells, fun p' hp' => h.serves p' (List.mem_cons_of_mem _ hp'), h.checker⟩
    obtain ⟨h1, h2, h3⟩ := State.enterPart_read hp hr guarded cls urg yellow
    obtain ⟨k1, k2, k3⟩ := State.enterParts_read guarded cls urg yellow l hl h1
    exact ⟨k1, k2.trans h2, h3.trans k3⟩

end Sys2Proof.Machine
end

section
/-! A sub-request of a named class is assigned (R198, R287), and the obligation on flow contexts. -/

namespace Sys2Proof.Machine
open Sys2Proof

/-- Following a sub-request may end its trail's tag in it, and changes trails only. -/
theorem State.trailSub_only (s : State) (u : SubReq) (cls ch : Nat) : ∃ tag m, s.trailSub u cls ch = ({ u with sctag := tag }, { s with meas := m }) := by
  have hmod (v : State) (tg : Option Nat) (f : Trail → Trail) : ∃ m, v.modTrail tg f = { v with meas := m } := by
    unfold State.modTrail
    split
    · exact ⟨_, rfl⟩
    · exact ⟨_, rfl⟩
  have hstamp (v : State) (tg : Option Nat) (k : Nat) : ∃ m, v.stamp tg k = { v with meas := m } := by
    unfold State.stamp
    split
    · exact ⟨_, rfl⟩
    · exact ⟨_, rfl⟩
  unfold State.trailSub
  split
  · exact ⟨_, _, rfl⟩
  · split
    · exact ⟨_, _, rfl⟩
    · split
      · obtain ⟨m, hm⟩ := hstamp s u.sctag 4
        obtain ⟨m', hm'⟩ := hmod (s.stamp u.sctag 4) u.sctag fun t => { t with cls := cls, ch := ch }
        refine ⟨u.sctag, m', ?_⟩
        rw [hm', hm]
      · obtain ⟨m, hm⟩ := hmod s u.sctag fun t => { t with multi := true }
        exact ⟨none, m, by rw [hm]⟩

/-- No injection concerns what is not a header's write. -/
theorem State.injectS_other {s : State} {u : SubReq} (h : u.kind ≠ .hdrWr) : s.injectS u = (u, s) := if_pos (.inl h)

theorem State.settle_only (s : State) (id : Option Nat) : s.settle id = { s with traffic := (s.settle id).traffic } := by
  unfold State.settle
  split
  · rfl
  · split
    · rfl
    · split <;> rfl

theorem State.servedAt_feeding (s : State) (u : SubReq) : s.feeding (s.servedAt u) ∧ (s.servedAt u).subs = s.subs ∧
    ∀ d, ((s.servedAt u).chan d).cq = (s.chan d).cq := by
  unfold State.servedAt
  split
  · exact ⟨s.feeding_refl, rfl, fun _ => rfl⟩
  · next ch _ =>
    refine ⟨State.feeding_setChan rfl, rfl, fun d => ?_⟩
    by_cases hd : d = ch
    · rw [hd, State.setChan_chan_self]
    · rw [State.setChan_chan_ne s hd]

/-- A sub-request of a named class that only reads is assigned: each of its parts enters the front end of its channel. -/
theorem State.assignTo_named {s : State} {u : SubReq} {cl : Nat} {parts : List (Nat × Nat × Route)} (hquiet : s.quiet) (hnamed : u.named = some cl)
    (hatoms : u.atoms ≠ 0) (h : s.plainRead u parts) (guarded : Bool) :
    (s.assignTo u parts guarded).subs = s.subs.filter (fun v => v.id != u.id) ∧ s.frontFed s u.id cl parts (s.assignTo u parts guarded) := by
  unfold State.assignTo
  extract_lets s1 chs f a urg
  have ha : a = (cl, 0, 0, s1) := by simp only [a, hnamed]
  clear_value a
  subst ha
  dsimp -zeta only
  extract_lets named counted limit aged i v injected fed n src given ended
  have hs1 : s.feeding s1 := State.feeding_of_chans rfl
  have hcounted : counted = s1.count { ev := 0x080 + cl, req := u.rq, cls := cl } := by
    simp only [counted, named, hnamed]
    rfl
  obtain ⟨tag, m, htrail⟩ := counted.trailSub_only u cl (chs.headD 0)
  have haged : ∃ m', aged = { counted with meas := m' } := by
    simp only [aged, htrail]
    split
    · exact ⟨_, rfl⟩
    · exact ⟨_, rfl⟩
  obtain ⟨m', hm'⟩ := haged
  have hi : i = ({ u with sctag := tag }, aged) := by
    simp only [i]
    rw [htrail]
    exact State.injectS_other h.kind
  have hv : v = { u with sctag := tag } := by simp only [v, hi]
  have hinjected : injected = { counted with meas := m' } := by simp only [injected, hi, hm']
  have hplain : s.plainRead v parts := by
    rw [hv]
    exact ⟨h.write, h.kind, h.cells, h.ccells, h.serves, h.checker⟩
  have hfeed : s.feeding injected ∧ injected.subs = s.subs.filter (fun v => v.id != u.id) ∧ ∀ d, injected.chan d = s.chan d := by
    rw [hinjected, hcounted]
    exact ⟨State.feeding_of_chans rfl, rfl, fun _ => rfl⟩
  obtain ⟨hfeeding, hsubs, hchans⟩ := hfeed
  obtain ⟨kfeeding, ksubs, kfed⟩ : s.feeding fed ∧ fed.subs = injected.subs ∧ s.frontFed injected v.id cl parts fed :=
    State.enterParts_read guarded cl urg (0 == 4) parts hplain hfeeding
  have hended : ended = { fed with ports := ended.ports } := by
    have hatoms' : ¬ v.atoms = 0 := by rw [hv]; exact hatoms
    simp only [ended, given]
    rw [if_neg (by rw [hplain.write]; simp), if_neg hatoms']
    split <;> rfl
  have hsettled := ended.settle_only v.own
  obtain ⟨hwaits, hheaders, hcells⟩ := hquiet
  clear_value ended fed
  obtain ⟨w, hw⟩ : ∃ w, w = ended.settle v.own := ⟨_, rfl⟩
  rw [← hw] at hsettled ⊢
  have hframe : w = { fed with ports := w.ports, traffic := w.traffic } := by rw [hsettled, hended]
  have hpump : w.linesOnly w.pump := by
    refine State.pump_idle ?_ ?_ ?_ <;> rw [hframe, kfeeding.frame]
    · exact hwaits
    · exact hheaders
    · exact hcells
  have hwsubs : w.pump.subs = fed.subs := by rw [hpump, hframe]
  have hwchan (d : Nat) : (w.pump.chan d).cq = (fed.chan d).cq := by rw [hpump, hframe]; rfl
  refine ⟨hwsubs.trans (ksubs.trans hsubs), fun d => ?_⟩
  obtain ⟨tail, h1, h2, h3⟩ := kfed d
  rw [hchans] at h1
  rw [hv] at h3
  exact ⟨tail, (hwchan d).trans h1, h2, h3⟩

theorem State.plainRead.feeding {s t : State} {u : SubReq} {l : List (Nat × Nat × Route)} (h : s.plainRead u l) (k : s.feeding t) : t.plainRead u l :=
  ⟨h.write, h.kind, h.cells, h.ccells, fun p hp => by rw [k.outOfService, k.remap]; exact h.serves p hp, by
    rw [k.checkerMode rfl rfl rfl]
    exact h.checker⟩

/-- SUBREQUEST_ASSIGN of a sub-request of a named class whose turn it is. -/
theorem exec_subrequestAssign {s : State} {c k cl : Nat} {u : SubReq} (hc : s.cclk = c) (hk : s.subs[k]? = some u) (hnamed : u.named = some cl)
    (hmeets : ((s.subs.take k).any fun e => e.meets u) = false) (hdawn : s.dawning = false) (hfree : s.subFree u = true) (hturn : s.isTurn k = true) :
    exec (.subrequestAssign k c) s = .next ((s.servedAt u).assignTo u (s.subParts u) (s.subGuarded u)) := by
  have hctx : s.ctxHere u = true := by
    unfold State.ctxHere
    rw [hnamed]
    rfl
  change execSubrequestAssign k c s = _
  unfold execSubrequestAssign
  rw [State.atCycle_now hc]
  dsimp only
  rw [hk]
  dsimp only
  rw [if_neg (by rw [hctx]; simp), if_neg (by rw [hmeets, hdawn]; simp), if_neg (by rw [hfree]; simp), if_neg (by rw [hturn]; simp), hnamed]
  rfl

/-- A sub-request of a named class that only reads enters the front ends of its channels. -/
theorem subrequestAssigned {s : State} {c k cl : Nat} {u : SubReq} (hc : s.cclk = c) (hquiet : s.quiet) (hk : s.subs[k]? = some u)
    (hnamed : u.named = some cl) (hatoms : u.atoms ≠ 0) (hmeets : ((s.subs.take k).any fun e => e.meets u) = false) (hdawn : s.dawning = false)
    (hfree : s.subFree u = true) (hturn : s.isTurn k = true) (h : s.plainRead u (s.subParts u)) :
    Runs (.subrequestAssign k c) s fun t =>
      t.subs = s.subs.filter (fun v => v.id != u.id) ∧
      (∀ p ∈ s.subParts u, ∃ q ∈ (t.chan p.2.2.at_.ch).cq.drop (s.chan p.2.2.at_.ch).cq.length, q.cls = cl ∧ q.sub.id = u.id ∧
        q.sub.addr = p.2.2.at_.a ∧ q.sub.atoms = p.2.1 ∧ q.data = s.sample p.2.2.at_.ch p.2.2.at_.a (32 * p.2.1)) ∧
      (∀ d, (s.chan d).cq <+: (t.chan d).cq ∧
        (t.chan d).cq.length = (s.chan d).cq.length + ((s.subParts u).filter fun p => p.2.2.at_.ch == d).length) := by
  obtain ⟨hfeeding, hsubs, hcq⟩ := s.servedAt_feeding u
  refine ⟨_, exec_subrequestAssign hc hk hnamed hmeets hdawn hfree hturn, ?_⟩
  obtain ⟨r, hr⟩ : ∃ r, r = s.servedAt u := ⟨_, rfl⟩
  rw [← hr] at hfeeding hsubs hcq ⊢
  have hrquiet : r.quiet := by
    unfold State.quiet
    rw [hfeeding.frame]
    exact hquiet
  obtain ⟨k1, k2⟩ := State.assignTo_named hrquiet hnamed hatoms (h.feeding hfeeding) (s.subGuarded u)
  generalize r.assignTo u (s.subParts u) (s.subGuarded u) = t at k1 k2 ⊢
  refine ⟨by rw [k1, hsubs], fun p hp => ?_, fun d => ?_⟩
  · obtain ⟨tail, htail, -, hall⟩ := k2 p.2.2.at_.ch
    obtain ⟨q, hq, hcls, hid, haddr, hsize, hdata⟩ := hall p hp rfl
    refine ⟨q, ?_, hcls, hid, haddr, hsize, hdata.trans (hfeeding.sample _ _ _)⟩
    rw [htail, hcq, List.drop_left]
    exact hq
  · obtain ⟨tail, htail, hlen, -⟩ := k2 d
    rw [htail, hcq]
    exact ⟨List.prefix_append _ _, by rw [List.length_append, hlen]⟩

end Sys2Proof.Machine

open Sys2Proof Sys2Proof.Machine

/-- Settles O49: a sub-request that enters, a context that is missed, read and swept, urgency, and the end of a capacity test, each by its lemma. -/
theorem flowContexts : Obligations.FlowContexts := by
  unfold Obligations.FlowContexts
  intro s f c hc
  refine ⟨?_, ?_, contextFilled, flowSwept hc, ?_, capacityTested⟩
  · intro k cl u hquiet hk hnamed hwrite hkind hcells hccells hatoms hmeets hdawn hfree hturn hserves hchecker
    exact subrequestAssigned hc hquiet hk hnamed hatoms hmeets hdawn hfree hturn ⟨hwrite, hkind, hcells, hccells, hserves, hchecker⟩
  · intro k u hk hctx hwait
    exact contextAsked hc hk hctx hwait
  · intro lat age hlat hne hpend hage
    exact urgencyUpdated hc hlat hne hpend hage

end

section
/-! What the writes of preparation, initialisation and lost contents leave (R179, R369, R374, R489). -/

namespace Sys2Proof.Machine
open Sys2Proof

/-! ### Stored bytes -/

/-- Only memory and the spare words of remapped blocks have changed. -/
structure State.filled (s t : State) : Prop where
  frame : t = { s with chans := t.chans, mem := t.mem }
  chan : ∀ d, t.chan d = { s.chan d with remap := (t.chan d).remap }

theorem State.filled_refl (s : State) : s.filled s := ⟨rfl, fun _ => rfl⟩

theorem State.filled.trans {s t u : State} (h : s.filled t) (k : t.filled u) : s.filled u :=
  ⟨by rw [k.frame, h.frame], fun d => by rw [k.chan, h.chan]⟩

theorem State.filled_cellPut (s : State) (c : Nat × Byte) : s.filled (s.cellPut c) := by
  unfold State.cellPut
  extract_lets ch a x
  split
  · refine ⟨rfl, fun d => ?_⟩
    by_cases hd : d = ch
    · rw [hd, State.setChan_chan_self]
    · rw [State.setChan_chan_ne s hd]
  · exact ⟨rfl, fun _ => rfl⟩

theorem State.filled_cellsPut (s : State) (l : List (Nat × Byte)) : s.filled (s.cellsPut l) := by
  unfold State.cellsPut
  split
  · exact foldl_keeps s.filled State.cellPut (fun u c h => h.trans (u.filled_cellPut c)) l s s.filled_refl
  · exact ⟨rfl, fun _ => rfl⟩

theorem State.filled_cellsFill (s : State) (k : Nat) (l : List Byte) : s.filled (s.cellsFill k l) := by
  unfold State.cellsFill
  split
  · exact ⟨rfl, fun _ => rfl⟩
  · exact s.filled_cellsPut _

/-- Only memory, spare words and traffic accounts of channels have changed. -/
structure State.written (s t : State) : Prop where
  frame : t = { s with chans := t.chans, mem := t.mem, meas := t.meas }
  chan : ∀ d, t.chan d = { s.chan d with bytesCur := (t.chan d).bytesCur, sendLeft := (t.chan d).sendLeft, remap := (t.chan d).remap }

theorem State.written_refl (s : State) : s.written s := ⟨rfl, fun _ => rfl⟩

theorem State.written.trans {s t u : State} (h : s.written t) (k : t.written u) : s.written u :=
  ⟨by rw [k.frame, h.frame], fun d => by rw [k.chan, h.chan]⟩

theorem State.filled.written {s t : State} (h : s.filled t) : s.written t := ⟨by rw [h.frame], fun d => by rw [h.chan]⟩

theorem State.written_engineBytes (s : State) (ch cls n : Nat) : s.written (s.engineBytes ch cls n) := by
  unfold State.engineBytes
  split
  · exact s.written_refl
  · refine ⟨rfl, fun d => ?_⟩
    rw [State.count_chan]
    by_cases hd : d = ch
    · rw [hd, State.setChan_chan_self]
    · rw [State.setChan_chan_ne s hd]

theorem State.written_foldl {α : Type} {f : State → α → State} (hf : ∀ u a, State.written u (f u a)) (l : List α) (s : State) : s.written (l.foldl f s) :=
  foldl_keeps s.written f (fun u a h => h.trans (hf u a)) l s s.written_refl

theorem State.written_fillBytes (s : State) (k : Nat) (l : List Byte) (ch cls n : Nat) : s.written ((s.cellsFill k l).engineBytes ch cls n) :=
  (s.filled_cellsFill k l).written.trans (State.written_engineBytes _ _ _ _)

/-! ### Preparation (R179, R489) -/

theorem State.written_prepPut (s : State) (x : Surf) (cls : Nat) (l : List Byte) (a : At) : s.written (s.prepPut x cls l a) := by
  unfold State.prepPut
  extract_lets t
  have h : s.written t := s.written_fillBytes _ _ _ _ _
  clear_value t
  split
  · exact h.trans (t.written_fillBytes _ _ _ _ _)
  · exact h

theorem State.written_prepRoute (s : State) (x : Surf) (cls : Nat) (l : List Byte) (r : Route) : s.written (s.prepRoute x cls l r) := by
  unfold State.prepRoute
  extract_lets t
  have h : s.written t := by
    simp only [t]
    split
    · exact s.written_prepPut _ _ _ _
    · exact s.written_refl
  clear_value t
  split
  · exact h.trans (t.written_prepPut _ _ _ _)
  · exact h

theorem State.written_prepCell (s : State) (x : Surf) (t : LTag) (cls c : Nat) : s.written (s.prepCell x t cls c) := by
  unfold State.prepCell
  split
  · split
    · exact s.written_prepRoute _ _ _ _
    · exact s.written_refl
  · exact State.written_foldl (fun u p => u.written_prepRoute _ _ _ _) _ _

/-- What leads a count past the places done out of order keeps every place done. -/
theorem advance_done : ∀ (f n : Nat) (l : List Nat) {j : Nat}, j < n ∨ j ∈ l → j < (advance f n l).1 ∨ j ∈ (advance f n l).2
  | 0, _, _, _, h => h
  | f + 1, n, l, j, h => by
    unfold advance
    split
    · refine advance_done f (n + 1) _ ?_
      by_cases hj : j = n
      · exact .inl (by omega)
      · rcases h with h | h
        · exact .inl (by omega)
        · exact .inr (List.mem_filter.mpr ⟨h, by simpa using hj⟩)
    · exact h

/-- A tile is prepared, or prepared out of order, as `tileReady` asks of a surface that is prepared. -/
theorem Surf.tileReady_iff {x : Surf} (h : x.prepares = true) (k : Nat) : x.tileReady k = true ↔ k < x.prep ∨ k ∈ x.prepOut := by
  unfold Surf.tileReady
  rw [h]
  simp

/-- Surface `x` with tile `k` prepared. -/
def Surf.prepared (x : Surf) (k : Nat) : Surf :=
  { x with
    prep := (advance (x.prepOut.length + 1) x.prep (sortedInsert k x.prepOut)).1
    prepOut := (advance (x.prepOut.length + 1) x.prep (sortedInsert k x.prepOut)).2 }

theorem Surf.prepared_ready {x : Surf} (h : x.prepares = true) {j k : Nat} (hj : j = k ∨ x.tileReady j = true) : (x.prepared k).tileReady j = true := by
  rw [Surf.tileReady_iff (x := x.prepared k) h]
  refine advance_done _ _ _ ?_
  rw [mem_sortedInsert]
  rcases hj with hj | hj
  · exact .inr (.inl hj)
  · rw [Surf.tileReady_iff h] at hj
    rcases hj with hj | hj
    · exact .inl hj
    · exact .inr (.inr hj)

/-- The tag of tile `k` of surface `i`. -/
def State.tileTag (s : State) (i k : Nat) : LTag :=
  { idx := i, gen := (s.surf i).gen, plane := ((s.surf i).tileAt k).1, tx := ((s.surf i).tileAt k).2.1, ty := ((s.surf i).tileAt k).2.2 }

/-- A tile that is its surface's next, or that an access waits for, is prepared. -/
theorem tilePrepared {s : State} {i k : Nat} {run : Nat × Nat} (hpower : s.power.st = 0) (hrun : run = s.waiterRun ((s.surf i).touchesTile i k))
    (hlive : (s.surf i).live = true ∨ (s.surf i).freed = true ∧ s.subs.any ((s.surf i).touchesTile i k) = true)
    (hprep : (s.surf i).prepares = true) (hcount : k < (s.surf i).tileCount) (hready : (s.surf i).tileReady k = false)
    (hnext : k = (s.surf i).prep ∨ s.subs.any ((s.surf i).touchesTile i k) = true)
    (hfree : s.routesFree (s.prepRoutes (s.surf i) (s.tileTag i k)) run.1 run.2 = true) :
    Runs (.tilePrepWrite i k) s fun t =>
      (t.surf i).tileReady k = true ∧ (∀ j, (s.surf i).tileReady j = true → (t.surf i).tileReady j = true) ∧
      t.surf i = { s.surf i with prep := (t.surf i).prep, prepOut := (t.surf i).prepOut } ∧ (∀ j, j ≠ i → t.surf j = s.surf j) ∧
      (∀ d, t.chan d = { s.chan d with bytesCur := (t.chan d).bytesCur, sendLeft := (t.chan d).sendLeft, remap := (t.chan d).remap }) ∧
      t = { s with mem := t.mem, chans := t.chans, meas := t.meas, sm := { s.sm with surfs := t.sm.surfs } } := by
  obtain ⟨u, hu, hexec⟩ : ∃ u, s.written u ∧ exec (.tilePrepWrite i k) s = .next (u.setSurf i ((s.surf i).prepared k)) := by
    refine ⟨(List.range 16).foldl (fun (u : State) c => u.prepCell (s.surf i) (s.tileTag i k) run.1 c) s,
      State.written_foldl (fun u c => u.written_prepCell _ _ _ _) _ _, ?_⟩
    change execTilePrepWrite i k s = _
    unfold execTilePrepWrite
    dsimp only
    rw [if_neg, if_neg]
    · rw [hrun]
      rfl
    · rw [← hrun]
      exact (by rw [hfree]; simp : ¬ (s.routesFree (s.prepRoutes (s.surf i) (s.tileTag i k)) run.1 run.2 = false))
    · rintro (h | h | h | h | h | h)
      · rcases hlive with hl | ⟨hl, hl'⟩
        · simp [hl] at h
        · simp [hl, hl'] at h
      · exact h hpower
      · rw [hprep] at h
        exact absurd h (by simp)
      · omega
      · rw [hready] at h
        exact absurd h (by simp)
      · rcases hnext with hn | hn
        · simp [hn] at h
        · simp [hn] at h
  have hsurf (j : Nat) (h : j ≠ i) : u.surf j = s.surf j := State.surf_congr (by rw [hu.frame]) j
  refine ⟨_, hexec, ?_⟩
  dsimp only
  rw [State.setSurf_surf_self]
  refine ⟨Surf.prepared_ready hprep (.inl rfl), fun j hj => Surf.prepared_ready hprep (.inr hj), rfl, fun j hj => ?_, hu.chan, ?_⟩
  · rw [State.setSurf_surf_ne _ hj, hsurf j hj]
  · unfold State.setSurf
    rw [hu.frame]

end Sys2Proof.Machine
end

section
/-! The marking of lost contents (R490) and initialisation (R369). -/

namespace Sys2Proof.Machine
open Sys2Proof

/-! ### What stands in memory after a long run is written -/

theorem Tab.find_append {α : Type} (l m : Tab α) (k : Nat) : Tab.find (l ++ m) k = (Tab.find l k).or (Tab.find m k) := by
  induction l with
  | nil => rfl
  | cons e l ih =>
    obtain ⟨a, v⟩ := e
    change (if k = a then some v else Tab.find (l ++ m) k) = (if k = a then some v else Tab.find l k).or (Tab.find m k)
    split
    · rfl
    · exact ih

theorem Tab.find_run {α : Type} (k : Nat) (l : List α) (a : Nat) :
    Tab.find ((List.range l.length).zipWith (fun i b => (k + i, b)) l) a = if k ≤ a then l[a - k]? else none := by
  induction l generalizing k with
  | nil => simp [Tab.find]
  | cons b l ih =>
    rw [List.length_cons, List.range_succ_eq_map, List.zipWith_cons_cons, List.zipWith_map_left]
    unfold Tab.find
    have hshift : (fun (i : Nat) (b : α) => (k + Nat.succ i, b)) = fun i b => (k + 1 + i, b) := by
      funext i b
      rw [Nat.succ_eq_add_one, Nat.add_assoc, Nat.add_comm 1]
    rw [hshift, ih (k + 1), Nat.add_zero]
    rcases Nat.lt_trichotomy a k with h | h | h
    · rw [if_neg (by omega), if_neg (by omega), if_neg (by omega)]
    · rw [if_pos h, if_pos (by omega), h, Nat.sub_self]
      rfl
    · rw [if_neg (by omega), if_pos (by omega), if_pos (by omega), show a - k = a - (k + 1) + 1 by omega]
      rfl

/-- A run of bytes takes the place of what stood there, and of nothing else. -/
theorem State.memFill_at (s : State) (k : Nat) (l : List Byte) (a : Nat) :
    (s.memFill k l).memAt a = if k ≤ a ∧ a < k + l.length then l[a - k]? else s.memAt a := by
  unfold State.memAt State.memFill
  dsimp only
  rw [Tab.find_append, Tab.find_append, Tab.find_run, Tab.find_filter fun b => decide (b < k), Tab.find_filter fun b => decide (k + l.length ≤ b)]
  by_cases h1 : a < k
  · rw [if_pos (decide_eq_true h1), if_neg (by omega), if_neg (by simp; omega), if_neg (by omega)]
    simp
  · by_cases h2 : a < k + l.length
    · rw [if_neg (by simpa using h1), if_pos (by omega), if_neg (by simp; omega), if_pos ⟨by omega, h2⟩]
      simp
    · rw [if_neg (by simpa using h1), if_pos (by omega), if_pos (decide_eq_true (by omega)), if_neg (by omega),
        List.getElem?_eq_none (by omega)]
      simp

/-! ### Lost contents (R490) -/

theorem State.filled_foldl {α : Type} {f : State → α → State} (hf : ∀ u a, State.filled u (f u a)) (l : List α) (s : State) : s.filled (l.foldl f s) :=
  foldl_keeps s.filled f (fun u a h => h.trans (hf u a)) l s s.filled_refl

theorem State.filled_poisonRsv (s : State) (ch e : Nat) : s.filled (s.poisonRsv ch e) := by
  unfold State.poisonRsv
  refine State.filled_foldl (fun u l => State.filled_foldl (fun v k => ?_) _ _) _ _
  extract_lets p w
  have h : v.filled w := by
    simp only [w]
    split
    · exact v.filled_cellsFill _ _
    · exact v.filled_refl
  clear_value w
  split
  · exact h.trans (w.filled_cellsFill _ _)
  · exact h

theorem State.filled_poisonExt (s : State) (ch : Nat) (e : Nat × Nat × Nat) (o : Nat) : s.filled (s.poisonExt ch e o) := by
  unfold State.poisonExt
  extract_lets k
  split
  · exact s.filled_cellsFill _ _
  · split
    · exact s.filled_cellsFill _ _
    · split
      · exact s.filled_poisonRsv _ _
      · exact s.filled_cellsFill _ _

/-- Only stored bytes have changed, and the traffic account of channel `ch`. -/
structure State.writtenOn (s : State) (ch : Nat) (t : State) : Prop where
  written : s.written t
  other : ∀ d, d ≠ ch → t.chan d = { s.chan d with remap := (t.chan d).remap }

theorem State.writtenOn_lost (s : State) (ch cls : Nat) (l : List (Nat × Nat × Nat)) :
    s.writtenOn ch (l.foldl (fun (s : State) e => (s.poisonExt ch e).engineBytes ch cls (lostBytes e 0)) s) := by
  refine foldl_keeps (s.writtenOn ch) _ (fun u e h => ?_) l s ⟨s.written_refl, fun _ _ => rfl⟩
  have hfill := u.filled_poisonExt ch e 0
  refine ⟨h.written.trans (hfill.written.trans (State.written_engineBytes _ _ _ _)), fun d hd => ?_⟩
  obtain ⟨-, hother, -⟩ := (u.poisonExt ch e 0).engineBytes_chan ch cls (lostBytes e 0)
  rw [hother d hd, hfill.chan, h.other d hd]

theorem State.engineBytes_memAt (s : State) (ch cls n a : Nat) : (s.engineBytes ch cls n).memAt a = s.memAt a := by
  obtain ⟨-, -, h⟩ := s.engineBytes_chan ch cls n
  rw [h]
  rfl

/-- An extent of GUARDED data on a channel without remapped blocks reads as 0 once it is written as lost. -/
theorem State.poisonExt_guarded {s : State} {ch k : Nat} (hk : k < 8192) (hremap : (s.chan ch).remap = []) (a : Nat) :
    (s.poisonExt ch (k, 1, 0)).memAt a =
      if memKey ch (k * extBytes) ≤ a ∧ a < memKey ch (k * extBytes) + extBytes then some 0 else s.memAt a := by
  have hch : memKey ch (k * extBytes) / 2 ^ 34 = ch := by
    unfold memKey extBytes
    omega
  have hfill : s.poisonExt ch (k, 1, 0) = s.memFill (memKey ch (k * extBytes)) (List.replicate extBytes 0) := by
    unfold State.poisonExt State.cellsFill
    dsimp only
    rw [if_pos rfl, Nat.add_zero, hch, hremap]
    rfl
  rw [hfill, State.memFill_at, List.length_replicate]
  split
  · rw [List.getElem?_replicate, if_pos (by omega)]
  · rfl

/-- An extent whose contents are lost is marked. -/
theorem contentLost {s : State} {ch k : Nat} (hpower : s.power.st = 0) (hlost : (s.chan ch).lossTodo.contains k = true) (hin : s.inService ch = true)
    (hfree : s.engineFree ch (s.lossRun ch k).1 (s.lossRun ch k).2 = true) :
    Runs (.contentLossMark ch k) s fun t =>
      k ∉ (t.chan ch).lossTodo ∧ (∀ e, e ≠ k → (e ∈ (t.chan ch).lossTodo ↔ e ∈ (s.chan ch).lossTodo)) ∧
      (∀ d, d ≠ ch → t.chan d = { s.chan d with remap := (t.chan d).remap }) ∧
      t = { s with mem := t.mem, chans := t.chans, meas := t.meas, hdrs := t.hdrs } ∧
      (k < 8192 → (s.chan ch).remap = [] → (s.heldExts ch).filter (fun e => e.1 == k) = [(k, 1, 0)] →
        (∀ o, o < extBytes → t.memAt (memKey ch (k * extBytes + o)) = some 0) ∧
        ∀ a, (a < memKey ch (k * extBytes) ∨ memKey ch (k * extBytes) + extBytes ≤ a) → t.memAt a = s.memAt a) := by
  obtain ⟨l, hl⟩ : ∃ l, l = (s.heldExts ch).filter fun e => e.1 == k := ⟨_, rfl⟩
  obtain ⟨cls, hcls⟩ : ∃ cls, cls = (s.lossRun ch k).1 := ⟨_, rfl⟩
  have hwritten := s.writtenOn_lost ch cls l
  obtain ⟨u, hu⟩ : ∃ u, u = l.foldl (fun (s : State) e => (s.poisonExt ch e).engineBytes ch cls (lostBytes e 0)) s := ⟨_, rfl⟩
  rw [← hu] at hwritten
  obtain ⟨h, hexec⟩ : ∃ h, exec (.contentLossMark ch k) s = .next (({ u with hdrs := h } : State).setChan ch { u.chan ch with
      lossTodo := (u.chan ch).lossTodo.filter fun e => e != k }) := by
    have hexec : exec (.contentLossMark ch k) s = execContentLossMark ch k s := rfl
    unfold execContentLossMark State.hdrsLost at hexec
    dsimp only at hexec
    rw [if_neg (by rw [hlost, hin, hfree]; simp [hpower]), ← hl, ← hcls, ← hu] at hexec
    exact ⟨_, hexec⟩
  have hchan : (u.chan ch).lossTodo = (s.chan ch).lossTodo := by rw [hwritten.written.chan]
  refine ⟨_, hexec, ?_⟩
  dsimp only
  rw [State.setChan_chan_self, hchan]
  refine ⟨fun hmem => ?_, fun e he => ?_, fun d hd => ?_, ?_, fun hk hremap hheld => ?_⟩
  · simpa using (List.mem_filter.mp hmem).2
  · rw [List.mem_filter]
    simp [he]
  · rw [State.setChan_chan_ne _ hd]
    exact hwritten.other d hd
  · have hframe := hwritten.written.frame
    unfold State.setChan
    clear hu
    rw [hframe]
  · rw [hheld] at hl
    subst hl
    rw [List.foldl_cons, List.foldl_nil] at hu
    have hat (a : Nat) : u.memAt a =
        if memKey ch (k * extBytes) ≤ a ∧ a < memKey ch (k * extBytes) + extBytes then some 0 else s.memAt a := by
      rw [hu, State.engineBytes_memAt]
      exact State.poisonExt_guarded hk hremap a
    refine ⟨fun o ho => ?_, fun a ha => ?_⟩
    · refine (hat _).trans (if_pos ?_)
      unfold memKey
      omega
    · exact (hat _).trans (if_neg (by omega))

/-! ### Initialisation (R369) -/

/-- Only the surface manager's records, counters, fields and events have changed. -/
def State.rehoused (s t : State) : Prop := t = { s with sm := t.sm, regs := t.regs, evts := t.evts, meas := t.meas }

theorem State.rehoused.trans {s t u : State} (h : s.rehoused t) (k : t.rehoused u) : s.rehoused u := by
  unfold State.rehoused at *
  rw [k, h]

theorem State.rehoused_foldl {α : Type} {f : State → α → State} (hf : ∀ u a, State.rehoused u (f u a)) (l : List α) (s : State) :
    s.rehoused (l.foldl f s) :=
  foldl_keeps s.rehoused f (fun u a h => h.trans (hf u a)) l s rfl

theorem State.rehoused_poolUpdate (s : State) (n : Nat) : s.rehoused (s.poolUpdate n) := by
  unfold State.poolUpdate
  split
  · rfl
  · extract_lets free was on now sm v w
    have h : s.rehoused w := rfl
    refine h.trans (State.rehoused_foldl (fun u k => ?_) _ _)
    split <;> rfl

theorem State.rehoused_takeMove {s t : State} {d kind k : Nat} {l : List Nat} (h : s.takeMove d kind k = some (l, t)) : s.rehoused t := by
  unfold State.takeMove at h
  extract_lets sp a pools all b at h
  split at h
  · exact absurd h (by simp)
  · obtain ⟨-, rfl⟩ : a ++ b.map (·.1) = l ∧ _ = t := by simpa using h
    refine State.rehoused.trans ?_ (State.rehoused_foldl State.rehoused_poolUpdate _ _)
    refine State.rehoused.trans ?_ (show State.rehoused _ (State.count _ _) from rfl)
    refine State.rehoused.trans ?_ (State.rehoused_foldl (fun u e => ?_) _ _) <;> rfl

theorem State.rehoused_laneMoved (s : State) (set l d : Nat) (main comp : List Nat) : s.rehoused (s.laneMoved set l d main comp) := by
  unfold State.laneMoved
  extract_lets src sm v
  have h : s.rehoused v := rfl
  refine h.trans (State.rehoused_foldl (fun u r => ?_) _ _)
  rfl

theorem State.rehoused_rehomeReserve (s : State) : s.rehoused s.rehomeReserve := by
  unfold State.rehomeReserve
  refine State.rehoused_foldl (fun u ch => ?_) _ _
  split
  · rfl
  · refine State.rehoused_foldl (fun v l => ?_) _ _
    split
    · rfl
    · extract_lets m
      split
      · rfl
      · next d _ _ e w htake =>
        have hset : w.rehoused (w.setMove m) := rfl
        exact ((State.rehoused_takeMove htake).trans hset).trans (State.rehoused_laneMoved _ _ _ _ _ _)

theorem State.rehoused_initHome (s : State) (r : RegionRec) : s.rehoused (s.initHome r) := by
  unfold State.initHome
  split
  · exact s.rehoused_rehomeReserve
  · rfl

theorem State.initHome_region {s : State} {r : RegionRec} (h : r.region ≠ 64) : s.initHome r = s := if_neg fun hr => h hr.1

theorem State.written_zeroUnit (s : State) (r : RegionRec) (u cls : Nat) : s.written (s.zeroUnit r u cls) := by
  unfold State.zeroUnit
  extract_lets one
  have hone (v : State) (p : At) (c : Nat) : v.written (one v p c) := by
    simp only [one]
    split
    · exact ((v.filled_cellsFill _ _).trans (State.filled_cellsFill _ _ _)).written.trans (State.written_engineBytes _ _ _ _)
    · exact v.written_refl
  clear_value one
  refine State.written_foldl (fun v t => ?_) _ _
  extract_lets w
  have h : v.written w := hone _ _ _
  clear_value w
  split
  · exact h.trans (hone _ _ _)
  · exact h

/-- What a unit's end changes besides the record of units. -/
theorem State.markUnit_only (s : State) (r : RegionRec) (u : Nat) :
    s.markUnit r u = { s with integ := (s.markUnit r u).integ, regs := (s.markUnit r u).regs, bitsNow := (s.markUnit r u).bitsNow,
                              evts := (s.markUnit r u).evts } := by
  unfold State.markUnit
  extract_lets mine a v
  split <;> rfl

/-- The record of units after unit `u` of region `r` is done. -/
theorem State.markUnit_integ (s : State) (r : RegionRec) (u : Nat) :
    ∃ (n : Nat) (l : List Nat), (s.markUnit r u).integ = { s.integ with
        initDone := Tab.insert r.region n s.integ.initDone
        initOut := (s.integ.initOut.filter fun e => e.1 != r.region) ++ l.map fun k => (r.region, k) } ∧
      ∀ j, j = u ∨ j < Tab.get 0 s.integ.initDone r.region ∨ (r.region, j) ∈ s.integ.initOut → j < n ∨ j ∈ l := by
  obtain ⟨mine, hmine⟩ : ∃ mine, mine = (s.integ.initOut.filter fun e => e.1 == r.region).map (·.2) := ⟨_, rfl⟩
  refine ⟨(advance (mine.length + 2) (Tab.get 0 s.integ.initDone r.region) (sortedInsert u mine)).1,
    (advance (mine.length + 2) (Tab.get 0 s.integ.initDone r.region) (sortedInsert u mine)).2, ?_, fun j hj => advance_done _ _ _ ?_⟩
  · unfold State.markUnit
    dsimp only
    rw [← hmine]
    split <;> rfl
  · rw [mem_sortedInsert]
    rcases hj with hj | hj | hj
    · exact .inr (.inl hj)
    · exact .inl hj
    · refine .inr (.inr ?_)
      rw [hmine]
      exact List.mem_map.mpr ⟨_, List.mem_filter.mpr ⟨hj, by simp⟩, rfl⟩

theorem State.unitReady_iff (s : State) (r o : Nat) :
    s.unitReady r o = true ↔ o / chunkBytes < Tab.get 0 s.integ.initDone r ∨ (r, o / chunkBytes) ∈ s.integ.initOut := by
  unfold State.unitReady
  simp

/-- Unit `u` is ready then, what was ready stays so, and other regions stay as they are. -/
theorem State.markUnit_ready (s : State) (r : RegionRec) (u : Nat) :
    (s.markUnit r u).unitReady r.region (u * chunkBytes) = true ∧
      (∀ j o, s.unitReady j o = true → (s.markUnit r u).unitReady j o = true) ∧
      ∀ j o, j ≠ r.region → (s.markUnit r u).unitReady j o = s.unitReady j o := by
  obtain ⟨n, l, hinteg, hdone⟩ := s.markUnit_integ r u
  have hself (o : Nat) : (s.markUnit r u).unitReady r.region o = true ↔ o / chunkBytes < n ∨ o / chunkBytes ∈ l := by
    rw [State.unitReady_iff, hinteg]
    simp
  have hother (j o : Nat) (h : j ≠ r.region) : (s.markUnit r u).unitReady j o = s.unitReady j o := by
    rw [Bool.eq_iff_iff, State.unitReady_iff, State.unitReady_iff, hinteg]
    dsimp only
    rw [Tab.get_insert_ne h, List.mem_append, List.mem_filter, List.mem_map]
    simp [h, Ne.symm h]
  refine ⟨?_, fun j o ho => ?_, hother⟩
  · rw [hself]
    refine hdone _ (.inl ?_)
    unfold chunkBytes
    omega
  · by_cases hj : j = r.region
    · subst hj
      rw [hself]
      exact hdone _ (.inr ((s.unitReady_iff _ _).mp ho))
    · rw [hother j o hj]
      exact ho

/-- A unit of a GUARDED region, or of the reserve, is initialised. -/
theorem unitInitialised {s s' : State} {i k : Nat} {q : RegionRec} {run : Nat × Nat} (hpower : s.power.st = 0)
    (hq : (s.guardedRegions.find? fun r => r.region == i) = some q) (hdawn : s.dawning = false) (hnext : s.unitNext q k = true) (hs' : s' = s.initHome q)
    (hrun : run = (s.unitWaiter q k).getD (15, 0)) (hfree : s'.routesFree (s'.unitRoutes q k) run.1 run.2 = true) :
    Runs (.initUnitWrite i k) s fun t =>
      t.unitReady i (k * chunkBytes) = true ∧ (∀ j o, s.unitReady j o = true → t.unitReady j o = true) ∧
      (∀ j o, j ≠ i → t.unitReady j o = s.unitReady j o) ∧ t.conf = s.conf ∧ t.sm = s'.sm ∧
      (∀ d, t.chan d = { s.chan d with bytesCur := (t.chan d).bytesCur, sendLeft := (t.chan d).sendLeft, remap := (t.chan d).remap }) ∧
      (i ≠ 64 → t = { s with mem := t.mem, chans := t.chans, integ := t.integ, regs := t.regs, bitsNow := t.bitsNow, evts := t.evts, meas := t.meas }) := by
  have hregion : q.region = i := by simpa using List.find?_some hq
  have hhome : s.rehoused s' := hs' ▸ s.rehoused_initHome q
  obtain ⟨u, o, hu, hexec⟩ : ∃ (u : State) (o : Occ), s'.written u ∧ exec (.initUnitWrite i k) s = .next ((u.count o).markUnit q k) := by
    have hexec : exec (.initUnitWrite i k) s = execInitUnitWrite i k s := rfl
    unfold execInitUnitWrite at hexec
    rw [hq] at hexec
    dsimp only at hexec
    rw [← hrun, ← hs', if_neg (by rw [hdawn, hnext, hfree]; simp [hpower])] at hexec
    exact ⟨_, _, s'.written_zeroUnit q k run.1, hexec⟩
  obtain ⟨v, hv⟩ : ∃ v, v = u.count o := ⟨_, rfl⟩
  rw [← hv] at hexec
  have hwritten : s'.written v := hv ▸ hu.trans ⟨rfl, fun _ => rfl⟩
  have hready (j o : Nat) : v.unitReady j o = s.unitReady j o := by
    unfold State.unitReady
    rw [hwritten.frame, hhome]
  have hmark := v.markUnit_only q k
  obtain ⟨h1, h2, h3⟩ := v.markUnit_ready q k
  rw [hregion] at h1 h3
  refine ⟨_, hexec, ?_⟩
  dsimp only
  generalize v.markUnit q k = t at hmark h1 h2 h3 ⊢
  refine ⟨h1, fun j o ho => h2 j o (by rw [hready]; exact ho), fun j o hj => (h3 j o hj).trans (hready j o), ?_, ?_, fun d => ?_, fun hi => ?_⟩
  · rw [hmark, hwritten.frame, hhome]
  · rw [hmark, hwritten.frame]
  · have hd : t.chan d = v.chan d := by rw [hmark]; rfl
    rw [hd, hwritten.chan]
    have hd' : s'.chan d = s.chan d := by rw [hhome]; rfl
    rw [hd']
  · have hsame : s' = s := hs'.trans (State.initHome_region (hregion ▸ hi))
    rw [hmark, hwritten.frame, hsame]

end Sys2Proof.Machine
end

section
/-! A freed surface's extents return, and a force free (R177, R192 to R194), with the obligation on storage. -/

namespace Sys2Proof.Machine
open Sys2Proof

/-! ### Pools of extents (R188) -/

/-- Only the pools, the spare extents and a move that had given way have changed, with fields, events and counters. -/
def State.pooled (s t : State) : Prop :=
  t = { s with
    regs := t.regs, evts := t.evts, meas := t.meas
    sm := { s.sm with poolFree := t.sm.poolFree, spare := t.sm.spare, poolIn := t.sm.poolIn, due := t.sm.due, parked := t.sm.parked } }

theorem State.pooled.trans {s t u : State} (h : s.pooled t) (k : t.pooled u) : s.pooled u := by
  unfold State.pooled at *
  rw [k, h]

theorem State.pooled_foldl {α : Type} {f : State → α → State} (hf : ∀ u a, State.pooled u (f u a)) (l : List α) (s : State) : s.pooled (l.foldl f s) :=
  foldl_keeps s.pooled f (fun u a h => h.trans (hf u a)) l s rfl

theorem State.pooled_retryDue (s : State) (f : PoolRec → Bool) : s.pooled (s.retryDue f) := by
  unfold State.pooled
  rw [State.retryDue_only]

theorem State.pooled_poolUpdate (s : State) (n : Nat) : s.pooled (s.poolUpdate n) := by
  unfold State.poolUpdate
  split
  · rfl
  · extract_lets free was on now sm v w
    have h : s.pooled w := rfl
    refine h.trans (State.pooled_foldl (fun u k => ?_) _ _)
    split <;> rfl

theorem State.pooled_givePool (s : State) (n ch : Nat) (l : List Nat) : s.pooled (s.givePool n ch l) := by
  unfold State.givePool
  split
  · rfl
  · extract_lets t
    have hput : s.pooled { s with sm := { s.sm with poolFree := Tab.insert (n * 32 + ch) t s.sm.poolFree } } := rfl
    exact (hput.trans (State.pooled_retryDue _ _)).trans rfl

theorem State.pooled_giveBack (s : State) (m : Move) (l : List Nat) : s.pooled (s.giveBack m l) := by
  refine State.pooled_foldl (fun u x => ?_) _ _
  split
  · exact (u.pooled_givePool _ _ _).trans (State.pooled_poolUpdate _ _)
  · rfl

theorem State.pooled_unpark (s : State) (i : Nat) : s.pooled (s.unpark i) := by
  unfold State.unpark
  extract_lets m t
  split
  · exact (s.pooled_giveBack m _).trans rfl
  · rfl

/-- A return of extents to a pool. -/
theorem State.givePool_freeIn (s : State) (n ch : Nat) (l : List Nat) :
    (∀ e ∈ l, e ∈ (s.givePool n ch l).freeIn n ch) ∧ ∀ m c, ∀ e ∈ s.freeIn m c, e ∈ (s.givePool n ch l).freeIn m c := by
  have hins : ∀ (l t : List Nat) (e : Nat), e ∈ l ∨ e ∈ t → e ∈ l.foldl (fun t x => sortedInsert x t) t := by
    intro l
    induction l with
    | nil => exact fun t e h => h.resolve_left (by simp)
    | cons a l ih =>
      intro t e h
      refine ih _ e ?_
      rw [mem_sortedInsert]
      rcases h with h | h
      · rcases List.mem_cons.mp h with h | h
        · exact .inr (.inl h)
        · exact .inl h
      · exact .inr (.inr h)
  unfold State.givePool
  split
  · next h =>
    rw [List.isEmpty_iff.mp h]
    exact ⟨fun e he => absurd he (by simp), fun _ _ _ h => h⟩
  · extract_lets t
    have hfree (m c : Nat) : ((({ s with sm := { s.sm with poolFree := Tab.insert (n * 32 + ch) t s.sm.poolFree } } : State).retryDue
        fun r => r.pool == n).count { ev := 0x078, n := l.length }).freeIn m c = Tab.get [] (Tab.insert (n * 32 + ch) t s.sm.poolFree) (m * 32 + c) := by
      rw [State.retryDue_only]
      rfl
    refine ⟨fun e he => ?_, fun m c e he => ?_⟩
    · rw [hfree, Tab.get_insert_self]
      exact hins _ _ _ (.inl he)
    · rw [hfree]
      by_cases hkey : m * 32 + c = n * 32 + ch
      · have hsame : s.freeIn m c = s.freeIn n ch := congrArg (Tab.get [] s.sm.poolFree) hkey
        rw [hkey, Tab.get_insert_self]
        exact hins _ _ _ (.inr (hsame ▸ he))
      · rw [Tab.get_insert_ne hkey]
        exact he

/-- The extents of every position return to the pool. -/
theorem State.givePools_freeIn (n : Nat) : ∀ (l : List Pos) (s : State),
    (∀ p ∈ l, ∀ e ∈ p.exts ++ p.comps, e ∈ (l.foldl (fun (s : State) (p : Pos) => s.givePool n p.ch (p.exts ++ p.comps)) s).freeIn n p.ch) ∧
      ∀ m c, ∀ e ∈ s.freeIn m c, e ∈ (l.foldl (fun (s : State) (p : Pos) => s.givePool n p.ch (p.exts ++ p.comps)) s).freeIn m c
  | [], s => ⟨fun p hp => absurd hp (by simp), fun _ _ _ h => h⟩
  | q :: l, s => by
    obtain ⟨h1, h2⟩ := s.givePool_freeIn n q.ch (q.exts ++ q.comps)
    obtain ⟨k1, k2⟩ := State.givePools_freeIn n l (s.givePool n q.ch (q.exts ++ q.comps))
    refine ⟨fun p hp e he => ?_, fun m c e he => k2 m c e (h2 m c e he)⟩
    rcases List.mem_cons.mp hp with rfl | hp
    · exact k2 _ _ e (h1 e he)
    · exact k1 p hp e he

theorem State.poolUpdate_poolFree (s : State) (n : Nat) : (s.poolUpdate n).sm.poolFree = s.sm.poolFree := by
  unfold State.poolUpdate
  split
  · rfl
  · extract_lets free was on now sm v w
    refine foldl_keeps (fun u : State => u.sm.poolFree = s.sm.poolFree) _ (fun u k h => ?_) _ w rfl
    split
    · exact h
    · exact h

/-! ### The extents of a freed surface (R192) -/

/-- Only extents that wait for the marking of lost contents have gone. -/
structure State.unlost (s t : State) : Prop where
  frame : t = { s with chans := t.chans }
  chan : ∀ d, t.chan d = { s.chan d with lossTodo := (t.chan d).lossTodo }

theorem State.unlost_foldl (l : List Pos) (f : State → Pos → List Nat) (s : State) :
    s.unlost (l.foldl (fun (s : State) (p : Pos) => s.setChan p.ch { s.chan p.ch with lossTodo := f s p }) s) := by
  refine foldl_keeps s.unlost _ (fun u p h => ⟨?_, fun d => ?_⟩) l s ⟨rfl, fun _ => rfl⟩
  · unfold State.setChan
    rw [h.frame]
  · by_cases hd : d = p.ch
    · rw [hd, State.setChan_chan_self, h.chan]
    · rw [State.setChan_chan_ne u hd]
      exact h.chan d

/-- The extents of a freed surface that nothing uses return, and its index joins the free list. -/
theorem extentsReturned {s : State} {i : Nat} (hfreed : (s.surf i).freed = true) (hbusy : s.surfBusy i = false) (hmove : s.sm.move.ofSurf i = false) :
    Runs (.extentsReturn i) s fun t =>
      t.surf i = { gen := (s.surf i).gen } ∧ t.sm.freed = s.sm.freed ++ [i] ∧ (∀ j, j ≠ i → t.surf j = s.surf j) ∧
      (∀ p ∈ (s.surf i).pos, ∀ e ∈ p.exts ++ p.comps, e ∈ t.freeIn (s.surf i).pool p.ch) ∧
      t.sm.move = s.sm.move ∧ t.sm.segs = s.sm.segs ∧ t.sm.lanes = s.sm.lanes ∧
      (∀ d, t.chan d = { s.chan d with lossTodo := (t.chan d).lossTodo }) ∧
      t = { s with sm := t.sm, chans := t.chans, regs := t.regs, evts := t.evts, meas := t.meas } := by
  obtain ⟨x, hx⟩ : ∃ x, x = s.surf i := ⟨_, rfl⟩
  have hexec : exec (.extentsReturn i) s = execExtentsReturn i s := rfl
  unfold execExtentsReturn at hexec
  dsimp only at hexec
  rw [if_neg (by rw [hfreed, hbusy, hmove]; simp), ← hx] at hexec
  rw [← hx]
  obtain ⟨a, ha⟩ : ∃ a, a = x.pos.foldl (fun (s : State) (p : Pos) => s.givePool x.pool p.ch (p.exts ++ p.comps)) (s.unpark i) := ⟨_, rfl⟩
  have hgive : s.pooled a := by
    rw [ha]
    exact (s.pooled_unpark i).trans (State.pooled_foldl (fun u p => u.pooled_givePool _ _ _) _ _)
  have hfree : ∀ p ∈ x.pos, ∀ e ∈ p.exts ++ p.comps, e ∈ a.freeIn x.pool p.ch := by
    rw [ha]
    exact (State.givePools_freeIn x.pool x.pos (s.unpark i)).1
  rw [← ha] at hexec
  clear ha
  obtain ⟨b, hb⟩ : ∃ b, b = x.pos.foldl (fun (s : State) (p : Pos) =>
      s.setChan p.ch { s.chan p.ch with lossTodo := (s.chan p.ch).lossTodo.filter fun e => !(p.exts ++ p.comps).contains e }) a := ⟨_, rfl⟩
  have hunlost : a.unlost b := by
    rw [hb]
    exact State.unlost_foldl x.pos (fun s p => (s.chan p.ch).lossTodo.filter fun e => !(p.exts ++ p.comps).contains e) a
  rw [← hb] at hexec
  clear hb
  obtain ⟨c, hc⟩ : ∃ c, c = b.setSurf i { gen := x.gen } := ⟨_, rfl⟩
  rw [← hc] at hexec
  obtain ⟨v, hv⟩ : ∃ v : State, v = { c with sm := { c.sm with freed := c.sm.freed ++ [i] } } := ⟨_, rfl⟩
  rw [← hv] at hexec
  have hupdate := (v.pooled_poolUpdate x.pool).trans (State.pooled_retryDue _ fun _ => true)
  have hpool : ((v.poolUpdate x.pool).retryDue fun _ => true).sm.poolFree = v.sm.poolFree := by
    rw [State.retryDue_only]
    exact v.poolUpdate_poolFree x.pool
  refine ⟨_, hexec, ?_⟩
  dsimp only
  generalize (v.poolUpdate x.pool).retryDue (fun _ => true) = t at hupdate hpool ⊢
  have hbsm : b.sm = a.sm := by rw [hunlost.frame]
  have hvsm : v.sm = { a.sm with surfs := Tab.insert i { gen := x.gen } a.sm.surfs, freed := a.sm.freed ++ [i] } := by
    rw [hv, hc]
    unfold State.setSurf
    rw [hbsm]
  have hsurfs : t.sm.surfs = Tab.insert i { gen := x.gen } s.sm.surfs := by
    rw [hupdate]
    dsimp only
    rw [hvsm, hgive]
  refine ⟨?_, ?_, fun j hj => ?_, fun p hp e he => ?_, ?_, ?_, ?_, fun d => ?_, ?_⟩
  · unfold State.surf
    rw [hsurfs, Tab.get_insert_self]
  · rw [hupdate]
    dsimp only
    rw [hvsm, hgive]
  · unfold State.surf
    rw [hsurfs, Tab.get_insert_ne hj]
  · have hin := hfree p hp e he
    unfold State.freeIn at hin ⊢
    rw [hpool, hvsm]
    exact hin
  · rw [hupdate]
    dsimp only
    rw [hvsm, hgive]
  · rw [hupdate]
    dsimp only
    rw [hvsm, hgive]
  · rw [hupdate]
    dsimp only
    rw [hvsm, hgive]
  · have ht : t.chan d = b.chan d := by
      rw [hupdate, hv, hc]
      rfl
    have hs : a.chan d = s.chan d := by
      rw [hgive]
      rfl
    rw [ht, hunlost.chan, hs]
  · unfold State.pooled at hupdate hgive
    have hframe := hunlost.frame
    rw [hupdate, hv, hc]
    unfold State.setSurf
    rw [hframe, hgive]

end Sys2Proof.Machine
end

section
/-! A force free (R177, R192 to R194), and the obligation on storage. -/

namespace Sys2Proof.Machine
open Sys2Proof

/-- A force free that comes alone is applied in its cycle. -/
theorem State.smCycle_force {s : State} (h : s.sm.inbox = []) (w : Nat) : (s.smArrive 8 (.force w)).smCycle = s.forceFree w := by
  have hnext : (s.smArrive 8 (.force w)).smNext = some { at_ := s.cclk, slice := 8, act := .force w } := by
    unfold State.smNext State.smArrive
    rw [h]
    rfl
  have hinbox : (s.smArrive 8 (.force w)).sm.inbox.erase { at_ := s.cclk, slice := 8, act := .force w } = s.sm.inbox := by
    unfold State.smArrive
    rw [h]
    exact List.erase_cons_head ..
  unfold State.smCycle
  rw [hnext]
  dsimp only
  rw [if_neg (by simp [SmItem.isCreate])]
  unfold State.smApply
  dsimp only
  rw [hinbox]
  rfl

/-- A force free's outcome is noted. -/
def State.freeNoted (s : State) (code : Nat) : State :=
  ((s.wr R.SM_FORCE_STATUS_RESULT 0 0 code).setBit R.SM_FORCE_STATUS_FORCE_DONE 0 0).raise 6 13

theorem State.freeNoted_rd (s : State) {code : Nat} (h : code < 2 ^ R.SM_FORCE_STATUS_RESULT.width) :
    (s.freeNoted code).rd R.SM_FORCE_STATUS_RESULT = code ∧ (s.freeNoted code).rd R.SM_FORCE_STATUS_FORCE_DONE = 1 := by
  unfold State.freeNoted
  rw [State.raise_rd, State.raise_rd]
  refine ⟨?_, (State.setBit_rd_self ..).trans (by decide)⟩
  refine (State.setBit_regsKept _ R.SM_FORCE_STATUS_FORCE_DONE 0 0 R.SM_FORCE_STATUS_RESULT 0 0 (by decide)).trans ?_
  exact (State.wr_rd_self ..).trans (Nat.mod_eq_of_lt h)

theorem State.freeNoted_only (s : State) (code : Nat) :
    s.freeNoted code = { s with regs := (s.freeNoted code).regs, bitsNow := (s.freeNoted code).bitsNow, evts := (s.freeNoted code).evts } ∧
      s.regsKept (s.freeNoted code) [⟨R.SM_FORCE_STATUS_RESULT, 0, 0⟩, ⟨R.SM_FORCE_STATUS_FORCE_DONE, 0, 0⟩] := by
  refine ⟨rfl, ?_⟩
  unfold State.freeNoted
  exact State.regsKept_congr (State.regsKept_trans (s.wr_regsKept _ 0 0 code) (State.setBit_regsKept _ _ 0 0)) rfl rfl

theorem State.freeNoted_sm (s : State) (code : Nat) : (s.freeNoted code).sm = s.sm := rfl

theorem State.forceFree_ok {s : State} {w : Nat} (h : s.handleOk (bits w 0 24) = true) : s.forceFree w = (s.freeSurf (bits w 0 16)).freeNoted 0 := by
  unfold State.forceFree
  dsimp only
  rw [if_pos h, if_pos h]
  rfl

theorem State.forceFree_bad {s : State} {w : Nat} (h : s.handleOk (bits w 0 24) = false) : s.forceFree w = s.freeNoted 4 := by
  unfold State.forceFree
  dsimp only
  rw [h]
  rfl

/-- A surface's record as it is freed. -/
def Surf.freedNow (x : Surf) : Surf := { x with live := false, freed := true, holders := [], gen := if x.gen = 255 then 1 else x.gen + 1 }

/-- Freeing a surface changes its record, and leaves what waits before the surface manager. -/
theorem State.freeSurf_surf (s : State) (i : Nat) :
    (s.freeSurf i).surf i = (s.surf i).freedNow ∧ (∀ j, j ≠ i → (s.freeSurf i).surf j = s.surf j) ∧ (s.freeSurf i).sm.inbox = s.sm.inbox := by
  unfold State.freeSurf
  extract_lets x a sm b
  have hsm : ((b.dropFreed i).count { ev := 0x075 }).sm = b.sm := by
    rw [(b.dropFreed_only i).1]
    rfl
  have hb (j : Nat) : b.surf j = a.surf j := rfl
  rw [State.surf_congr hsm, hb, hsm]
  refine ⟨State.setSurf_surf_self .., fun j hj => ?_, rfl⟩
  rw [State.surf_congr hsm, hb]
  exact State.setSurf_surf_ne s hj _

/-- A force free reaches the surface manager in its cycle. -/
theorem forceFreed {s : State} {w : Word} {tgt : Nat} (hopen : s.portOpen) :
    Runs (.forceFree w tgt) s fun t =>
      t = { s with sm := { s.sm with inbox := s.sm.inbox ++ [{ at_ := s.cclk, slice := 8, act := .force (w ||| 0x80000000).toNat }] } } ∧
      (s.sm.inbox = [] →
        (s.handleOk (bits w.toNat 0 24) = true →
          t.smCycle.surf (bits w.toNat 0 16) = { s.surf (bits w.toNat 0 16) with
            live := false, freed := true, holders := []
            gen := if (s.surf (bits w.toNat 0 16)).gen = 255 then 1 else (s.surf (bits w.toNat 0 16)).gen + 1 } ∧
          t.smCycle.rd R.SM_FORCE_STATUS_RESULT = 0 ∧ t.smCycle.rd R.SM_FORCE_STATUS_FORCE_DONE = 1 ∧ t.smCycle.sm.inbox = [] ∧
          ∀ j, j ≠ bits w.toNat 0 16 → t.smCycle.surf j = s.surf j) ∧
        (s.handleOk (bits w.toNat 0 24) = false →
          t.smCycle.rd R.SM_FORCE_STATUS_RESULT = 4 ∧ t.smCycle.rd R.SM_FORCE_STATUS_FORCE_DONE = 1 ∧
          t.smCycle = { s with regs := t.smCycle.regs, bitsNow := t.smCycle.bitsNow, evts := t.smCycle.evts } ∧
          s.regsKept t.smCycle [⟨R.SM_FORCE_STATUS_RESULT, 0, 0⟩, ⟨R.SM_FORCE_STATUS_FORCE_DONE, 0, 0⟩])) := by
  obtain ⟨v, hv⟩ : ∃ v, v = (w ||| 0x80000000).toNat := ⟨_, rfl⟩
  have hhandle : bits v 0 24 = bits w.toNat 0 24 := hv ▸ bits_or_of_clear w 0x80000000 (by decide)
  have hindex : bits v 0 16 = bits w.toNat 0 16 := hv ▸ bits_or_of_clear w 0x80000000 (by decide)
  have hbit : bit v 31 = true := hv ▸ bit_or_self w 0x80000000 (by decide)
  have hexec : exec (.forceFree w tgt) s = .next (s.smArrive 8 (.force v)) := by
    change execForceFree w tgt s = _
    unfold execForceFree
    rw [State.regAccess_open hopen, ← hv]
    unfold State.writeSmForce
    rw [if_pos hbit]
  refine ⟨_, hexec, ?_⟩
  dsimp only
  rw [← hv]
  refine ⟨rfl, fun hinbox => ⟨fun hok => ?_, fun hbad => ?_⟩⟩
  · rw [← hhandle] at hok
    rw [State.smCycle_force hinbox, State.forceFree_ok hok, hindex]
    obtain ⟨hself, hother, hwaits⟩ := s.freeSurf_surf (bits w.toNat 0 16)
    obtain ⟨hcode, hdone⟩ := (s.freeSurf (bits w.toNat 0 16)).freeNoted_rd (code := 0) (by decide)
    generalize s.freeSurf (bits w.toNat 0 16) = u at hself hother hwaits hcode hdone ⊢
    refine ⟨(State.surf_congr (u.freeNoted_sm 0) _).trans hself, hcode, hdone, ?_, fun j hj => (State.surf_congr (u.freeNoted_sm 0) j).trans (hother j hj)⟩
    rw [State.freeNoted_sm, hwaits, hinbox]
  · rw [← hhandle] at hbad
    rw [State.smCycle_force hinbox, State.forceFree_bad hbad]
    obtain ⟨hcode, hdone⟩ := s.freeNoted_rd (code := 4) (by decide)
    obtain ⟨hframe, hkept⟩ := s.freeNoted_only 4
    exact ⟨hcode, hdone, hframe, hkept⟩

end Sys2Proof.Machine

open Sys2Proof Sys2Proof.Machine

/-- Settles O53: preparation, the return of extents, a force free, the marking of lost contents and initialisation, each by its lemma. -/
theorem storage : Obligations.Storage := by
  unfold Obligations.Storage
  intro s i k hpower
  refine ⟨?_, extentsReturned, fun w tgt => forceFreed, ?_, ?_⟩
  · intro run hrun hlive hprep hcount hready hnext hfree
    exact tilePrepared hpower hrun hlive hprep hcount hready hnext hfree
  · intro ch hlost hin hfree
    exact contentLost hpower hlost hin hfree
  · intro q s' run hq hdawn hnext hs' hrun hfree
    exact unitInitialised hpower hq hdawn hnext hs' hrun hfree

end
